-- ==== Sys2Proof/Word.lean ====
section
/-! DEFINITION. The word types of spec/00_scope.md R2 and the sparse map that every table of the machine is held in. -/

namespace Sys2Proof

/-- 8 bits (R2). -/
abbrev Byte := BitVec 8
/-- 16 bits (R2). -/
abbrev Half := BitVec 16
/-- 32 bits (R2). -/
abbrev Word := BitVec 32
/-- 64 bits (R2). -/
abbrev Dword := BitVec 64

/-- A table with few entries in use: key and value pairs, keys strictly rising. -/
abbrev Map (α : Type) := List (Nat × α)

end Sys2Proof
end

