-- ==== Sys2Proof/Config.lean ====
section
/-! DEFINITION. What the spec leaves open and the package fixes: free values, of which nothing is known. -/

namespace Sys2Proof.Config

/-- A 32-bit value that the spec does not state, the n-th that a run meets (log entry 4). -/
opaque freeWord : Nat → Word

/-- The identity public key of the part behind its OID: root and seed (spec/21 R451). -/
opaque identityKey : List Byte

/-- What follows the index in the signature with that index of the identity key of a byte string (spec/21 R449, R451; the scheme is outside the
spec). -/
opaque signature : Nat → List Byte → List Byte

/-- The bytes of the spare map, from how many spares of each pool are used (spec/21 R447; log entry 133). -/
opaque spareMap : List (Nat × Nat) → List Byte

/-- What the bytes of a firmware image say, as doublewords by number: version, root section, service section, signature (spec/21 R448; log
entry 133). -/
opaque imageOf : List (Nat × Dword) → Nat × List Byte × List Byte × List Byte

/-- The number of this package as an endpoint of the fabric, which its service firmware sets (spec/19 R413; log entry 99). -/
opaque ownEndpoint : Byte

/-- A time of the device's own that the spec bounds and does not state: by what it is for and at which moment (log entry 132). -/
opaque duration : Nat → Nat → Nat

end Sys2Proof.Config
end

