-- ==== Sys2Proof/Syntax/Forms.lean ====
section
/-! DEFINITION. The field records of the instruction forms (spec/05_encoding.md R109 to R121) and the data that a step
which is no instruction brings with it from outside the package. -/

namespace Sys2Proof

/-- H form (R109): the operation and bit 0 are the constructor's. -/
structure HForm where
  b : BitVec 5
  a : BitVec 5
  e : Bool
deriving DecidableEq, Repr

/-- W form (R112). -/
structure WForm where
  s2 : BitVec 6
  s1 : BitVec 6
  d : BitVec 6
  p : BitVec 3
  cue : BitVec 2
deriving DecidableEq, Repr

/-- W form, immediate variant (R112). -/
structure WImmForm where
  imm : BitVec 6
  s1 : BitVec 6
  d : BitVec 6
  p : BitVec 3
  cue : BitVec 2
deriving DecidableEq, Repr

/-- WI form (R112). -/
structure WIForm where
  imm : BitVec 12
  d : BitVec 6
  p : BitVec 3
  cue : BitVec 2
deriving DecidableEq, Repr

/-- D form (R116, R117). -/
structure DForm where
  mod : BitVec 10
  s3lk : BitVec 2
  s3 : Byte
  s2lk : BitVec 2
  s2 : Byte
  s1lk : BitVec 2
  s1 : Byte
  d : Byte
  neg : Bool
  p : BitVec 3
  cue : BitVec 2
deriving DecidableEq, Repr

/-- DP form (R116, R117). -/
structure DPForm where
  mod : BitVec 4
  s2amt : BitVec 5
  s2pat : BitVec 3
  s2lk : BitVec 2
  s2 : Byte
  s1amt : BitVec 5
  s1pat : BitVec 3
  s1lk : BitVec 2
  s1 : Byte
  d : Byte
  neg : Bool
  p : BitVec 3
  cue : BitVec 2
deriving DecidableEq, Repr

/-- DI form (R116, R117). -/
structure DIForm where
  imm : Word
  s1 : Byte
  d : Byte
  neg : Bool
  p : BitVec 3
  cue : BitVec 2
deriving DecidableEq, Repr

/-- DM form (R116, R117). -/
structure DMForm where
  offset : BitVec 9
  cache : BitVec 2
  order : BitVec 3
  scope : BitVec 4
  type : BitVec 4
  index : Byte
  blk : BitVec 2
  base : Byte
  d : Byte
  neg : Bool
  p : BitVec 3
  cue : BitVec 2
deriving DecidableEq, Repr

/-- What the ECC of an HBM sector finds when an MSE reads it: no symbol wrong, one, two, or more (R84, R439). -/
inductive Ecc where
  | clean | corrected | two | uncorrectable
deriving DecidableEq, Repr

/-- What an operation that left the package brings back (R206, R218, R409, R410, R412, R413, R415).
`home` stands for an operation performed inside the package, whose result the operation itself holds. -/
inductive Reply where
  | home
  | value (v : Dword) (flags : BitVec 5)
  | fail (code : Byte)
deriving DecidableEq, Repr

/-- What a pod peer or an endpoint does with a thread that is sent to it (spec/10 R272, R276, spec/19 R410). -/
inductive Admission where
  | admitted | refused | failed (code : Byte)
deriving DecidableEq, Repr

/-- A host's answer to an ATS Translation Request (R397). -/
inductive AtsAnswer where
  | granted (r w : Bool) (page sizeLog2 : Nat) (untranslated : Bool)
  | unsupported
  | abort
deriving DecidableEq, Repr

/-- A PRG Response code (R398). -/
inductive PrgCode where
  | success | invalid | failure
deriving DecidableEq, Repr

/-- An atomic of another package: the operation by number (log entry 5), its type code, its address, X and C. -/
structure PeerAtomic where
  op : Nat
  type : Nat
  pa : Nat
  x : Dword
  c : Dword
deriving DecidableEq, Repr

/-- A request that arrives from another package (R410): the operation its MSE is to apply, the JOB it carries, and
its sender. `batch` is the atomics of one instruction, in ascending tid (R71); `wait` has a word of this package watched (R238) and `waitEnd` ends
that. `txAbort` says that the sender's transaction has failed (R196), `txAck` that the reply of a commit has come, and `txAgain` is the end of the time
for that (R419). `ack` acknowledges a notice of this package, `again` is the end of the time for that (R278). -/
inductive PeerOp where
  | load (pa bytes : Nat)
  | store (pa bytes : Nat) (v : Dword)
  | atomic (op type pa : Nat) (x c : Dword)
  | packet (op sub len : Nat) (pa : Nat) (a c : Dword) (b : Word)
  | spawn (pc : Dword) (cluster : Nat) (tid : Word) (args : List (Bool × Word)) (trig : Bool) (prio act ctx : Nat)
  | migrate (pc : Dword) (cluster act ctx : Nat) (tid : Word) (fscope : BitVec 4)
      (regs : List (Nat × Bool × Word)) (dead : BitVec 16) (preds : List (Bool × Bool × Word)) (tsw : Word) (trig : Bool)
  | txPacket (txn : Nat) (op sub len : Nat) (pa : Nat) (a c : Dword) (b : Word) (tok : Option Word)
  | txCommit (txn : Nat)
  | batch (l : List PeerAtomic)
  | wait (id pa cond : Nat) (cmp : Word)
  | waitEnd (id : Nat)
  | txAbort (txn : Nat)
  | txAck (txn : Nat)
  | txAgain (txn : Nat)
  | ack (notice : Nat)
  | again (notice : Nat)
deriving DecidableEq, Repr

/-- An inbound request with what the transport carries (R410, R413), and the edge port group over which it arrives. -/
structure PeerReq where
  src : Nat
  job : BitVec 16
  op : PeerOp
  eg : Nat := 0
deriving DecidableEq, Repr

/-- How the capability exchange of a personality switch ended (R405, R414 step 5). -/
inductive Exchange where
  | ok (peers : List Nat) (pods : List Nat) (expanders : List Nat)
  | mismatch
  | badRanges
deriving DecidableEq, Repr

/-- What the root finds at boot (R447): whether each section of the image in flash verifies, and the policy that its firmware writes. -/
structure BootIn where
  rootOk : Bool
  egpol : BitVec 16
  serviceOk : Bool
deriving DecidableEq, Repr

/-- A firmware image (R448): its version, its root and service sections and its signature; `good` is whether the root finds the signature to
verify, which the scheme of NIST SP 800-208 decides. -/
structure Image where
  version : Nat
  good : Bool
  root : List Byte := []
  service : List Byte := []
  signature : List Byte := []
deriving DecidableEq, Repr

/-- The engines of R432, with the number that UNIT gives them. -/
inductive EngineKind where
  | slots | access | matrix | copy | mse | banks | gate | host | edge
deriving DecidableEq, Repr

/-- The owner of a watchdog counter (R435): a thread, an access slice or a matrix queue. -/
inductive WatchOwner where
  | thread (key : Nat) | slice (group : Nat) | matrix (group : Nat)
deriving DecidableEq, Repr

/-- The management registers written by the row REGISTER_WRITE (R6): those without a step of their own; a doubleword of BAR0's reserved range and
of its recovery window (R396, R448), and the host's Outstanding Page Request Allocation (R396). -/
inductive MgmtReg where
  | cbstat | ctxctl | ctxstat | ctxmsx | ctxsave | ctxpt | ctxinvs | ctxpod | ctxfr | ctxfrp | ctxvec | ctxcur | ctxstop | ctxwd
  | ctxdbg | ctxdbgd | rowcong | diecong | egctl | egstat | eguse | egcxlr | egpol | podctl | podrt | fabep | fabaddr
  | relr | relrp | relvec | repctl | attnonce | attcmd
  | cbctl | cbpost | partmap | ctxmode | ctxcmd | ctxinv | frameown | ctxpgdone | repcmd | pwrctl
  | reserved | recovery | prgAlloc
deriving DecidableEq, Repr

end Sys2Proof
end

