-- ==== Sys2Proof/Syntax.lean ====
section
/-! DEFINITION. The steps of the part, one constructor per row of spec/opcode_table.json: the instructions a warp or an
access slice issues (rows 0 to 256) and the steps of the other agents (rows 257 to 371). -/

namespace Sys2Proof

/-- One step of the part. An instruction carries the fields of its form; any other step names the agent, queue entry or
register it concerns and what comes with it from outside. -/
inductive Instr where
  /-- MOV_H: H-form move a := b. (R111) -/
  | movH (f : HForm)
  /-- IADD_H: H-form wrapping add a := a + b. (R111) -/
  | iaddH (f : HForm)
  /-- ISUB_H: H-form wrapping subtract a := a - b. (R111) -/
  | isubH (f : HForm)
  /-- IMUL_H: H-form multiply keeping the low 32 bits. (R111) -/
  | imulH (f : HForm)
  /-- AND_H: H-form bitwise AND. (R111) -/
  | andH (f : HForm)
  /-- OR_H: H-form bitwise OR. (R111) -/
  | orH (f : HForm)
  /-- XOR_H: H-form bitwise XOR. (R111) -/
  | xorH (f : HForm)
  /-- SHL_H: H-form shift left. (R111) -/
  | shlH (f : HForm)
  /-- SHR_H: H-form logical shift right. (R111) -/
  | shrH (f : HForm)
  /-- SAR_H: H-form arithmetic shift right. (R111) -/
  | sarH (f : HForm)
  /-- IMIN_H: H-form signed minimum. (R111) -/
  | iminH (f : HForm)
  /-- IMAX_H: H-form signed maximum. (R111) -/
  | imaxH (f : HForm)
  /-- FADD_H: H-form FP32 add at nearest-even. (R111) -/
  | faddH (f : HForm)
  /-- FMUL_H: H-form FP32 multiply at nearest-even. (R111) -/
  | fmulH (f : HForm)
  /-- FMAX_H: H-form FP32 maximum. (R111) -/
  | fmaxH (f : HForm)
  /-- FFMA_H: H-form fused multiply-add a := Round(a + b x l0). (R111) -/
  | ffmaH (f : HForm)
  /-- MOV_W: W-form move d := s1. (R144) -/
  | movW (f : WForm)
  /-- IADD_W: W-form integer add. (R144) -/
  | iaddW (f : WForm)
  /-- ISUB_W: W-form integer subtract. (R144) -/
  | isubW (f : WForm)
  /-- IMUL_W: W-form integer multiply. (R144) -/
  | imulW (f : WForm)
  /-- IMULH_W: W-form signed high multiply. (R144) -/
  | imulhW (f : WForm)
  /-- IMIN_W: W-form signed minimum. (R144) -/
  | iminW (f : WForm)
  /-- IMAX_W: W-form signed maximum. (R144) -/
  | imaxW (f : WForm)
  /-- AND_W: W-form bitwise AND. (R145) -/
  | andW (f : WForm)
  /-- OR_W: W-form bitwise OR. (R145) -/
  | orW (f : WForm)
  /-- XOR_W: W-form bitwise XOR. (R145) -/
  | xorW (f : WForm)
  /-- ANDN_W: W-form s1 AND NOT s2. (R145) -/
  | andnW (f : WForm)
  /-- NOT_W: W-form bitwise NOT. (R145) -/
  | notW (f : WForm)
  /-- SHL_W: W-form shift left. (R145) -/
  | shlW (f : WForm)
  /-- SHR_W: W-form logical shift right. (R145) -/
  | shrW (f : WForm)
  /-- SAR_W: W-form arithmetic shift right. (R145) -/
  | sarW (f : WForm)
  /-- ROT_W: W-form rotate left. (R145) -/
  | rotW (f : WForm)
  /-- POPC_W: W-form population count. (R146) -/
  | popcW (f : WForm)
  /-- CLZ_W: W-form count leading zeros. (R146) -/
  | clzW (f : WForm)
  /-- CTZ_W: W-form count trailing zeros. (R146) -/
  | ctzW (f : WForm)
  /-- BREV_W: W-form bit reverse. (R146) -/
  | brevW (f : WForm)
  /-- INEG_W: W-form integer negate. (R144) -/
  | inegW (f : WForm)
  /-- IABS_W: W-form signed absolute value. (R144) -/
  | iabsW (f : WForm)
  /-- FADD_W: W-form FP32 add. (R149) -/
  | faddW (f : WForm)
  /-- FSUB_W: W-form FP32 subtract. (R149) -/
  | fsubW (f : WForm)
  /-- FMUL_W: W-form FP32 multiply. (R149) -/
  | fmulW (f : WForm)
  /-- FMIN_W: W-form FP32 minimum. (R150) -/
  | fminW (f : WForm)
  /-- FMAX_W: W-form FP32 maximum. (R150) -/
  | fmaxW (f : WForm)
  /-- FRCP_W: W-form correctly rounded reciprocal. (R151) -/
  | frcpW (f : WForm)
  /-- FRSQ_W: W-form reciprocal square root. (R151) -/
  | frsqW (f : WForm)
  /-- FSQRT_W: W-form square root. (R151) -/
  | fsqrtW (f : WForm)
  /-- FEXP2_W: W-form base-2 exponential. (R151) -/
  | fexp2W (f : WForm)
  /-- FLOG2_W: W-form base-2 logarithm. (R151) -/
  | flog2W (f : WForm)
  /-- FSIN_W: W-form sine. (R151) -/
  | fsinW (f : WForm)
  /-- FCOS_W: W-form cosine. (R151) -/
  | fcosW (f : WForm)
  /-- FTANH_W: W-form hyperbolic tangent. (R151) -/
  | ftanhW (f : WForm)
  /-- HPADD_W: W-form packed f16x2 add. (R152) -/
  | hpaddW (f : WForm)
  /-- HPMUL_W: W-form packed f16x2 multiply. (R152) -/
  | hpmulW (f : WForm)
  /-- HPMAX_W: W-form packed f16x2 maximum. (R152) -/
  | hpmaxW (f : WForm)
  /-- IADD_WIMM: W immediate variant add of sign-extended imm6. (R144) -/
  | iaddWimm (f : WImmForm)
  /-- IMUL_WIMM: W immediate variant multiply. (R144) -/
  | imulWimm (f : WImmForm)
  /-- AND_WIMM: W immediate variant AND. (R145) -/
  | andWimm (f : WImmForm)
  /-- OR_WIMM: W immediate variant OR. (R145) -/
  | orWimm (f : WImmForm)
  /-- XOR_WIMM: W immediate variant XOR. (R145) -/
  | xorWimm (f : WImmForm)
  /-- SHL_WIMM: W immediate variant shift left. (R145) -/
  | shlWimm (f : WImmForm)
  /-- SHR_WIMM: W immediate variant logical shift right. (R145) -/
  | shrWimm (f : WImmForm)
  /-- SAR_WIMM: W immediate variant arithmetic shift right. (R145) -/
  | sarWimm (f : WImmForm)
  /-- ROT_WIMM: W immediate variant rotate. (R145) -/
  | rotWimm (f : WImmForm)
  /-- IMIN_WIMM: W immediate variant signed minimum. (R144) -/
  | iminWimm (f : WImmForm)
  /-- IMAX_WIMM: W immediate variant signed maximum. (R144) -/
  | imaxWimm (f : WImmForm)
  /-- MOVI_WI: WI-form move of sign-extended imm12 into d. (R144) -/
  | moviWi (f : WIForm)
  /-- IADD_WI: WI-form add of imm12 to d. (R144) -/
  | iaddWi (f : WIForm)
  /-- IMUL_WI: WI-form multiply of d by imm12. (R144) -/
  | imulWi (f : WIForm)
  /-- AND_WI: WI-form AND with imm12. (R145) -/
  | andWi (f : WIForm)
  /-- OR_WI: WI-form OR with imm12. (R145) -/
  | orWi (f : WIForm)
  /-- XOR_WI: WI-form XOR with imm12. (R145) -/
  | xorWi (f : WIForm)
  /-- IMIN_WI: WI-form signed minimum with imm12. (R144) -/
  | iminWi (f : WIForm)
  /-- IMAX_WI: WI-form signed maximum with imm12. (R144) -/
  | imaxWi (f : WIForm)
  /-- BRA_WI: WI-form branch by imm12 halfwords. (R172) -/
  | braWi (f : WIForm)
  /-- CHECK_W: W-form check that raises a tagged guard or s1. (R164) -/
  | checkW (f : WForm)
  /-- NOP_W: W-form no operation. (R176) -/
  | nopW (f : WForm)
  /-- EXIT_W: W-form thread exit. (R177) -/
  | exitW (f : WForm)
  /-- HOLD_W: W-form hold that parks the thread until its long writes retire. (R176) -/
  | holdW (f : WForm)
  /-- YIELD_W: W-form yield to Runnable with age zero. (R176) -/
  | yieldW (f : WForm)
  /-- RET_W: W-form return through a register pair. (R172) -/
  | retW (f : WForm)
  /-- MOV_D: D-form typed move. (R144) -/
  | movD (f : DForm)
  /-- IADD_D: D-form integer add with optional saturation. (R144) -/
  | iaddD (f : DForm)
  /-- IADDX_D: D-form three-source integer add. (R144) -/
  | iaddxD (f : DForm)
  /-- ISUB_D: D-form integer subtract. (R144) -/
  | isubD (f : DForm)
  /-- IMUL_D: D-form integer multiply. (R144) -/
  | imulD (f : DForm)
  /-- IMULH_D: D-form high multiply. (R144) -/
  | imulhD (f : DForm)
  /-- IMAD_D: D-form multiply-add without intermediate wrap. (R144) -/
  | imadD (f : DForm)
  /-- IABS_D: D-form absolute value. (R144) -/
  | iabsD (f : DForm)
  /-- INEG_D: D-form negate. (R144) -/
  | inegD (f : DForm)
  /-- IMIN_D: D-form integer minimum. (R144) -/
  | iminD (f : DForm)
  /-- IMAX_D: D-form integer maximum. (R144) -/
  | imaxD (f : DForm)
  /-- ICMP_D: Integer compare writing a predicate. (R148) -/
  | icmpD (f : DForm)
  /-- SEL_D: Select s1 or s2 by a predicate. (R148) -/
  | selD (f : DForm)
  /-- AND_D: D-form bitwise AND. (R145) -/
  | andD (f : DForm)
  /-- OR_D: D-form bitwise OR. (R145) -/
  | orD (f : DForm)
  /-- XOR_D: D-form bitwise XOR. (R145) -/
  | xorD (f : DForm)
  /-- NOT_D: D-form bitwise NOT. (R145) -/
  | notD (f : DForm)
  /-- ANDN_D: D-form AND NOT. (R145) -/
  | andnD (f : DForm)
  /-- TBL3_D: Three-input bitwise table lookup. (R145) -/
  | tbl3D (f : DForm)
  /-- SHL_D: D-form shift left. (R145) -/
  | shlD (f : DForm)
  /-- SHR_D: D-form logical shift right. (R145) -/
  | shrD (f : DForm)
  /-- SAR_D: D-form arithmetic shift right. (R145) -/
  | sarD (f : DForm)
  /-- ROT_D: D-form rotate left. (R145) -/
  | rotD (f : DForm)
  /-- FUNNEL_D: Funnel shift of a concatenated pair. (R145) -/
  | funnelD (f : DForm)
  /-- BFX_D: Bit-field extract. (R146) -/
  | bfxD (f : DForm)
  /-- BFI_D: Bit-field insert. (R146) -/
  | bfiD (f : DForm)
  /-- POPC_D: D-form population count. (R146) -/
  | popcD (f : DForm)
  /-- CLZ_D: D-form count leading zeros. (R146) -/
  | clzD (f : DForm)
  /-- CTZ_D: D-form count trailing zeros. (R146) -/
  | ctzD (f : DForm)
  /-- BREV_D: D-form bit reverse. (R146) -/
  | brevD (f : DForm)
  /-- LEA_D: Load effective address s1 + ext(s2) x 2^s3. (R146) -/
  | leaD (f : DForm)
  /-- DP4_D: Four-byte dot product with accumulate. (R147) -/
  | dp4D (f : DForm)
  /-- DP8_D: Eight-nibble dot product with accumulate. (R147) -/
  | dp8D (f : DForm)
  /-- FADD_D: D-form floating add. (R149) -/
  | faddD (f : DForm)
  /-- FSUB_D: D-form floating subtract. (R149) -/
  | fsubD (f : DForm)
  /-- FMUL_D: D-form floating multiply. (R149) -/
  | fmulD (f : DForm)
  /-- FFMA_D: D-form fused multiply-add. (R149) -/
  | ffmaD (f : DForm)
  /-- FMIN_D: D-form floating minimum. (R150) -/
  | fminD (f : DForm)
  /-- FMAX_D: D-form floating maximum. (R150) -/
  | fmaxD (f : DForm)
  /-- FCMP_D: Floating compare writing a predicate. (R153) -/
  | fcmpD (f : DForm)
  /-- FCLASS_D: Floating classification mask. (R154) -/
  | fclassD (f : DForm)
  /-- FRCP_D: D-form reciprocal. (R151) -/
  | frcpD (f : DForm)
  /-- FRSQ_D: D-form reciprocal square root. (R151) -/
  | frsqD (f : DForm)
  /-- FSQRT_D: D-form square root. (R151) -/
  | fsqrtD (f : DForm)
  /-- FEXP2_D: D-form base-2 exponential. (R151) -/
  | fexp2D (f : DForm)
  /-- FLOG2_D: D-form base-2 logarithm. (R151) -/
  | flog2D (f : DForm)
  /-- FSIN_D: D-form sine. (R151) -/
  | fsinD (f : DForm)
  /-- FCOS_D: D-form cosine. (R151) -/
  | fcosD (f : DForm)
  /-- FTANH_D: D-form hyperbolic tangent. (R151) -/
  | ftanhD (f : DForm)
  /-- FSCALE_D: Scale by a power of two. (R149) -/
  | fscaleD (f : DForm)
  /-- FRND_D: Round to an integral value in the coded direction. (R149) -/
  | frndD (f : DForm)
  /-- FDIVFIX_D: Correctly rounded division. (R149) -/
  | fdivfixD (f : DForm)
  /-- DADD_D: FP64 add, four slot cycles. (R149) -/
  | daddD (f : DForm)
  /-- DMUL_D: FP64 multiply. (R149) -/
  | dmulD (f : DForm)
  /-- DFMA_D: FP64 fused multiply-add. (R149) -/
  | dfmaD (f : DForm)
  /-- DCMP_D: FP64 compare writing a predicate. (R153) -/
  | dcmpD (f : DForm)
  /-- HPADD_D: D-form packed-half add. (R152) -/
  | hpaddD (f : DForm)
  /-- HPMUL_D: D-form packed-half multiply. (R152) -/
  | hpmulD (f : DForm)
  /-- HPFMA_D: Packed-half fused multiply-add. (R152) -/
  | hpfmaD (f : DForm)
  /-- HPMAX_D: D-form packed-half maximum. (R152) -/
  | hpmaxD (f : DForm)
  /-- PACK_D: Convert and pack E sources into one register. (R157) -/
  | packD (f : DForm)
  /-- UNPACK_D: Widen packed elements into consecutive registers. (R157) -/
  | unpackD (f : DForm)
  /-- CVT_D: Type conversion, destination type in the opcode. (R155) -/
  | cvtD (dt : BitVec 4) (f : DForm)
  /-- CVTS_D: Stochastically rounded conversion from SHAKE256 bits. (R156) -/
  | cvtsD (dt : BitVec 4) (f : DForm)
  /-- SHFL_D: Cross-lane shuffle by lane or tid with fill. (R159) -/
  | shflD (f : DForm)
  /-- BALLOT_D: Mask of executing lanes whose predicate holds. (R160) -/
  | ballotD (f : DForm)
  /-- AGREE_D: Warp vote each, some or same. (R160) -/
  | agreeD (f : DForm)
  /-- VPFX_D: Inclusive tree prefix over executing threads. (R161) -/
  | vpfxD (f : DForm)
  /-- VRED_D: Fixed-tree reduction over executing threads. (R161) -/
  | vredD (f : DForm)
  /-- MATCH_D: Mask of lanes with equal values. (R162) -/
  | matchD (f : DForm)
  /-- XSECT_D: One step of sorted-list intersection across the warp. (R163) -/
  | xsectD (f : DForm)
  /-- CONFL_D: Mask of lanes conflicting with a lower tid. (R162) -/
  | conflD (f : DForm)
  /-- PTBL_D: Predicate table lookup. (R148) -/
  | ptblD (f : DForm)
  /-- PMOV_D: Predicate := register non-zero. (R148) -/
  | pmovD (f : DForm)
  /-- CHECK_D: D-form check that raises tokens. (R164) -/
  | checkD (f : DForm)
  /-- ISPOI_D: Test a register's poison tag into a predicate. (R165) -/
  | ispoiD (f : DForm)
  /-- PCLR_D: Replace a token with a value and record its code. (R166) -/
  | pclrD (f : DForm)
  /-- MOV_DP: DP-form move with permuted source. (R119) -/
  | movDp (f : DPForm)
  /-- IADD_DP: DP-form add with permuted sources. (R119) -/
  | iaddDp (f : DPForm)
  /-- ISUB_DP: DP-form subtract. (R119) -/
  | isubDp (f : DPForm)
  /-- IMUL_DP: DP-form multiply. (R119) -/
  | imulDp (f : DPForm)
  /-- IMIN_DP: DP-form minimum. (R119) -/
  | iminDp (f : DPForm)
  /-- IMAX_DP: DP-form maximum. (R119) -/
  | imaxDp (f : DPForm)
  /-- AND_DP: DP-form AND. (R119) -/
  | andDp (f : DPForm)
  /-- OR_DP: DP-form OR. (R119) -/
  | orDp (f : DPForm)
  /-- XOR_DP: DP-form XOR. (R119) -/
  | xorDp (f : DPForm)
  /-- SHL_DP: DP-form shift left. (R119) -/
  | shlDp (f : DPForm)
  /-- SHR_DP: DP-form logical shift right. (R119) -/
  | shrDp (f : DPForm)
  /-- FADD_DP: DP-form FP32 add. (R119) -/
  | faddDp (f : DPForm)
  /-- FSUB_DP: DP-form FP32 subtract. (R119) -/
  | fsubDp (f : DPForm)
  /-- FMUL_DP: DP-form FP32 multiply. (R119) -/
  | fmulDp (f : DPForm)
  /-- FMIN_DP: DP-form FP32 minimum. (R119) -/
  | fminDp (f : DPForm)
  /-- FMAX_DP: DP-form FP32 maximum. (R119) -/
  | fmaxDp (f : DPForm)
  /-- BRA_DI: DI-form branch by imm32 halfwords. (R172) -/
  | braDi (f : DIForm)
  /-- BRX_D: Indirect branch through a pair. (R172) -/
  | brxD (f : DForm)
  /-- CALL_DI: Call writing the return address pair. (R172) -/
  | callDi (f : DIForm)
  /-- CALLX_D: Indirect call. (R172) -/
  | callxD (f : DForm)
  /-- RET_D: D-form return. (R172) -/
  | retD (f : DForm)
  /-- EXIT_D: D-form thread exit. (R177) -/
  | exitD (f : DForm)
  /-- NOP_D: D-form no operation. (R176) -/
  | nopD (f : DForm)
  /-- HOLD_D: D-form hold. (R176) -/
  | holdD (f : DForm)
  /-- YIELD_D: D-form yield. (R176) -/
  | yieldD (f : DForm)
  /-- REGION_D: Set the thread's region entry. (R178) -/
  | regionD (f : DForm)
  /-- SPAWN_D: Create a roaming thread at the home of an address. (R181) -/
  | spawnD (f : DForm)
  /-- MIGR_D: Move the roaming thread to the home of an address. (R179) -/
  | migrD (f : DForm)
  /-- HOME_D: Write the home word of an address. (R183) -/
  | homeD (f : DForm)
  /-- RACQ_D: Acquire extended register blocks, or try. (R185) -/
  | racqD (f : DForm)
  /-- RREL_D: Release extended register blocks. (R186) -/
  | rrelD (f : DForm)
  /-- STAT_D: Read, clear or set PCODE of the TSW. (R191) -/
  | statD (f : DForm)
  /-- MOVI_DI: DI-form move of imm32. (R144) -/
  | moviDi (f : DIForm)
  /-- KMOV_DI: Set a group register once for the warp. (R187) -/
  | kmovDi (f : DIForm)
  /-- KADD_DI: Add to a group register once for the warp. (R187) -/
  | kaddDi (f : DIForm)
  /-- TAPE_D: Read a tape entry into four k registers, waiting on a counter. (R190) -/
  | tapeD (f : DForm)
  /-- TRAP_DI: Lower the context's curtain deliberately. (R192) -/
  | trapDi (f : DIForm)
  /-- BRK_DI: Breakpoint wait when debug is enabled. (R193) -/
  | brkDi (f : DIForm)
  /-- FBEGIN_D: Open a fabric transaction with a checkpoint. (R194) -/
  | fbeginD (f : DForm)
  /-- FCOMMIT_D: Commit the fabric transaction and wait for the target. (R195) -/
  | fcommitD (f : DForm)
  /-- FABORT_D: Abandon the fabric transaction with a user code. (R196) -/
  | fabortD (f : DForm)
  /-- LAUNCH_D: Post an act header to a callboard. (R197) -/
  | launchD (f : DForm)
  /-- TRIG_D: Mark the thread triggered. (R198) -/
  | trigD (f : DForm)
  /-- LD_DM: Load, served by read, fetch, cache or migration. (R206) -/
  | ldDm (f : DMForm)
  /-- ST_DM: Store sent to the home. (R209) -/
  | stDm (f : DMForm)
  /-- LDF_DM: Load that always fetches. (R206) -/
  | ldfDm (f : DMForm)
  /-- LDS_DM: Scratchpad load. (R210) -/
  | ldsDm (f : DMForm)
  /-- STS_DM: Scratchpad store. (R210) -/
  | stsDm (f : DMForm)
  /-- STM_DM: Store to the mirrored window of masked groups. (R211) -/
  | stmDm (f : DMForm)
  /-- LDW_DM: Register-window load. (R214) -/
  | ldwDm (f : DMForm)
  /-- STW_DM: Register-window store. (R214) -/
  | stwDm (f : DMForm)
  /-- LDG_DM: Ragged load through a layout record. (R216) -/
  | ldgDm (f : DMForm)
  /-- PMAX_DM: Scratchpad score/index maximum. (R220) -/
  | pmaxDm (f : DMForm)
  /-- AGAT_DM: Access-slice scratchpad gather into a queue. (R234) -/
  | agatDm (f : DMForm)
  /-- ASCT_DM: Access-slice scatter from a queue to scratchpad. (R234) -/
  | asctDm (f : DMForm)
  /-- KLD_DM: Load one word into a k register. (R188) -/
  | kldDm (f : DMForm)
  /-- ATOM_ADD: Atomic add at the point of order. (R217) -/
  | atomAdd (f : DMForm)
  /-- ATOM_MIN: Atomic minimum. (R217) -/
  | atomMin (f : DMForm)
  /-- ATOM_MAX: Atomic maximum. (R217) -/
  | atomMax (f : DMForm)
  /-- ATOM_AND: Atomic AND. (R217) -/
  | atomAnd (f : DMForm)
  /-- ATOM_OR: Atomic OR. (R217) -/
  | atomOr (f : DMForm)
  /-- ATOM_XOR: Atomic XOR. (R217) -/
  | atomXor (f : DMForm)
  /-- ATOM_XCHG: Atomic exchange. (R217) -/
  | atomXchg (f : DMForm)
  /-- ATOM_CAS: Atomic compare-and-swap. (R217) -/
  | atomCas (f : DMForm)
  /-- ATOM_FADD: Atomic floating add. (R217) -/
  | atomFadd (f : DMForm)
  /-- ATOMQ_BINC: Bounded increment. (R219) -/
  | atomqBinc (f : DMForm)
  /-- ATOMQ_WINC: Wrapping increment. (R219) -/
  | atomqWinc (f : DMForm)
  /-- ATOMQ_CDEC: Clamped decrement. (R219) -/
  | atomqCdec (f : DMForm)
  /-- ATOMQ_LADD: Limited add against the word at address + 4. (R219) -/
  | atomqLadd (f : DMForm)
  /-- ATOMS_ADD: Scratchpad atomic add. (R217) -/
  | atomsAdd (f : DMForm)
  /-- ATOMS_MIN: Scratchpad atomic minimum. (R217) -/
  | atomsMin (f : DMForm)
  /-- ATOMS_MAX: Scratchpad atomic maximum. (R217) -/
  | atomsMax (f : DMForm)
  /-- ATOMS_AND: Scratchpad atomic AND. (R217) -/
  | atomsAnd (f : DMForm)
  /-- ATOMS_OR: Scratchpad atomic OR. (R217) -/
  | atomsOr (f : DMForm)
  /-- ATOMS_XOR: Scratchpad atomic XOR. (R217) -/
  | atomsXor (f : DMForm)
  /-- ATOMS_XCHG: Scratchpad atomic exchange. (R217) -/
  | atomsXchg (f : DMForm)
  /-- ATOMS_CAS: Scratchpad compare-and-swap. (R217) -/
  | atomsCas (f : DMForm)
  /-- ATOMS_FADD: Scratchpad floating add. (R217) -/
  | atomsFadd (f : DMForm)
  /-- RED_ADD: Non-returning add. (R217) -/
  | redAdd (f : DMForm)
  /-- RED_MIN: Non-returning minimum. (R217) -/
  | redMin (f : DMForm)
  /-- RED_MAX: Non-returning maximum. (R217) -/
  | redMax (f : DMForm)
  /-- RED_AND: Non-returning AND. (R217) -/
  | redAnd (f : DMForm)
  /-- RED_OR: Non-returning OR. (R217) -/
  | redOr (f : DMForm)
  /-- RED_XOR: Non-returning XOR. (R217) -/
  | redXor (f : DMForm)
  /-- RED_FADD: Non-returning floating add. (R217) -/
  | redFadd (f : DMForm)
  /-- CPY_D: Issue a linear copy to a copy engine. (R227) -/
  | cpyD (f : DForm)
  /-- CPYT_D: Issue a tiled, block-listed copy. (R228) -/
  | cpytD (f : DForm)
  /-- OPK_D: Send an operation packet to a home MSE. (R222) -/
  | opkD (f : DForm)
  /-- MWAIT_D: Wait on a memory word condition at its home. (R237) -/
  | mwaitD (f : DForm)
  /-- WAITA_D: Wait on a scratchpad word condition. (R237) -/
  | waitaD (f : DForm)
  /-- WAITC_D: Wait until a counter class drops to n. (R236) -/
  | waitcD (f : DForm)
  /-- FENCE_D: Release, acquire or both at a scope. (R302) -/
  | fenceD (f : DForm)
  /-- BAR_D: Group barrier arrival and wait. (R241) -/
  | barD (f : DForm)
  /-- EBAR_D: Ensemble barrier arrival and wait. (R241) -/
  | ebarD (f : DForm)
  /-- ASTR_D: Start an access-slice strided stream into a queue. (R233) -/
  | astrD (f : DForm)
  /-- MMA_D: Queue a matrix multiply-accumulate over K blocks. (R252) -/
  | mmaD (f : DForm)
  /-- MMAB_D: Queue a block-listed matrix multiply-accumulate. (R253) -/
  | mmabD (f : DForm)
  /-- MZERO_D: Queue a clear of an accumulator tile. (R256) -/
  | mzeroD (f : DForm)
  /-- MACC_D: Queue a move of accumulators to scratchpad. (R257) -/
  | maccD (f : DForm)
  /-- SELC_D: Queue a per-column top-K selection. (R258) -/
  | selcD (f : DForm)
  /-- WARP_FORMATION: Each core cycle a free slot takes the head of the cue table and forms a warp. (R28) -/
  | warpFormation (cluster slot : Nat)
  /-- PROMOTION: A Runnable entry whose age reaches 8,192 is promoted to class 0. (R27) -/
  | promotion (thread : Nat)
  /-- LONG_WRITE_RETURN: A returned value is written and its operation retires in its class. (R203) -/
  | longWriteReturn (op : Nat) (reply : Reply)
  /-- STORE_ACKNOWLEDGEMENT: A class 3 or 4 write is acknowledged and retires. (R203) -/
  | storeAcknowledgement (op : Nat) (reply : Reply)
  /-- QUEUE_WAIT_RESUME: A warp held on an empty or full queue completes its pop or push. (R39) -/
  | queueWaitResume (cluster slot : Nat)
  /-- TRANSLATION_WALK_END: A table walk ends and its merged requesters receive the result. (R387) -/
  | translationWalkEnd (row ctx granule : Nat) (cached : Bool)
  /-- MSE_READ: A home MSE applies a load or fetch in the location order. (R283) -/
  | mseRead (op : Nat) (ecc : Ecc)
  /-- MSE_WRITE: A home MSE applies a store and re-evaluates monitors. (R283) -/
  | mseWrite (op : Nat)
  /-- MSE_ATOMIC: The point of order applies an atomic, RED or ATOMQ. (R218) -/
  | mseAtomic (op : Nat) (ecc : Ecc)
  /-- BANK_ATOMIC: A bank atomic unit applies ATOMS, PMAX or a completion increment. (R204) -/
  | bankAtomic (op : Nat)
  /-- OPK_PACKET: An MSE performs an operation packet as one step. (R224) -/
  | opkPacket (op : Nat) (replies : List Reply)
  /-- FORWARDED_OPERATION: An operation for a frozen or forwarded range waits or is forwarded. (R226) -/
  | forwardedOperation (op : Nat)
  /-- STM_COPY: A receiving cluster writes an STM copy into the named groups. (R317) -/
  | stmCopy (op cluster : Nat)
  /-- REGISTER_WINDOW_ACCESS: The target cluster serves an LDW or STW. (R214) -/
  | registerWindowAccess (op : Nat)
  /-- MONITOR_RECHECK: A waiter without a monitor re-reads its word after its back-off. (R238) -/
  | monitorRecheck (thread : Nat)
  /-- GATE_RELEASE: A held access is applied once the gate's frontier view covers its clock. (R296) -/
  | gateRelease (op : Nat)
  /-- FRONTIER_UPDATE: A die's frontier reaches the gates of the other dies. (R295) -/
  | frontierUpdate (die : Nat)
  /-- GATE_RESEND: An access refused by a full gate is sent again after 64 network cycles. (R296) -/
  | gateResend (op : Nat)
  /-- COPY_ELEMENT_READ: A copy engine's read-ahead returns, or with no reply its oldest read element is written or
  pushed. (R320) -/
  | copyElementRead (engine command : Nat) (ecc : Ecc) (reply : Option Reply)
  /-- COPY_COMPLETION: After the last element the engine increments the completion word. (R230) -/
  | copyCompletion (engine command : Nat)
  /-- CACHE_DROP: A publish drop reaches a cache or slice and is acknowledged. (R316) -/
  | cacheDrop (engine command place : Nat)
  /-- SLICE_FILL: A read-only line returns from the home and is installed. (R314) -/
  | sliceFill (op : Nat)
  /-- ACCESS_ISSUE: The access processor issues one access-slice instruction per core cycle. (R323) -/
  | accessIssue (group : Nat)
  /-- STREAM_ELEMENT_RETURN: An ASTR read returns, or with no reply the oldest one is pushed, in index order. (R324) -/
  | streamElementReturn (group stream : Nat) (ecc : Ecc) (reply : Option Reply)
  /-- MATRIX_OPERATION_START: The array begins the next operation of a group's matrix queue. (R244) -/
  | matrixOperationStart (group : Nat)
  /-- MATRIX_OPERATION_COMPLETE: A matrix operation's last effect completes and it retires. (R244) -/
  | matrixOperationComplete (group : Nat) (upset : List Nat)
  /-- MESSAGE_DELIVERY: A q14 message is appended to its q15 or refused. (R235) -/
  | messageDelivery (cluster message : Nat)
  /-- MESSAGE_RESEND: A refused message is sent again after back-off. (R235) -/
  | messageResend (cluster message : Nat)
  /-- DEPARTURE: The departure wait ends and the migration message is sent. (R180) -/
  | departure (thread : Nat)
  /-- MIGRATION_MESSAGE: A home admits, buffers or refuses a migrating thread. (R272) -/
  | migrationMessage (thread : Nat) (peer : Admission)
  /-- MIGRATION_ACKNOWLEDGEMENT: The source releases the departed thread's slot and blocks. (R270) -/
  | migrationAcknowledgement (thread : Nat)
  /-- MIGRATION_REFUSAL: A refused departure turns into a fetch or a MIGR retry wait. (R272) -/
  | migrationRefusal (thread : Nat)
  /-- MIGR_RESEND: A refused MIGR sends again after its back-off. (R272) -/
  | migrResend (thread : Nat)
  /-- ARRIVAL_ADMISSION: The head of the arrival buffer is admitted when a slot and blocks free. (R273) -/
  | arrivalAdmission (cluster : Nat)
  /-- SPAWN_MESSAGE: A home admits or refuses a spawn message. (R276) -/
  | spawnMessage (cluster message : Nat) (peer : Admission)
  /-- SPAWN_RESEND: A refused spawn is sent again after back-off. (R276) -/
  | spawnResend (cluster message : Nat)
  /-- TRIGGER_NOTICE: A guest record's trigger notice lowers the sender's untriggered count. (R278) -/
  | triggerNotice (act count : Nat)
  /-- COMPLETION_NOTICE: A guest record's completion notice lowers the sender's live count. (R278) -/
  | completionNotice (act source count : Nat)
  /-- FAILURE_NOTICE: A guest failure notice lowers the sender's curtain. (R278) -/
  | failureNotice (act : Nat)
  /-- RACQ_GRANT: A waiting RACQ is granted oldest first when blocks free. (R185) -/
  | racqGrant (cluster : Nat)
  /-- REGISTER_POOL_EVICTION: The oldest RACQ has waited 16,384 cycles and blocks are freed by spilling and eviction. (R372) -/
  | registerPoolEviction (cluster : Nat)
  /-- SWAP_OUT: An idle context's ensembles are swapped out for a waiting one. (R280) -/
  | swapOut (ctx row : Nat)
  /-- KLD_REPLY: The KLD word is written to k and the warp becomes Runnable. (R188) -/
  | kldReply (op : Nat) (reply : Reply)
  /-- TRANSACTION_PACKET: A target holds a transaction OPK or refuses it. (R418) -/
  | transactionPacket (op : Nat) (accepted : Bool)
  /-- FCOMMIT_COMMIT: The target freezes units in address order and applies held packets. (R419) -/
  | fcommitCommit (thread : Nat) (replies : List Reply)
  /-- FCOMMIT_REPLY: The commit reply releases the thread with success or failure. (R195) -/
  | fcommitReply (thread : Nat) (reply : Reply)
  /-- ACT_RETIREMENT: Live count zero and all operations retired: the act retires and signals. (R269) -/
  | actRetirement (act : Nat)
  /-- CBPOST: A write posts an act header to a callboard. (R352) -/
  | cbpost (callboard : Nat) (header : Dword)
  /-- CBCTL_WRITE: Configures a callboard; owner change or EN clear cancels queued acts. (R352) -/
  | cbctlWrite (callboard : Nat) (value : Dword)
  /-- ACT_READY: The head's wait counter reaches WVAL and it becomes ready. (R355) -/
  | actReady (callboard : Nat)
  /-- PLACEMENT: Each core cycle the scheduler places ready ensembles or releases roaming threads. (R358) -/
  | placement (partition : Nat)
  /-- ROAMING_RELEASE_RESEND: A refused launched roaming thread is sent again after back-off. (R359) -/
  | roamingReleaseResend (act : Nat)
  /-- CONGESTION_WINDOW: Every 4,096 network cycles congestion words are rewritten. (R318) -/
  | congestionWindow (rows : List (Byte × Byte)) (dies : List Byte)
  /-- PARTMAP_WRITE: Repartitions die rows or is refused with ERR. (R365) -/
  | partmapWrite (value : Dword)
  /-- CONTEXT_ENABLE: CTXCTL EN := 1 enables a context after its checks. (R367) -/
  | contextEnable (ctx : Nat) (value : Dword)
  /-- CONTEXT_END: CTXCTL EN := 0 ends the context and frees its state. (R369) -/
  | contextEnd (ctx : Nat) (value : Dword)
  /-- CTXMODE_WRITE: Sets clock, throttle, fetch, debug and per-partition modes. (R368) -/
  | ctxmodeWrite (ctx : Nat) (value : Dword)
  /-- CLOCK_CHANGE_DONE: The partition resumes issue after its clock change. (R368) -/
  | clockChangeDone (partition : Nat)
  /-- SWITCH_OUT: CTXCMD 01 saves every resident item of the context. (R380) -/
  | switchOut (ctx : Nat)
  /-- SWITCH_IN: CTXCMD 10 restores saved ensembles and roaming threads. (R380) -/
  | switchIn (ctx : Nat)
  /-- FRAMEOWN_WRITE: Changes a frame's owner tag and marks it zero-pending. (R382) -/
  | frameownWrite (value : Dword)
  /-- ZERO_FILL_DONE: The MSE finishes zeroing a frame and applies waiting operations. (R383) -/
  | zeroFillDone (frame : Nat)
  /-- CTXINV_RANGE: Invalidates a context's translations for a granule range. (R394) -/
  | ctxinvRange (ctx : Nat) (value : Dword)
  /-- CTXINV_ALL: Invalidates every translation of the context. (R394) -/
  | ctxinvAll (ctx : Nat)
  /-- INVALIDATION_COMPLETE: All drops, restarts and prior accesses are done and BUSY clears. (R394) -/
  | invalidationComplete (ctx : Nat)
  /-- ATS_COMPLETION: A host Translation Completion is held or produces a token. (R397) -/
  | atsCompletion (request : Nat) (answer : AtsAnswer)
  /-- ATS_TIMEOUT: No completion within 50 ms gives code 0x14. (R397) -/
  | atsTimeout (request : Nat)
  /-- ATS_INVALIDATE_REQUEST: The host invalidates translations for a PASID range. (R399) -/
  | atsInvalidateRequest (tag pasid page pages : Nat) (all : Bool)
  /-- INVALIDATE_COMPLETION: The device sends the Invalidate Completion after outstanding host accesses. (R399) -/
  | invalidateCompletion (tag : Nat)
  /-- PRG_RESPONSE: A PRG Response resolves parked host-page rollbacks. (R398) -/
  | prgResponse (request : Nat) (code : PrgCode)
  /-- BAR2_READ: A host read of device memory through BAR2. (R396) -/
  | bar2Read (address bytes : Nat)
  /-- BAR2_WRITE: A host posted write to device memory through BAR2. (R396) -/
  | bar2Write (address : Nat) (data : List Byte)
  /-- PERSONALITY_SWITCH: EGCTL GO starts a switch with quiesce. (R414) -/
  | personalitySwitch (group : Nat) (value : Dword)
  /-- QUIESCE_NOTICE: A link partner's quiesce notice stops new requests. (R414) -/
  | quiesceNotice (group : Nat)
  /-- SWITCH_DRAIN_END: The drain empties and the fence withdraws the group. (R414) -/
  | switchDrainEnd (group : Nat)
  /-- SWITCH_DRAIN_BOUND: The drain reaches 1 ms and the fence ends traffic with ERR 0x06. (R414) -/
  | switchDrainBound (group : Nat) (applied : List Nat)
  /-- SWITCH_RETRAIN_DONE: PHY and FEC training ends and the exchange begins. (R414) -/
  | switchRetrainDone (group : Nat) (trained : Bool)
  /-- SWITCH_EXCHANGE_DONE: The exchange ends; ranges or routes are installed and the group resumes. (R414) -/
  | switchExchangeDone (group : Nat) (result : Exchange)
  /-- LOSS_OF_LIGHT: A group loses light and fails at once. (R416) -/
  | lossOfLight (group : Nat) (applied : List Nat)
  /-- PEER_LEFT_POD: A package unreachable for 10 ms leaves the pod and waiting messages end. (R412) -/
  | peerLeftPod (package : Nat)
  /-- PEER_REQUEST: An inbound request from another package is served by its JOB context. (R410) -/
  | peerRequest (request : PeerReq)
  /-- CXL_TIMEOUT: A CXL.mem request without response in 10 ms gives code 0x14. (R409) -/
  | cxlTimeout (op : Nat)
  /-- FABRIC_ACK_TIMEOUT: An unacknowledged Ultra Ethernet message ends 1 ms after retries. (R413) -/
  | fabricAckTimeout (op : Nat)
  /-- KEY_ROTATION: An encrypted group replaces its key before 2^32 invocations. (R420) -/
  | keyRotation (group : Nat)
  /-- LINK_RECOVERY_RESOLVED: A route returns and code 0x03 rollbacks replay. (R417) -/
  | linkRecoveryResolved (thread : Nat)
  /-- LINK_RECOVERY_TIMEOUT: Code 0x03 unresolved for 10 ms is raised again as 0x15. (R417) -/
  | linkRecoveryTimeout (thread : Nat)
  /-- LINK_FLIT_ERROR: A failed flit is retransmitted with later flits. (R313) -/
  | linkFlitError (link lane : Nat) (exhausted : Bool)
  /-- CURTAIN_SIGNAL: The curtain signal reaches an engine which stops the context's work. (R430) -/
  | curtainSignal (ctx : Nat) (engine : EngineKind) (unit : Nat)
  /-- CURTAIN_SKID_DEADLINE: At 8 us pending registers get Token(0x50) and engines finish. (R430) -/
  | curtainSkidDeadline (ctx : Nat)
  /-- CURTAIN_DONE: Every engine has finished; DONE := 1 and CVEC is sent. (R429) -/
  | curtainDone (ctx : Nat)
  /-- WATCHDOG_EXPIRY: A watchdog counter reaches LIMIT and lowers the curtain. (R436) -/
  | watchdogExpiry (owner : WatchOwner)
  /-- CTXPGDONE_GRANULE: Releases threads parked on a named granule. (R426) -/
  | ctxpgdoneGranule (ctx granule : Nat)
  /-- CTXPGDONE_ALL: Releases every thread parked on a page need. (R426) -/
  | ctxpgdoneAll (ctx : Nat)
  /-- CTXDBG_RD: Reads a register-window coordinate into CTXDBGD. (R438) -/
  | ctxdbgRd (ctx : Nat) (coord : Word)
  /-- CTXDBG_WR: Writes CTXDBGD to a stopped thread's register. (R438) -/
  | ctxdbgWr (ctx : Nat) (coord : Word)
  /-- CTXDBG_RES: Resumes a thread waiting at a breakpoint. (R438) -/
  | ctxdbgRes (ctx : Nat) (coord : Word)
  /-- CTXFRP_READ: A read of CTXFRP clears LOST. (R427) -/
  | ctxfrpRead (ctx : Nat)
  /-- RELRP_READ: A read of RELRP clears LOST. (R442) -/
  | relrpRead
  /-- EGSTAT_READ: A read of EGSTAT clears WFAIL. (R405) -/
  | egstatRead (group : Nat)
  /-- SCRUB: Each MSE scrubs its home range every 24 hours. (R440) -/
  | scrub (cluster sector : Nat) (ecc : Ecc)
  /-- REPCMD_REPAIR: REPCMD GO starts a repair of a named unit. (R445) -/
  | repcmdRepair (value : Dword)
  /-- REPAIR_DONE: A repair completes and writes a CLASS 4 record. (R446) -/
  | repairDone (kind unit : Nat)
  /-- BOOT: Reset runs the measured boot of the Ututh root. (R447) -/
  | boot (found : BootIn)
  /-- FIRMWARE_UPDATE: The root verifies a staged image for the next reset. (R448) -/
  | firmwareUpdate (image : Image)
  /-- RECOVERY_LOAD: The recovery command verifies and stores an image, then resets. (R448) -/
  | recoveryLoad (image : Image)
  /-- ATTESTATION_REQUEST: ATTCMD GO starts a signed report. (R450) -/
  | attestationRequest (value : Dword)
  /-- ATTESTATION_REPORT_DONE: The signed report is in ATTBUF and BUSY clears. (R451) -/
  | attestationReportDone (stored : Bool)
  /-- POWER_WINDOW: Every 1 ms STEP is adjusted from measured power and temperature. (R453) -/
  | powerWindow (measured : Half) (hot : Bool)
  /-- PWRCTL_WRITE: Sets the power cap or is refused outside 1,200-4,800 W. (R452) -/
  | pwrctlWrite (value : Dword)
  /-- REGISTER_WRITE: A write to a management register with no behaviour of its own. (R6) -/
  | registerWrite (reg : MgmtReg) (index : Nat) (value : BitVec 128)
  /-- INSTRUCTION_FAULT: A slot continuing a run reaches a halfword whose fetch fails or whose encoding is a decode fault, and takes the instruction fault once for the warp. (R107) -/
  | instructionFault (cluster slot : Nat)
  /-- SPAWN_ACKNOWLEDGEMENT: The home's admission acknowledgement reaches the source cluster, which returns the spawn credit and may release warps waiting with reason spawn credit. (R276) -/
  | spawnAcknowledgement (cluster message : Nat)
  /-- HOST_COMPLETION_TIMEOUT: A non-posted request to host memory receives no completion within the 50 ms completion timeout. (R396) -/
  | hostCompletionTimeout (op : Nat)
  /-- FABRIC_UNREACHABLE_TIMEOUT: A target reached over the fabric stays unreachable for 10 ms while spawns sent there lack completion notices, and the sending record lowers its context's curtain. (R278) -/
  | fabricUnreachableTimeout (act : Nat)
  /-- POWER_LOSS: The supply is lost; all volatile state ends, and non-volatile state such as the XMSS index persists. (R449) -/
  | powerLoss
deriving DecidableEq, Repr

end Sys2Proof
end

