-- ==== Sys2Proof/WellFormed.lean ====
section
/-! DEFINITION. The decode conditions of spec/05_encoding.md R107, checked in its order on the fields of an instruction.
`check` names the first that fails; an instruction is well formed where none does. -/

namespace Sys2Proof

/-- The causes 1 to 8 of R107; 9 is the fault at issue of spec/20 R424. -/
inductive Cause where
  | fetch | cue | opcode | reserved | negate | operand | value | ordering | issue
deriving DecidableEq, Repr

/-- The number that a fault record carries (R107, R424). -/
def Cause.num : Cause → Nat
  | .fetch => 1 | .cue => 2 | .opcode => 3 | .reserved => 4 | .negate => 5 | .operand => 6 | .value => 7 | .ordering => 8 | .issue => 9

namespace WellFormed

/-- Width in bits of a type code (R124). -/
def width (t : BitVec 4) : Nat :=
  match t.toNat with
  | 0 | 1 | 0xC | 0xD | 0xF => 8
  | 2 | 3 | 8 | 9 => 16
  | 4 | 5 | 0xA => 32
  | 0xE => 4
  | _ => 64

def is64 (t : BitVec 4) : Bool := width t = 64

def isZero (v : Byte) : Bool := v = 0xF0

/-- A g register (R122). -/
def isG (v : Byte) : Bool := v.toNat ≤ 0xBF
/-- An o register (R122). -/
def isO (v : Byte) : Bool := 0xC0 ≤ v.toNat ∧ v.toNat ≤ 0xC7

/-- An operand read as 32 bits (R122); the access slice exchanges the queue roles. -/
def srcOk (slice : Bool) (v : Byte) : Bool :=
  let n := v.toNat
  decide (n ≤ 0xC9) || (!slice && (decide (0xD0 ≤ n ∧ n ≤ 0xDB) || decide (n = 0xDF)))
    || (slice && decide (n = 0xDC ∨ n = 0xDD)) || decide (0xE0 ≤ n ∧ n ≤ 0xF5)

/-- A destination of 32 bits or less (R37, R122). -/
def dstOk (slice : Bool) (v : Byte) : Bool :=
  let n := v.toNat
  decide (n ≤ 0xC8) || isZero v || (!slice && decide (0xDC ≤ n ∧ n ≤ 0xDE)) || (slice && decide (0xD0 ≤ n ∧ n ≤ 0xD7))

/-- An even register of g or o, or l0 for l0:l1 (R123). -/
def pairReg (v : Byte) : Bool :=
  let n := v.toNat
  decide (n % 2 = 0) && (decide (n ≤ 0xBE) || decide (0xC0 ≤ n ∧ n ≤ 0xC8))

/-- A pair source: also an even k register, or zero (R123). -/
def pairSrc (v : Byte) : Bool :=
  pairReg v || isZero v || (decide (v.toNat % 2 = 0) && decide (0xE0 ≤ v.toNat ∧ v.toNat ≤ 0xEE))

/-- A 64-bit destination: an even pair (R123), or a pushed queue, which takes two elements of a 64-bit type (R39, R235). DEDUCED (log entry 14) for a
short 64-bit result. -/
def pairDst (slice : Bool) (v : Byte) : Bool :=
  pairReg v || (dstOk slice v && decide (0xD0 ≤ v.toNat) && !isZero v)

/-- A predicate operand (R123). -/
def predOk (v : Byte) : Bool := v.toNat ≤ 7

/-- A k destination (R123). -/
def kDst (v : Byte) : Bool := decide (0xE0 ≤ v.toNat ∧ v.toNat ≤ 0xEF)

/-- The number of a g or o register in its bank (R125). -/
def bankNum (v : Byte) : Nat := if isO v then v.toNat - 0xC0 else v.toNat

/-- E registers from v, v a g or o register numbered as a multiple of E, all in the bank (R125, R157; log entry 119). -/
def multiOk (v : Byte) (e : Nat) : Bool :=
  (isG v && decide (bankNum v % e = 0) && decide (bankNum v + e ≤ 192))
    || (isO v && decide (bankNum v % e = 0) && decide (bankNum v + e ≤ 8))

/-- What an 8-bit operand field must name. -/
inductive Opnd where
  | unused | src | pair | predS | predD | dst | dstPair | kD | g | gOrO | gOZero | any (ok : Bool)
deriving DecidableEq, Repr

/-- R108: a field that is not used holds 0xF0. -/
def Opnd.required (o : Opnd) (v : Byte) : Bool :=
  match o with
  | .unused => isZero v
  | _ => true

/-- R108, R123: LK bits of an unused or predicate operand are 00. -/
def Opnd.lkRequired (o : Opnd) (lk : BitVec 2) : Bool :=
  match o with
  | .unused | .predS | .predD => lk = 0
  | _ => true

def Opnd.ok (slice : Bool) (o : Opnd) (v : Byte) : Bool :=
  match o with
  | .unused => true
  | .src => srcOk slice v
  | .pair => pairSrc v
  | .predS | .predD => predOk v
  | .dst => dstOk slice v
  | .dstPair => pairDst slice v
  | .kD => kDst v
  | .g => isG v
  | .gOrO => isG v || isO v
  | .gOZero => isG v || isO v || isZero v
  | .any b => b

/-- A source, or a destination, of the width of type t: the type field alone says what is a pair, whether or not the instruction permits
that type (R124; log entry 78). -/
def srcT (t : BitVec 4) : Opnd := if is64 t then .pair else .src
def dstT (t : BitVec 4) : Opnd := if is64 t then .dstPair else .dst

/-- The destination of an old value, of a width, or zero for none (R121). -/
def oldDst (wide : Bool) (v : Byte) : Opnd := if wide then .any (pairDst false v || isZero v) else .dst

/-- The first failing condition of a list in the order of R107. -/
def first : List (Cause × Bool) → Option Cause
  | [] => none
  | (_, true) :: r => first r
  | (c, false) :: _ => some c

/-- Conditions 2 to 8 of an instruction with the given cue, negate and predicate fields. -/
def conds (cue : BitVec 2) (neg : Bool) (p : BitVec 3) (c4 c6 c7 c8 : Bool) : Option Cause :=
  first [(.cue, cue != 3), (.reserved, c4), (.negate, !(neg && p = 7)), (.operand, c6), (.value, c7), (.ordering, c8)]

/-- A D-form instruction: its mod bits that must be zero, its operands, its value and ordering conditions. -/
def dForm (slice : Bool) (f : DForm) (modZero : BitVec 10) (d s1 s2 s3 : Opnd) (c7 : Bool := true) (c8 : Bool := true)
    (c4 : Bool := true) : Option Cause :=
  conds f.cue f.neg f.p
    (f.mod &&& modZero == 0 && d.required f.d && s1.required f.s1 && s2.required f.s2 && s3.required f.s3
      && s1.lkRequired f.s1lk && s2.lkRequired f.s2lk && s3.lkRequired f.s3lk && c4)
    (d.ok slice f.d && s1.ok slice f.s1 && s2.ok slice f.s2 && s3.ok slice f.s3) c7 c8

/-! The mod layouts of R125. -/

/-- Type of the classes INT, CMP, FLT, CVT and XL. -/
def mType (f : DForm) : BitVec 4 := f.mod.extractLsb' 6 4
/-- Rounding code of FLT, CVT and XL. -/
def mRound (f : DForm) : BitVec 3 := f.mod.extractLsb' 3 3
def mSat (f : DForm) : Bool := f.mod.getLsbD 5
def mCond (f : DForm) : BitVec 4 := f.mod.extractLsb' 2 4
def mSub (f : DForm) : BitVec 3 := f.mod.extractLsb' 0 3
def mCvtSat (f : DForm) : Bool := f.mod.getLsbD 2
/-- Count E of CVT, CVTS, PACK and UNPACK. -/
def mCount (f : DForm) : Nat := 2 ^ (f.mod.extractLsb' 0 2).toNat
def mScope (f : DForm) : BitVec 4 := f.mod.extractLsb' 6 4
def mOrder (f : DForm) : BitVec 3 := f.mod.extractLsb' 3 3

def intType (t : BitVec 4) : Bool := t.toNat < 8
def fltType (t : BitVec 4) : Bool := decide (8 ≤ t.toNat ∧ t.toNat ≤ 0xA)
def roundOk (r : BitVec 3) : Bool := r.toNat ≤ 4

/-- INT class (R125): type and sat. -/
def intD (sl : Bool) (f : DForm) (satOk : Bool) (d s1 s2 s3 : Opnd) : Option Cause :=
  dForm sl f 0x01F d s1 s2 s3 (intType (mType f) && (satOk || !mSat f))

/-- CMP class (R125). -/
def cmpD (sl : Bool) (f : DForm) (types : BitVec 4 → Bool) (conds : Nat) : Option Cause :=
  let s := srcT (mType f)
  dForm sl f 0x003 .predD s s .unused (types (mType f) && decide ((mCond f).toNat < conds))

/-- FLT class (R125); `rne` where the rounding code must be 000. -/
def fltD (sl : Bool) (f : DForm) (types : BitVec 4 → Bool) (rne : Bool) (d s1 s2 s3 : Opnd) : Option Cause :=
  dForm sl f 0x007 d s1 s2 s3 (types (mType f) && roundOk (mRound f) && (!rne || mRound f = 0))

/-- The E sources of CVT, CVTS and PACK (R125, R157). -/
def multiSrc (sl : Bool) (v : Byte) (e : Nat) (wide : Bool) : Bool :=
  if e = 1 then (if wide then pairSrc v else srcOk sl v) else multiOk v (if wide then 2 * e else e)

def packType (t : BitVec 4) : Bool := decide (t.toNat < 4) || decide (t.toNat = 8 ∨ t.toNat = 9) || decide (0xC ≤ t.toNat)

/-! Scope and order (R130 to R132). -/

/-- Scope and order codes, and plain without a scope. -/
def soOk (scope : BitVec 4) (order : BitVec 3) : Bool :=
  decide (scope.toNat ≤ 0xB) && decide (order.toNat ≤ 4) && (order != 0 || scope = 0)

/-- Orders of loads and waits: plain, .rlx, .acq. -/
def loadOrder (o : BitVec 3) : Bool := o.toNat ≤ 2
/-- Orders of stores: plain, .rlx, .rel. -/
def storeOrder (o : BitVec 3) : Bool := o = 0 || o = 1 || o = 3
/-- Orders of atomics and packets: .rlx, .acq, .rel, .ar. -/
def atomOrder (o : BitVec 3) : Bool := decide (1 ≤ o.toNat ∧ o.toNat ≤ 4)
/-- Scratchpad instructions: .th, .grp, .ens (R202). -/
def padScope (s : BitVec 4) : Bool := s.toNat ≤ 2
/-- R202: an acquire needs a destination. -/
def acqDst (order : BitVec 3) (d : Byte) : Bool := !((order = 2 || order = 4) && isZero d)

/-- ORD class (R125). -/
def ordD (sl : Bool) (f : DForm) (orders : BitVec 3 → Bool) (scopes : BitVec 4 → Bool) (modZero : BitVec 10)
    (d s1 s2 s3 : Opnd) (c7 : Bool := true) (acq : Bool := true) : Option Cause :=
  dForm sl f modZero d s1 s2 s3 c7 (soOk (mScope f) (mOrder f) && orders (mOrder f) && scopes (mScope f) && acq)

/-- A DM instruction (R121, R129 to R132). -/
def dmForm (slice : Bool) (f : DMForm) (types : BitVec 4 → Bool) (orders : BitVec 3 → Bool) (d index : Opnd)
    (scopes : BitVec 4 → Bool := fun _ => true) (cached acq : Bool := true) (hint : Bool := false) : Option Cause :=
  conds f.cue f.neg f.p (d.required f.d && index.required f.index)
    (d.ok slice f.d && index.ok slice f.index && pairSrc f.base && cached)
    (types f.type)
    (soOk f.scope f.order && orders f.order && scopes f.scope && acq && f.cache != 3 && (hint || f.cache = 0))

def memType (t : BitVec 4) : Bool := t != 0xE
def atomType (t : BitVec 4) : Bool := decide (4 ≤ t.toNat ∧ t.toNat ≤ 7)
def faddType (t : BitVec 4) : Bool := decide (8 ≤ t.toNat ∧ t.toNat ≤ 0xB)

/-- LD, LDF, LDS: in the access slice the destination is q0 to q7 (R232). -/
def loadD (sl : Bool) (f : DMForm) (pad hint : Bool) : Option Cause :=
  dmForm sl f memType loadOrder (dstT f.type) .src (fun s => !pad || padScope s) (!sl || decide (0xD0 ≤ f.d.toNat ∧ f.d.toNat ≤ 0xD7)) true hint

/-- A data source in the d field: any source of the type (R121). -/
def storeD (sl : Bool) (f : DMForm) (orders : BitVec 3 → Bool) (pad : Bool) : Option Cause :=
  dmForm sl f memType orders (srcT f.type) .src (fun s => !pad || padScope s)

/-- ATOM and ATOMS (R217); `.cas` also reads d. -/
def atomD (f : DMForm) (types : BitVec 4 → Bool) (pad cas : Bool) : Option Cause :=
  dmForm false f types atomOrder (oldDst (is64 f.type) f.d) (srcT f.type) (fun s => !pad || padScope s)
    (!cas || (srcT f.type).ok false f.d) (acqDst f.order f.d)

def redD (f : DMForm) (types : BitVec 4 → Bool) : Option Cause :=
  dmForm false f types storeOrderRed .unused (srcT f.type)
where
  /-- RED: .rlx, .rel (R131). -/
  storeOrderRed (o : BitVec 3) : Bool := o = 1 || o = 3

def atomqD (f : DMForm) (index : Opnd) : Option Cause :=
  dmForm false f (fun t => t = 5) atomOrder (oldDst (is64 f.type) f.d) index (acq := acqDst f.order f.d)

/-! The 16- and 32-bit forms. -/

/-- A 6-bit destination (R113). -/
def d6Ok (v : BitVec 6) : Bool := decide (v.toNat ≤ 56) || v = 58

def wForm (f : WForm) (useD use1 use2 : Bool) (c6 : Bool := true) : Option Cause :=
  conds f.cue false f.p ((useD || f.d = 58) && (use1 || f.s1 = 58) && (use2 || f.s2 = 58)) ((!useD || d6Ok f.d) && c6) true true

def wBin (f : WForm) : Option Cause := wForm f true true true
def wUn (f : WForm) : Option Cause := wForm f true true false
def wImm (f : WImmForm) : Option Cause := conds f.cue false f.p true (d6Ok f.d) true true
def wi (f : WIForm) : Option Cause := conds f.cue false f.p true (d6Ok f.d) true true

/-! DP and DI. -/

/-- A DP source: a permutation of g, o, l0 or l1 alone, and the limits of R45. -/
def dpSrc (sl : Bool) (v : Byte) (pat : BitVec 3) (amt : BitVec 5) : Bool :=
  srcOk sl v && decide (pat.toNat ≤ 4) && (pat = 0 || decide (v.toNat ≤ 0xC9)) && (pat != 4 || decide (amt.toNat ≤ 5))

/-- A DP instruction; `modZero` are the mod bits that R119 does not permit. -/
def dpForm (sl : Bool) (f : DPForm) (modZero : BitVec 4) (two : Bool) (c7 : Bool := true) : Option Cause :=
  conds f.cue f.neg f.p (f.mod &&& modZero == 0 && (two || (isZero f.s2 && f.s2lk = 0 && f.s2pat = 0)))
    (dstOk sl f.d && dpSrc sl f.s1 f.s1pat f.s1amt && (!two || dpSrc sl f.s2 f.s2pat f.s2amt)) c7 true

def dpRound (f : DPForm) : BitVec 3 := f.mod.extractLsb' 1 3

def diForm (sl : Bool) (f : DIForm) (d s1 : Opnd) : Option Cause :=
  conds f.cue f.neg f.p (d.required f.d && s1.required f.s1) (d.ok sl f.d && s1.ok sl f.s1) true true

/-- Matrix instructions: no source carries LK bits, and d is zero (R242). -/
def matD (f : DForm) (modZero : BitVec 10) (s1 s2 s3 : Opnd) (c7 : Bool := true) : Option Cause :=
  dForm false f modZero .unused s1 s2 s3 c7 true (f.s1lk = 0 && f.s2lk = 0 && f.s3lk = 0)

/-- A descriptor of n registers (R222, R227, R242). -/
def descr (v : Byte) (n : Nat) : Opnd := .any (isG v && decide (v.toNat % n = 0) && decide (v.toNat + n ≤ 192))

/-- Scale registers of MMA and MMAB (R242): gk, or zero with a count field of 00. -/
def scaleReg (v : Byte) (n : BitVec 2) : Opnd :=
  .any ((isG v && decide (v.toNat + n.toNat ≤ 191)) || (isZero v && n = 0))

def mmaChk (f : DForm) : Option Cause :=
  matD f 0x207 (descr f.s1 8) (scaleReg f.s2 (f.mod.extractLsb' 5 2)) (scaleReg f.s3 (f.mod.extractLsb' 3 2))

/-- BAR and EBAR (R240). -/
def barChk (f : DForm) (ids : Nat) : Option Cause :=
  dForm false f 0x007 .unused (if f.mod.getLsbD 4 then .src else .unused) (if f.mod.getLsbD 3 then .src else .unused) .unused
    (decide ((mType f).toNat < ids))

end WellFormed

open WellFormed in
/-- R232: the instructions the access slice accepts. -/
def Instr.inSlice : Instr → Bool
  | .movH _ | .iaddH _ | .isubH _ | .imulH _ | .andH _ | .orH _ | .xorH _ | .shlH _ | .shrH _ | .sarH _ | .iminH _ | .imaxH _
  | .movW _ | .iaddW _ | .isubW _ | .imulW _ | .imulhW _ | .iminW _ | .imaxW _ | .andW _ | .orW _ | .xorW _ | .andnW _ | .notW _
  | .shlW _ | .shrW _ | .sarW _ | .rotW _ | .popcW _ | .clzW _ | .ctzW _ | .brevW _ | .inegW _ | .iabsW _
  | .iaddWimm _ | .imulWimm _ | .andWimm _ | .orWimm _ | .xorWimm _ | .shlWimm _ | .shrWimm _ | .sarWimm _ | .rotWimm _
  | .iminWimm _ | .imaxWimm _ | .moviWi _ | .iaddWi _ | .imulWi _ | .andWi _ | .orWi _ | .xorWi _ | .iminWi _ | .imaxWi _
  | .braWi _ | .checkW _ | .nopW _ | .exitW _
  | .movD _ | .iaddD _ | .iaddxD _ | .isubD _ | .imulD _ | .imulhD _ | .imadD _ | .iabsD _ | .inegD _ | .iminD _ | .imaxD _
  | .icmpD _ | .selD _ | .andD _ | .orD _ | .xorD _ | .notD _ | .andnD _ | .tbl3D _ | .shlD _ | .shrD _ | .sarD _ | .rotD _
  | .funnelD _ | .bfxD _ | .bfiD _ | .popcD _ | .clzD _ | .ctzD _ | .brevD _ | .leaD _ | .ptblD _ | .pmovD _ | .checkD _ | .ispoiD _
  | .movDp _ | .iaddDp _ | .isubDp _ | .imulDp _ | .iminDp _ | .imaxDp _ | .andDp _ | .orDp _ | .xorDp _ | .shlDp _ | .shrDp _
  | .braDi _ | .brxD _ | .exitD _ | .nopD _ | .moviDi _
  | .ldDm _ | .ldfDm _ | .ldsDm _ | .stDm _ | .stsDm _ | .astrD _ | .agatDm _ | .asctDm _ => true
  | _ => false

/-- R201: the instructions that exist in the access slice alone. -/
def Instr.onlySlice : Instr → Bool
  | .astrD _ | .agatDm _ | .asctDm _ => true
  | _ => false

/-- What the opcode map of a warp, or of the access slice, holds (R201, R232). -/
def Instr.allowed (slice : Bool) (i : Instr) : Bool := if slice then i.inSlice else !i.onlySlice

open WellFormed in
/-- The first condition 2, 4 to 8 of R107 that the instruction's fields break, for a warp or for the access slice (R122,
R232); the condition 3 of the access subset stands with the opcodes, in Decode. A step that is no instruction breaks none. -/
def Instr.check (sl : Bool) (i : Instr) : Option Cause :=
  match i with
  | .movW f | .notW f | .popcW f | .clzW f | .ctzW f | .brevW f | .inegW f | .iabsW f
  | .frcpW f | .frsqW f | .fsqrtW f | .fexp2W f | .flog2W f | .fsinW f | .fcosW f | .ftanhW f => wUn f
  | .iaddW f | .isubW f | .imulW f | .imulhW f | .iminW f | .imaxW f | .andW f | .orW f | .xorW f | .andnW f
  | .shlW f | .shrW f | .sarW f | .rotW f | .faddW f | .fsubW f | .fmulW f | .fminW f | .fmaxW f
  | .hpaddW f | .hpmulW f | .hpmaxW f => wBin f
  | .iaddWimm f | .imulWimm f | .andWimm f | .orWimm f | .xorWimm f | .shlWimm f | .shrWimm f | .sarWimm f
  | .rotWimm f | .iminWimm f | .imaxWimm f => wImm f
  | .moviWi f | .iaddWi f | .imulWi f | .andWi f | .orWi f | .xorWi f | .iminWi f | .imaxWi f => wi f
  | .braWi f => conds f.cue false f.p (f.d = 58) true true true
  | .checkW f => wForm f false true false
  | .nopW f | .exitW f | .holdW f | .yieldW f => wForm f false false false
  | .retW f => wForm f false true false (decide (f.s1.toNat % 2 = 0 ∧ f.s1.toNat ≤ 46))
  | .movD f => let t := mType f; intD sl f false (dstT t) (srcT t) .unused .unused
  | .notD f | .brevD f => let t := mType f; intD sl f false (dstT t) (srcT t) .unused .unused
  | .iabsD f | .inegD f => let t := mType f; intD sl f true (dstT t) (srcT t) .unused .unused
  | .iaddD f | .isubD f | .imulD f => let t := mType f; intD sl f true (dstT t) (srcT t) (srcT t) .unused
  | .imulhD f | .iminD f | .imaxD f | .andD f | .orD f | .xorD f | .andnD f =>
    let t := mType f; intD sl f false (dstT t) (srcT t) (srcT t) .unused
  | .iaddxD f | .imadD f => let t := mType f; intD sl f true (dstT t) (srcT t) (srcT t) (srcT t)
  | .selD f => let t := mType f; intD sl f false (dstT t) (srcT t) (srcT t) .predS
  | .shlD f | .shrD f | .sarD f | .rotD f | .bfxD f => let t := mType f; intD sl f false (dstT t) (srcT t) .src .unused
  | .funnelD f | .bfiD f => let t := mType f; intD sl f false (dstT t) (srcT t) (srcT t) .src
  | .popcD f | .clzD f | .ctzD f => intD sl f false .dst (srcT (mType f)) .unused .unused
  | .leaD f => let t := mType f; intD sl f false (dstT t) (srcT t) .src .src
  | .icmpD f => cmpD sl f intType 6
  | .fcmpD f => cmpD sl f fltType 8
  | .dcmpD f => cmpD sl f (fun t => t = 0xB) 8
  | .tbl3D f => dForm sl f 0x300 .dst .src .src .src
  | .ptblD f => dForm sl f 0x300 .predD .predS .predS .predS
  | .dp4D f | .dp8D f => dForm sl f 0x07F .dst .src .src .src
  | .faddD f | .fsubD f | .fmulD f | .fdivfixD f => let t := mType f; fltD sl f fltType false (dstT t) (srcT t) (srcT t) .unused
  | .fscaleD f => let t := mType f; fltD sl f fltType false (dstT t) (srcT t) .src .unused
  | .fminD f | .fmaxD f => let t := mType f; fltD sl f fltType true (dstT t) (srcT t) (srcT t) .unused
  | .ffmaD f => let t := mType f; fltD sl f fltType false (dstT t) (srcT t) (srcT t) (srcT t)
  | .frcpD f | .frsqD f | .fsqrtD f | .fexp2D f | .flog2D f | .fsinD f | .fcosD f | .ftanhD f | .frndD f =>
    let t := mType f; fltD sl f fltType false (dstT t) (srcT t) .unused .unused
  | .fclassD f => fltD sl f fltType true .dst (srcT (mType f)) .unused .unused
  | .daddD f | .dmulD f => let t := mType f; fltD sl f (fun t => t = 0xB) false (dstT t) (srcT t) (srcT t) .unused
  | .dfmaD f => let t := mType f; fltD sl f (fun t => t = 0xB) false (dstT t) (srcT t) (srcT t) (srcT t)
  | .hpaddD f | .hpmulD f => let t := mType f; fltD sl f (fun t => t = 8 || t = 9) false (dstT t) (srcT t) (srcT t) .unused
  | .hpfmaD f => let t := mType f; fltD sl f (fun t => t = 8 || t = 9) false (dstT t) (srcT t) (srcT t) (srcT t)
  | .hpmaxD f => let t := mType f; fltD sl f (fun t => t = 8 || t = 9) true (dstT t) (srcT t) (srcT t) .unused
  | .packD f => dForm sl f 0 .dst (.any (multiSrc sl f.s1 (mCount f) false)) .unused .unused
      (packType (mType f) && roundOk (mRound f) && decide (mCount f * width (mType f) ≤ 32))
  | .unpackD f => dForm sl f 0x03C (.any (if mCount f = 1 then dstOk sl f.d else multiOk f.d (mCount f) || isZero f.d)) .src .src .unused
      (packType (mType f) && decide (mCount f * width (mType f) ≤ 32))
  | .cvtD dt f => dForm sl f 0 (dstT dt) (.any (multiSrc sl f.s1 (mCount f) (is64 (mType f)))) .unused .unused
      (roundOk (mRound f) && (decide (mCount f = 1) || decide (mCount f * width dt ≤ 32)))
  | .cvtsD dt f => dForm sl f 0x038 (dstT dt) (.any (multiSrc sl f.s1 (mCount f) (is64 (mType f)))) (.any (kDst f.s2)) .src
      ((mType f = 0xA || mType f = 0xB) && decide (mCount f * width dt ≤ 32))
  | .shflD f => let t := mType f; dForm sl f 0x006 (dstT t) (srcT t) .src (srcT t) ((t = 5 || t = 7) && mRound f = 0)
  | .ballotD f => dForm sl f 0 .dst .predS .unused .unused (mType f = 0 && mRound f = 0 && mSub f = 0)
  | .agreeD f => dForm sl f 0 .predD .predS .unused .unused (mType f = 0 && mRound f = 0 && decide ((mSub f).toNat ≤ 2))
  | .vredD f | .vpfxD f =>
    let t := mType f; let flt := t = 0xA || t = 0xB
    dForm sl f 0 (dstT t) (srcT t) .unused .unused
      ((atomType t || flt) && decide ((mSub f).toNat ≤ 5) && (decide ((mSub f).toNat < 3) || atomType t)
        && roundOk (mRound f) && (mRound f = 0 || (flt && mSub f = 0)))
  | .matchD f | .conflD f => dForm sl f 0 .dst (srcT (mType f)) .unused .unused (atomType (mType f) && mRound f = 0 && mSub f = 0)
  | .xsectD f => dForm sl f 0 .dst (srcT (mType f)) (srcT (mType f)) .unused (atomType (mType f) && mRound f = 0 && mSub f = 0)
  | .pmovD f | .ispoiD f => dForm sl f 0x3FF .predD .src .unused .unused
  | .checkD f => dForm sl f 0x3FF .unused .src .unused .unused
  | .pclrD f => dForm sl f 0x3FF .dst .src .src .unused
  | .movDp f => dpForm sl f 0xF false
  | .iaddDp f | .isubDp f | .imulDp f => dpForm sl f 0x7 true
  | .iminDp f | .imaxDp f => dpForm sl f 0xB true
  | .andDp f | .orDp f | .xorDp f | .shlDp f | .shrDp f | .fminDp f | .fmaxDp f => dpForm sl f 0xF true
  | .faddDp f | .fsubDp f | .fmulDp f => dpForm sl f 0x1 true (roundOk (dpRound f))
  | .braDi f | .trapDi f | .brkDi f => diForm sl f .unused .unused
  | .callDi f => diForm sl f (.any (pairReg f.d || isZero f.d)) .unused
  | .moviDi f => diForm sl f .dst .unused
  | .kmovDi f | .kaddDi f => diForm sl f .kD .src
  | .brxD f | .retD f | .migrD f => dForm sl f 0x3FF .unused .pair .unused .unused
  | .callxD f => dForm sl f 0x3FF (.any (pairReg f.d || isZero f.d)) .pair .unused .unused
  | .exitD f | .nopD f | .holdD f | .yieldD f | .regionD f | .trigD f => dForm sl f 0x3FF .unused .unused .unused .unused
  | .spawnD f =>
    let n := (f.mod.extractLsb' 0 4).toNat
    dForm sl f 0x3F0 .unused .pair .pair
      (if n = 0 then .unused else .any (isG f.s3 && decide (f.s3.toNat + n ≤ 192))) (decide (n ≤ 8))
  | .homeD f => dForm sl f 0x3FF .gOrO .pair .unused .unused
  | .racqD f => dForm sl f 0x3F0 (if f.mod.getLsbD 3 then .predD else .unused) .unused .unused .unused
      (decide (1 ≤ (mSub f).toNat ∧ (mSub f).toNat ≤ 4))
  | .rrelD f => dForm sl f 0x3F8 .unused .unused .unused .unused (decide ((mSub f).toNat ≤ 3))
  | .statD f =>
    let k := f.mod.extractLsb' 0 2
    dForm sl f 0x3FC .gOrO (if k = 0 then .unused else .src) .unused .unused (k != 3)
  | .tapeD f => dForm sl f 0x3FF (.any (kDst f.d && decide (f.d.toNat % 4 = 0))) .pair .pair .unused
  | .fbeginD f | .fcommitD f => dForm sl f 0x3FF .gOZero .unused .unused .unused
  | .fabortD f => dForm sl f 0x3FF .unused .src .unused .unused
  | .launchD f => dForm sl f 0x3FF .unused .pair .src .unused
  | .ldDm f => loadD sl f false true
  | .ldfDm f => loadD sl f false true
  | .ldsDm f => loadD sl f true false
  | .stDm f => storeD sl f storeOrder false
  | .stsDm f => storeD sl f storeOrder true
  | .stmDm f => storeD sl f storeOrder true
  | .ldwDm f => dmForm sl f memType (fun o => o = 0) (dstT f.type) .src
  | .stwDm f => storeD sl f (fun o => o = 0) false
  | .ldgDm f => dmForm sl f memType loadOrder (dstT f.type) .pair (hint := true)
  | .pmaxDm f => dmForm sl f (fun t => t = 7) atomOrder (oldDst true f.d) .pair padScope true (acqDst f.order f.d)
  | .agatDm f => dmForm sl f memType (fun o => o = 0) (.any (decide (0xD0 ≤ f.d.toNat ∧ f.d.toNat ≤ 0xD7))) .src (hint := true)
  | .asctDm f => dmForm sl f memType (fun o => o = 0) (.any (f.d = 0xDC || f.d = 0xDD)) .src
  | .kldDm f => dmForm sl f (fun t => t = 5) (fun o => o = 0) .kD .src
  | .atomAdd f | .atomMin f | .atomMax f | .atomAnd f | .atomOr f | .atomXor f | .atomXchg f => atomD f atomType false false
  | .atomCas f => atomD f atomType false true
  | .atomFadd f => atomD f faddType false false
  | .atomqBinc f | .atomqWinc f | .atomqLadd f => atomqD f (srcT f.type)
  | .atomqCdec f => atomqD f .unused
  | .atomsAdd f | .atomsMin f | .atomsMax f | .atomsAnd f | .atomsOr f | .atomsXor f | .atomsXchg f => atomD f atomType true false
  | .atomsCas f => atomD f atomType true true
  | .atomsFadd f => atomD f faddType true false
  | .redAdd f | .redMin f | .redMax f | .redAnd f | .redOr f | .redXor f => redD f atomType
  | .redFadd f => redD f faddType
  | .cpyD f => ordD sl f storeOrderCpy (fun _ => true) 0 .unused .pair .pair (descr f.s3 4) (decide ((mSub f).toNat ≤ 4))
  | .cpytD f => ordD sl f storeOrderCpy (fun _ => true) 0 .unused .pair .pair .pair (decide ((mSub f).toNat ≤ 4))
  | .opkD f => ordD sl f atomOrder (fun _ => true) 0x007 (.any (pairReg f.d || isZero f.d)) .pair (descr f.s2 4) .pair true
      (acqDst (mOrder f) f.d)
  | .mwaitD f => ordD sl f loadOrder (fun _ => true) 0 .dst .pair .src .unused (decide ((mSub f).toNat ≤ 5))
  | .waitaD f => ordD sl f loadOrder padScope 0 .dst .src .src .unused (decide ((mSub f).toNat ≤ 5))
  | .waitcD f => dForm sl f 0x001 .unused .unused .unused .unused (decide ((f.mod.extractLsb' 1 3).toNat ≤ 4))
  | .fenceD f => ordD sl f (fun o => decide (2 ≤ o.toNat ∧ o.toNat ≤ 4)) (fun _ => true) 0x007 .unused .unused .unused .unused
  | .barD f => barChk f 16
  | .ebarD f => barChk f 4
  | .astrD f => ordD sl f (fun o => o = 0) (fun _ => true) 0 (.any (decide (0xD0 ≤ f.d.toNat ∧ f.d.toNat ≤ 0xD7))) .pair .pair .unused
      (decide ((mSub f).toNat ≤ 1))
  | .mmaD f | .mmabD f => mmaChk f
  | .mzeroD f => matD f 0x3FF .src .src .unused
  | .maccD f => matD f 0x01F .src .src .pair (mType f = 5 || mType f = 8 || mType f = 9)
  | .selcD f => matD f 0x3FF (descr f.s1 4) .unused .unused
  | _ => none
where
  /-- Copies: plain, .rel (R131). -/
  storeOrderCpy (o : BitVec 3) : Bool := o = 0 || o = 3

/-- An instruction that a warp's decoder accepts (R107): it is one, and no condition fails. -/
def Instr.wf (i : Instr) : Bool := i.check false = none

end Sys2Proof
end

