-- ==== Sys2Proof/Decode.lean ====
section
/-! DEFINITION. The decoder of spec/05_encoding.md, total on any bytes, and after it the encoder. -/

namespace Sys2Proof

/-- The fields of an encoding, split by form (R109, R112, R117), before its opcode is looked up. -/
inductive Raw where
  | h (op : BitVec 4) (f : HForm)
  | w (op : BitVec 7) (f : WForm)
  | wimm (op : BitVec 7) (f : WImmForm)
  | wi (op : BitVec 7) (f : WIForm)
  | d (op : Byte) (f : DForm)
  | dp (op : Byte) (f : DPForm)
  | di (op : Byte) (f : DIForm)
  | dm (op : Byte) (f : DMForm)
deriving DecidableEq, Repr

/-- The thirteen last instructions of the table. Lean's runtime holds no value with fields under a constructor numbered above
243, so the decoder carries these as a type of their own and `Decoded.instr` says which instruction each is. -/
inductive Late where
  | opkD (f : DForm)
  | mwaitD (f : DForm)
  | waitaD (f : DForm)
  | waitcD (f : DForm)
  | fenceD (f : DForm)
  | barD (f : DForm)
  | ebarD (f : DForm)
  | astrD (f : DForm)
  | mmaD (f : DForm)
  | mmabD (f : DForm)
  | mzeroD (f : DForm)
  | maccD (f : DForm)
  | selcD (f : DForm)
deriving DecidableEq, Repr

/-- The instruction that a late one is. -/
noncomputable def Late.instr : Late → Instr
  | .opkD f => .opkD f
  | .mwaitD f => .mwaitD f
  | .waitaD f => .waitaD f
  | .waitcD f => .waitcD f
  | .fenceD f => .fenceD f
  | .barD f => .barD f
  | .ebarD f => .ebarD f
  | .astrD f => .astrD f
  | .mmaD f => .mmaD f
  | .mmabD f => .mmabD f
  | .mzeroD f => .mzeroD f
  | .maccD f => .maccD f
  | .selcD f => .selcD f

open WellFormed in
/-- `Instr.check` of the instruction (`Laws.late_check`). -/
def Late.check (sl : Bool) : Late → Option Cause
  | .opkD f => ordD sl f atomOrder (fun _ => true) 0x007 (.any (pairReg f.d || isZero f.d)) .pair (descr f.s2 4) .pair true
      (acqDst (mOrder f) f.d)
  | .mwaitD f => ordD sl f loadOrder (fun _ => true) 0 .dst .pair .src .unused (decide ((mSub f).toNat ≤ 5))
  | .waitaD f => ordD sl f loadOrder padScope 0 .dst .src .src .unused (decide ((mSub f).toNat ≤ 5))
  | .waitcD f => dForm sl f 0x001 .unused .unused .unused .unused (decide ((f.mod.extractLsb' 1 3).toNat ≤ 4))
  | .fenceD f => ordD sl f (fun o => decide (2 ≤ o.toNat ∧ o.toNat ≤ 4)) (fun _ => true) 0x007 .unused .unused .unused .unused
  | .barD f => barChk f 16
  | .ebarD f => barChk f 4
  | .astrD f => ordD sl f (fun o => o = 0) (fun _ => true) 0 (.any (decide (0xD0 ≤ f.d.toNat ∧ f.d.toNat ≤ 0xD7))) .pair .pair .unused
      (decide ((mSub f).toNat ≤ 1))
  | .mmaD f => mmaChk f
  | .mmabD f => mmaChk f
  | .mzeroD f => matD f 0x3FF .src .src .unused
  | .maccD f => matD f 0x01F .src .src .pair (mType f = 5 || mType f = 8 || mType f = 9)
  | .selcD f => matD f 0x3FF (descr f.s1 4) .unused .unused

/-- What the decoder finds. -/
inductive Decoded where
  | early (i : Instr)
  | late (l : Late)
deriving DecidableEq, Repr

noncomputable def Decoded.instr : Decoded → Instr
  | .early i => i
  | .late l => l.instr

def Decoded.check (sl : Bool) : Decoded → Option Cause
  | .early i => i.check sl
  | .late l => l.check sl

/-- R232. Of the late instructions, ASTR alone is in the access subset. -/
def Decoded.inSlice : Decoded → Bool
  | .early i => i.inSlice
  | .late (.astrD _) => true
  | .late _ => false

/-- R201. Of the late instructions, ASTR alone exists only there. -/
def Decoded.onlySlice : Decoded → Bool
  | .early i => i.onlySlice
  | .late (.astrD _) => true
  | .late _ => false

/-- Whether a warp, or the access slice, has the instruction (R201, R232). -/
def Decoded.allowed (slice : Bool) (d : Decoded) : Bool := if slice then d.inSlice else !d.onlySlice

/-- The length in bytes that the first halfword states (R105). -/
def lengthOf (b : Byte) : Nat :=
  if b.getLsbD 0 then (if b.getLsbD 1 then 8 else 4) else 2

/-- R109. -/
def hFields (w : Half) : HForm := ⟨w.extractLsb' 11 5, w.extractLsb' 6 5, w.getLsbD 1⟩
/-- R112. -/
def wFields (w : Word) : WForm :=
  ⟨w.extractLsb' 26 6, w.extractLsb' 20 6, w.extractLsb' 14 6, w.extractLsb' 4 3, w.extractLsb' 2 2⟩
/-- R112. -/
def wimmFields (w : Word) : WImmForm :=
  ⟨w.extractLsb' 26 6, w.extractLsb' 20 6, w.extractLsb' 14 6, w.extractLsb' 4 3, w.extractLsb' 2 2⟩
/-- R112. -/
def wiFields (w : Word) : WIForm := ⟨w.extractLsb' 20 12, w.extractLsb' 14 6, w.extractLsb' 4 3, w.extractLsb' 2 2⟩
/-- R116, R117. -/
def dFields (w : Dword) : DForm :=
  ⟨w.extractLsb' 54 10, w.extractLsb' 52 2, w.extractLsb' 44 8, w.extractLsb' 42 2, w.extractLsb' 34 8, w.extractLsb' 32 2,
    w.extractLsb' 24 8, w.extractLsb' 16 8, w.getLsbD 7, w.extractLsb' 4 3, w.extractLsb' 2 2⟩
/-- R116, R117. -/
def dpFields (w : Dword) : DPForm :=
  ⟨w.extractLsb' 60 4, w.extractLsb' 55 5, w.extractLsb' 52 3, w.extractLsb' 50 2, w.extractLsb' 42 8, w.extractLsb' 37 5,
    w.extractLsb' 34 3, w.extractLsb' 32 2, w.extractLsb' 24 8, w.extractLsb' 16 8, w.getLsbD 7, w.extractLsb' 4 3,
    w.extractLsb' 2 2⟩
/-- R116, R117. -/
def diFields (w : Dword) : DIForm :=
  ⟨w.extractLsb' 32 32, w.extractLsb' 24 8, w.extractLsb' 16 8, w.getLsbD 7, w.extractLsb' 4 3, w.extractLsb' 2 2⟩
/-- R116, R117. -/
def dmFields (w : Dword) : DMForm :=
  ⟨w.extractLsb' 55 9, w.extractLsb' 53 2, w.extractLsb' 50 3, w.extractLsb' 46 4, w.extractLsb' 42 4, w.extractLsb' 34 8,
    w.extractLsb' 32 2, w.extractLsb' 24 8, w.extractLsb' 16 8, w.getLsbD 7, w.extractLsb' 4 3, w.extractLsb' 2 2⟩

/-- A 32-bit form, its variant chosen by the wop (R115). -/
def splitWord (w : Word) : Raw :=
  let op := w.extractLsb' 7 7
  if 0x30 ≤ op.toNat ∧ op.toNat < 0x40 then .wimm op (wimmFields w)
  else if 0x40 ≤ op.toNat ∧ op.toNat < 0x50 then .wi op (wiFields w)
  else .w op (wFields w)

/-- A 64-bit form, chosen by the dop (R128). -/
def splitDword (w : Dword) : Raw :=
  let op := w.extractLsb' 8 8
  let n := op.toNat
  if 0x70 ≤ n ∧ n < 0x80 then .dp op (dpFields w)
  else if n = 0x80 ∨ n = 0x82 ∨ n = 0x90 ∨ n = 0x91 ∨ n = 0x92 ∨ n = 0x94 ∨ n = 0x95 then .di op (diFields w)
  else if 0xA0 ≤ n ∧ n < 0xE0 then .dm op (dmFields w)
  else .d op (dFields w)

/-- Little-endian bytes as one number (R2). -/
def ofBytes : List Byte → Nat
  | [] => 0
  | b :: r => b.toNat + 256 * ofBytes r

/-- The n lowest bytes of a number, little-endian (R2). -/
def toBytes : Nat → Nat → List Byte
  | 0, _ => []
  | n + 1, v => BitVec.ofNat 8 v :: toBytes n (v / 256)

/-- The fields of an instruction of len bytes. -/
def split (len v : Nat) : Raw :=
  if len = 2 then .h ((BitVec.ofNat 16 v).extractLsb' 2 4) (hFields (BitVec.ofNat 16 v))
  else if len = 4 then splitWord (BitVec.ofNat 32 v)
  else splitDword (BitVec.ofNat 64 v)

/-- The hop map (R111). -/
def hopMap (op : Nat) (f : HForm) : Option Decoded :=
  match op with
  | 0x0 => some (.early (.movH f))
  | 0x1 => some (.early (.iaddH f))
  | 0x2 => some (.early (.isubH f))
  | 0x3 => some (.early (.imulH f))
  | 0x4 => some (.early (.andH f))
  | 0x5 => some (.early (.orH f))
  | 0x6 => some (.early (.xorH f))
  | 0x7 => some (.early (.shlH f))
  | 0x8 => some (.early (.shrH f))
  | 0x9 => some (.early (.sarH f))
  | 0xA => some (.early (.iminH f))
  | 0xB => some (.early (.imaxH f))
  | 0xC => some (.early (.faddH f))
  | 0xD => some (.early (.fmulH f))
  | 0xE => some (.early (.fmaxH f))
  | 0xF => some (.early (.ffmaH f))
  | _ => none

/-- The wop map, W form (R115). -/
def wopMap (op : Nat) (f : WForm) : Option Decoded :=
  match op with
  | 0x00 => some (.early (.movW f))
  | 0x01 => some (.early (.iaddW f))
  | 0x02 => some (.early (.isubW f))
  | 0x03 => some (.early (.imulW f))
  | 0x04 => some (.early (.imulhW f))
  | 0x05 => some (.early (.iminW f))
  | 0x06 => some (.early (.imaxW f))
  | 0x07 => some (.early (.andW f))
  | 0x08 => some (.early (.orW f))
  | 0x09 => some (.early (.xorW f))
  | 0x0A => some (.early (.andnW f))
  | 0x0B => some (.early (.notW f))
  | 0x0C => some (.early (.shlW f))
  | 0x0D => some (.early (.shrW f))
  | 0x0E => some (.early (.sarW f))
  | 0x0F => some (.early (.rotW f))
  | 0x10 => some (.early (.popcW f))
  | 0x11 => some (.early (.clzW f))
  | 0x12 => some (.early (.ctzW f))
  | 0x13 => some (.early (.brevW f))
  | 0x14 => some (.early (.inegW f))
  | 0x15 => some (.early (.iabsW f))
  | 0x20 => some (.early (.faddW f))
  | 0x21 => some (.early (.fsubW f))
  | 0x22 => some (.early (.fmulW f))
  | 0x23 => some (.early (.fminW f))
  | 0x24 => some (.early (.fmaxW f))
  | 0x25 => some (.early (.frcpW f))
  | 0x26 => some (.early (.frsqW f))
  | 0x27 => some (.early (.fsqrtW f))
  | 0x28 => some (.early (.fexp2W f))
  | 0x29 => some (.early (.flog2W f))
  | 0x2A => some (.early (.fsinW f))
  | 0x2B => some (.early (.fcosW f))
  | 0x2C => some (.early (.ftanhW f))
  | 0x2D => some (.early (.hpaddW f))
  | 0x2E => some (.early (.hpmulW f))
  | 0x2F => some (.early (.hpmaxW f))
  | 0x50 => some (.early (.checkW f))
  | 0x51 => some (.early (.nopW f))
  | 0x52 => some (.early (.exitW f))
  | 0x53 => some (.early (.holdW f))
  | 0x54 => some (.early (.yieldW f))
  | 0x55 => some (.early (.retW f))
  | _ => none

/-- The wop map, immediate variant (R115). -/
def wimmMap (op : Nat) (f : WImmForm) : Option Decoded :=
  match op with
  | 0x30 => some (.early (.iaddWimm f))
  | 0x31 => some (.early (.imulWimm f))
  | 0x32 => some (.early (.andWimm f))
  | 0x33 => some (.early (.orWimm f))
  | 0x34 => some (.early (.xorWimm f))
  | 0x35 => some (.early (.shlWimm f))
  | 0x36 => some (.early (.shrWimm f))
  | 0x37 => some (.early (.sarWimm f))
  | 0x38 => some (.early (.rotWimm f))
  | 0x39 => some (.early (.iminWimm f))
  | 0x3A => some (.early (.imaxWimm f))
  | _ => none

/-- The wop map, WI form (R115). -/
def wiMap (op : Nat) (f : WIForm) : Option Decoded :=
  match op with
  | 0x40 => some (.early (.moviWi f))
  | 0x41 => some (.early (.iaddWi f))
  | 0x42 => some (.early (.imulWi f))
  | 0x43 => some (.early (.andWi f))
  | 0x44 => some (.early (.orWi f))
  | 0x45 => some (.early (.xorWi f))
  | 0x46 => some (.early (.iminWi f))
  | 0x47 => some (.early (.imaxWi f))
  | 0x48 => some (.early (.braWi f))
  | _ => none

/-- The dop map, D form (R128). The low nibble of CVT and CVTS is the destination type. -/
def dMap (op : Nat) (f : DForm) : Option Decoded :=
  match op with
  | 0x00 => some (.early (.movD f))
  | 0x01 => some (.early (.iaddD f))
  | 0x02 => some (.early (.iaddxD f))
  | 0x03 => some (.early (.isubD f))
  | 0x04 => some (.early (.imulD f))
  | 0x05 => some (.early (.imulhD f))
  | 0x06 => some (.early (.imadD f))
  | 0x07 => some (.early (.iabsD f))
  | 0x08 => some (.early (.inegD f))
  | 0x09 => some (.early (.iminD f))
  | 0x0A => some (.early (.imaxD f))
  | 0x0B => some (.early (.icmpD f))
  | 0x0C => some (.early (.selD f))
  | 0x0D => some (.early (.andD f))
  | 0x0E => some (.early (.orD f))
  | 0x0F => some (.early (.xorD f))
  | 0x10 => some (.early (.notD f))
  | 0x11 => some (.early (.andnD f))
  | 0x12 => some (.early (.tbl3D f))
  | 0x13 => some (.early (.shlD f))
  | 0x14 => some (.early (.shrD f))
  | 0x15 => some (.early (.sarD f))
  | 0x16 => some (.early (.rotD f))
  | 0x17 => some (.early (.funnelD f))
  | 0x18 => some (.early (.bfxD f))
  | 0x19 => some (.early (.bfiD f))
  | 0x1A => some (.early (.popcD f))
  | 0x1B => some (.early (.clzD f))
  | 0x1C => some (.early (.ctzD f))
  | 0x1D => some (.early (.brevD f))
  | 0x1E => some (.early (.leaD f))
  | 0x1F => some (.early (.dp4D f))
  | 0x20 => some (.early (.dp8D f))
  | 0x21 => some (.early (.faddD f))
  | 0x22 => some (.early (.fsubD f))
  | 0x23 => some (.early (.fmulD f))
  | 0x24 => some (.early (.ffmaD f))
  | 0x25 => some (.early (.fminD f))
  | 0x26 => some (.early (.fmaxD f))
  | 0x27 => some (.early (.fcmpD f))
  | 0x28 => some (.early (.fclassD f))
  | 0x29 => some (.early (.frcpD f))
  | 0x2A => some (.early (.frsqD f))
  | 0x2B => some (.early (.fsqrtD f))
  | 0x2C => some (.early (.fexp2D f))
  | 0x2D => some (.early (.flog2D f))
  | 0x2E => some (.early (.fsinD f))
  | 0x2F => some (.early (.fcosD f))
  | 0x30 => some (.early (.ftanhD f))
  | 0x31 => some (.early (.fscaleD f))
  | 0x32 => some (.early (.frndD f))
  | 0x33 => some (.early (.fdivfixD f))
  | 0x34 => some (.early (.daddD f))
  | 0x35 => some (.early (.dmulD f))
  | 0x36 => some (.early (.dfmaD f))
  | 0x37 => some (.early (.dcmpD f))
  | 0x38 => some (.early (.hpaddD f))
  | 0x39 => some (.early (.hpmulD f))
  | 0x3A => some (.early (.hpfmaD f))
  | 0x3B => some (.early (.hpmaxD f))
  | 0x3C => some (.early (.packD f))
  | 0x3D => some (.early (.unpackD f))
  | 0x40 => some (.early (.cvtD 0x0 f))
  | 0x41 => some (.early (.cvtD 0x1 f))
  | 0x42 => some (.early (.cvtD 0x2 f))
  | 0x43 => some (.early (.cvtD 0x3 f))
  | 0x44 => some (.early (.cvtD 0x4 f))
  | 0x45 => some (.early (.cvtD 0x5 f))
  | 0x46 => some (.early (.cvtD 0x6 f))
  | 0x47 => some (.early (.cvtD 0x7 f))
  | 0x48 => some (.early (.cvtD 0x8 f))
  | 0x49 => some (.early (.cvtD 0x9 f))
  | 0x4A => some (.early (.cvtD 0xA f))
  | 0x4B => some (.early (.cvtD 0xB f))
  | 0x4C => some (.early (.cvtD 0xC f))
  | 0x4D => some (.early (.cvtD 0xD f))
  | 0x4E => some (.early (.cvtD 0xE f))
  | 0x4F => some (.early (.cvtD 0xF f))
  | 0x58 => some (.early (.cvtsD 0x8 f))
  | 0x59 => some (.early (.cvtsD 0x9 f))
  | 0x5A => some (.early (.cvtsD 0xA f))
  | 0x5C => some (.early (.cvtsD 0xC f))
  | 0x5D => some (.early (.cvtsD 0xD f))
  | 0x5E => some (.early (.cvtsD 0xE f))
  | 0x60 => some (.early (.shflD f))
  | 0x61 => some (.early (.ballotD f))
  | 0x62 => some (.early (.agreeD f))
  | 0x63 => some (.early (.vpfxD f))
  | 0x64 => some (.early (.vredD f))
  | 0x65 => some (.early (.matchD f))
  | 0x66 => some (.early (.xsectD f))
  | 0x67 => some (.early (.conflD f))
  | 0x68 => some (.early (.ptblD f))
  | 0x69 => some (.early (.pmovD f))
  | 0x6A => some (.early (.checkD f))
  | 0x6B => some (.early (.ispoiD f))
  | 0x6C => some (.early (.pclrD f))
  | 0x81 => some (.early (.brxD f))
  | 0x83 => some (.early (.callxD f))
  | 0x84 => some (.early (.retD f))
  | 0x85 => some (.early (.exitD f))
  | 0x86 => some (.early (.nopD f))
  | 0x87 => some (.early (.holdD f))
  | 0x88 => some (.early (.yieldD f))
  | 0x89 => some (.early (.regionD f))
  | 0x8A => some (.early (.spawnD f))
  | 0x8B => some (.early (.migrD f))
  | 0x8C => some (.early (.homeD f))
  | 0x8D => some (.early (.racqD f))
  | 0x8E => some (.early (.rrelD f))
  | 0x8F => some (.early (.statD f))
  | 0x93 => some (.early (.tapeD f))
  | 0x96 => some (.early (.fbeginD f))
  | 0x97 => some (.early (.fcommitD f))
  | 0x98 => some (.early (.fabortD f))
  | 0x99 => some (.early (.launchD f))
  | 0x9A => some (.early (.trigD f))
  | 0xE0 => some (.early (.cpyD f))
  | 0xE1 => some (.early (.cpytD f))
  | 0xE2 => some (.late (.opkD f))
  | 0xE3 => some (.late (.mwaitD f))
  | 0xE4 => some (.late (.waitaD f))
  | 0xE5 => some (.late (.waitcD f))
  | 0xE6 => some (.late (.fenceD f))
  | 0xE7 => some (.late (.barD f))
  | 0xE8 => some (.late (.ebarD f))
  | 0xE9 => some (.late (.astrD f))
  | 0xF0 => some (.late (.mmaD f))
  | 0xF1 => some (.late (.mmabD f))
  | 0xF2 => some (.late (.mzeroD f))
  | 0xF3 => some (.late (.maccD f))
  | 0xF4 => some (.late (.selcD f))
  | _ => none

/-- The dop map, DP form (R128). -/
def dpMap (op : Nat) (f : DPForm) : Option Decoded :=
  match op with
  | 0x70 => some (.early (.movDp f))
  | 0x71 => some (.early (.iaddDp f))
  | 0x72 => some (.early (.isubDp f))
  | 0x73 => some (.early (.imulDp f))
  | 0x74 => some (.early (.iminDp f))
  | 0x75 => some (.early (.imaxDp f))
  | 0x76 => some (.early (.andDp f))
  | 0x77 => some (.early (.orDp f))
  | 0x78 => some (.early (.xorDp f))
  | 0x79 => some (.early (.shlDp f))
  | 0x7A => some (.early (.shrDp f))
  | 0x7B => some (.early (.faddDp f))
  | 0x7C => some (.early (.fsubDp f))
  | 0x7D => some (.early (.fmulDp f))
  | 0x7E => some (.early (.fminDp f))
  | 0x7F => some (.early (.fmaxDp f))
  | _ => none

/-- The dop map, DI form (R128). -/
def diMap (op : Nat) (f : DIForm) : Option Decoded :=
  match op with
  | 0x80 => some (.early (.braDi f))
  | 0x82 => some (.early (.callDi f))
  | 0x90 => some (.early (.moviDi f))
  | 0x91 => some (.early (.kmovDi f))
  | 0x92 => some (.early (.kaddDi f))
  | 0x94 => some (.early (.trapDi f))
  | 0x95 => some (.early (.brkDi f))
  | _ => none

/-- The dop map, DM form (R128). -/
def dmMap (op : Nat) (f : DMForm) : Option Decoded :=
  match op with
  | 0xA0 => some (.early (.ldDm f))
  | 0xA1 => some (.early (.stDm f))
  | 0xA2 => some (.early (.ldfDm f))
  | 0xA3 => some (.early (.ldsDm f))
  | 0xA4 => some (.early (.stsDm f))
  | 0xA5 => some (.early (.stmDm f))
  | 0xA6 => some (.early (.ldwDm f))
  | 0xA7 => some (.early (.stwDm f))
  | 0xA8 => some (.early (.ldgDm f))
  | 0xA9 => some (.early (.pmaxDm f))
  | 0xAA => some (.early (.agatDm f))
  | 0xAB => some (.early (.asctDm f))
  | 0xAC => some (.early (.kldDm f))
  | 0xB0 => some (.early (.atomAdd f))
  | 0xB1 => some (.early (.atomMin f))
  | 0xB2 => some (.early (.atomMax f))
  | 0xB3 => some (.early (.atomAnd f))
  | 0xB4 => some (.early (.atomOr f))
  | 0xB5 => some (.early (.atomXor f))
  | 0xB6 => some (.early (.atomXchg f))
  | 0xB7 => some (.early (.atomCas f))
  | 0xB8 => some (.early (.atomFadd f))
  | 0xBC => some (.early (.atomqBinc f))
  | 0xBD => some (.early (.atomqWinc f))
  | 0xBE => some (.early (.atomqCdec f))
  | 0xBF => some (.early (.atomqLadd f))
  | 0xC0 => some (.early (.atomsAdd f))
  | 0xC1 => some (.early (.atomsMin f))
  | 0xC2 => some (.early (.atomsMax f))
  | 0xC3 => some (.early (.atomsAnd f))
  | 0xC4 => some (.early (.atomsOr f))
  | 0xC5 => some (.early (.atomsXor f))
  | 0xC6 => some (.early (.atomsXchg f))
  | 0xC7 => some (.early (.atomsCas f))
  | 0xC8 => some (.early (.atomsFadd f))
  | 0xD0 => some (.early (.redAdd f))
  | 0xD1 => some (.early (.redMin f))
  | 0xD2 => some (.early (.redMax f))
  | 0xD3 => some (.early (.redAnd f))
  | 0xD4 => some (.early (.redOr f))
  | 0xD5 => some (.early (.redXor f))
  | 0xD8 => some (.early (.redFadd f))
  | _ => none

/-- The instruction that an opcode names. -/
def Raw.decoded : Raw → Option Decoded
  | .h op f => hopMap op.toNat f
  | .w op f => wopMap op.toNat f
  | .wimm op f => wimmMap op.toNat f
  | .wi op f => wiMap op.toNat f
  | .d op f => dMap op.toNat f
  | .dp op f => dpMap op.toNat f
  | .di op f => diMap op.toNat f
  | .dm op f => dmMap op.toNat f

/-- The cue field; an H instruction has none and its low bit pair never reads 11 (R109). -/
def Raw.cue : Raw → BitVec 2
  | .h _ _ => 0
  | .w _ f => f.cue
  | .wimm _ f => f.cue
  | .wi _ f => f.cue
  | .d _ f => f.cue
  | .dp _ f => f.cue
  | .di _ f => f.cue
  | .dm _ f => f.cue

/-- The conditions 2 to 8 of R107 in their order, for a warp or, where `slice`, for the access slice (R122, R232). -/
def decodeRaw (slice : Bool) (r : Raw) : Except Cause Decoded :=
  if r.cue = 3 then .error .cue else
  match r.decoded with
  | none => .error .opcode
  | some i =>
    if !i.allowed slice then .error .opcode else
    match i.check slice with
    | none => .ok i
    | some c => .error c

/-- The instruction at the head of a byte list and its length in bytes (R105, R107). Bytes that are missing are a fetch
that failed. -/
def decode (slice : Bool) (bytes : List Byte) : Except Cause (Decoded × Nat) :=
  match bytes with
  | [] => .error .fetch
  | b :: _ =>
    let len := lengthOf b
    if bytes.length < len then .error .fetch else
    match decodeRaw slice (split len (ofBytes (bytes.take len))) with
    | .ok i => .ok (i, len)
    | .error c => .error c

/-- The opcode and form of an instruction (R111, R115, R128); none for a step that is no instruction. CVT and CVTS have
an opcode only for the destination types of R128. -/
def Instr.raw : Instr → Option Raw
  | .movH f => some (.h 0x0 f)
  | .iaddH f => some (.h 0x1 f)
  | .isubH f => some (.h 0x2 f)
  | .imulH f => some (.h 0x3 f)
  | .andH f => some (.h 0x4 f)
  | .orH f => some (.h 0x5 f)
  | .xorH f => some (.h 0x6 f)
  | .shlH f => some (.h 0x7 f)
  | .shrH f => some (.h 0x8 f)
  | .sarH f => some (.h 0x9 f)
  | .iminH f => some (.h 0xA f)
  | .imaxH f => some (.h 0xB f)
  | .faddH f => some (.h 0xC f)
  | .fmulH f => some (.h 0xD f)
  | .fmaxH f => some (.h 0xE f)
  | .ffmaH f => some (.h 0xF f)
  | .movW f => some (.w 0x00 f)
  | .iaddW f => some (.w 0x01 f)
  | .isubW f => some (.w 0x02 f)
  | .imulW f => some (.w 0x03 f)
  | .imulhW f => some (.w 0x04 f)
  | .iminW f => some (.w 0x05 f)
  | .imaxW f => some (.w 0x06 f)
  | .andW f => some (.w 0x07 f)
  | .orW f => some (.w 0x08 f)
  | .xorW f => some (.w 0x09 f)
  | .andnW f => some (.w 0x0A f)
  | .notW f => some (.w 0x0B f)
  | .shlW f => some (.w 0x0C f)
  | .shrW f => some (.w 0x0D f)
  | .sarW f => some (.w 0x0E f)
  | .rotW f => some (.w 0x0F f)
  | .popcW f => some (.w 0x10 f)
  | .clzW f => some (.w 0x11 f)
  | .ctzW f => some (.w 0x12 f)
  | .brevW f => some (.w 0x13 f)
  | .inegW f => some (.w 0x14 f)
  | .iabsW f => some (.w 0x15 f)
  | .faddW f => some (.w 0x20 f)
  | .fsubW f => some (.w 0x21 f)
  | .fmulW f => some (.w 0x22 f)
  | .fminW f => some (.w 0x23 f)
  | .fmaxW f => some (.w 0x24 f)
  | .frcpW f => some (.w 0x25 f)
  | .frsqW f => some (.w 0x26 f)
  | .fsqrtW f => some (.w 0x27 f)
  | .fexp2W f => some (.w 0x28 f)
  | .flog2W f => some (.w 0x29 f)
  | .fsinW f => some (.w 0x2A f)
  | .fcosW f => some (.w 0x2B f)
  | .ftanhW f => some (.w 0x2C f)
  | .hpaddW f => some (.w 0x2D f)
  | .hpmulW f => some (.w 0x2E f)
  | .hpmaxW f => some (.w 0x2F f)
  | .checkW f => some (.w 0x50 f)
  | .nopW f => some (.w 0x51 f)
  | .exitW f => some (.w 0x52 f)
  | .holdW f => some (.w 0x53 f)
  | .yieldW f => some (.w 0x54 f)
  | .retW f => some (.w 0x55 f)
  | .iaddWimm f => some (.wimm 0x30 f)
  | .imulWimm f => some (.wimm 0x31 f)
  | .andWimm f => some (.wimm 0x32 f)
  | .orWimm f => some (.wimm 0x33 f)
  | .xorWimm f => some (.wimm 0x34 f)
  | .shlWimm f => some (.wimm 0x35 f)
  | .shrWimm f => some (.wimm 0x36 f)
  | .sarWimm f => some (.wimm 0x37 f)
  | .rotWimm f => some (.wimm 0x38 f)
  | .iminWimm f => some (.wimm 0x39 f)
  | .imaxWimm f => some (.wimm 0x3A f)
  | .moviWi f => some (.wi 0x40 f)
  | .iaddWi f => some (.wi 0x41 f)
  | .imulWi f => some (.wi 0x42 f)
  | .andWi f => some (.wi 0x43 f)
  | .orWi f => some (.wi 0x44 f)
  | .xorWi f => some (.wi 0x45 f)
  | .iminWi f => some (.wi 0x46 f)
  | .imaxWi f => some (.wi 0x47 f)
  | .braWi f => some (.wi 0x48 f)
  | .movD f => some (.d 0x00 f)
  | .iaddD f => some (.d 0x01 f)
  | .iaddxD f => some (.d 0x02 f)
  | .isubD f => some (.d 0x03 f)
  | .imulD f => some (.d 0x04 f)
  | .imulhD f => some (.d 0x05 f)
  | .imadD f => some (.d 0x06 f)
  | .iabsD f => some (.d 0x07 f)
  | .inegD f => some (.d 0x08 f)
  | .iminD f => some (.d 0x09 f)
  | .imaxD f => some (.d 0x0A f)
  | .icmpD f => some (.d 0x0B f)
  | .selD f => some (.d 0x0C f)
  | .andD f => some (.d 0x0D f)
  | .orD f => some (.d 0x0E f)
  | .xorD f => some (.d 0x0F f)
  | .notD f => some (.d 0x10 f)
  | .andnD f => some (.d 0x11 f)
  | .tbl3D f => some (.d 0x12 f)
  | .shlD f => some (.d 0x13 f)
  | .shrD f => some (.d 0x14 f)
  | .sarD f => some (.d 0x15 f)
  | .rotD f => some (.d 0x16 f)
  | .funnelD f => some (.d 0x17 f)
  | .bfxD f => some (.d 0x18 f)
  | .bfiD f => some (.d 0x19 f)
  | .popcD f => some (.d 0x1A f)
  | .clzD f => some (.d 0x1B f)
  | .ctzD f => some (.d 0x1C f)
  | .brevD f => some (.d 0x1D f)
  | .leaD f => some (.d 0x1E f)
  | .dp4D f => some (.d 0x1F f)
  | .dp8D f => some (.d 0x20 f)
  | .faddD f => some (.d 0x21 f)
  | .fsubD f => some (.d 0x22 f)
  | .fmulD f => some (.d 0x23 f)
  | .ffmaD f => some (.d 0x24 f)
  | .fminD f => some (.d 0x25 f)
  | .fmaxD f => some (.d 0x26 f)
  | .fcmpD f => some (.d 0x27 f)
  | .fclassD f => some (.d 0x28 f)
  | .frcpD f => some (.d 0x29 f)
  | .frsqD f => some (.d 0x2A f)
  | .fsqrtD f => some (.d 0x2B f)
  | .fexp2D f => some (.d 0x2C f)
  | .flog2D f => some (.d 0x2D f)
  | .fsinD f => some (.d 0x2E f)
  | .fcosD f => some (.d 0x2F f)
  | .ftanhD f => some (.d 0x30 f)
  | .fscaleD f => some (.d 0x31 f)
  | .frndD f => some (.d 0x32 f)
  | .fdivfixD f => some (.d 0x33 f)
  | .daddD f => some (.d 0x34 f)
  | .dmulD f => some (.d 0x35 f)
  | .dfmaD f => some (.d 0x36 f)
  | .dcmpD f => some (.d 0x37 f)
  | .hpaddD f => some (.d 0x38 f)
  | .hpmulD f => some (.d 0x39 f)
  | .hpfmaD f => some (.d 0x3A f)
  | .hpmaxD f => some (.d 0x3B f)
  | .packD f => some (.d 0x3C f)
  | .unpackD f => some (.d 0x3D f)
  | .shflD f => some (.d 0x60 f)
  | .ballotD f => some (.d 0x61 f)
  | .agreeD f => some (.d 0x62 f)
  | .vpfxD f => some (.d 0x63 f)
  | .vredD f => some (.d 0x64 f)
  | .matchD f => some (.d 0x65 f)
  | .xsectD f => some (.d 0x66 f)
  | .conflD f => some (.d 0x67 f)
  | .ptblD f => some (.d 0x68 f)
  | .pmovD f => some (.d 0x69 f)
  | .checkD f => some (.d 0x6A f)
  | .ispoiD f => some (.d 0x6B f)
  | .pclrD f => some (.d 0x6C f)
  | .brxD f => some (.d 0x81 f)
  | .callxD f => some (.d 0x83 f)
  | .retD f => some (.d 0x84 f)
  | .exitD f => some (.d 0x85 f)
  | .nopD f => some (.d 0x86 f)
  | .holdD f => some (.d 0x87 f)
  | .yieldD f => some (.d 0x88 f)
  | .regionD f => some (.d 0x89 f)
  | .spawnD f => some (.d 0x8A f)
  | .migrD f => some (.d 0x8B f)
  | .homeD f => some (.d 0x8C f)
  | .racqD f => some (.d 0x8D f)
  | .rrelD f => some (.d 0x8E f)
  | .statD f => some (.d 0x8F f)
  | .tapeD f => some (.d 0x93 f)
  | .fbeginD f => some (.d 0x96 f)
  | .fcommitD f => some (.d 0x97 f)
  | .fabortD f => some (.d 0x98 f)
  | .launchD f => some (.d 0x99 f)
  | .trigD f => some (.d 0x9A f)
  | .cpyD f => some (.d 0xE0 f)
  | .cpytD f => some (.d 0xE1 f)
  | .opkD f => some (.d 0xE2 f)
  | .mwaitD f => some (.d 0xE3 f)
  | .waitaD f => some (.d 0xE4 f)
  | .waitcD f => some (.d 0xE5 f)
  | .fenceD f => some (.d 0xE6 f)
  | .barD f => some (.d 0xE7 f)
  | .ebarD f => some (.d 0xE8 f)
  | .astrD f => some (.d 0xE9 f)
  | .mmaD f => some (.d 0xF0 f)
  | .mmabD f => some (.d 0xF1 f)
  | .mzeroD f => some (.d 0xF2 f)
  | .maccD f => some (.d 0xF3 f)
  | .selcD f => some (.d 0xF4 f)
  | .movDp f => some (.dp 0x70 f)
  | .iaddDp f => some (.dp 0x71 f)
  | .isubDp f => some (.dp 0x72 f)
  | .imulDp f => some (.dp 0x73 f)
  | .iminDp f => some (.dp 0x74 f)
  | .imaxDp f => some (.dp 0x75 f)
  | .andDp f => some (.dp 0x76 f)
  | .orDp f => some (.dp 0x77 f)
  | .xorDp f => some (.dp 0x78 f)
  | .shlDp f => some (.dp 0x79 f)
  | .shrDp f => some (.dp 0x7A f)
  | .faddDp f => some (.dp 0x7B f)
  | .fsubDp f => some (.dp 0x7C f)
  | .fmulDp f => some (.dp 0x7D f)
  | .fminDp f => some (.dp 0x7E f)
  | .fmaxDp f => some (.dp 0x7F f)
  | .braDi f => some (.di 0x80 f)
  | .callDi f => some (.di 0x82 f)
  | .moviDi f => some (.di 0x90 f)
  | .kmovDi f => some (.di 0x91 f)
  | .kaddDi f => some (.di 0x92 f)
  | .trapDi f => some (.di 0x94 f)
  | .brkDi f => some (.di 0x95 f)
  | .ldDm f => some (.dm 0xA0 f)
  | .stDm f => some (.dm 0xA1 f)
  | .ldfDm f => some (.dm 0xA2 f)
  | .ldsDm f => some (.dm 0xA3 f)
  | .stsDm f => some (.dm 0xA4 f)
  | .stmDm f => some (.dm 0xA5 f)
  | .ldwDm f => some (.dm 0xA6 f)
  | .stwDm f => some (.dm 0xA7 f)
  | .ldgDm f => some (.dm 0xA8 f)
  | .pmaxDm f => some (.dm 0xA9 f)
  | .agatDm f => some (.dm 0xAA f)
  | .asctDm f => some (.dm 0xAB f)
  | .kldDm f => some (.dm 0xAC f)
  | .atomAdd f => some (.dm 0xB0 f)
  | .atomMin f => some (.dm 0xB1 f)
  | .atomMax f => some (.dm 0xB2 f)
  | .atomAnd f => some (.dm 0xB3 f)
  | .atomOr f => some (.dm 0xB4 f)
  | .atomXor f => some (.dm 0xB5 f)
  | .atomXchg f => some (.dm 0xB6 f)
  | .atomCas f => some (.dm 0xB7 f)
  | .atomFadd f => some (.dm 0xB8 f)
  | .atomqBinc f => some (.dm 0xBC f)
  | .atomqWinc f => some (.dm 0xBD f)
  | .atomqCdec f => some (.dm 0xBE f)
  | .atomqLadd f => some (.dm 0xBF f)
  | .atomsAdd f => some (.dm 0xC0 f)
  | .atomsMin f => some (.dm 0xC1 f)
  | .atomsMax f => some (.dm 0xC2 f)
  | .atomsAnd f => some (.dm 0xC3 f)
  | .atomsOr f => some (.dm 0xC4 f)
  | .atomsXor f => some (.dm 0xC5 f)
  | .atomsXchg f => some (.dm 0xC6 f)
  | .atomsCas f => some (.dm 0xC7 f)
  | .atomsFadd f => some (.dm 0xC8 f)
  | .redAdd f => some (.dm 0xD0 f)
  | .redMin f => some (.dm 0xD1 f)
  | .redMax f => some (.dm 0xD2 f)
  | .redAnd f => some (.dm 0xD3 f)
  | .redOr f => some (.dm 0xD4 f)
  | .redXor f => some (.dm 0xD5 f)
  | .redFadd f => some (.dm 0xD8 f)
  | .cvtD dt f => some (.d (0x40 + dt.zeroExtend 8) f)
  | .cvtsD dt f => some (.d (0x50 + dt.zeroExtend 8) f)
  | _ => none

/-- H layout (R109). -/
def packH (op : BitVec 4) (f : HForm) : Half := f.b ++ f.a ++ op ++ BitVec.ofBool f.e ++ 0#1
/-- W layout (R112). -/
def packW (op : BitVec 7) (f : WForm) : Word := f.s2 ++ f.s1 ++ f.d ++ op ++ f.p ++ f.cue ++ 1#2
/-- W layout, immediate variant (R112). -/
def packWimm (op : BitVec 7) (f : WImmForm) : Word := f.imm ++ f.s1 ++ f.d ++ op ++ f.p ++ f.cue ++ 1#2
/-- WI layout (R112). -/
def packWi (op : BitVec 7) (f : WIForm) : Word := f.imm ++ f.d ++ op ++ f.p ++ f.cue ++ 1#2
/-- Bits [15:0] of a 64-bit form (R116). -/
def packLow (op : Byte) (neg : Bool) (p : BitVec 3) (cue : BitVec 2) : Half := op ++ BitVec.ofBool neg ++ p ++ cue ++ 3#2
/-- D layout (R117). -/
def packD (op : Byte) (f : DForm) : Dword :=
  f.mod ++ f.s3lk ++ f.s3 ++ f.s2lk ++ f.s2 ++ f.s1lk ++ f.s1 ++ f.d ++ packLow op f.neg f.p f.cue
/-- DP layout (R117). -/
def packDP (op : Byte) (f : DPForm) : Dword :=
  f.mod ++ f.s2amt ++ f.s2pat ++ f.s2lk ++ f.s2 ++ f.s1amt ++ f.s1pat ++ f.s1lk ++ f.s1 ++ f.d ++ packLow op f.neg f.p f.cue
/-- DI layout (R117). -/
def packDI (op : Byte) (f : DIForm) : Dword := f.imm ++ f.s1 ++ f.d ++ packLow op f.neg f.p f.cue
/-- DM layout (R117). -/
def packDM (op : Byte) (f : DMForm) : Dword :=
  f.offset ++ f.cache ++ f.order ++ f.scope ++ f.type ++ f.index ++ f.blk ++ f.base ++ f.d ++ packLow op f.neg f.p f.cue

/-- The length in bytes and the bits of an encoding. -/
def Raw.bits : Raw → Nat × Nat
  | .h op f => (2, (packH op f).toNat)
  | .w op f => (4, (packW op f).toNat)
  | .wimm op f => (4, (packWimm op f).toNat)
  | .wi op f => (4, (packWi op f).toNat)
  | .d op f => (8, (packD op f).toNat)
  | .dp op f => (8, (packDP op f).toNat)
  | .di op f => (8, (packDI op f).toNat)
  | .dm op f => (8, (packDM op f).toNat)

/-- The length of an instruction in bytes (R105). -/
def Instr.length (i : Instr) : Nat :=
  match i.raw with
  | some r => r.bits.1
  | none => 0

/-- The bytes of an instruction as memory holds them; none for a step that is no instruction. -/
def encode (i : Instr) : List Byte :=
  match i.raw with
  | some r => toBytes r.bits.1 r.bits.2
  | none => []

/-- The opcodes that the access slice alone has: ASTR, AGAT and ASCT (R128, R201). -/
def accessOnly (w : Nat) : Bool :=
  w % 4 = 3 && (w / 256 % 256 = 0xE9 || w / 256 % 256 = 0xAA || w / 256 % 256 = 0xAB)

/-- The instruction that the decoder reads from the bits w of an opcode-table row, the bits above nbits zero: a warp's decoder, and for
the three opcodes that a warp has not, the access slice's (R201). -/
noncomputable def decodeTableWord (nbits w : Nat) : Option Instr :=
  match decode (accessOnly (w % 2 ^ nbits)) (toBytes 8 (w % 2 ^ nbits)) with
  | .ok (i, _) => some i.instr
  | .error _ => none

end Sys2Proof
end

