-- ==== Sys2Proof/Machine/State/Parts.lean ====
section
/-! DEFINITION. The pieces of state of a thread, a slot, a group, an act and an operation in flight. -/

namespace Sys2Proof.Machine

/-- A 32-bit value with its poison tag (spec/04 R81, R82). -/
structure Tw where
  tag : Bool
  val : Word
deriving DecidableEq, Repr

/-- Four 64-bit entries, one for each compute die (spec/11 R293). -/
structure Clock where
  d0 : Nat
  d1 : Nat
  d2 : Nat
  d3 : Nat
deriving DecidableEq, Repr

/-- The states of a register (R44, R48, R51, R180). -/
inductive RegState where
  | live | dead | pending | left
deriving DecidableEq, Repr

/-- A 32-bit register. `owner` is the operation that made it pending, `cls` that operation's class (R203) and `nth` its number among
the thread's operations of the class, `arrived` whether its value has come (R377), `flags` what it raised (R72) and `was` what the
register held before (R196). -/
structure Cell where
  st : RegState
  tag : Bool
  val : Word
  owner : Nat
  cls : Nat
  arrived : Bool
  flags : BitVec 5
  was : Option (RegState × Tw)
  nth : Nat := 0
deriving DecidableEq, Repr

/-- A predicate: value, tag, hidden token field (R82). -/
structure PCell where
  val : Bool
  tag : Bool
  tok : Word
  pending : Bool
deriving DecidableEq, Repr

/-- The states of a cue-table entry (R25). -/
inductive Cue where
  | runnable | issuing | parked | waiting | departed
deriving DecidableEq, Repr

/-- What a condition wait watches: the word at a physical address, or a word of a group's scratchpad (R237). -/
inductive Watched where
  | mem (pa : Nat) | pad (group word : Nat)
deriving DecidableEq, Repr

/-- A condition wait (R237, R238, R190): condition code of R237, comparand, order, scope, destination, whether it holds a
monitor, and the re-check interval in core cycles and its next time, as a core cycle of the thread's die row. -/
structure MonWait where
  word : Watched
  cond : Nat
  cmp : Word
  order : BitVec 3
  scope : BitVec 4
  dst : Byte
  monitor : Bool
  interval : Nat
  next : Nat
  pc : Dword
deriving DecidableEq, Repr

/-- Where a departing thread goes and by which instruction (R179, R180, R207): the registers that its LD kills, the interval of
its last refusal in core cycles (R272), what the home has answered: admitted, refused, or nothing yet, and whether its package has left
the pod or its link has failed since. -/
structure Leave where
  pkg : Option Nat
  cluster : Nat
  migr : Bool
  pc : Dword
  resume : Dword
  hold : Bool
  va : Nat
  pa : Nat
  type : BitVec 4
  dst : Byte
  order : BitVec 3
  scope : BitVec 4
  kills : List Byte := []
  gap : Nat := 128
  answer : Option Bool := none
  lost : Bool := false
deriving DecidableEq, Repr

/-- The wait being performed (R377 offset 0x420). `pool` names the issue slot of its RACQ (R372); `follow` waits with the thread that the elected lane of a TAPE names; `link` has the thread slot that raised, which its late record names (R103). -/
inductive WaitOn where
  | none
  | hold
  | count (cls n : Nat)
  | cond (w : MonWait)
  | tapeRead (k : Nat) (counters : Option Nat) (pc : Dword) (words : List (Nat × Tw))
  | tape (w : MonWait) (k : Nat) (words : List Tw)
  | follow (key : Nat)
  | kload (op : Nat)
  | bar (id : Nat)
  | ebar (id : Nat)
  | pool (n slot : Nat)
  | fence (scope : BitVec 4) (order : BitVec 3)
  | depart (l : Leave)
  | arrival (l : Leave) (next : Nat)
  | commit (dst : Byte) (pc : Dword)
  | brk
  | page (va : Nat)
  | host (va : Nat) (write : Bool)
  | link (va since : Nat) (pc : Dword) (cons born : Nat)
  | spill (inner : Nat)
deriving DecidableEq, Repr

/-- The kinds of access that a translation and a recovery address name (R398, R424). -/
inductive Access where
  | read | write | fetch
deriving DecidableEq, Repr

/-- An operation packet (R222): OP, SUB, LEN, B, A, C, each word with its tag where a transaction holds it (R102). `next` is where a target
row goes on that leaves the granule of its first word (R223, R389), `dst` where a ROWMOVE that has been accepted copies its row to, with
the place where that goes on. -/
structure Packet where
  op : Nat
  sub : Nat
  len : Nat
  b : Word
  a : Nat
  c : Dword
  tok : Option Word
  next : Nat := 0
  dst : Nat × Nat := (0, 0)
deriving DecidableEq, Repr

/-- The target package of a transaction (R194, R418). -/
inductive Target where
  | self | peer (q : Nat) | fabric (e : Nat)
deriving DecidableEq, Repr

/-- An open fabric transaction: its checkpoint (R194), its target and the operations held, in issue order, and the group over which its FCOMMIT
has left (R411). -/
structure Txn where
  regs : Map Cell
  preds : List PCell
  next : Dword
  dst : Byte
  target : Option Target
  first : Option Nat
  held : List Nat
  failed : Option (Byte × Byte)
  eg : Option Nat := none
deriving DecidableEq, Repr

/-- A thread: its cue-table entry and its register state (R25, R34, R264). Register n of `regs` is g n below 192 and
o (n − 192) from there; one that is not listed has the state `rest`. `spilled` is the number of extended blocks that a save record holds
(R373), 0 for none; their registers stand in `regs`. `last` is the operation of the load that it issued last of all (R346). `held` is
set while a thread waits by an instruction whose cue is hold (R50); `counts` is how many operations of each class it has issued (R203); `paused`
is the core cycles since `since` in which throttling held it (R362). -/
structure Thread where
  ctx : Nat
  act : Nat
  group : Option Nat
  gid : Nat
  tid : Word
  pc : Dword
  region : Dword
  cue : Cue
  wait : Half
  waitOn : WaitOn
  since : Nat
  dog : Nat
  promoted : Option Nat
  admitted : Nat
  level : Nat
  regs : Map Cell
  rest : RegState
  l0 : Cell
  l1 : Cell
  preds : List PCell
  tsw : Word
  vc : Clock
  rs : Clock
  fc : Clock
  fscope : BitVec 4
  trig : Bool
  blocks : Nat
  spilled : Nat
  rec1 : Option (Nat × Access)
  rec2 : Option (Nat × Access)
  rec3 : Option Nat
  txn : Option Txn
  brk : Option Word
  last : Option Nat
  held : Bool := false
  counts : Map Nat := []
  paused : Nat := 0
deriving DecidableEq, Repr

/-- A translation result kept for the instruction a slot holds (R200, R391, R392). -/
inductive Walked where
  | ok (pa : Nat) (attr : BitVec 3) (page : Nat) (host : Bool)
  | fault (code : Byte)
deriving DecidableEq, Repr

/-- An issue slot (R24, R30, R31, R39): the remapping table, the warp's PC, the instructions of the run, the reason of a wait
in the slot with its time, whether a queue wait has been resumed and its instruction not yet issued, with the reason of that wait, and the time
until which an instruction occupies the slot. `dog` is the watchdog count of the wait, in ticks (R435), here and in what follows; `issued` is the
core cycle of the slot's last issue, plus 1 (R28, R40); `toward` is the targets of a SPAWN that waits for credits (R437). -/
structure Slot where
  lanes : List (Option Nat)
  pc : Dword
  count : Nat
  wait : Half
  since : Nat
  again : Bool
  busy : Nat
  walks : Map Walked
  dog : Nat := 0
  issued : Nat := 0
  was : Half := 0
  toward : List Target := []
deriving DecidableEq, Repr

/-- One entry of a queue or FIFO: a value; room reserved for a long-latency push (R39); the place of a stream or copy that is
still pushing (R231, R233). -/
inductive QEl where
  | val (v : Tw)
  | hole (op : Nat) (hi : Bool)
  | mark (owner : Nat)
  | head (v : Tw) (vc : Clock)
deriving DecidableEq, Repr

/-- A barrier (R241, R303). -/
structure Barrier where
  phase : Nat
  arrived : Nat
  expected : Option Nat
  live : Bool
  vc : Clock
deriving DecidableEq, Repr

/-- A stream of the access slice (R233, R324). `tok` is the token of a tagged address or stride, which every element takes; `index` is the
next element to push, and `staged` holds those from it on that have been read (R333). -/
structure Stream where
  id : Nat
  serial : Nat
  q : Nat
  base : Nat
  stride : Int
  count : Nat
  wide : Bool
  index : Nat
  pc : Dword
  tok : Option Word
  clock : Clock
  walks : Map Walked
  staged : List (List Tw) := []
deriving DecidableEq, Repr

/-- The access slice of a group (R232, R267): its warp has 32 lanes, held as threads. -/
structure Slice where
  pc : Dword
  running : Bool
  wait : Half
  since : Nat
  streams : List Stream
  walks : Map Walked
  dog : Nat := 0
deriving DecidableEq, Repr

inductive MxKind where
  | mma | mmab | mzero | macc | selc
deriving DecidableEq, Repr

/-- A matrix operation in a group's queue (R244, R249, R251), with the elements taken from FIFOs so far. -/
structure MxOp where
  kind : MxKind
  serial : Nat
  pc : Dword
  threads : List Nat
  words : List Word
  type : Nat
  z : Bool
  scaleA : List (Tw)
  scaleB : List (Tw)
  namedA : Bool
  namedB : Bool
  rowMajorA : Bool
  rowMajorB : Bool
  started : Bool
  takenA : List Tw
  takenB : List Tw
deriving DecidableEq, Repr

/-- A group (R261, R264, R266). `kPrev` holds the k registers as they stood before the core cycle of the last KMOV or KADD
(R187). -/
structure Group where
  ctx : Nat
  act : Nat
  gid : Nat
  index : Nat
  ens : Nat
  cluster : Nat
  base : Nat
  size : Nat
  row0 : Nat
  scr : Nat
  mirror : Nat
  swz : Nat
  nacc : Nat
  nfifo : Nat
  qbind : Nat
  asl : Bool
  memb : Bool
  k : List Tw
  kPrev : Option (Nat × List Tw)
  q : Map (List QEl)
  fifos : Map (List QEl)
  acc : Map Tw
  pad : Map Tw
  bars : Map Barrier
  mq : List MxOp
  mxDog : Nat
  slice : Option Slice
  lastIssue : Nat
  enabled : Bool
  exited : Nat
deriving DecidableEq, Repr

/-- An ensemble (R261, R279): its groups by key, its four barriers. -/
structure Ensemble where
  ctx : Nat
  act : Nat
  index : Nat
  row : Nat
  groups : List Nat
  bars : Map Barrier
  lastIssue : Nat
  placedAt : Nat
deriving DecidableEq, Repr

/-- What the sender of a guest thread is known by (R276, R278). -/
structure Sender where
  fab : Bool
  pkg : Nat
  ctx : Nat
  act : Nat
  admitted : Nat
  untriggered : Nat
deriving DecidableEq, Repr

/-- An act, or a guest record (R278, R349, R354): the header's bytes, its status word's fields, its counts. `placed` counts the
ensembles placed or the launched threads admitted. -/
structure Act where
  ctx : Nat
  num : Nat
  board : Nat
  roaming : Bool
  header : Nat
  state : Nat
  err : Byte
  ovf : Bool
  level : Nat
  k : List Tw
  live : Nat
  untrig : Nat
  ctr : Nat
  remote : Map Nat
  remoteUntrig : Nat
  signalled : Bool
  fired : Bool
  ready : Bool
  placed : Nat
  retryAt : Nat
  retryGap : Nat
  lastRow : Nat
  inbox : Map (List QEl)
  guest : Option (List Sender)
  preTrig : List Nat
  posted : Nat
deriving DecidableEq, Repr

/-- The scalar operations of R217, R219 and R220. -/
inductive AtomOp where
  | add | min | max | and | or | xor | xchg | cas | fadd | binc | winc | cdec | ladd | pmax
deriving DecidableEq, Repr

/-- Where an operation is applied (R283, R384). -/
inductive Place where
  | home (cluster : Nat)
  | pad (group : Nat)
  | window
  | cxl (eg : Nat)
  | host
  | hostRaw
  | peer (q : Nat)
  | fabric (e : Nat)
deriving DecidableEq, Repr

/-- Where a value goes: a register, a queue, a k register (R47, R39, R188), or a TAPE that waits for its entry (R190). -/
inductive Dest where
  | none
  | reg (r : Byte) (wide : Bool)
  | queue (q : Nat) (wide : Bool)
  | k (n : Nat)
  | tape (word : Nat)
deriving DecidableEq, Repr

/-- What an operation does at its place. `ragged` holds the words of the record and the offsets read so far (R216), whether its present
read is of a read-only page, and whether its policy installs what it reads there (R208). `put` is the words that a ROWGET has read, on their
way to its A (R224). -/
inductive Work where
  | load (type : BitVec 4) (cached : Bool) (install : Bool)
  | store (bytes : Nat) (v : Dword)
  | atomic (op : AtomOp) (type : BitVec 4) (x c : Dword)
  | packet (p : Packet)
  | watch
  | ldw (type : BitVec 4)
  | stw (type : BitVec 4) (v : Dword)
  | ragged (type : BitVec 4) (item grp : Word) (offset : Int) (got : List Dword) (readOnly install : Bool)
  | stm (mask : Nat) (bytes : Nat) (v : Dword)
  | message (msg : Nat)
  | element (engine command : Nat) (v : Tw)
  | put (packet : Nat) (words : List Word)
  | count (engine command : Nat)
deriving DecidableEq, Repr

/-- How far an operation has gone; `frozen` counts what a frozen range has queued, in the order of arrival (R226); `ats` waits for the
host's translation of its address (R397). -/
inductive Stage where
  | sent | held | refused (again : Nat) | frozen (number : Nat) | route | ats | txn | performed
deriving DecidableEq, Repr

/-- Whose operation it is; `gone` is a thread that has exited from a slot (R177). -/
inductive Issuer where
  | thread (key : Nat) | slice (group : Nat) | copy (engine command : Nat) | gone (key : Nat) (group : Option Nat)
deriving DecidableEq, Repr

/-- An operation in flight (R203, R283, R294, R299). `kills` are the registers that a load which may travel has killed (R44, R346);
`hop` is the unit that sent it last, a cluster, a copy engine or a memory-side engine, with the number of that message where it is not the
operation's own; by it a pair's messages keep their order (R313). `done` is the number of its reply among the replies, once it is performed, and 1 where no message brings it; of a packet of an open transaction it is 1 once another package holds it (R418);
`born` the key of the thread slot that issued it, which a late record names (R103); `was` the homes from which it has been forwarded. -/
structure Op where
  ctx : Nat
  act : Nat
  issuer : Issuer
  cluster : Nat
  slot : Nat
  tid : Word
  batch : Nat
  pc : Dword
  cls : Nat
  work : Work
  place : Place
  va : Nat
  pa : Nat
  dst : Dest
  clock : Clock
  stamp : Option Nat
  scope : BitVec 4
  order : BitVec 3
  rel : Option (Clock × Nat)
  stage : Stage
  reply : List Tw
  flags : BitVec 5
  seen : Option (Clock × Option Nat)
  eg : Option Nat
  sentAt : Nat
  retired : Bool
  kills : List Byte := []
  hop : Nat × Nat := (0, 0)
  done : Nat := 0
  born : Nat := 0
  was : List Nat := []
deriving DecidableEq, Repr

/-- A migration in flight or in an arrival buffer (R271, R272); `saved` is an evicted thread that returns, with its number. -/
structure Travel where
  ctx : Nat
  act : Nat
  gid : Nat
  tid : Word
  pc : Dword
  regs : Map Cell
  rest : RegState
  preds : List PCell
  tsw : Word
  vc : Clock
  fscope : BitVec 4
  trig : Bool
  level : Nat
  saved : Option (Nat × Thread)
  since : Nat
deriving DecidableEq, Repr

/-- What a message outside the request class carries; a migration or a spawn to another package goes over an edge port group (R411, R413). -/
inductive Cargo where
  | spawn (t : Travel) (pkg : Option Nat) (fab : Bool) (eg : Option Nat)
  | queue (actq : Bool) (port : Nat) (values : List QEl) (vc : Clock) (op : Nat) (origin : Nat)
  | travel (t : Travel) (thread : Nat) (pkg : Option Nat) (eg : Option Nat)
deriving DecidableEq, Repr

/-- A spawn, migration or queue message that its cluster has sent (R235, R270, R276). -/
structure Msg where
  id : Nat
  ctx : Nat
  act : Nat
  slot : Nat
  dst : Nat
  pc : Dword
  cargo : Cargo
  next : Nat
  gap : Nat
  acked : Bool
deriving DecidableEq, Repr

end Sys2Proof.Machine
end

