-- ==== Sys2Proof/Machine/State.lean ====
section
/-! DEFINITION. The state of the package, its reset, and the reasons a step can stop. -/

namespace Sys2Proof.Machine

/-! The cluster and its memory-side engine. -/

/-- An exact-merge element bound to a row word (R75, R77, R97, R225). -/
structure MergeEl where
  ctx : Nat
  v : Int
  nan : Bool
  pinf : Bool
  ninf : Bool
  nonneg : Bool
  merged : Bool
  lost : Bool
  tok : Option Word
deriving DecidableEq, Repr

/-- A forwarding entry, or a mirror of one (R226, R346). `id` is the number of the ROWMOVE that made the entry and `head` the address from
which that row starts: an UNFWD of it takes the whole entry, in however many pieces it stands, with its mirrors. -/
structure Forward where
  ctx : Nat
  base : Nat
  bytes : Nat
  dst : Nat
  onward : Bool
  id : Nat
  head : Nat
deriving DecidableEq, Repr

/-- An entry of the stamp table (R297). -/
structure StampEl where
  line : Nat
  clock : Clock
  scope : Nat
deriving DecidableEq, Repr

/-- A condition monitor (R238); its waiters are the threads that hold it. -/
structure Monitor where
  ctx : Nat
  word : Watched
  cond : Nat
  cmp : Word
deriving DecidableEq, Repr

/-- A read-only line held in a cluster cache or a slice (R314): the bytes, and the mark with its code. -/
structure Line where
  pa : Nat
  bytes : List Byte
  marks : List (Option Byte)
deriving DecidableEq, Repr

/-- `issued` and `idle` are the last issue of each roaming act and the acts that throttling holds (R362); `access` is the core cycle of the
access processor's last issue, plus 1, and the base slot of the group it was for (R323). -/
structure Cluster where
  arrivals : List Travel
  credits : Nat
  outbox : List Msg
  merges : Map MergeEl
  fwds : List Forward
  mirrors : List Forward
  frozen : List (Nat × Nat)
  stamps : List StampEl
  floor : Clock
  mons : List Monitor
  lines : List Line
  mseSer : Nat
  accSer : Nat
  matSer : Nat
  spare : Bool
  issued : Map Nat
  idle : List Nat
  access : Nat × Nat := (0, 2047)
deriving DecidableEq, Repr

/-! Copy engines (R319 to R321, R228, R304). -/

/-- A copy command. `index` is the next element to deliver, `staged` holds those from it on that have been read (R320), `entry` the list
entry of the block being read, or its token; `lines` and `acks` are the lines that a publish has written and the caches that have dropped
them; `own` is the last stamp of its own leaving element writes, and `last` where it read its last element. -/
structure CopyCmd where
  id : Nat
  serial : Nat
  ctx : Nat
  act : Nat
  cluster : Nat
  group : Option Nat
  threads : List Nat
  pc : Dword
  kind : Nat
  scope : BitVec 4
  order : BitVec 3
  src : Nat
  dst : Nat
  x : Nat
  y : Nat
  z : Nat
  sstr1 : Nat
  sstr2 : Nat
  dstr1 : Nat
  dstr2 : Nat
  dblk : Nat
  blist : Nat
  nblk : Nat
  cw : Nat
  index : Nat
  ec : Clock
  counted : Bool
  entry : Option (Dword × Option Word)
  lines : List Nat
  acks : List Nat
  walks : Map Walked
  staged : List Tw := []
  own : Nat := 0
  last : Option Nat := none
deriving DecidableEq, Repr

/-- `done` names the commands that are over and still stand in a thread's count, behind an older one of the thread (R203). -/
structure Engine where
  serial : Nat
  cmds : List CopyCmd
  done : List (Nat × Nat) := []
deriving DecidableEq, Repr

/-! Die rows: translations, walks, slices, throttling (R391, R392, R314, R361). -/

/-- A held translation of the range of `bytes` from `base` on. -/
structure TlbEl where
  ctx : Nat
  base : Nat
  host : Bool
  pa : Nat
  attr : BitVec 3
  w : Bool
  untranslated : Bool
  bytes : Nat
  cluster : Option Nat
deriving DecidableEq, Repr

/-- A walk-cache entry: the entry that level `level` holds for the leading index bits `va`. -/
structure WalkEl where
  ctx : Nat
  level : Nat
  va : Nat
  entry : Dword
deriving DecidableEq, Repr

/-- Who waits for a walk or for the host's translation: a slot, an access slice, a copy command, a stream, an operation. -/
inductive WalkUser where
  | slot (key : Nat) | slice (group : Nat) | copy (engine command : Nat) | stream (group id : Nat) | op (k : Nat)
deriving DecidableEq, Repr

structure Walk where
  ctx : Nat
  granule : Nat
  started : Bool
  users : List WalkUser
deriving DecidableEq, Repr

/-- `issued` is the last issue of an anchored thread of each context (R280). -/
structure Row where
  tlb : List TlbEl
  walkCache : List WalkEl
  walks : List Walk
  slices : List (Nat × Line)
  allow : Nat
  tight : Nat
  relax : Nat
  clk : Nat
  clkUntil : Nat
  coreBase : Nat
  coreSince : Nat
  /-- Earlier clocks, the latest first: the time from which each ran, the core cycle count then, its code (R27, R368). -/
  clks : List (Nat × Nat × Nat) := []
  ecc : Bool
  split : Nat
  issued : Map Nat
deriving DecidableEq, Repr

/-! Contexts (R366, R375, R385, R394, R410, R427). -/

/-- An item saved from a context's clusters (R373, R374, R377, R378): an ensemble with its groups, threads and slices' lanes,
or a roaming thread with the cluster it left, the time of its eviction, and its act's q15 there where it was the act's last thread on it (R378). -/
inductive Saved where
  | ensemble (key : Nat) (e : Ensemble) (groups : List (Nat × Group)) (threads lanes : List (Nat × Thread)) (copies : List CopyCmd)
  | roaming (cluster key : Nat) (t : Thread) (asked : Nat) (inbox : Option (List QEl))
deriving DecidableEq, Repr

/-- `area` is the pieces of the save area that hold thread records, by the number of the saved thread (log entry 37). -/
structure Ctx where
  ctl : Dword
  mode : Dword
  stat : Dword
  msx : Dword
  save : Dword
  pt : Dword
  invs : Dword
  pod : Dword
  fr : Dword
  frp : Dword
  vec : Dword
  cur : Dword
  stop : Dword
  wd : Dword
  dbg : Dword
  dbgd : Dword
  needs : List Nat
  lowAt : Option Nat
  skid : Option Nat
  treated : List (Nat × Nat)
  work : List (Nat × Nat)
  saved : List Saved
  swOut : Bool
  swIn : Bool
  inv : Option (Nat × Nat)
  invOps : List Nat
  failNext : List Nat
  area : List (Nat × Nat) := []
deriving DecidableEq, Repr

/-- A callboard (R352): CBCTL, CBSTAT's fields, the numbers of the acts queued, oldest first. -/
structure Board where
  ctl : Dword
  lasterr : Byte
  ovf : Bool
  queue : List Nat
deriving DecidableEq, Repr

/-! Edge port groups, the pod and the fabric (R405, R408, R411, R413). -/

/-- An edge port group: its registers' fields, the ranges installed, whether its partner has quiesced, how many keys it has made. `was` is the
personality in which it lost light (R416); of a switch in progress, `goal` is what step 7 puts in force, `stepSince` when the step began and `ends` when
a step that ends by itself does (R414). -/
structure EdgeGroup where
  newpers : Nat
  pers : Nat
  step : Nat
  stepSince : Nat
  err : Byte
  wfail : Nat
  fec : Nat
  los : Bool
  use : Dword
  ranges : Map Dword
  installed : List Dword
  quiet : Bool
  keys : Nat
  was : Nat := 0
  goal : Nat := 0
  ends : Nat := 0
deriving DecidableEq, Repr

/-- The OPKs that this package holds for open transactions (R418), by sender and transaction. -/
structure HeldTxn where
  src : Nat
  txn : Nat
  ctx : Option Nat
  since : Nat
  packets : List (Nat × Packet)
deriving DecidableEq, Repr

/-- The reply of a commit of another package's transaction, until it is acknowledged (R419): for each packet what it gives, or the code that the
commit as a whole fails with. -/
structure CommitReply where
  src : Nat
  txn : Nat
  replies : List (List Tw × BitVec 5 × Option Byte)
  code : Option Byte
deriving DecidableEq, Repr

/-- The resolution of a rollback, from when on it may begin: the page need of an address, or its page request (R398, R422, R426). -/
structure Begin where
  at' : Nat
  key : Nat
  cluster : Nat
  slot : Nat
  ctx : Nat
  va : Nat
  host : Bool
  access : Access
deriving DecidableEq, Repr

/-! The host port (R397 to R399). -/

/-- A Translation Request: `stale` is the ranges that Invalidate Requests received since it was sent have covered, each an address and a length in
bytes (R397). -/
structure AtsReq where
  id : Nat
  pasid : Nat
  page : Nat
  write : Bool
  users : List WalkUser
  stale : List (Nat × Nat)
  sentAt : Nat
deriving DecidableEq, Repr

structure PageReq where
  id : Nat
  pasid : Nat
  page : Nat
  write : Bool
  sent : Bool
  threads : List Nat
deriving DecidableEq, Repr

structure HostPort where
  ats : List AtsReq
  pages : List PageReq
  alloc : Nat
  invs : List (Nat × List Nat)
  nextId : Nat
deriving DecidableEq, Repr

/-! The reliability ring, repair, the root, attestation and power (R442 to R453). -/

/-- A repair asked for: the kind and unit of R444, the lane or wavelength of kinds 5 and 6, and the time from which it runs. -/
structure Repair where
  kind : Nat
  unit : Nat
  lane : Nat
  started : Bool
  since : Nat := 0
deriving DecidableEq, Repr

/-- The Ututh root (R447 to R451): measurement registers, whether boot has failed and recovery waits, the version that runs and the minimum in
one-time-programmable memory, an accepted image that the next reset takes, the index of the identity key, the report; the image in flash, BAR0's
recovery window as doublewords by number, whether EGPOL has been written since the reset, and whether the service cores are released. -/
structure Root where
  mr0 : List Byte
  mr1 : List Byte
  mr2 : List Byte
  mr3 : List Byte
  recovery : Bool
  version : Nat
  minVersion : Nat
  staged : Option Image
  index : Nat
  report : List Byte
  flash : Image := { version := 0, good := true }
  window : Map Dword := []
  policy : Bool := false
  released : Bool := false
deriving DecidableEq, Repr

/-- Whose a wait of the device's own is: a request of another package, with its number there (R410), or an act at the head of its callboard
(R355). -/
inductive FarWaiter where
  | peer (src id : Nat) | act (key : Nat)
deriving DecidableEq, Repr

/-- A wait on a word that no thread of this package makes: what it watches, the condition code of R237 and the comparand, whether it holds a
monitor, the re-check interval in core cycles and its next time, as a core cycle of the word's die row (R238). -/
structure FarWait where
  who : FarWaiter
  ctx : Nat
  pa : Nat
  cond : Nat
  cmp : Word
  monitor : Bool
  interval : Nat
  next : Nat
deriving DecidableEq, Repr

/-- A notice of a guest record: its kind (0 trigger, 1 completion, 2 failure), the sending record it goes to, the act's number there, its
count (R278). -/
structure Notice where
  kind : Nat
  dest : Sender
  act : Nat
  count : Nat
deriving DecidableEq, Repr

structure Pkg where
  partmap : Dword
  rowcong : Map Dword
  diecong : Map Dword
  podctl : Dword
  podrt : Map Nat
  fabep : Map Dword
  fabaddr : Map (BitVec 128)
  egpol : Half
  relr : Dword
  relrp : Dword
  relvec : Dword
  repctl : Dword
  wear : Map Nat
  bad : List Nat
  repairs : List Repair
  used : Map Nat
  done : Nat
  attcmd : Dword
  nonce : Map Dword
  pwrctl : Dword
  low : Nat
  hot : Nat
  gone : List Nat
  unreach : Map Nat
  held : List HeldTxn
  powered : Bool
  /-- How full each die's causal gate has been in the present window: held operations × ticks (R318). -/
  gate : Map Nat := []
  /-- The same of the last window that has ended, until its words are written (R318). -/
  shut : Option (Map Nat) := none
  /-- The time of the last window end at which the clusters chose whom throttling holds (R362). -/
  windowAt : Nat := 0
  /-- Notices that no acknowledgement has come for, by number (R278). -/
  notices : Map Notice := []
  /-- Waits of other packages and of callboards (R355, R410). -/
  waits : List FarWait := []
  /-- Replies of commits that no acknowledgement has come for (R419). -/
  commits : List CommitReply := []
  /-- Resolutions of rollbacks that have not begun (R422). -/
  begins : List Begin := []
deriving DecidableEq, Repr

/-! What has gone out of the package. -/

/-- A message to the host, to a peer or to an endpoint (log entry 5). -/
inductive Sent where
  | msix (vector : Nat)
  | hostWrite (pasid : Option Nat) (addr : Nat) (bytes : List Byte)
  | hostRead (op addr : Nat)
  | hostAtomic (op addr : Nat)
  | atsRequest (id pasid page : Nat) (noWrite : Bool)
  | pageRequest (id pasid page : Nat) (write : Bool)
  | stopMarker (pasid : Nat)
  | invalidateDone (tag : Nat)
  | hostData (addr : Nat) (bytes : List Byte)
  | peerOp (op : Nat) (eg : Nat)
  | peerWrite (pkg pa : Nat) (bytes : List Byte) (job : BitVec 16) (eg : Nat)
  | peerCommit (thread : Nat) (target : Nat) (fab : Bool) (eg : Nat)
  | peerDiscard (thread : Nat) (target : Nat) (fab : Bool)
  | peerReply (src : Nat) (reply : List Tw) (flags : BitVec 5) (code : Option Byte)
  | commitReply (r : CommitReply)
  | peerAnswer (src : Nat) (answer : Admission)
  | peerTravel (pkg : Nat) (flits : List (BitVec 128 × BitVec 512)) (job : BitVec 16)
  | peerSpawn (pkg : Nat) (fab : Bool) (flits : List (BitVec 128 × BitVec 512)) (job : BitVec 16)
  | notice (number : Nat) (n : Notice)
  | quiesce (eg : Nat)
  | register (v : Dword)
deriving DecidableEq, Repr

/-! The whole. -/

/-- Whose instruction exec runs: the warp of a slot (cluster × 4 + slot), or the access slice of a group (log entry 1). -/
inductive Cur where
  | slot (key : Nat) | slice (group : Nat)
deriving DecidableEq, Repr

/-- A storage element that SECDED protects (spec/21 R439), by the unit that holds it: register n of a thread (200 and 201 are l0 and
l1), a predicate, a k register, a scratchpad word, an accumulator, element i of a queue or a FIFO or of a roaming act's q15, a merge
element, an entry of a stamp table, of a die row's TLB or of its walk cache, a read-only line in the caches of a cluster and its row, found in
error by an operation or by none; what a copy engine or a stream has read and not delivered; the value that an operation has brought to an I/O die;
and an HBM sector that something other than an MSE's operation reads. -/
inductive Storage where
  | reg (thread n : Nat)
  | pred (thread p : Nat)
  | kreg (group n : Nat)
  | pad (group word : Nat)
  | acc (group n : Nat)
  | queue (group q i : Nat)
  | fifo (group n i : Nat)
  | inbox (ctx act cluster i : Nat)
  | merge (cluster word : Nat)
  | stamp (cluster i : Nat)
  | tlb (row i : Nat)
  | line (cluster pa : Nat) (reader : Option Nat)
  | walk (row i : Nat)
  | staged (engine command i : Nat)
  | streamed (group stream i : Nat)
  | io (op : Nat)
  | sector (pa : Nat)
deriving DecidableEq, Repr

/-- What moves next (log entry 1). `issue` and `access` name the lanes of a slot's warp or of a slice whose residue check fails (R142); `decay` is an error in a storage element, corrected or not (R439, log entry 102). -/
inductive Move where
  | issue (slot : Nat) (upset : List Nat)
  | access (group : Nat) (upset : List Nat)
  | event (i : Instr)
  | decay (e : Storage) (lost : Bool)
  | idle
deriving DecidableEq, Repr

/-- A move and the ticks that pass before it. -/
structure Agendum where
  wait : Nat
  move : Move
deriving DecidableEq, Repr

/-- `wrote` and `woken` are the memory that the device itself has written in this step, and the waits that such a write ends with the
word's value: they take effect before the next step (R238, log entry 16). -/
structure State where
  now : Nat
  agenda : List Agendum
  turn : Nat
  cur : Cur
  upset : List Nat
  free : Nat
  seq : Nat
  sent : List Sent
  threads : Map Thread
  slots : Map Slot
  groups : Map Group
  ensembles : Map Ensemble
  acts : Map Act
  ctxs : Map Ctx
  boards : Map Board
  clusters : Map Cluster
  engines : Map Engine
  rows : Map Row
  ops : Map Op
  views : Map Nat
  egs : Map EdgeGroup
  mem : List Host.Cell
  marks : Map Byte
  owners : Map Nat
  zeroPend : List Nat
  wrote : List (Nat × Nat)
  woken : List (Nat × Tw)
  port : HostPort
  pkg : Pkg
  root : Root
deriving DecidableEq, Repr

/-- Why the machine stops. -/
inductive Fault where
  /-- Raised by step between POWER_LOSS and the next BOOT: the package holds nothing that could move. Safe. -/
  | powerOff
deriving DecidableEq, Repr

/-- Why a step has no meaning. -/
inductive Refusal where
  /-- Raised by exec for an instruction that has no meaning in this model. Safe. -/
  | notModelled (mnemonic : String)
  /-- Raised by exec for an instruction when the slot or slice of `State.cur` holds no warp that could issue it. Safe. -/
  | noWarp
  /-- Raised by exec for a step of another agent when that agent has no such step to take in this state. Safe. -/
  | notEnabled
deriving DecidableEq, Repr

/-! Reset values. A unit that a table does not list is in the state that these give. -/

def Clock.zero : Clock := ⟨0, 0, 0, 0⟩

def Cluster.init : Cluster :=
  { arrivals := [], credits := 64, outbox := [], merges := [], fwds := [], mirrors := [], frozen := [], stamps := []
    floor := Clock.zero, mons := [], lines := [], mseSer := 0, accSer := 0, matSer := 0, spare := false, issued := [], idle := [] }

def Engine.init : Engine := { serial := 0, cmds := [] }

def Row.init : Row :=
  { tlb := [], walkCache := [], walks := [], slices := [], allow := 0, tight := 0, relax := 0, clk := 0, clkUntil := 0
    coreBase := 0, coreSince := 0, ecc := false, split := 0, issued := [] }

def Slot.init : Slot := { lanes := [], pc := 0, count := 0, wait := 0, since := 0, again := false, busy := 0, walks := [] }

/-- R366, R375, R385, R394, R410, R427. -/
def Ctx.init : Ctx :=
  { ctl := 0, mode := 0x200, stat := 0, msx := 0, save := 0, pt := 0, invs := 0, pod := 0, fr := 0, frp := 0
    vec := 0xFFFFFFFF, cur := 0, stop := 0, wd := 0xF4240, dbg := 0, dbgd := 0, needs := [], lowAt := none, skid := none
    treated := [], work := [], saved := [], swOut := false, swIn := false, inv := none, invOps := [], failNext := [] }

/-- R352. -/
def Board.init : Board := { ctl := 0, lasterr := 0, ovf := false, queue := [] }

/-- R404, R405. -/
def EdgeGroup.init : EdgeGroup :=
  { newpers := 0, pers := 0, step := 0, stepSince := 0, err := 0, wfail := 0, fec := 0, los := false, use := 0
    ranges := [], installed := [], quiet := false, keys := 0 }

/-- R241, R264. -/
def Barrier.init : Barrier := { phase := 0, arrived := 0, expected := none, live := false, vc := Clock.zero }

def HostPort.init : HostPort := { ats := [], pages := [], alloc := 512, invs := [], nextId := 1 }

def Root.init : Root :=
  { mr0 := List.replicate 32 0, mr1 := List.replicate 32 0, mr2 := List.replicate 32 0, mr3 := List.replicate 32 0
    recovery := false, version := 0, minVersion := 0, staged := none, index := 0, report := [] }

/-- R364, R318, R410, R442, R445, R450, R452. -/
def Pkg.init : Pkg :=
  { partmap := 0, rowcong := [], diecong := [], podctl := 0, podrt := [], fabep := [], fabaddr := [], egpol := 0, relr := 0
    relrp := 0, relvec := 0xFFFF, repctl := 0x8000000000001000, wear := [], bad := [], repairs := [], used := [], done := 0, attcmd := 0
    nonce := [], pwrctl := 4800, low := 0, hot := 0, gone := [], unreach := [], held := [], powered := true }

/-- The package right after reset. -/
def State.reset : State :=
  { now := 0, agenda := [], turn := 0, cur := .slot 0, upset := [], free := 0, seq := 1, sent := [], threads := [], slots := []
    groups := [], ensembles := [], acts := [], ctxs := [], boards := [], clusters := [], engines := [], rows := [], ops := []
    views := [], egs := [], mem := [], marks := [], owners := [], zeroPend := [], wrote := [], woken := [], port := HostPort.init, pkg := Pkg.init
    root := Root.init }

end Sys2Proof.Machine
end

