-- ==== Sys2Proof/Machine/Maps.lean ====
section
/-! DEFINITION. Sparse tables, numbers and their fields, clocks, and the accessors of the State's units. -/

namespace Sys2Proof.Machine

/-! Tables, keys strictly rising. -/

def find {α : Type} : Map α → Nat → Option α
  | [], _ => none
  | (k, v) :: r, n => if k = n then some v else find r n

def put {α : Type} : Map α → Nat → α → Map α
  | [], n, v => [(n, v)]
  | (k, w) :: r, n, v => if n < k then (n, v) :: (k, w) :: r else if n = k then (n, v) :: r else (k, w) :: put r n v

def drop {α : Type} : Map α → Nat → Map α
  | [], _ => []
  | (k, w) :: r, n => if k = n then drop r n else (k, w) :: drop r n

def get {α : Type} (m : Map α) (n : Nat) (d : α) : α := (find m n).getD d

/-- Apply f to every value. -/
def mapVals {α : Type} (f : Nat → α → α) (m : Map α) : Map α := m.map fun (k, v) => (k, f k v)

/-- Keep the entries that p accepts. -/
def keep {α : Type} (p : Nat → α → Bool) (m : Map α) : Map α := m.filter fun (k, v) => p k v

/-! Fields of numbers (R1). -/

/-- v[hi:lo]. -/
def fld (v : Nat) (hi lo : Nat) : Nat := v / 2 ^ lo % 2 ^ (hi + 1 - lo)

def bit (v : Nat) (n : Nat) : Bool := v.testBit n

/-- v with [hi:lo] replaced by the low bits of x. -/
def setFld (v hi lo x : Nat) : Nat :=
  let w := 2 ^ (hi + 1 - lo)
  v - fld v hi lo * 2 ^ lo + x % w * 2 ^ lo

def df (v : Dword) (hi lo : Nat) : Nat := Machine.fld v.toNat hi lo
def setD (v : Dword) (hi lo x : Nat) : Dword := BitVec.ofNat 64 (setFld v.toNat hi lo x)

def b2n (b : Bool) : Nat := if b then 1 else 0

/-- x of width w read in two's complement. -/
def signed (w x : Nat) : Int :=
  let y := x % 2 ^ w
  if 2 * y < 2 ^ w then (y : Int) else (y : Int) - (2 : Int) ^ w

/-- An integer modulo 2^w. -/
def wrap (w : Nat) (x : Int) : Nat := (x % (2 : Int) ^ w).toNat

def lo32 (v : Dword) : Word := v.extractLsb' 0 32
def hi32 (v : Dword) : Word := v.extractLsb' 32 32
def dw (lo hi : Word) : Dword := hi ++ lo
def zx (w : Word) : Dword := w.zeroExtend 64

/-- Insertion into an ordered list, and the sort it gives; equal elements keep their order. -/
def insertBy {α : Type} (le : α → α → Bool) (x : α) : List α → List α
  | [] => [x]
  | y :: r => if le y x then y :: insertBy le x r else x :: y :: r

def sortBy {α : Type} (le : α → α → Bool) (l : List α) : List α := l.foldl (fun acc x => insertBy le x acc) []

/-- Lexicographic order. -/
def lexLe : List Nat → List Nat → Bool
  | [], _ => true
  | _, [] => false
  | a :: r, b :: q => if a < b then true else if b < a then false else lexLe r q

/-! Clocks. -/

def Clock.get (c : Clock) (d : Nat) : Nat := match d with | 0 => c.d0 | 1 => c.d1 | 2 => c.d2 | _ => c.d3
def Clock.set (c : Clock) (d n : Nat) : Clock :=
  match d with | 0 => { c with d0 := n } | 1 => { c with d1 := n } | 2 => { c with d2 := n } | _ => { c with d3 := n }
def Clock.max (a b : Clock) : Clock := ⟨Nat.max a.d0 b.d0, Nat.max a.d1 b.d1, Nat.max a.d2 b.d2, Nat.max a.d3 b.d3⟩

/-! Tagged values. -/

def Tw.zero : Tw := ⟨false, 0⟩
def Tw.data (v : Word) : Tw := ⟨false, v⟩
def Tw.tok (v : Word) : Tw := ⟨true, v⟩

/-- Token(code, origin) (R10). -/
def token (code : Nat) (origin : Nat) : Word := BitVec.ofNat 32 (code % 256 * 2 ^ 24 + origin % 2 ^ 24)
def tokCode (t : Word) : Nat := t.toNat / 2 ^ 24
def tokOrigin (t : Word) : Nat := t.toNat % 2 ^ 24
/-- Bits [24:1] of an address (R51, R81). -/
def originOf (pc : Dword) : Nat := pc.toNat / 2 % 2 ^ 24

def Cell.dead : Cell := { st := .dead, tag := false, val := 0, owner := 0, cls := 0, arrived := false, flags := 0, was := none }
def Cell.ofTw (v : Tw) : Cell := { Cell.dead with st := .live, tag := v.tag, val := v.val }
def PCell.false : PCell := ⟨.false, .false, 0, .false⟩

/-! Time (R5, R292): a tick is 1/48 ns. -/

def State.nc (s : State) : Nat := s.now / 24
/-- Ticks in a core cycle of a clock code (R366 CLK). -/
def cycleOf (clk : Nat) : Nat := match clk with | 0 => 12 | 1 => 15 | _ => 20
def ticksPerUs : Nat := 48000
/-- A window of R318: 4,096 network cycles. -/
def windowTicks : Nat := 4096 * 24

/-- The core cycle counter of a row at a time: from its present clock on, or under an earlier one (R27, R37; log entry 2). -/
def Row.cycleAt (r : Row) (time : Nat) : Nat :=
  if r.coreSince ≤ time then r.coreBase + (time - r.coreSince) / cycleOf r.clk
  else match r.clks.find? fun x => decide (x.1 ≤ time) with
    | some (since, base, clk) => base + (time - since) / cycleOf clk
    | none => 0

/-! Keys: clusters, dies, rows (R17). -/

def dieOf (cluster : Nat) : Nat := cluster / 192
def rowOf (cluster : Nat) : Nat := cluster / 24
def threadKey (cluster slot : Nat) : Nat := cluster * 2048 + slot
/-- The lanes of a slice stand above every thread slot. -/
def laneKey (group lane : Nat) : Nat := 768 * 2048 + group * 32 + lane
def isLaneKey (key : Nat) : Bool := 768 * 2048 ≤ key
def laneGroup (key : Nat) : Nat := (key - 768 * 2048) / 32
def clusterOfKey (key : Nat) : Nat := if isLaneKey key then laneGroup key / 2048 else key / 2048
/-- The slot of a thread; 0x7FF for a lane of a slice (R103). -/
def slotOfKey (key : Nat) : Nat := if isLaneKey key then 0x7FF else key % 2048
def actKey (ctx act : Nat) : Nat := ctx * 65536 + act
def ensKey (ctx act e : Nat) : Nat := actKey ctx act * 2 ^ 32 + e

/-! Units, each at its reset state where no table lists it. -/

def State.cluster (s : State) (c : Nat) : Cluster := get s.clusters c Cluster.init
def State.ctx (s : State) (c : Nat) : Ctx := get s.ctxs c Ctx.init
def State.row (s : State) (r : Nat) : Row := get s.rows r Row.init

/-- Ticks to the next core cycle of a row. -/
def State.toNextCycle (s : State) (row : Nat) : Nat :=
  let r := s.row row
  cycleOf r.clk - (s.now - r.coreSince) % cycleOf r.clk

/-- When the next core cycle of a row begins. -/
def State.nextCycle (s : State) (row : Nat) : Nat := s.now + s.toNextCycle row

def State.board (s : State) (b : Nat) : Board := get s.boards b Board.init
def State.engine (s : State) (e : Nat) : Engine := get s.engines e Engine.init
def State.eg (s : State) (n : Nat) : EdgeGroup := get s.egs n EdgeGroup.init
def State.slot (s : State) (k : Nat) : Slot := get s.slots k Slot.init
def State.thread? (s : State) (k : Nat) : Option Thread := find s.threads k
def State.group? (s : State) (k : Nat) : Option Group := find s.groups k
def State.act? (s : State) (ctx act : Nat) : Option Act := find s.acts (actKey ctx act)

def State.setCluster (s : State) (c : Nat) (v : Cluster) : State := { s with clusters := put s.clusters c v }
def State.setCtx (s : State) (c : Nat) (v : Ctx) : State := { s with ctxs := put s.ctxs c v }
def State.setRow (s : State) (r : Nat) (v : Row) : State := { s with rows := put s.rows r v }
def State.setBoard (s : State) (b : Nat) (v : Board) : State := { s with boards := put s.boards b v }
def State.setEngine (s : State) (e : Nat) (v : Engine) : State := { s with engines := put s.engines e v }
def State.setEg (s : State) (n : Nat) (v : EdgeGroup) : State := { s with egs := put s.egs n v }
def State.setSlot (s : State) (k : Nat) (v : Slot) : State := { s with slots := put s.slots k v }
def State.setThread (s : State) (k : Nat) (v : Thread) : State := { s with threads := put s.threads k v }
def State.setGroup (s : State) (k : Nat) (v : Group) : State := { s with groups := put s.groups k v }
def State.setAct (s : State) (v : Act) : State := { s with acts := put s.acts (actKey v.ctx v.num) v }
def State.setOp (s : State) (k : Nat) (v : Op) : State := { s with ops := put s.ops k v }

def State.modCluster (s : State) (c : Nat) (f : Cluster → Cluster) : State := s.setCluster c (f (s.cluster c))
def State.modCtx (s : State) (c : Nat) (f : Ctx → Ctx) : State := s.setCtx c (f (s.ctx c))
def State.modRow (s : State) (r : Nat) (f : Row → Row) : State := s.setRow r (f (s.row r))
def State.modEg (s : State) (n : Nat) (f : EdgeGroup → EdgeGroup) : State := s.setEg n (f (s.eg n))
def State.modSlot (s : State) (k : Nat) (f : Slot → Slot) : State := s.setSlot k (f (s.slot k))
def State.modThread (s : State) (k : Nat) (f : Thread → Thread) : State :=
  match find s.threads k with
  | some t => s.setThread k (f t)
  | none => s
def State.modGroup (s : State) (k : Nat) (f : Group → Group) : State :=
  match find s.groups k with
  | some g => s.setGroup k (f g)
  | none => s
def State.modAct (s : State) (ctx act : Nat) (f : Act → Act) : State :=
  match find s.acts (actKey ctx act) with
  | some a => { s with acts := put s.acts (actKey ctx act) (f a) }
  | none => s
def State.modOp (s : State) (k : Nat) (f : Op → Op) : State :=
  match find s.ops k with
  | some o => s.setOp k (f o)
  | none => s

def State.send (s : State) (m : Sent) : State := { s with sent := s.sent ++ [m] }

/-- An MSI-X vector; 0xFFFF is none (R427, R442). -/
def State.msix (s : State) (v : Nat) : State := if v = 0xFFFF then s else s.send (.msix v)

/-- A fresh number, for an operation, a message or a command. -/
def State.fresh (s : State) : Nat × State := (s.seq, { s with seq := s.seq + 1 })

/-! Context registers by field. -/

def Ctx.en (c : Ctx) : Bool := bit c.ctl.toNat 63
def Ctx.part (c : Ctx) : Nat := fld c.ctl.toNat 57 53
def Ctx.pasid (c : Ctx) : Nat := fld c.ctl.toNat 19 0
def Ctx.debug (c : Ctx) : Bool := bit c.mode.toNat 11
def Ctx.fetchMode (c : Ctx) : Bool := bit c.mode.toNat 8
def Ctx.det (c : Ctx) : Bool := bit c.mode.toNat 2
def Ctx.job (c : Ctx) : BitVec 16 := c.pod.extractLsb' 0 16
def Ctx.low (c : Ctx) : Bool := bit c.cur.toNat 63
def Ctx.down (c : Ctx) : Bool := bit c.cur.toNat 62
def Ctx.out (c : Ctx) : Bool := bit c.stat.toNat 9
def Ctx.busy (c : Ctx) : Bool := bit c.stat.toNat 10
def Ctx.setErr (c : Ctx) (code : Nat) : Ctx := { c with stat := setD c.stat 7 0 code }

/-- OR bits into a context's memory-side exception word (R221); `code` is the code of a marked or tagged target. -/
def State.msx (s : State) (ctx bits : Nat) (code : Option Nat := none) : State :=
  s.modCtx ctx fun c =>
    let v := c.msx.toNat ||| bits
    match code with
    | none => { c with msx := BitVec.ofNat 64 v }
    | some k =>
      let old := fld c.msx.toNat 39 32
      let n := if bit c.msx.toNat 8 ∧ old ≤ k then old else k
      { c with msx := BitVec.ofNat 64 (setFld (v ||| 0x100) 39 32 n) }

/-! Memory: bytes by physical address; one that nothing lists reads as zero (R283). -/

def readByte (m : List Host.Cell) (a : Nat) : Byte := get m a 0
def writeByte (m : List Host.Cell) (a : Nat) (v : Byte) : List Host.Cell := if v = 0 then drop m a else put m a v

def readBytes (m : List Host.Cell) (a : Nat) : Nat → List Byte
  | 0 => []
  | n + 1 => readByte m a :: readBytes m (a + 1) n

def writeBytes (m : List Host.Cell) (a : Nat) : List Byte → List Host.Cell
  | [] => m
  | b :: r => writeBytes (writeByte m a b) (a + 1) r

/-- The canonical form: addresses strictly rising, no byte equal to what an unlisted address reads as. -/
def Memory.wf : List Host.Cell → Bool
  | [] => true
  | [(_, v)] => v != 0
  | (a, v) :: (b, w) :: r => v != 0 && decide (a < b) && Memory.wf ((b, w) :: r)

/-! Frames that wait for their zero-fill (R383): a byte of one reads as zero, and what writes there fills it first. -/

def State.unfilled (s : State) (pa : Nat) : Bool := s.zeroPend.contains (pa / 2 ^ 16)

def State.bytesAt (s : State) (pa n : Nat) : List Byte := if s.unfilled pa then List.replicate n 0 else readBytes s.mem pa n
def State.readN (s : State) (pa n : Nat) : Nat := ofBytes (s.bytesAt pa n)

/-- The code of the marked sector that holds an address (R82, R84). -/
def State.markAt (s : State) (pa : Nat) : Option Byte := if s.unfilled pa then none else find s.marks (pa / 32)

/-! What a wait watches (R237). -/

/-- The conditions of R237, unsigned; code 6 is the word at least the comparand, as TAPE waits (R190). -/
def condWord (c : Nat) (v x : Nat) : Bool :=
  match c with
  | 0 => v = x | 1 => v != x | 2 => decide (v < x) | 3 => decide (v ≤ x) | 4 => decide (x < v) | _ => decide (x ≤ v)

/-- A word as a wait sees it: a token where it is tagged or marked. -/
def State.watched (s : State) (w : Watched) (origin : Nat) : Tw :=
  match w with
  | .mem pa => match s.markAt pa with | some c => .tok (token c.toNat origin) | none => .data (BitVec.ofNat 32 (s.readN pa 4))
  | .pad g n => match s.group? g with | some gr => get gr.pad n Tw.zero | none => Tw.zero

/-- Whether the wait is over, and with what. -/
def MonWait.over (s : State) (w : MonWait) : Option Tw :=
  let v := s.watched w.word (originOf w.pc)
  if v.tag || condWord w.cond v.val.toNat w.cmp.toNat then some v else none

def WaitOn.watch : WaitOn → Option MonWait
  | .cond w => some w
  | .tape w _ _ => some w
  | _ => Option.none

/-! Waits that no thread of this package makes (R238, R355, R410). -/

/-- The wait is over: a peer's also where its word is marked. -/
def State.farOver (s : State) (w : FarWait) : Bool :=
  let v := s.watched (.mem w.pa) 0
  if v.tag then (match w.who with | .peer _ _ => true | .act _ => false) else condWord w.cond v.val.toNat w.cmp.toNat

/-- What the end of a wait does: the peer is answered with the word, or with the code of its sector; the act is ready. -/
def State.farEnd (s : State) (w : FarWait) : State :=
  match w.who with
  | .peer src _ =>
    (match s.markAt w.pa with
    | some c => s.send (.peerReply src [] 0 (some c))
    | none => s.send (.peerReply src [(s.watched (.mem w.pa) 0)] 0 none))
  | .act k => (match find s.acts k with | some a => { s with acts := put s.acts k { a with ready := true } } | none => s)

/-- Drop the monitors that no thread waits on. -/
def State.sweepMonitors (s : State) (cluster : Nat) : State :=
  let held (m : Monitor) : Bool := s.threads.any fun (_, t) =>
    match t.waitOn.watch with
    | some w => w.monitor && w.word = m.word && w.cond = m.cond && w.cmp = m.cmp && t.ctx = m.ctx
    | none => false
  let held (m : Monitor) : Bool := held m || s.pkg.waits.any fun w =>
    w.monitor && .mem w.pa = m.word && w.cond = m.cond && w.cmp = m.cmp && w.ctx = m.ctx
  s.modCluster cluster fun c => if c.mons.isEmpty then c else { c with mons := c.mons.filter held }

/-- Waits that p accepts end without an effect; their monitors go with their last waiter. -/
def State.dropFar (s : State) (p : FarWait → Bool) : State :=
  if s.pkg.waits.any p then
    let s := { s with pkg := { s.pkg with waits := s.pkg.waits.filter fun w => !p w } }
    s.clusters.foldl (fun s (c, _) => s.sweepMonitors c) s
  else s

/-- After a write of words that `hit` names, the waits with a monitor there that are over end. -/
def State.farWake (s : State) (hit : Watched → Bool) : State :=
  let ended := s.pkg.waits.filter fun w => w.monitor && hit (.mem w.pa) && s.farOver w
  if ended.isEmpty then s else
  ended.foldl State.farEnd { s with pkg := { s.pkg with waits := s.pkg.waits.filter fun w => !ended.contains w } }

/-- The device itself has written [pa, pa + n): the waits that hold a monitor there and are now over go on with the word's value (R238). -/
def State.noteWrite (s : State) (pa n : Nat) : State :=
  let hits := s.threads.filterMap fun (k, t) =>
    t.waitOn.watch.bind fun w => match w.word with
      | .mem a => if w.monitor && decide (a < pa + n ∧ pa < a + 4) then (w.over s).map fun v => (k, v) else none
      | .pad _ _ => none
  { s with wrote := s.wrote ++ [(pa, n)], woken := s.woken ++ hits }.farWake fun w => match w with
    | .mem a => decide (a < pa + n ∧ pa < a + 4)
    | .pad _ _ => false

/-- The zero-fill of a frame: its bytes, its marks, its stamp entries. -/
def State.fillFrame (s : State) (f : Nat) : State :=
  let s := { s with
    mem := keep (fun a _ => a / 2 ^ 16 != f) s.mem
    marks := keep (fun k _ => k / 2 ^ 11 != f) s.marks
    zeroPend := s.zeroPend.filter fun x => x != f }
  (s.noteWrite (f * 2 ^ 16) (2 ^ 16)).modCluster (f / 2 ^ 14) fun c => { c with stamps := c.stamps.filter fun e => e.line / 2 ^ 10 != f }

def State.reach (s : State) (pa : Nat) : State := if s.unfilled pa then s.fillFrame (pa / 2 ^ 16) else s

/-- Write bytes, which lie in one frame. -/
def State.putBytes (s : State) (pa : Nat) (bytes : List Byte) : State :=
  let s := s.reach pa
  { s with mem := writeBytes s.mem pa bytes }

def State.writeN (s : State) (pa n v : Nat) : State := s.putBytes pa (toBytes n v)

/-- The first marked sector that an access of n bytes meets. -/
def State.markIn (s : State) (pa n : Nat) : Option Byte :=
  match s.markAt pa with
  | some c => some c
  | none => s.markAt (pa + n - 1)

def State.setMark (s : State) (pa : Nat) (code : Nat) : State :=
  let s := s.reach pa
  { s with marks := put s.marks (pa / 32) (BitVec.ofNat 8 code) }

/-- Every whole sector of [a, a + n) loses its mark (R84). -/
def clearMarks (m : Map Byte) (a n : Nat) : Map Byte := keep (fun k _ => !(decide (a ≤ 32 * k) && decide (32 * k + 32 ≤ a + n))) m

end Sys2Proof.Machine
end

