-- ==== Sys2Proof/Machine/Translate.lean ====
section
/-! DEFINITION. Address translation (spec/18 R384 to R392): regions, the walk, the owner check, what the TLBs hold. -/

namespace Sys2Proof.Machine

/-- Where a physical address lies (R384); `none` is no region. `own` is the package's own number. -/
inductive Region where
  | home (c : Nat) | hostRaw | cxl (eg off : Nat) | peer (q pa : Nat) | fabric (e pa : Nat)
deriving DecidableEq, Repr

def regionOf (own pa : Nat) : Option Region :=
  let low := pa % 2 ^ 40
  match pa / 2 ^ 48 with
  | 0 => if 2 ^ 40 ≤ pa then none else if pa / 2 ^ 30 < 768 then some (.home (pa / 2 ^ 30)) else some .hostRaw
  | 1 => some (.cxl (fld pa 47 44) (pa % 2 ^ 44))
  | 2 => if fld pa 47 40 = own ∨ 768 * 2 ^ 30 ≤ low then none else some (.peer (fld pa 47 40) low)
  | 3 => if 768 * 2 ^ 30 ≤ low then none else some (.fabric (fld pa 47 40) low)
  | _ => none

def State.ownPkg (s : State) : Nat := fld s.pkg.podctl.toNat 7 0

def State.region (s : State) (pa : Nat) : Option Region := regionOf s.ownPkg pa

/-- Walkers that stand idle begin with the walks that have waited longest, 16 at work at once (R391, R392). -/
def startWalks (l : List Walk) : List Walk :=
  let busy := (l.filter fun x => x.started).length
  let next := ((l.filter fun x => !x.started).take (16 - busy)).map fun x => (x.ctx, x.granule)
  l.map fun x => if next.contains (x.ctx, x.granule) then { x with started := true } else x

/-- The check-symbol range of a home whose partition runs strong ECC (R20). -/
def State.checkSymbol (s : State) (pa : Nat) : Bool :=
  (s.row (rowOf (pa / 2 ^ 30))).ecc && decide (0x38000000 ≤ pa % 2 ^ 30)

/-- A held translation leads into the check-symbol range of a home whose partition has gone to strong ECC since (R20). -/
def State.inCheckRange (s : State) (pa : Nat) : Bool := (match s.region pa with | some (.home _) => true | _ => false) && s.checkSymbol pa

/-- R388: the regions that an attribute permits. -/
def State.leafOk (s : State) (attr pa : Nat) : Bool :=
  match s.region pa with
  | some (.home _) => (attr = 1 || attr = 2) && !s.checkSymbol pa
  | some .hostRaw => attr = 1
  | some (.cxl _ _) => attr = 1
  | some (.peer _ _) => attr = 1
  | some (.fabric _ _) => attr = 4
  | none => false

/-! Ranges that have moved (spec/08 R226, spec/15 R346). -/

/-- What a place holds for an address range: a freeze, or the entry or onward mirror that names a newer range. -/
inductive Moved where
  | frozen | to (f : Forward)
deriving DecidableEq, Repr

/-- The whole of [pa, pa + n) lies in the range that an entry or a mirror is for. -/
def Forward.holds (f : Forward) (pa n : Nat) : Bool := decide (f.base ≤ pa ∧ pa + n ≤ f.base + f.bytes)

def State.frozenAt (s : State) (c pa n : Nat) : Bool := (s.cluster c).frozen.any fun (b, m) => decide (b < pa + n ∧ pa < b + m)

/-- What stands at a home for a range that has moved as one: a freeze of any of its bytes, the entry, or the latest onward mirror. -/
def State.movedWhole (s : State) (c pa n : Nat) : Option Moved :=
  let cl := s.cluster c
  if s.frozenAt c pa n then some .frozen
  else match cl.fwds.find? fun f => f.holds pa n with
    | some f => some (.to f)
    | none => (cl.mirrors.filter fun f => f.onward && f.holds pa n).getLast?.map .to

/-- Where a byte stands now, through forwarding entries (R226). -/
def State.finalPa (s : State) (pa : Nat) : Nat → Nat
  | 0 => pa
  | n + 1 =>
    match s.region pa with
    | some (.home c) => (match s.movedWhole c pa 1 with | some (.to f) => s.finalPa (f.dst + (pa - f.base)) n | _ => pa)
    | _ => pa

def State.placed? (s : State) (pa : Nat) : Nat := s.finalPa pa 64

/-- The words of a range. -/
def wordsIn (pa n : Nat) : List Nat := (List.range ((n + 3) / 4)).map fun i => pa + 4 * i

/-- Only a part of a range has moved, or its parts to different places: each of its words is accessed where it stands now, so that no access
reaches old bytes (R346). DEDUCED (log entry 125). -/
def State.split (s : State) (pa n : Nat) : Bool := (wordsIn pa n).any fun a => s.placed? a != s.placed? pa + (a - pa)

/-- What an access to n bytes at a home meets there: the freeze of any of them, also of one that has moved alone, or where they all went. -/
def State.movedAt (s : State) (c pa n : Nat) : Option Moved :=
  match s.movedWhole c pa n with
  | some m => some m
  | none =>
    if s.split pa n && (wordsIn pa n).any fun a => s.frozenAt (s.placed? a / 2 ^ 30) (s.placed? a) 4 then some .frozen else none

/-- A word of a home that is filled and has not moved. -/
def State.plainAt (s : State) (c pa : Nat) : Bool := !s.unfilled pa && (s.movedAt c pa 4).isNone

/-- Where n bytes stand now, and their own address where they have not moved as one. -/
def State.standsAt (s : State) (pa n : Nat) : Nat := if s.split pa n then pa else s.placed? pa

/-- n bytes as they stand now. -/
def State.readNow (s : State) (pa n : Nat) : Nat :=
  if s.split pa n then ofBytes ((List.range n).flatMap fun i => s.bytesAt (s.placed? (pa + i)) 1) else s.readN (s.placed? pa) n

/-- The first marked sector that n bytes meet where they stand now. -/
def State.markNow (s : State) (pa n : Nat) : Option Byte :=
  if s.split pa n then (wordsIn pa n).findSome? fun a => s.markAt (s.placed? a) else s.markIn (s.placed? pa) n

/-- A leaf: the address of the access, the attribute, the page size, the claim bit. -/
structure Leaf where
  pa : Nat
  attr : Nat
  page : Nat
  zc : Bool
deriving DecidableEq, Repr

/-- The index bits of R385 by level. -/
def tableIndex (level va : Nat) : Nat :=
  match level with
  | 4 => fld va 55 48
  | 3 => fld va 47 39
  | 2 => fld va 38 30
  | 1 => fld va 29 21
  | _ => fld va 20 16

/-- The size in bytes of the table of a level (R385). -/
def tableSize (level : Nat) : Nat := match level with | 4 => 2048 | 0 => 256 | _ => 4096

/-- The entry of a level for va, from the walk cache where the walk uses it (R391), else from memory, where it
stands now (R226): with the code of a marked sector (R84). -/
def State.entryAt (s : State) (row ctx : Nat) (cached : Bool) (t level va : Nat) : Except Byte Nat :=
  let a := t + 8 * tableIndex level va
  let hit := if cached then (s.row row).walkCache.find? fun e => e.ctx = ctx && e.level = level && e.va = va / 2 ^ (12 + 9 * level) else none
  match hit with
  | some e => .ok e.entry.toNat
  | none =>
    match s.markNow a 8 with
    | some c => .error c
    | none => .ok (s.readNow a 8)

/-- The walk of R387, from the table t of a level. A table that lies in a check-symbol range is read as any other (R387 asks for a home
range alone; log entry 111). -/
def State.walkFrom (s : State) (row ctx : Nat) (cached : Bool) (va : Nat) : Nat → Nat → Except Byte Leaf
  | level, t =>
    match s.entryAt row ctx cached t level va with
    | .error c => .error c
    | .ok e =>
      if !bit e 0 then .error (if bit e 63 then 0x01 else 0x10)
      else if bit e 63 || fld e 62 52 != 0 || fld e 7 6 != 0 then .error 0x10
      else if !bit e 1 then
        match level with
        | 0 => .error 0x10
        | l + 1 =>
          let t' := fld e 51 8 * 256
          if t' % tableSize l != 0 || 768 * 2 ^ 30 ≤ t' then .error 0x10
          else s.walkFrom row ctx cached va l t'
      else if 3 ≤ level then .error 0x10
      else
        let page := if level = 2 then 2 ^ 30 else if level = 1 then 2 ^ 21 else 2 ^ 16
        let base := fld e 51 8 * 256
        let attr := fld e 4 2
        if attr = 0 ∨ 5 ≤ attr then .error 0x10
        else if attr = 3 then (if base = 0 then .ok ⟨0, 3, page, bit e 5⟩ else .error 0x10)
        else if base % page != 0 then .error 0x10
        else
          let pa := base + va % page
          if s.leafOk attr pa then .ok ⟨pa, attr, page, bit e 5⟩ else .error 0x10

/-- R387 with its first check; `row` is the die row whose walk cache serves. -/
def State.walk (s : State) (row ctx va : Nat) (cached : Bool) : Except Byte Leaf :=
  if fld va 63 56 != 0 then .error 0x11
  else s.walkFrom row ctx cached va 4 (fld (s.ctx ctx).pt.toNat 51 11 * 2 ^ 11)

/-- The owner check and claim of R389 on a granule: the state after a claim. -/
def State.ownerCheck (s : State) (ctx : Nat) (l : Leaf) : Except Byte State :=
  match s.region l.pa with
  | some (.home _) =>
    let f := l.pa / 2 ^ 16
    let o := get s.owners f 0x40
    if o = ctx then .ok s
    else if o = 0x40 ∧ l.zc then .ok { s with owners := put s.owners f ctx, zeroPend := f :: s.zeroPend }
    else .error 0x10
  | _ => .ok s

/-- Context use of an edge group (R406). -/
def State.mayUse (s : State) (ctx eg : Nat) : Bool := bit (s.eg eg).use.toNat ctx

/-- An installed CXL range that covers an offset (R408). -/
def State.cxlCovers (s : State) (eg off : Nat) : Bool :=
  (s.eg eg).installed.any fun r => fld r.toNat 47 32 * 2 ^ 28 ≤ off && off < (fld r.toNat 47 32 + fld r.toNat 31 16) * 2 ^ 28

/-- Where a byte of a CXL window stands: memory is keyed by the expander's own device address, from 0 up, to which the installed range maps
the window (R408; log entry 6). Any other address is its own key. -/
def State.cellOf (s : State) (pa : Nat) : Nat :=
  match s.region pa with
  | some (.cxl eg off) =>
    (match (s.eg eg).installed.find? fun r => decide (fld r.toNat 47 32 * 2 ^ 28 ≤ off ∧ off < (fld r.toNat 47 32 + fld r.toNat 31 16) * 2 ^ 28) with
    | some r => 2 ^ 52 + (eg * 16 + fld r.toNat 15 12) * 2 ^ 44 + (off - fld r.toNat 47 32 * 2 ^ 28)
    | none => pa)
  | _ => pa

/-- The code of an access to a CXL window that its group does not serve (R406, R408, R415, R416). -/
def State.cxlFault (s : State) (ctx eg off : Nat) : Option Nat :=
  let g := s.eg eg
  if !s.mayUse ctx eg then some 0x10
  else if g.step != 0 then some 0x13
  else if g.pers = 7 ∧ g.was = 1 then some 0x03
  else if g.pers != 1 || !s.cxlCovers eg off then some 0x10
  else none

/-- A translation that a TLB of the row holds for a cluster (R391); a host entry serves its own range. -/
def State.tlbHit (s : State) (cluster ctx va : Nat) : Option TlbEl :=
  (s.row (rowOf cluster)).tlb.find? fun e =>
    e.ctx = ctx && (e.cluster = none || e.cluster = some cluster)
      && decide (e.base ≤ va) && decide (va < e.base + e.bytes)

/-- The attribute check of an access (R388): the code of a refusal. -/
def attrRefuses (attr : Nat) (a : Access) : Bool :=
  match a with
  | .read => false
  | .write => attr = 2
  | .fetch => attr != 2

/-- Add an entry to the row's TLBs, for the row and for a cluster. -/
def State.fillTlb (s : State) (cluster : Nat) (e : TlbEl) : State :=
  s.modRow (rowOf cluster) fun r => { r with tlb := { e with cluster := some cluster } :: { e with cluster := none } :: r.tlb }

/-- Walk, owner check, attribute check, done at once: what engines and the device's own accesses use (R321, R387 to R389).
A host leaf answers with attribute 3 and the virtual address. -/
def State.resolve (s : State) (cluster ctx va : Nat) (a : Access) : Except Byte (State × Leaf) :=
  match s.walk (rowOf cluster) ctx va false with
  | .error c => .error c
  | .ok l =>
    if attrRefuses l.attr a then .error 0x10 else
    match s.ownerCheck ctx l with
    | .error c => .error c
    | .ok s' => .ok (s', if l.attr = 3 then { l with pa := va } else l)

/-- A virtual address that must translate to writable device memory of the package (R353, R375, R427). -/
def State.resolveDevice (s : State) (cluster ctx va : Nat) : Except Byte (State × Nat) :=
  match s.resolve cluster ctx va .write with
  | .error c => .error c
  | .ok (s', l) =>
    match s'.region l.pa with
    | some (.home _) => if l.attr = 1 then .ok (s', l.pa) else .error 0x10
    | _ => .error 0x10

/-- Bytes at their addresses, gathered in runs that stay in one frame. -/
def runsOf : List (Nat × Byte) → List (Nat × List Byte)
  | [] => []
  | (a, b) :: r =>
    match runsOf r with
    | [] => [(a, [b])]
    | (c, l) :: q => if c = a + 1 ∧ c % 2 ^ 16 != 0 then (a, b :: l) :: q else (a, [b]) :: (c, l) :: q

/-- Bytes from an address on, where they stand now. -/
def State.runsAt (s : State) (pa : Nat) (bytes : List Byte) : List (Nat × List Byte) :=
  runsOf (bytes.zipIdx.map fun (b, i) => (s.placed? (pa + i), b))

/-- The device writes bytes of its own where they stand now. One that finds its range frozen comes before the copy (R226). A sector that it
writes whole loses its mark (R84). -/
def State.deviceWrite (s : State) (pa : Nat) (bytes : List Byte) : State :=
  (s.runsAt pa bytes).foldl (fun s (a, l) =>
    let s := s.putBytes a l
    { s with marks := clearMarks s.marks a l.length }.noteWrite a l.length) s

/-- Write bytes, which lie in one granule, at a virtual address in writable device memory: a write of the device's own. -/
def State.writeVirtual (s : State) (cluster ctx va : Nat) : List Byte → State × Bool
  | [] => (s, true)
  | bytes =>
    match s.resolveDevice cluster ctx va with
    | .error _ => (s, false)
    | .ok (s', pa) => (s'.deviceWrite pa bytes, true)

end Sys2Proof.Machine
end

