-- ==== Sys2Proof/Machine/Reliability.lean ====
section
/-! DEFINITION. The rings' pointer rules (spec/20 R427, R428), the reliability path (spec/21 R442, R443), wear counts and the order
of repairs (R444 to R446). -/

namespace Sys2Proof.Machine

/-- The pointer register after a record that finds no room (R428). -/
def ringLose (p : Dword) : Dword :=
  let n := df p 62 48
  setD (setD p 63 63 1) 62 48 (if n = 0x7FFF then n else n + 1)

/-- LOG2N of 4 to 20 names a ring (R427). -/
def ringSize (log : Nat) : Option Nat := if 4 ≤ log ∧ log ≤ 20 then some (2 ^ log) else none

/-- Write a record into the package ring, at a home where the range stands now (R226, R442); the record is a whole sector, so its write clears
the sector's mark (R84). R442 asks for a home range alone: one that lies in a check-symbol range takes the record as any other. DESIGN CHOICE (log
entry 111). -/
def State.putReliability (s : State) (cls code unit kind ctx addr wear : Nat) : State :=
  let head := df s.pkg.relrp 39 20
  let tail := df s.pkg.relrp 19 0
  match ringSize (df s.pkg.relr 4 0) with
  | none => { s with pkg := { s.pkg with relrp := ringLose s.pkg.relrp } }
  | some n =>
    let next := (tail + 1) % n
    let inHome := match s.region (df s.pkg.relr 63 16 * 16 + 32 * tail) with | some (.home _) => true | _ => false
    if next = head || !inHome then { s with pkg := { s.pkg with relrp := ringLose s.pkg.relrp } } else
    let v := s.nc % 2 ^ 64 * 2 ^ 192 + addr % 2 ^ 52 * 2 ^ 140 + cls % 256 * 2 ^ 120 + code % 256 * 2 ^ 112 + unit % 65536 * 2 ^ 96
      + kind % 256 * 2 ^ 88 + ctx % 128 * 2 ^ 64 + wear % 2 ^ 64
    let s' := s.deviceWrite (df s.pkg.relr 63 16 * 16 + 32 * tail) (toBytes 32 v)
    let s'' := { s' with pkg := { s'.pkg with relrp := setD s'.pkg.relrp 19 0 next } }
    if tail = head then s''.msix (df s.pkg.relvec 15 0) else s''

/-! Units and spares (R19, R444). -/

def stackOf (cluster : Nat) : Nat := dieOf cluster * 2 + cluster % 192 / 24 / 4

/-- Where repairs run one at a time: a die row, or a stack; the links and fibres stand in neither. -/
def repairSite (kind unit : Nat) : Option Nat :=
  match kind with
  | 1 => some (rowOf unit)
  | 2 => some (unit / 4)
  | 3 => some (32 + stackOf unit)
  | 4 => some (32 + unit / 384)
  | _ => none

/-- The pool of spares that serves a unit, and its size. -/
def sparePool (kind unit lane : Nat) : Nat × Nat :=
  match kind with
  | 1 => (rowOf unit, 1)
  | 2 => (1000 + unit / 4, 1)
  | 3 => (2000 + stackOf unit, 4)
  | 4 => (3000 + unit / 384, 8)
  | 5 => (2 ^ 20 + unit * 4096 + lane / 16, 1)
  | _ => (5000 + unit, 1)

def unitCount (kind : Nat) : Nat := match kind with | 1 => 768 | 2 => 128 | 3 => 768 | 4 => 3072 | 5 => 2080 | 6 => 64 | _ => 0

/-- The key of a wear count: storage and datapaths of a cluster count to the unit that R444 has for them, the cluster's site (R445). DEDUCED (log
entry 28). -/
def wearKey (kind unit lane : Nat) : Nat := ((if (kind = 7 ∨ kind = 8) ∧ unit < 768 then 1 else kind) * 65536 + unit) * 65536 + lane

/-- A cluster site that is being repaired: its items count as not resident (R444). -/
def State.siteDown (s : State) (cluster : Nat) : Bool := s.pkg.repairs.any fun x => x.started && x.kind = 1 && x.unit = cluster

/-- The slice of a die row that serves a line (R314). -/
def sliceOf (pa : Nat) : Nat := Nat.xor (fld pa 7 6) (fld pa 13 12)

/-- The home whose MSE serves a pseudo-channel (R19, R444). -/
def channelHome (unit c : Nat) : Bool := stackOf c = unit / 384 && unit % 384 / 4 = c % 96

/-- A link joins the die to another, or to an I/O die (R444): boundaries D0–D1, D2–D3, D0–D2, D1–D3; the package rows of IO0 and IO1. -/
def linkAt (unit die : Nat) : Bool :=
  if 2048 ≤ unit then die / 2 = (unit - 2048) % 16 / 8
  else match unit / 512 with
    | 0 => die / 2 = 0
    | 1 => die / 2 = 1
    | 2 => die % 2 = 0
    | _ => die % 2 = 1

/-- An operation is on its way over a die-to-die link, as far as its ends tell. -/
def Op.onLink (o : Op) (unit : Nat) : Bool :=
  o.stage = .sent && (match o.place with
    | .home c => dieOf c != dieOf o.cluster && unit < 2048 && (linkAt unit (dieOf o.cluster) || linkAt unit (dieOf c))
    | .host | .hostRaw | .cxl _ | .peer _ | .fabric _ => linkAt unit (dieOf o.cluster)
    | .pad _ | .window => false)

/-- A unit holds work of a context whose curtain is Lowering (R446): what stands or runs there, or crosses it. -/
def State.unitLowering (s : State) (kind unit : Nat) : Bool :=
  let lowering (c : Nat) : Bool := (s.ctx c).low && !(s.ctx c).down
  let ops (p : Op → Bool) : Bool := s.ops.any fun (_, o) => o.stage != .performed && p o && lowering o.ctx
  match kind with
  | 1 => s.threads.any (fun (k, t) => clusterOfKey k = unit && lowering t.ctx) || s.groups.any (fun (_, g) => g.cluster = unit && lowering g.ctx)
      || (s.cluster unit).arrivals.any (fun a => lowering a.ctx) || (s.cluster unit).outbox.any fun m => lowering m.ctx
  | 2 => ops fun o => (match o.work with | .load _ cached _ => cached | .ragged _ _ _ _ _ ro _ => ro | _ => false)
      && rowOf o.cluster = unit / 4 && sliceOf o.pa = unit % 4
  | 3 =>
    let cl := s.cluster unit
    ops (fun o => o.place = .home unit) || cl.merges.any (fun (_, m) => lowering m.ctx) || cl.mons.any (fun m => lowering m.ctx)
      || cl.fwds.any (fun f => lowering f.ctx) || cl.mirrors.any fun f => lowering f.ctx
  | 4 => ops fun o => match o.place with | .home c => channelHome unit c | _ => false
  | 5 => ops fun o => o.onLink unit
  | 6 => ops fun o => o.place = .cxl (unit / 4) || o.eg = some (unit / 4)
  | _ => false

/-- The frame of a pseudo-channel's home that a repair of kind 4 is copying: each of its 2^14 frames in turn, each within its share of the 100 ms
of R444 (log entry 132). -/
def Repair.frame (r : Repair) (c now : Nat) : Nat := c * 2 ^ 14 + (now - r.since) / (1 + Config.duration 4 r.since % (100000 * ticksPerUs / 2 ^ 14 - 1))

/-- A repair of kind 4 copies the frame of an address: an operation to it waits (R444). -/
def State.copied (s : State) (pa : Nat) : Bool :=
  s.pkg.repairs.any fun r => r.started && r.kind = 4 && channelHome r.unit (pa / 2 ^ 30) && r.frame (pa / 2 ^ 30) s.now = pa / 2 ^ 16

/-- Begin one repair if it can begin now; one for which no spare is left is reported and given up. `held` are the die rows and stacks in which an
earlier trigger waits or a repair runs: later ones queue behind it (R446). -/
def State.startRepair (st : State × List Nat) (r : Repair) : State × List Nat :=
  let (s, held) := st
  let (pool, size) := sparePool r.kind r.unit r.lane
  let queue (s : State) : State × List Nat := (s, match repairSite r.kind r.unit with | some x => x :: held | none => held)
  let taken := get s.pkg.used pool 0 + (s.pkg.repairs.filter fun x => x.started && sparePool x.kind x.unit x.lane = (pool, size)).length
  if r.started then queue s
  else if (match repairSite r.kind r.unit with | some x => held.contains x | none => false) then queue s
  else if size ≤ taken then
    ({ s with pkg := { s.pkg with repairs := s.pkg.repairs.filter fun x => x != r } }.putReliability 5 0 r.unit r.kind 0x40
      (if r.kind = 5 ∨ r.kind = 6 then r.lane else 0) (get s.pkg.wear (wearKey r.kind r.unit r.lane) 0), held)
  else if s.unitLowering r.kind r.unit then queue s
  else queue { s with pkg := { s.pkg with repairs := s.pkg.repairs.map fun x => if x = r then { r with started := true, since := s.now } else x } }

/-- Begin the repairs that can begin, in trigger order (R446). -/
def State.startRepairs (s : State) : State := (s.pkg.repairs.foldl State.startRepair (s, [])).1

/-- Ask for the repair of a unit. -/
def State.askRepair (s : State) (kind unit lane : Nat) : State :=
  let r : Repair := { kind := kind, unit := unit, lane := lane, started := false }
  if s.pkg.repairs.any fun (x : Repair) => x.kind = kind && x.unit = unit && x.lane = lane then s else
  let s := { s with pkg := { s.pkg with repairs := s.pkg.repairs ++ [r] } }
  s.startRepairs

/-- A reliability event (R443): the wear count of a corrected one, the record, and the automatic repair of R445, which the service firmware makes
once the service cores are released (R447): of a unit whose count
reaches THR, and of one at its first uncorrectable or residue event. An event in a datapath or in other storage of a cluster bears on the cluster's site. DEDUCED (log entry 28). -/
def State.reliability (s : State) (cls code unit kind ctx addr : Nat) : State :=
  let lane := if kind = 5 ∨ kind = 6 then addr else 0
  let key := wearKey kind unit lane
  let wear := get s.pkg.wear key 0 + (if cls = 1 then 1 else 0)
  let s := if cls = 1 then { s with pkg := { s.pkg with wear := put s.pkg.wear key wear } } else s
  let s := s.putReliability cls code unit kind ctx addr wear
  let thr := df s.pkg.repctl 31 0
  let fresh := !s.pkg.bad.contains key
  let s := if cls = 2 ∨ cls = 3 then { s with pkg := { s.pkg with bad := if fresh then key :: s.pkg.bad else s.pkg.bad } } else s
  let due := s.root.released && bit s.pkg.repctl.toNat 63 && (((cls = 2 || cls = 3) && fresh) || (cls = 1 && thr != 0 && wear = thr))
  if !due then s
  else if 1 ≤ kind ∧ kind ≤ 6 then s.askRepair kind unit lane
  else if unit < 768 then s.askRepair 1 unit 0
  else s

end Sys2Proof.Machine
end

