-- ==== Sys2Proof/Machine/Ops.lean ====
section
/-! DEFINITION. The named operations on registers, threads, fault records and exceptions: reading and writing a register,
ending a pending state, writing a record, rollback, the failure of a fabric transaction, the curtain, raising a token. -/

namespace Sys2Proof.Machine

/-! Registers (R34, R37, R42, R44, R48, R51). -/

/-- A register file index of a g or o register (R122). -/
def fileIndex (r : Byte) : Nat := if r.toNat < 0xC0 then r.toNat else r.toNat - 0xC0 + 192

/-- The extended block, 1 to 4, of a file index; 0 for a base or o register (R34). -/
def blockOf (i : Nat) : Nat := if 64 ≤ i ∧ i < 192 then (i - 64) / 32 + 1 else 0

def Thread.cell (t : Thread) (i : Nat) : Cell := get t.regs i { Cell.dead with st := t.rest }

/-- What a read of a cell delivers to an instruction with the given origin (R51). -/
def Cell.read (c : Cell) (origin : Nat) : Tw :=
  match c.st with
  | .live => ⟨c.tag, c.val⟩
  | .dead => .tok (token 0x30 origin)
  | .pending => .tok (token 0x31 origin)
  | .left => .tok (token 0x32 origin)

/-- A g or o register; an extended register that is not held reads as dead (R42). -/
def Thread.readFile (t : Thread) (i origin : Nat) : Tw :=
  if t.blocks < blockOf i then .tok (token 0x30 origin) else (t.cell i).read origin

def Thread.setCell (t : Thread) (i : Nat) (c : Cell) : Thread := { t with regs := put t.regs i c }
def Thread.writeFile (t : Thread) (i : Nat) (v : Tw) : Thread := t.setCell i (Cell.ofTw v)

/-- The three ways of R35 in which l0 and l1 follow a result. -/
def Thread.pushL (t : Thread) (v : Tw) : Thread := { t with l1 := t.l0, l0 := Cell.ofTw v }
def Thread.setL0 (t : Thread) (v : Tw) : Thread := { t with l0 := Cell.ofTw v }
def Thread.setL (t : Thread) (lo hi : Tw) : Thread := { t with l0 := Cell.ofTw lo, l1 := Cell.ofTw hi }

/-- Predicates; p7 reads true and discards writes (R34). -/
def Thread.pred (t : Thread) (p : Nat) : PCell := if p = 7 then { PCell.false with val := true } else t.preds.getD p PCell.false
def Thread.setPred (t : Thread) (p : Nat) (c : PCell) : Thread := if p = 7 then t else { t with preds := t.preds.set p c }

/-- A predicate as the value an instruction reads: its token, or whether it holds (R48, R82). -/
def Thread.readPred (t : Thread) (p origin : Nat) : Except Word Bool :=
  let c := t.pred p
  if c.pending then .error (token 0x31 origin) else if c.tag then .error c.tok else .ok c.val

/-- OR flags into the TSW (R79, R140). -/
def Thread.flag (t : Thread) (f : Word) : Thread := { t with tsw := t.tsw ||| f }

/-- The thread issues an operation of a class (R203). -/
def Thread.count (t : Thread) (cls : Nat) : Thread := { t with counts := put t.counts cls (get t.counts cls 0 + 1) }

/-- A register becomes pending on the operation of a class that the thread has just issued (R48). -/
def Thread.pend (t : Thread) (r : Byte) (op cls : Nat) : Thread :=
  let c (old : Cell) : Cell :=
    { st := .pending, tag := false, val := 0, owner := op, cls := cls, arrived := false, flags := 0
      was := if old.st = .pending then old.was else some (old.st, ⟨old.tag, old.val⟩), nth := get t.counts cls 0 }
  if r = 0xC8 then { t with l0 := c t.l0 } else if r = 0xC9 then { t with l1 := c t.l1 }
  else if r.toNat ≤ 0xC7 then t.setCell (fileIndex r) (c (t.cell (fileIndex r))) else t

/-- The value of a long write comes for a register: it stands only where the register, or the checkpoint of the thread's
transaction, still waits for it (R49, R194). The flags of an update that is discarded are discarded with it (log entry 107). -/
def Thread.arrive (t : Thread) (r : Byte) (op : Nat) (v : Tw) (flags : BitVec 5) : Thread :=
  let f (c : Cell) : Cell := if c.st = .pending ∧ c.owner = op then { c with tag := v.tag, val := v.val, arrived := true, flags } else c
  let i := fileIndex r
  let on (m : Map Cell) : Map Cell := match find m i with | some c => put m i (f c) | none => m
  if r = 0xC8 then { t with l0 := f t.l0 } else if r = 0xC9 then { t with l1 := f t.l1 }
  else if r.toNat ≤ 0xC7 then { t with regs := on t.regs, txn := t.txn.map fun x => { x with regs := on x.regs } }
  else t

/-- End the pending state of the arrived registers that p names, and OR in the flags they waited with (R48, R72). l0 and l1 are dead
then, and what came for them is never read (R35). -/
def Thread.settle (t : Thread) (p : Cell → Bool) : Thread :=
  let ends (c : Cell) : Bool := c.st = .pending && c.arrived && p c
  let flags := ((t.l0 :: t.l1 :: t.regs.map fun (_, c) => c).filter ends).foldl (fun a c => a ||| c.flags.zeroExtend 32) (0 : Word)
  let dies (c : Cell) : Cell := if ends c then Cell.dead else c
  { t with
    regs := mapVals (fun _ c => if ends c then { c with st := .live, arrived := false, flags := 0, was := none } else c) t.regs
    l0 := dies t.l0
    l1 := dies t.l1
    tsw := t.tsw ||| flags }

/-- Every pending long write is given up: registers die, predicates take the dead-register token (R423). -/
def Thread.abandon (t : Thread) (origin : Nat) : Thread :=
  { t with
    regs := mapVals (fun _ c => if c.st = .pending then Cell.dead else c) t.regs
    preds := t.preds.map fun p => if p.pending then ⟨p.val, true, token 0x30 origin, false⟩ else p }

/-- Set the cue-table state, its wait reason (R434) and what is waited for. -/
def Thread.enter (t : Thread) (now : Nat) (c : Cue) (wait : Nat) (on : WaitOn) : Thread :=
  { t with cue := c, wait := BitVec.ofNat 16 wait, waitOn := on, since := now, dog := 0, paused := 0 }

/-- The end of a wait: a spilled thread asks for its blocks (R373), any other is Runnable. -/
def Thread.run (t : Thread) (now : Nat) : Thread :=
  let t := { t with held := false }
  if t.spilled = 0 then t.enter now .runnable 0 .none else t.enter now .waiting 0x1C (.spill t.spilled)

/-! Fault records and rings (R103, R428, R442). -/

structure Record where
  pc : Nat
  cons : Nat
  code : Nat
  origin : Nat
  cluster : Nat
  slot : Nat
  path : Nat
deriving DecidableEq, Repr

def Record.bits (r : Record) : Nat :=
  r.pc % 2 ^ 56 * 2 ^ 72 + r.cons % 256 * 2 ^ 64 + r.code % 256 * 2 ^ 56 + r.origin % 2 ^ 24 * 2 ^ 32 + r.cluster % 1024 * 2 ^ 22
    + r.slot % 2048 * 2 ^ 11 + r.path % 4 * 2 ^ 9

/-- Append a record to the context's fault ring (R428). The ring's address is translated in the context's tables; a record
whose address fails translation is lost as one that finds no ring (log entry 15). -/
def State.putRecord (s : State) (ctx cluster : Nat) (r : Record) : State :=
  let c := s.ctx ctx
  let head := df c.frp 39 20
  let tail := df c.frp 19 0
  let lose := s.setCtx ctx { c with frp := ringLose c.frp }
  match ringSize (df c.fr 4 0) with
  | none => lose
  | some n =>
    let next := (tail + 1) % n
    if next = head then lose else
    match s.writeVirtual cluster ctx (df c.fr 63 20 * 4096 + 16 * tail) (toBytes 16 r.bits) with
    | (s', true) =>
      let s'' := s'.modCtx ctx fun c => { c with frp := setD c.frp 19 0 next }
      if tail = head then s''.msix (df c.vec 15 0) else s''
    | (_, false) => lose

/-! Stopping a context (R421, R429, R432). -/

/-- The status word of an act, written at each change of STATE (R354). -/
def Act.statusWord (a : Act) : Nat := a.num % 65536 * 2 ^ 48 + a.err.toNat * 2 ^ 32 + b2n a.ovf * 16 + a.state

def Act.staddr (a : Act) : Nat := fld a.header 703 640

/-- Move an act to a STATE and write its status word where it has one. -/
def State.setActState (s : State) (ctx act st : Nat) : State :=
  match s.act? ctx act with
  | none => s
  | some a =>
    let a := { a with state := st }
    let s := s.setAct a
    if a.staddr = 0 then s else (s.writeVirtual 0 ctx a.staddr (toBytes 8 a.statusWord)).1

/-- The threads of a launch that have not been placed. -/
def Act.unplaced (a : Act) : Nat :=
  if a.roaming then fld a.header 127 96 - a.placed
  else (fld a.header 95 64 - a.placed) * fld a.header 55 48 * fld a.header 47 32

/-- What has the number of an act takes another. -/
def State.renumberAct (s : State) (ctx old new : Nat) : State :=
  let sub (c a : Nat) : Nat := if c = ctx && a = old then new else a
  let subKey (k : Nat) : Nat := if k = actKey ctx old then actKey ctx new else k
  let ens (k : Nat) : Nat := subKey (k / 2 ^ 32) * 2 ^ 32 + k % 2 ^ 32
  let th (t : Thread) : Thread := { t with act := sub t.ctx t.act }
  let gr (g : Group) : Group := { g with act := sub g.ctx g.act, ens := ens g.ens }
  let en (e : Ensemble) : Ensemble := { e with act := sub e.ctx e.act }
  let copy (c : CopyCmd) : CopyCmd := { c with act := sub c.ctx c.act }
  let tr (a : Travel) : Travel := { a with act := sub a.ctx a.act, saved := a.saved.map fun x => (x.1, th x.2) }
  let item (x : Saved) : Saved := match x with
    | .ensemble k e gs ts ls cs =>
      .ensemble (ens k) (en e) (gs.map fun y => (y.1, gr y.2)) (ts.map fun y => (y.1, th y.2)) (ls.map fun y => (y.1, th y.2)) (cs.map copy)
    | .roaming c k t asked q => .roaming c k (th t) asked q
  let msg (m : Msg) : Msg := { m with act := sub m.ctx m.act, cargo := match m.cargo with
    | .spawn t p f e => .spawn (tr t) p f e
    | .travel t k p e => .travel (tr t) k p e
    | .queue a p l vc o g => .queue a p l vc o g }
  { s with
    threads := mapVals (fun _ t => th t) s.threads
    groups := mapVals (fun _ g => gr g) s.groups
    ensembles := s.ensembles.foldl (fun m (k, e) => put m (ens k) (en e)) []
    acts := match find s.acts (actKey ctx old) with
      | some a => put (drop s.acts (actKey ctx old)) (actKey ctx new) { a with num := new }
      | none => s.acts
    ctxs := mapVals (fun _ c => { c with saved := c.saved.map item }) s.ctxs
    clusters := mapVals (fun _ c => { c with
      arrivals := c.arrivals.map tr, outbox := c.outbox.map msg, idle := c.idle.map subKey
      issued := c.issued.foldl (fun m (k, n) => put m (subKey k) n) [] }) s.clusters
    engines := mapVals (fun _ (e : Engine) => { e with cmds := e.cmds.map copy }) s.engines
    ops := mapVals (fun _ o => { o with act := sub o.ctx o.act }) s.ops }

/-- Cancel one act: its number is free (R354). What of it is placed goes on under a number of the model's own, which no post takes, until it
has ended, and signals nothing. DEDUCED (log entry 24). -/
def State.cancelOne (s : State) (k : Nat) : State :=
  let ctx := k / 65536
  let s := s.setActState ctx (k % 65536) 7
  match find s.acts k with
  | none => s
  | some a =>
    if a.placed = 0 then { s with acts := drop s.acts k }
    else
      let (n, s) := (s.setAct { a with live := a.live - a.unplaced, untrig := a.untrig - a.unplaced, signalled := true, fired := true }).fresh
      s.renumberAct ctx a.num (a.num + 2 ^ 22 * (n + 1))

/-- Cancel the acts of a context that are queued or waiting, on the callboards that p accepts (R352, R363, R430). -/
def State.cancelActs (s : State) (ctx : Nat) (p : Nat → Bool) : State :=
  let nums := (s.boards.filter fun (b, _) => p b).flatMap fun (_, b) => b.queue
  let mine := nums.filter fun k => k / 65536 = ctx
  let s := { s with
    boards := mapVals (fun b v => if p b then { v with queue := v.queue.filter fun k => k / 65536 != ctx } else v) s.boards }
  let s := s.dropFar fun w => match w.who with | .act k => mine.contains k | .peer _ _ => false
  mine.foldl State.cancelOne s

/-- An engine, as R432 names it, that an operation stands at. -/
def Place.engine (o : Op) : Option (Nat × Nat) :=
  match o.place with
  | .home c => some (5, c)
  | .pad g => some (6, g / 2048)
  | .host | .hostRaw => some (8, 0)
  | .cxl n => some (9, n)
  | .peer _ | .fabric _ => o.eg.map fun n => (9, n)
  | .window => none

/-- One who waits for a translation belongs to the context. -/
def State.userOf (s : State) (ctx : Nat) : WalkUser → Bool
  | .slot k => (s.slot k).lanes.any fun o => match o with | some x => (s.thread? x).any fun t => t.ctx = ctx | none => false
  | .slice g | .stream g _ => (s.group? g).any fun gr => gr.ctx = ctx
  | .copy e c => (s.engine e).cmds.any fun x => x.id = c && x.ctx = ctx
  | .op k => (find s.ops k).any fun o => o.ctx = ctx

/-- The translation and page requests that work of the context waits for. -/
def State.hostAsks (s : State) (ctx : Nat) : Nat :=
  (s.port.ats.filter fun r => r.users.any (s.userOf ctx)).length
    + (s.port.pages.filter fun r => r.threads.any fun k => (s.thread? k).any fun t => t.ctx = ctx).length

/-! Frontiers (R295, R296). -/

/-- PF(e) of R295: every leaving operation that the die has stamped at that time or earlier has been performed. -/
def State.frontier (s : State) (e : Nat) : Nat :=
  s.ops.foldl (fun f (_, o) =>
    match o.stamp with
    | some n => if dieOf o.cluster = e && o.stage != .performed then min f (n - 1) else f
    | none => f) (s.nc - 1)

/-- F(f, e) of R295: what the gate of die f has been told of die e's frontier; its view of its own die is exact. -/
def State.view (s : State) (f e : Nat) : Nat := if e = f then s.frontier f else get s.views (f * 4 + e) 0

/-- The gate of a die covers a clock: it looks at the other dies (R296). -/
def State.covers (s : State) (f : Nat) (c : Clock) : Bool :=
  (List.range 4).all fun e => e = f || decide (c.get e ≤ s.view f e)

/-- The edge port groups that hold an open transaction of a thread: those over which its packets have left (R432). -/
def State.txnGroups (s : State) (t : Thread) : List Nat :=
  match t.txn with
  | some x => ((x.held.filterMap fun k => (find s.ops k).bind Op.eg) ++ x.eg.toList).eraseDups
  | none => []

/-- The engines that hold work or state of a context (R432), each once; a gate does where it holds an access that is not covered. -/
def State.holders (s : State) (ctx : Nat) : List (Nat × Nat) :=
  let ths := (s.threads.filter fun (k, t) => t.ctx = ctx && !isLaneKey k).map fun (k, _) => (1, clusterOfKey k)
  let grs := (s.groups.filter fun (_, g) => g.ctx = ctx).flatMap fun (k, g) =>
    (if g.slice.isSome then [(2, k / 2048)] else []) ++ [(3, k / 2048)]
  let eng := (s.engines.filter fun (_, e) => e.cmds.any fun c => c.ctx = ctx).map fun (k, _) => (4, k)
  let ops := (s.ops.filter fun (_, o) => o.ctx = ctx && o.stage != .performed).flatMap fun (_, o) =>
    (match Place.engine o with | some e => [e] | none => [])
      ++ (match o.stage, o.place with | .held, .home c => if s.covers (dieOf c) o.clock then [] else [(7, dieOf c)] | _, _ => [])
  let mons := s.clusters.flatMap fun (c, v) => (v.mons.filter fun m => m.ctx = ctx).map fun m =>
    match m.word with | .mem _ => (5, c) | .pad _ _ => (6, c)
  let pages := if s.hostAsks ctx != 0 then [(8, 0)] else []
  let txns := (s.threads.filter fun (_, t) => t.ctx = ctx).flatMap fun (_, t) => (s.txnGroups t).map fun n => (9, n)
  (ths ++ grs ++ eng ++ ops ++ mons ++ pages ++ txns).eraseDups

/-- A notice goes out, and again until it is acknowledged (R278). -/
def State.notify (s : State) (kind : Nat) (d : Sender) (count : Nat) : State :=
  let (n, s) := s.fresh
  let x : Notice := ⟨kind, d, d.act, count⟩
  { s with pkg := { s.pkg with notices := put s.pkg.notices n x } }.send (.notice n x)

/-- The guest records of a context end, with their failure notices (R278). -/
def State.endGuests (s : State) (ctx : Nat) : State :=
  let mine := s.acts.filter fun (_, a) => a.ctx = ctx && a.guest.isSome
  let s := mine.foldl (fun s (_, a) => (a.guest.getD []).foldl (fun s d => s.notify 2 d 0) s) s
  { s with acts := keep (fun _ a => !(a.ctx = ctx && a.guest.isSome)) s.acts }

/-- Resolutions of a context that have not begun do not begin (R422). -/
def State.dropBegins (s : State) (ctx : Nat) : State := { s with pkg := { s.pkg with begins := s.pkg.begins.filter fun b => b.ctx != ctx } }

/-- Lower the curtain of a context: LOW, CONS and CODE, the engines to be treated, and its acts cancelled (R429, R430, R363). -/
def State.lowerCurtain (s : State) (ctx cons code : Nat) : State :=
  let c := s.ctx ctx
  if c.low then s else
  let cur := setD (setD (setD c.cur 63 63 1) 31 24 cons) 23 16 code
  let s := (s.setCtx ctx { c with cur := cur, lowAt := some s.now, work := s.holders ctx, treated := [] }).endGuests ctx
  (s.cancelActs ctx fun _ => true).dropBegins ctx

/-- A record of path 01, then the curtain; a raise issued after the lowering writes no record (R101). -/
def State.curtain (s : State) (ctx cluster : Nat) (r : Record) : State :=
  if (s.ctx ctx).low then s else (s.putRecord ctx cluster { r with path := 1 }).lowerCurtain ctx r.cons r.code

/-! Rollback (R423, R426). -/

def recoverable (code : Nat) : Bool := code = 1 || code = 2 || code = 3

/-- The granule of an address (R389). -/
def granule (va : Nat) : Nat := va / 2 ^ 16

/-- A page-need record, once for a granule with none outstanding (R426). -/
def State.pageNeed (s : State) (ctx cluster slot va : Nat) (a : Access) : State :=
  let c := s.ctx ctx
  if c.needs.contains (granule va) then s else
  let origin := match a with | .read => 0 | .write => 1 | .fetch => 2
  let s := s.setCtx ctx { c with needs := granule va :: c.needs }
  s.putRecord ctx cluster ⟨granule va * 2 ^ 16, 0x0E, 0x01, origin, cluster, slot, 0⟩

/-- Send a Page Request, or join the one outstanding for the PASID, page and kind (R398). The requests beyond the host's allocation wait. -/
def State.pageRequest (s : State) (ctx key va : Nat) (write : Bool) : State :=
  let page := va / 4096
  let pasid := (s.ctx ctx).pasid
  match s.port.pages.find? fun r => r.pasid = pasid && r.page = page && r.write = write with
  | some r => { s with port := { s.port with pages := s.port.pages.map fun x => if x.id = r.id then { x with threads := x.threads ++ [key] } else x } }
  | none =>
    let id := s.port.nextId
    let now := decide ((s.port.pages.filter fun r => r.sent).length < s.port.alloc)
    let r : PageReq := ⟨id, pasid, page, write, now, [key]⟩
    let s := { s with port := { s.port with pages := s.port.pages ++ [r], nextId := id + 1 } }
    if now then s.send (.pageRequest id pasid page write) else s

/-- Threads no longer wait for their page requests. One that has been sent stays outstanding at the host; one that has not goes with its last thread. -/
def State.leavePages (s : State) (mine : Nat → Bool) : State :=
  let rest := s.port.pages.map fun (r : PageReq) => { r with threads := r.threads.filter fun k => !mine k }
  { s with port := { s.port with pages := rest.filter fun r => r.sent || !r.threads.isEmpty } }

/-- R417: the target of the access whose failure gave code 0x03 is reachable now. -/
def State.linkUp (s : State) (cluster ctx va : Nat) : Bool :=
  match (match s.walk (rowOf cluster) ctx va false with | .ok l => s.region l.pa | .error _ => none) with
  | some (.peer q _) => (List.range 16).any fun n => bit (get s.pkg.podrt q 0) n && s.mayUse ctx n && !(s.eg n).quiet
  | some (.fabric e _) =>
    let f := get s.pkg.fabep e 0
    bit f.toNat 63 && (List.range 16).any fun n => bit f.toNat n && s.mayUse ctx n && (s.eg n).pers = 3 && (s.eg n).step = 0 && !(s.eg n).quiet
  | some (.cxl n off) => (s.eg n).pers = 1 && (s.eg n).step = 0 && s.cxlCovers n off
  | _ => true

/-- A resolution begins when the core cycle of its rollback is over, so that a curtain of the same cycle takes precedence (R422). -/
def State.beginLater (s : State) (key ctx va : Nat) (host : Bool) (a : Access) : State :=
  let b : Begin := ⟨s.nextCycle (rowOf (clusterOfKey key)), key, clusterOfKey key, slotOfKey key, ctx, va, host, a⟩
  { s with pkg := { s.pkg with begins := s.pkg.begins ++ [b] } }

/-- The resolutions whose core cycle is over begin, in the order of their raises. -/
def State.beginDue (s : State) : State :=
  if s.pkg.begins.isEmpty then s else
  let due := s.pkg.begins.filter fun b => decide (b.at' ≤ s.now)
  due.foldl (fun s b => if b.host then s.pageRequest b.ctx b.key b.va (b.access = .write) else s.pageNeed b.ctx b.cluster b.slot b.va b.access)
    { s with pkg := { s.pkg with begins := s.pkg.begins.filter fun b => decide (s.now < b.at') } }

/-- A thread takes the rollback path with a raised code: it parks at its region entry until the cause is resolved. -/
def State.rollback (s : State) (key code : Nat) (pc : Dword) (cons : Nat) : State :=
  match s.thread? key with
  | none => s
  | some t =>
    let t := { t.abandon (originOf pc) with pc := t.region, held := false }
    let cluster := clusterOfKey key
    match code with
    | 1 =>
      match t.rec1 with
      | none => s.setThread key (t.run s.now)
      | some (va, a) =>
        (s.setThread key (t.enter s.now .parked 0x18 (.page va))).beginLater key t.ctx va false a
    | 2 =>
      match t.rec2 with
      | none => s.setThread key (t.run s.now)
      | some (va, a) =>
        (s.setThread key (t.enter s.now .parked 0x19 (.host va (a = .write)))).beginLater key t.ctx va true a
    | _ =>
      match t.rec3 with
      | none => s.setThread key (t.run s.now)
      | some va =>
        if s.linkUp cluster t.ctx va then s.setThread key (t.run s.now)
        else s.setThread key (t.enter s.now .parked 0x1A (.link va s.now pc cons key))

/-! The failure of a fabric transaction (R196). -/

def txnStatus (reason code user : Nat) : Word := BitVec.ofNat 32 (reason % 256 * 2 ^ 24 + code % 256 * 2 ^ 16 + user % 65536)

/-- The packets held for a transaction are discarded, also where another package holds them (R177, R196, R430). -/
def State.discardHeld (s : State) (key : Nat) (x : Txn) : State :=
  let s := { s with ops := keep (fun k _ => !x.held.contains k) s.ops }
  if x.held.isEmpty then s else
  match x.target with
  | some (.peer q) => s.send (.peerDiscard key q false)
  | some (.fabric e) => s.send (.peerDiscard key e true)
  | _ => s

/-- A thread's transaction is over, without status. -/
def State.dropTxn (s : State) (key : Nat) : State :=
  match s.thread? key with
  | none => s
  | some t =>
    match t.txn with
    | none => s
    | some x => (s.discardHeld key x).setThread key { t with txn := none }

/-- Restore the checkpoint and write the status word; the thread is Runnable, its run over (R196; log entry 117). -/
def State.failTxn (s : State) (key reason code user : Nat) : State :=
  match s.thread? key with
  | none => s
  | some t =>
    match t.txn with
    | none => s
    | some x =>
      let regs := x.regs ++ t.regs.filter fun (k, _) => 32 ≤ k
      let back (c : Cell) : Cell :=
        if c.st = .pending && x.held.contains c.owner then
          (match c.was with | some (st, v) => { Cell.ofTw v with st := st } | none => Cell.dead)
        else c
      let t := { t with regs := mapVals (fun _ c => back c) regs, preds := x.preds, pc := x.next, txn := none }
      let t := if x.dst = 0xF0 then t else t.writeFile (fileIndex x.dst) (.data (txnStatus reason code user))
      (s.discardHeld key x).setThread key (t.run s.now)

/-! Raising (R99 to R103, R421). -/

/-- One thread's raise: its virtual lane, its key, the token and the consumer code. -/
structure RaiseOf where
  lane : Nat
  key : Nat
  tok : Word
  cons : Nat
deriving DecidableEq, Repr

def RaiseOf.record (r : RaiseOf) (pc : Dword) (path : Nat) : Record :=
  ⟨pc.toNat, r.cons, tokCode r.tok, tokOrigin r.tok, clusterOfKey r.key, slotOfKey r.key, path⟩

/-- A thread that fails its transaction with a recoverable code stays parked until the cause is resolved (R196). -/
def State.failTxnRecoverable (s : State) (key code : Nat) (pc : Dword) (cons : Nat) : State :=
  let s := s.failTxn key 1 code 0
  match s.thread? key with
  | none => s
  | some t =>
    let s := s.setThread key { t with region := t.pc }
    let s := s.rollback key code pc cons
    s.modThread key fun u => { u with region := t.region, pc := t.pc, regs := t.regs, preds := t.preds }

/-- The raise of an instruction's threads, in ascending virtual lane (R100, R101): every record carries the path that the
event took. -/
def State.raise (s : State) (ctx : Nat) (pc : Dword) (rs : List RaiseOf) : State :=
  match rs with
  | [] => s
  | r0 :: _ =>
    if (s.ctx ctx).low then s else
    let cluster := clusterOfKey r0.key
    match rs.find? fun r => isLaneKey r.key || !recoverable (tokCode r.tok) with
    | some bad =>
      let s := rs.foldl (fun s r => s.putRecord ctx cluster (r.record pc 1)) s
      s.lowerCurtain ctx bad.cons (tokCode bad.tok)
    | none =>
      rs.foldl (fun s r =>
        let code := tokCode r.tok
        match s.thread? r.key with
        | none => s
        | some t =>
          if t.txn.isSome then (s.putRecord ctx cluster (r.record pc 2)).failTxnRecoverable r.key code pc r.cons
          else (s.putRecord ctx cluster (r.record pc 0)).rollback r.key code pc r.cons) s

/-- An instruction fault other than a page that is not resident: one record for the warp, then the curtain (R424). -/
def State.instrFault (s : State) (ctx cluster slot : Nat) (pc : Dword) (code cause : Nat) : State :=
  s.curtain ctx cluster ⟨pc.toNat, 0x0C, code, cause * 2 ^ 16, cluster, slot, 1⟩

/-- A failure found after issue: the record of R103, then the curtain. -/
def State.lateFailure (s : State) (ctx : Nat) (pc : Dword) (cons code cluster slot : Nat) : State :=
  if pc = 0 then s.curtain ctx 0 ⟨0, cons, code, 0, 0, 0, 1⟩
  else s.curtain ctx cluster ⟨pc.toNat, cons, code, originOf pc, cluster, slot, 1⟩

end Sys2Proof.Machine
end

