-- ==== Sys2Proof/Machine/Flags.lean ====
section
/-! DEFINITION. The thread status word's flags (spec/03 R78, R79) and the other status bits that instructions set. -/

namespace Sys2Proof.Machine

def NV : Word := 0x01
def DZ : Word := 0x02
def OF : Word := 0x04
def UF : Word := 0x08
def NX : Word := 0x10
def SAT : Word := 0x20
def FLD : Word := 0x40
def SDROP : Word := 0x80
def FTZD : Word := 0x100
def PREC : Word := 0x200

/-- A flag raised where a condition holds. -/
def when (c : Bool) (f : Word) : Word := if c then f else 0

/-- The write-one-to-clear of STAT.clr (R191). -/
def statClear (tsw v : Word) : Word := tsw &&& ~~~(v &&& 0x3FF)

/-- STAT.pcode (R191), and the PCODE that PCLR leaves (R166). -/
def setPcode (tsw : Word) (c : Byte) : Word := (tsw &&& 0xFF00FFFF) ||| (c.zeroExtend 32 <<< 16)

/-- The exception-word bits of R221. -/
def msxMDROP : Nat := 2 ^ 13
def msxCDROP : Nat := 2 ^ 12
def msxMONF : Nat := 2 ^ 11
def msxWDROP : Nat := 2 ^ 10
def msxOFAIL : Nat := 2 ^ 9
def msxPTGT : Nat := 2 ^ 8

end Sys2Proof.Machine
end

