-- ==== Sys2Proof/Machine/Operands.lean ====
section
/-! DEFINITION. The warp that issues, its operands in every form (spec/05 R110, R113, R122, spec/02 R43 to R46), and the
pipeline that runs a lane instruction (spec/06 R138 to R142). -/

namespace Sys2Proof.Machine

/-- The guard of a thread (R38). -/
inductive Guard where
  | off | on | bad (tok : Word)
deriving DecidableEq, Repr

/-- A present thread of the warp at its virtual lane. -/
structure Lane where
  v : Nat
  key : Nat
  t : Thread
  guard : Guard
deriving DecidableEq, Repr

/-- The warp of `State.cur`. `unit` is the slot's key, or the slice's group. -/
structure Warp where
  slice : Bool
  unit : Nat
  cluster : Nat
  group : Option Nat
  ctx : Nat
  act : Nat
  pc : Dword
  lanes : List Lane
deriving DecidableEq, Repr

/-- The fields that every form has: negate, predicate, cue, length in bytes. -/
structure Head where
  neg : Bool
  p : Nat
  cue : Nat
  len : Nat
deriving DecidableEq, Repr

/-- The cue parks the threads of the warp (R31, R50). -/
def Head.holds (h : Head) : Bool := h.cue = 2

def guardOf (h : Head) (origin : Nat) (t : Thread) : Guard :=
  if h.p = 7 then .on else
  match t.readPred h.p origin with
  | .error k => .bad k
  | .ok b => if b != h.neg then .on else .off

/-- The threads of a slot's remapping table that are still in the run (R30, R32). -/
def State.slotLanes (s : State) (k : Nat) : List (Nat × Nat × Thread) :=
  (s.slot k).lanes.zipIdx.filterMap fun (o, v) =>
    match o with
    | none => none
    | some key => (s.thread? key).map fun t => (v, key, t)

/-- The warp that exec issues for, where the slot holds one and its context is not stopped (R430). -/
def State.warp (s : State) (h : Head) : Option Warp :=
  let build (slice : Bool) (unit cluster : Nat) (pc : Dword) (ls : List (Nat × Nat × Thread)) : Option Warp :=
    match ls with
    | [] => none
    | (_, _, t) :: _ =>
      if (s.ctx t.ctx).low || (s.ctx t.ctx).out then none else
      some ⟨slice, unit, cluster, t.group, t.ctx, t.act, pc, ls.map fun (v, key, t) => ⟨v, key, t, guardOf h (originOf pc) t⟩⟩
  match s.cur with
  | .slot k => build false k (k / 4) (s.slot k).pc (s.slotLanes k)
  | .slice g =>
    match s.group? g with
    | none => none
    | some gr =>
      match gr.slice with
      | none => none
      | some sl =>
        if !sl.running then none else
        build true g gr.cluster sl.pc ((List.range 32).filterMap fun v => (s.thread? (laneKey g v)).map fun t => (v, laneKey g v, t))

def Lane.executes (l : Lane) : Bool := l.guard != .off
def Lane.acts (l : Lane) : Bool := l.guard = .on
def Lane.badTok (l : Lane) : Option Word := match l.guard with | .bad k => some k | _ => none

def Warp.executing (w : Warp) : List Lane := w.lanes.filter Lane.executes
def Warp.acting (w : Warp) : List Lane := w.lanes.filter Lane.acts
def Warp.origin (w : Warp) : Nat := originOf w.pc

/-! Operand fields. -/

/-- A source as a form names it. `pat` and `amt` are those of a DP source (R45); `l` is the L bit (R43). `even` is a pair of which the
even register alone is read (R120). -/
inductive Src where
  | reg (r : Byte) (l : Bool) (pat amt : Nat)
  | pair (r : Byte) (l : Bool)
  | even (r : Byte) (l : Bool)
  | pred (p : Nat)
  | const (v : Word)
  | many (r : Byte) (n : Nat) (wide l : Bool)
deriving DecidableEq, Repr

/-- A destination. -/
inductive Dst where
  | reg (r : Byte) (wide : Bool)
  | pred (p : Nat)
  | many (r : Byte) (n : Nat)
  | none
deriving DecidableEq, Repr

/-- The b field of the H form (R110). -/
def hSrc (float : Bool) (b : BitVec 5) : Src :=
  let n := b.toNat
  if n < 16 then .reg (BitVec.ofNat 8 n) false 0 0
  else if n < 24 then .reg (BitVec.ofNat 8 (0xC0 + n - 16)) false 0 0
  else if n < 26 then .reg (BitVec.ofNat 8 (0xC8 + n - 24)) false 0 0
  else
    let v : Word × Word := match n with
      | 26 => (0, 0)
      | 27 => (1, 0x3F800000)
      | 28 => (2, 0x40000000)
      | 29 => (4, 0x40800000)
      | 30 => (8, 0x41000000)
      | _ => (0xFFFFFFFF, 0xBF800000)
    .const (if float then v.2 else v.1)

/-- A 6-bit operand field (R113) as a value of the 8-bit namespace. -/
def reg6 (v : BitVec 6) : Byte :=
  let n := v.toNat
  BitVec.ofNat 8 (if n < 48 then n else if n < 56 then 0xC0 + n - 48 else if n < 58 then 0xC8 + n - 56
    else if n = 58 then 0xF0 else if n < 61 then 0xF1 + n - 59 else 0xE0 + n - 61)

def src6 (v : BitVec 6) : Src := .reg (reg6 v) false 0 0

/-- A plain 32-bit source of the D form with its LK bits. -/
def src8 (r : Byte) (lk : BitVec 2) : Src := .reg r (lk.getLsbD 1) 0 0
/-- A source of the width of a type (R124). -/
def srcOf (t : BitVec 4) (r : Byte) (lk : BitVec 2) : Src :=
  if WellFormed.is64 t then .pair r (lk.getLsbD 1) else src8 r lk
def dstOf (t : BitVec 4) (r : Byte) : Dst := .reg r (WellFormed.is64 t)

/-! Queues. -/

def isPop (slice : Bool) (r : Byte) : Bool :=
  let n := r.toNat
  if slice then n = 0xDC || n = 0xDD else decide (0xD0 ≤ n ∧ n ≤ 0xDB) || n = 0xDF
def isPush (slice : Bool) (r : Byte) : Bool :=
  let n := r.toNat
  if slice then decide (0xD0 ≤ n ∧ n ≤ 0xD7) else decide (0xDC ≤ n ∧ n ≤ 0xDE)

/-- The elements of R322. -/
def queueCap (q : Nat) : Nat := if q = 15 then 256 else 64

/-- R41: the queues that exist for a warp. -/
def State.queueExists (s : State) (w : Warp) (q : Nat) : Bool :=
  match w.group with
  | none => q = 14 || q = 15
  | some g =>
    match s.group? g with
    | none => false
    | some gr => if q < 8 ∨ q = 12 ∨ q = 13 then gr.asl else if q < 12 then bit gr.qbind (q - 8) else true

def State.queue (s : State) (w : Warp) (q : Nat) : List QEl :=
  match w.group with
  | some g => match s.group? g with | some gr => get gr.q q [] | none => []
  | none => match s.act? w.ctx w.act with | some a => get a.inbox w.cluster [] | none => []

def State.setQueue (s : State) (w : Warp) (q : Nat) (l : List QEl) : State :=
  match w.group with
  | some g => s.modGroup g fun gr => { gr with q := put gr.q q l }
  | none => s.modAct w.ctx w.act fun a => { a with inbox := put a.inbox w.cluster l }

/-- Elements and reserved room; a mark takes none (R39, R333). -/
def queueUsed (l : List QEl) : Nat := (l.filter fun e => match e with | .mark _ => false | _ => true).length
/-- Elements that a pop could take now. -/
def queueReady : List QEl → Nat
  | .val _ :: r => queueReady r + 1
  | .head _ _ :: r => queueReady r + 1
  | _ => 0
def qelVal : QEl → Tw
  | .val v => v
  | .head v _ => v
  | _ => Tw.zero
def qelClock : QEl → Clock
  | .head _ c => c
  | _ => Clock.zero

/-! Values. -/

/-- A value an instruction reads: a token, or up to 64 bits. -/
inductive Val where
  | tok (k : Word)
  | dat (v : Dword)
deriving DecidableEq, Repr

def Val.ofTw (v : Tw) : Val := if v.tag then .tok v.val else .dat (zx v.val)
/-- A pair: the even register's token before the odd one's (R82). -/
def Val.ofPair (lo hi : Tw) : Val := if lo.tag then .tok lo.val else if hi.tag then .tok hi.val else .dat (dw lo.val hi.val)
def Val.lo : Val → Tw | .tok k => .tok k | .dat v => .data (lo32 v)
def Val.hi : Val → Tw | .tok k => .tok k | .dat v => .data (hi32 v)
def Val.tok? : Val → Option Word | .tok k => some k | .dat _ => none
def Val.bits : Val → Dword | .tok _ => 0 | .dat v => v

/-- The core cycle counter of a cluster (R37 clk; log entry 2). -/
def State.coreCycle (s : State) (cluster : Nat) : Nat := (s.row (rowOf cluster)).cycleAt s.now

/-- The core cycles of a cluster since a time, each counted under the clock that ran then (R27, R280, R372). -/
def State.cyclesSince (s : State) (cluster since : Nat) : Nat :=
  s.coreCycle cluster - (s.row (rowOf cluster)).cycleAt since

/-- The k registers that a warp reads: a write of the same core cycle is not yet seen (R187). -/
def State.kRegs (s : State) (w : Warp) : List Tw :=
  match w.group with
  | some g =>
    match s.group? g with
    | some gr => (match gr.kPrev with | some (c, l) => if c = s.coreCycle w.cluster then l else gr.k | none => gr.k)
    | none => []
  | none => match s.act? w.ctx w.act with | some a => a.k | none => []

/-- A 32-bit operand that is no queue, as thread t at virtual lane v reads it (R37, R122). -/
def State.readReg (s : State) (w : Warp) (v : Nat) (t : Thread) (r : Byte) : Tw :=
  let n := r.toNat
  let o := w.origin
  if n < 0xC8 then t.readFile (fileIndex r) o
  else if n = 0xC8 then t.l0.read o
  else if n = 0xC9 then t.l1.read o
  else if 0xE0 ≤ n ∧ n < 0xF0 then (s.kRegs w).getD (n - 0xE0) Tw.zero
  else match n with
    | 0xF1 => .data (BitVec.ofNat 32 v)
    | 0xF2 => .data (if w.slice then BitVec.ofNat 32 v else t.tid)
    | 0xF3 => .data (BitVec.ofNat 32 t.gid)
    | 0xF4 => .data (BitVec.ofNat 32 w.cluster)
    | 0xF5 => .data (BitVec.ofNat 32 (s.coreCycle w.cluster))
    | _ => Tw.zero

/-- The lane that a permuted source reads (R45). -/
def permLane (pat amt v : Nat) : Nat :=
  match pat with
  | 1 => (v + amt) % 32
  | 2 => amt
  | 3 => Nat.xor v amt
  | 4 => Nat.xor v (2 ^ amt - 1)
  | _ => v

/-- A 32-bit source with its permutation: an absent lane reads as zero, a lane with a poisoned guard as its guard's token
(R46). `pops` are the elements that the acting threads take from a queue. -/
def State.readSrc32 (s : State) (w : Warp) (l : Lane) (r : Byte) (pat amt : Nat) (pops : Map Tw) : Tw :=
  if isPop w.slice r then get pops l.v Tw.zero
  else if pat = 0 then s.readReg w l.v l.t r
  else
    match w.lanes.find? fun x => x.v = permLane pat amt l.v with
    | none => Tw.zero
    | some x =>
      match x.guard with
      | .off => Tw.zero
      | .bad k => .tok k
      | .on => s.readReg w x.v x.t r

/-- The next register of a pair, or of consecutive registers. -/
def nextReg (r : Byte) (n : Nat) : Byte := if r = 0xF0 then r else r + BitVec.ofNat 8 n

def State.readPair (s : State) (w : Warp) (l : Lane) (r : Byte) : Val :=
  .ofPair (s.readReg w l.v l.t r) (s.readReg w l.v l.t (nextReg r 1))

/-- Every value of one source field for one lane. -/
def State.readSrc (s : State) (w : Warp) (l : Lane) (pops : Map Tw) : Src → List Val
  | .reg r _ pat amt => [.ofTw (s.readSrc32 w l r pat amt pops)]
  | .pair r _ => [s.readPair w l r]
  | .even r _ => [.ofTw (s.readReg w l.v l.t r)]
  | .pred p =>
    [match l.t.readPred p w.origin with
     | .error k => .tok k
     | .ok b => .dat (if b then 1 else 0)]
  | .const v => [.dat (zx v)]
  | .many r n wide _ =>
    (List.range n).map fun i =>
      if wide then s.readPair w l (nextReg r (2 * i))
      else .ofTw (s.readSrc32 w l (nextReg r i) 0 0 (if i = 0 then pops else []))

/-- The g and o registers that a source's L bit kills (R43, R44); a dead register keeps its bits (R214). -/
def Src.kills : Src → List Byte
  | .reg r true _ _ => [r]
  | .pair r true => [r, nextReg r 1]
  | .even r true => [r, nextReg r 1]
  | .many r n wide true => (List.range (if wide then 2 * n else n)).map fun i => nextReg r i
  | _ => []

/-- A pending register dies too, and the value that comes for it later is discarded, as for one that is written (R49; log entry 107). -/
def Thread.killRegs (t : Thread) (rs : List Byte) : Thread :=
  rs.foldl (fun t r =>
    if r.toNat < 0xC8 then
      let c := t.cell (fileIndex r)
      t.setCell (fileIndex r) { Cell.dead with tag := c.tag, val := c.val }
    else t) t

/-- The queue that a source pops. -/
def Src.pops (slice : Bool) : Src → Option Nat
  | .reg r _ _ _ => if isPop slice r then some (r.toNat - 0xD0) else none
  | .many r _ _ _ => if isPop slice r then some (r.toNat - 0xD0) else none
  | _ => none

/-- The registers that a destination names. -/
def Dst.regs : Dst → List Byte
  | .reg r wide => if wide then [r, nextReg r 1] else [r]
  | .many r n => (List.range n).map fun i => nextReg r i
  | _ => []

def Dst.push (slice : Bool) : Dst → Option (Nat × Bool)
  | .reg r wide => if isPush slice r then some (r.toNat - 0xD0, wide) else Option.none
  | .many r _ => if isPush slice r then some (r.toNat - 0xD0, false) else Option.none
  | _ => Option.none

/-- R42: a destination in an extended block that an executing thread does not hold. -/
def Warp.missingBlock (w : Warp) (d : Dst) : Bool :=
  w.executing.any fun l => d.regs.any fun r => r.toNat < 0xC0 && l.t.blocks < blockOf r.toNat

/-! Runs (R31, R50, R174). -/

/-- An operation that has a register destination and is not retired (R50). -/
def State.longOut (s : State) (key : Nat) : Bool :=
  s.ops.any fun (_, o) => o.issuer = .thread key && !o.retired && (match o.dst with | .reg _ _ => true | _ => false)

/-- The hold of R50: parked until every long write of the thread has retired, or Runnable at once. -/
def State.hold (s : State) (key : Nat) (pc : Dword) : State :=
  match s.thread? key with
  | none => s
  | some t =>
    if s.longOut key then s.setThread key ({ t with pc := pc, held := false }.enter s.now .parked 1 .hold)
    else s.setThread key (({ t with pc := pc }.settle fun _ => true).run s.now)

/-- A wait is over: the thread is Runnable, or holds where the cue of its instruction was hold (R50). -/
def State.resume (s : State) (key : Nat) (t : Thread) : State :=
  if t.held then (s.setThread key t).hold key t.pc else s.setThread key (t.run s.now)

/-- End the run: every thread of the warp still Issuing goes where f sends it; the slot is free. -/
def State.endRun (s : State) (k : Nat) (f : State → Nat → Thread → State) : State :=
  let s' := (s.slotLanes k).foldl (fun s (_, key, _) =>
    match s.thread? key with
    | some t => if t.cue = .issuing then f s key t else s
    | none => s) s
  s'.setSlot k { Slot.init with busy := (s'.slot k).busy, issued := (s'.slot k).issued }

/-- After an instruction: each thread stands at next; the run goes on where all are at one PC, the cue is 00, it is not the
24th instruction and nothing ends it (R31, R174). An access slice has no run. -/
def State.advance (s : State) (w : Warp) (h : Head) (next : Lane → Dword) (ends : Bool := false) : State :=
  if w.slice then
    s.modGroup w.unit fun g => { g with slice := g.slice.map fun sl =>
      { sl with pc := (w.lanes.head?.map next).getD sl.pc, wait := 0, walks := [] } }
  else
    let s := w.lanes.foldl (fun s l => s.modThread l.key fun t =>
      if t.cue = .issuing then { t with pc := next l, last := none } else { t with last := none }) s
    let sl := s.slot w.unit
    let ls := s.slotLanes w.unit
    let pcs := (w.lanes.filter fun l => ls.any fun (v, _, _) => v = l.v).map next
    let same := (match pcs with | [] => false | p :: r => r.all fun q => q = p)
    if same && !ends && h.cue = 0 && decide (sl.count + 1 < 24) && ls.all (fun (_, _, t) => t.cue = .issuing) then
      s.setSlot w.unit { sl with pc := pcs.headD sl.pc, count := sl.count + 1, wait := 0, again := false, walks := [] }
    else
      s.endRun w.unit fun s key t => if h.cue = 2 then s.hold key t.pc else s.setThread key (t.run s.now)

/-- The address of the next instruction. -/
def Warp.after (w : Warp) (h : Head) : Dword := w.pc + BitVec.ofNat 64 h.len

def State.step1 (s : State) (w : Warp) (h : Head) (ends : Bool := false) : State := s.advance w h (fun _ => w.after h) ends

/-- A slot waits for a reason. The time of a queue wait that has been resumed goes on where the instruction waits for the same again (R435). -/
def State.slotWait (s : State) (k reason : Nat) : State :=
  let r : Half := BitVec.ofNat 16 reason
  s.modSlot k fun sl =>
    let same := sl.again && sl.was = r
    if sl.wait = r then sl else { sl with wait := r, since := if same then sl.since else s.now, again := false, dog := if same then sl.dog else 0 }

/-- The instruction waits in its slot: the run does not end (R39, R434). -/
def State.stall (s : State) (w : Warp) (reason : Nat) : State :=
  let r : Half := BitVec.ofNat 16 reason
  if w.slice then
    s.modGroup w.unit fun g =>
      match g.slice with
      | some sl => if sl.wait = r then g else { g with slice := some { sl with wait := r, since := s.now, dog := 0 } }
      | none => g
  else s.slotWait w.unit reason

/-- An instruction fault at issue, cause 9 (R424). -/
def State.issueFault (s : State) (w : Warp) : State :=
  let l := match w.executing with | l :: _ => some l | [] => w.lanes.head?
  let slot := if w.slice then 0x7FF else (l.map fun l => slotOfKey l.key).getD 0
  (s.instrFault w.ctx w.cluster slot w.pc 0 9)

/-- The raise of some lanes of the warp with one consumer code each (R100). -/
def State.raiseLanes (s : State) (w : Warp) (rs : List (Lane × Word × Nat)) : State :=
  s.raise w.ctx w.pc (rs.map fun (l, k, c) => ⟨l.v, l.key, k, c⟩)

/-! The lane pipeline. -/

/-- What a lane instruction sees of one executing thread: virtual lane, tid, the act's flush mode (R64), the number of R66,
the instruction's address, its guard's token, its TSW and its sources. -/
structure LaneIn where
  v : Nat
  tid : Word
  ftz : Bool
  rng : Word
  pc : Dword
  bad : Option Word
  tsw : Word
  ins : List Val
deriving DecidableEq, Repr

/-- What it gives: a value for each destination register in order, the flags raised, a new TSW where it writes one, and whether the
residue check of the thread failed (R142). -/
structure LaneOut where
  outs : List Val
  flags : Word
  tsw : Option Word
  failed : Bool := false
deriving DecidableEq, Repr

def LaneOut.one (v : Val) (flags : Word := 0) : LaneOut := { outs := [v], flags := flags, tsw := none }

/-- The odd register's half of a pair: its own value where the instruction gives one for each register (R82), and else the pair's. -/
def LaneOut.hi (o : LaneOut) : Tw :=
  match o.outs with
  | _ :: b :: _ => b.lo
  | a :: _ => a.hi
  | [] => Tw.zero

/-- The first token in the order guard, s1, s2, s3 (R88). -/
def LaneIn.poison (i : LaneIn) : Option Word :=
  match i.bad with
  | some k => some k
  | none => i.ins.findSome? Val.tok?

/-- R88: a token input is the result; otherwise the operation. -/
def perLane (f : LaneIn → List Dword → Dword × Word) (ls : List LaneIn) : List LaneOut :=
  ls.map fun i =>
    match i.poison with
    | some k => .one (.tok k)
    | none => let r := f i (i.ins.map Val.bits); .one (.dat r.1) r.2

/-- Write one thread's results: kills first, then the destination, then l0 and l1 (R35, R44, R83). The token of a check that failed goes
to l0 beside a predicate too (R142); l1 is left then (log entry 109). -/
def Thread.writeOut (t : Thread) (d : Dst) (o : LaneOut) : Thread :=
  let t := (match o.tsw with | some v => { t with tsw := v } | none => t).flag o.flags
  let v := o.outs.headD (.dat 0)
  match d with
  | .none => t
  | .pred p =>
    let t := t.setPred p (match v with | .tok k => ⟨false, true, k, false⟩ | .dat b => ⟨b != 0, false, 0, false⟩)
    if o.failed then t.setL0 v.lo else t
  | .reg r wide =>
    if r = 0xC8 then (if wide then t.setL v.lo o.hi else t.setL0 v.lo)
    else
      let t := if r.toNat < 0xC8 then
          (if wide then (t.writeFile (fileIndex r) v.lo).writeFile (fileIndex r + 1) o.hi else t.writeFile (fileIndex r) v.lo)
        else t
      if wide then t.setL v.lo o.hi else t.pushL v.lo
  | .many r n =>
    let t := if r.toNat < 0xC8 then
        ((List.range n).zip o.outs).foldl (fun t (i, v) => t.writeFile (fileIndex r + i) v.lo) t
      else t
    if n = 1 then (if r = 0xC8 then t.setL0 v.lo else t.pushL v.lo)
    else t.setL v.lo (o.outs.getD 1 (.dat 0)).lo

/-- R66: T of a thread. -/
def rngThread (t : Thread) : Word := if t.group.isSome then BitVec.ofNat 32 (t.gid * 1024) + t.tid else t.tid

/-- Bit n of the header of an act (R349). -/
def State.headerBit (s : State) (ctx act n : Nat) : Bool :=
  match s.act? ctx act with
  | some a => bit a.header n
  | none => false

/-- The clocks that each lane merges, of two fields. -/
def maxClocks (a b : List (Nat × Clock)) : List (Nat × Clock) := a.map fun (v, c) => (v, c.max (get b v Clock.zero))

/-- What the pops of an instruction find: the queues after them, the elements for each source in turn, the clocks of the headers that
each lane pops (R235), and whether a queue lacks elements (R39). A thread with a tagged guard, in which no pop takes place (R90), is not counted among the
executing threads for which a queue must hold elements. DEDUCED (log entry 138). -/
def State.takePops (s : State) (w : Warp) : List Src → State × List (Map Tw) × List (Nat × Clock) × Bool
  | [] => (s, [], w.acting.map fun l => (l.v, Clock.zero), true)
  | src :: r =>
    match src.pops w.slice with
    | none =>
      let (s', ps, c, ok) := s.takePops w r
      (s', [] :: ps, c, ok)
    | some q =>
      let n := w.acting.length
      let l := s.queue w q
      if queueReady l < n then (s, [], [], false) else
      let s := s.setQueue w q (l.drop n)
      let (s', ps, c, ok) := s.takePops w r
      let got := (l.take n)
      (s', (w.acting.zip got).map (fun (l, e) => (l.v, qelVal e)) :: ps, maxClocks c ((w.acting.zip got).map fun (l, e) => (l.v, qelClock e)), ok)

/-- The elements that raising lanes would have popped stay at the head of their queues: their instruction has no effect (R100). `s` is
the state before the pops. -/
def State.unpop (s s1 : State) (w : Warp) (srcs : List Src) (raising : List Lane) : State :=
  if raising.isEmpty then s1 else
  (srcs.filterMap (Src.pops w.slice)).eraseDups.foldl (fun s1 q =>
    let taken := (s.queue w q).take ((s.queue w q).length - (s1.queue w q).length)
    let left := (taken.zipIdx.filter fun x => raising.any fun l => (w.acting[x.2 % w.acting.length]?).map Lane.v = some l.v).map fun x => x.1
    s1.setQueue w q (left ++ s1.queue w q)) s1

/-- The lanes in which an instruction acts and raises nothing (R100). -/
def Warp.quiet (w : Warp) (raises : List (Lane × Word × Nat)) : List Lane := w.acting.filter fun l => !(raises.any fun r => r.1.v = l.v)

/-- The state after an instruction's pops, in the acting lanes that raise nothing: the headers that they pop give their clocks
(R39, R235). -/
def State.popped (s : State) (w : Warp) (srcs : List Src) (acting : List Lane) : State :=
  let pops := s.takePops w srcs
  acting.foldl (fun s1 l => s1.modThread l.key fun t => { t with vc := t.vc.max (get pops.2.2.1 l.v Clock.zero) })
    (s.unpop pops.1 w srcs (w.acting.filter fun l => !(acting.any fun x => x.v = l.v)))

/-- A register that an instruction reads with L is dead in every thread that executes it (R44). -/
def State.killed (s : State) (srcs : List Src) (acting : List Lane) : State :=
  acting.foldl (fun s l => s.modThread l.key fun t => t.killRegs (srcs.flatMap Src.kills)) s

/-- The state after an instruction's pops and the kills of its sources (R39, R44). -/
def State.started (s : State) (w : Warp) (srcs : List Src) (acting : List Lane) : State := (s.popped w srcs acting).killed srcs acting

/-- The destination word of a message, refused (R235): a cluster at or above 768, or a bit that must be zero. -/
def badPort (v : Word) : Bool :=
  let n := v.toNat
  fld n 31 26 != 0 || fld n 15 7 != 0 || decide (768 ≤ fld n 25 16) || (bit n 6 && fld n 5 0 != 0)

/-- Messages a cluster has sent and not yet seen delivered (R235). -/
def Cluster.unseen (c : Cluster) : Nat :=
  (c.outbox.filter fun m => match m.cargo with | .queue _ _ _ _ _ _ => !m.acked | _ => false).length

def Thread.operation (w : Warp) (key : Nat) (t : Thread) (batch cls : Nat) (work : Work) (place : Place) (now : Nat) : Op :=
  { ctx := t.ctx, act := t.act, issuer := .thread key, cluster := w.cluster, slot := slotOfKey key, tid := t.tid, batch
    pc := w.pc, cls, work, place, va := 0, pa := 0, dst := .none, clock := t.vc, stamp := none, scope := 0, order := 0, rel := none
    stage := .sent, reply := [], flags := 0, seen := none, eg := none, sentAt := now, retired := false, hop := (w.cluster, 0), born := key }

/-- Outstanding operations of a class (R203): those in flight, those of a copy command, those of a matrix queue. -/
def State.outstanding (s : State) (key cls : Nat) : Nat :=
  let ops := (s.ops.filter fun (_, o) => o.issuer = .thread key && o.cls = cls && !o.retired).length
  match cls with
  | 1 => ops + (s.engines.flatMap fun (_, e) => (e.cmds.filter fun c => c.threads.contains key).map CopyCmd.id ++
      (e.done.filter fun d => d.2 = key).map fun d => d.1).length
  | 2 => ops + (s.groups.flatMap fun (_, g) => g.mq.filter fun m => m.threads.contains key).length
  | _ => ops

/-- Earlier reads, and earlier writes to the locations of a release's table (R299). -/
def Op.isRead (o : Op) : Bool :=
  match o.work with
  | .load _ _ _ | .ldw _ | .ragged _ _ _ _ _ _ _ => true
  | .atomic _ _ _ _ | .packet _ => true
  | _ => false
def Op.isWrite (o : Op) : Bool :=
  match o.work with
  | .store _ _ | .atomic _ _ _ _ | .packet _ | .stm _ _ _ | .stw _ _ => true
  | _ => false
def Op.outside (o : Op) : Bool :=
  match o.place with
  | .host | .hostRaw | .cxl _ | .peer _ | .fabric _ => true
  | _ => false
/-- The cluster of the location; a register window stands at the cluster of its thread (R213; log entry 108), and what a moved range has sent on
counts at the homes that it has left as well (R226; log entry 126). -/
def Op.homeIs (o : Op) (p : Nat → Bool) : Bool :=
  match o.place, o.work with
  | .home c, _ => p c || o.was.any p
  | .pad g, _ => p (g / 2048)
  | .window, .stw _ _ => p (fld o.pa 30 21)
  | _, _ => false

/-- F(f, g) ≥ VC[g] for every die g (R299). -/
def State.settled (s : State) (f : Nat) (c : Clock) : Bool := (List.range 4).all fun e => decide (c.get e ≤ s.view f e)

/-- What a release of a scope still waits for (R299); `pad` where it is to scratchpad. -/
def State.releaseReady (s : State) (key : Nat) (cluster : Nat) (vc : Clock) (scope : Nat) (pad : Bool) : Bool :=
  let mine := s.ops.filter fun (_, o) => o.issuer = .thread key && !o.retired
  let noRead := mine.all fun (_, o) => !o.isRead || o.stage = .performed
  let done (p : Op → Bool) : Bool := mine.all fun (_, o) => !(o.isWrite && p o) || o.stage = .performed
  if scope = 0 then true
  else if !pad ∧ (scope = 3 ∨ scope = 4 ∨ scope = 5) then
    noRead && done fun o => o.homeIs fun c =>
      if scope = 3 then c = cluster else if scope = 4 then rowOf c = rowOf cluster else dieOf c = dieOf cluster
  else if !pad ∧ (scope = 1 ∨ scope = 2 ∨ scope = 7) then
    noRead && done (fun o => o.homeIs fun c => dieOf c = dieOf cluster) && mine.all fun (_, o) => !(o.isWrite && o.outside)
  else (mine.all fun (_, o) => o.cls = 1 || o.cls = 2) && s.settled (dieOf cluster) vc

/-- Earlier releases of the thread that are not performed (R301). -/
def State.releasePending (s : State) (key : Nat) : Bool :=
  s.ops.any fun (_, o) => o.issuer = .thread key && !o.retired && (o.order = 3 || o.order = 4) && o.stage != .performed

/-- Earlier acquires of the thread that are not retired (R300). -/
def State.acquirePending (s : State) (key : Nat) : Bool :=
  s.ops.any fun (_, o) => o.issuer = .thread key && !o.retired && (o.order = 2 || o.order = 4)

/-- A message to q14 from the values of the executing threads (R235): it counts in class 3 of each, and holes stand for
values still to return. -/
def State.sendMessage (s : State) (w : Warp) (dstWord : Word) (values : List QEl) (senders : List Lane) (counted : Bool) : State :=
  let (id, s) := s.fresh
  let vc := senders.foldl (fun c l => c.max l.t.vc) Clock.zero
  let port := match w.group with | some g => g % 2048 / 32 | none => 0x40
  let (s, ops) := if counted then
      senders.foldl (fun (s, ops) l =>
        let (n, s) := s.fresh
        ((s.modThread l.key fun t => t.count 3).setOp n
          { Thread.operation w l.key l.t id 3 (.message id) .window s.now with pa := fld dstWord.toNat 25 16 * 2 ^ 21 }, ops ++ [n])) (s, [])
    else (s, [])
  let n := dstWord.toNat
  let m : Msg := ⟨id, w.ctx, w.act, (senders.head?.map fun l => slotOfKey l.key).getD 0, fld n 25 16, w.pc,
    .queue (bit n 6) (fld n 6 0) values vc (ops.headD 0) port, 0, 256, false⟩
  s.modCluster w.cluster fun c => { c with outbox := c.outbox ++ [m] }

/-- The push of the executing threads' results (R39), in ascending virtual lane. -/
def State.pushOuts (s : State) (w : Warp) (q : Nat) (wide : Bool) (outs : List (Lane × LaneOut)) : State :=
  let els := outs.flatMap fun (_, o) =>
    let v := o.outs.headD (.dat 0)
    if wide then [QEl.val v.lo, QEl.val o.hi] else [QEl.val v.lo]
  if q = 14 then
    match els with
    | [] => s
    | e :: r => s.sendMessage w (qelVal e).val r (outs.map fun x => x.1) true
  else s.setQueue w q (s.queue w q ++ els)

/-! What keeps an instruction from starting. -/

/-- The queues that an instruction pops or pushes. -/
def Warp.queues (w : Warp) (srcs : List Src) (d : Dst) : List Nat :=
  srcs.filterMap (Src.pops w.slice) ++ ((d.push w.slice).map fun x => x.1).toList

/-- An instruction fault at issue (R41, R42, or the instruction's own), or a source queue that lacks elements (R39). -/
def State.barred (s : State) (w : Warp) (srcs : List Src) (d : Dst) (fault : Bool) : Option State :=
  if (w.queues srcs d).any (fun q => !s.queueExists w q) || w.missingBlock d || fault then some (s.issueFault w)
  else if !(s.takePops w srcs).2.2.2 then some (s.stall w 2)
  else none

/-- The values that an executing lane finds in the sources. -/
def State.sourceVals (s : State) (w : Warp) (srcs : List Src) (l : Lane) : List Val :=
  (srcs.zip (s.takePops w srcs).2.1).flatMap fun (src, p) => s.readSrc w l p src

/-- The queue that a destination pushes, with the places its values take. -/
def Warp.pushing (w : Warp) (d : Dst) : Option (Nat × Bool × Nat) :=
  match d.push w.slice with
  | some (q, wide) => some (q, wide, w.acting.length * (if wide then 2 else 1))
  | none => none

/-- A queue destination without room, a full counter, or a message before its release (R39, R203, R235). -/
def State.noRoom (s : State) (w : Warp) (srcs : List Src) (d : Dst) : Option State :=
  let s1 := (s.takePops w srcs).1
  let full := match w.pushing d with
    | some (14, _, n) => n != 0 && decide (16 ≤ (s1.cluster w.cluster).unseen)
    | some (q, _, n) => decide (queueCap q < queueUsed (s1.queue w q) + n)
    | none => false
  let counter := match w.pushing d with
    | some (14, _, _) => w.acting.any fun l => decide (255 ≤ s.outstanding l.key 3)
    | _ => false
  if full then some (s.stall w 3) else if counter then some (s.stall w 5) else
  let rel := match w.pushing d with
    | some (14, _, _) => w.acting.all fun l => s.releaseReady l.key w.cluster l.t.vc 7 false
    | _ => true
  if !rel then some (s.stall w 15) else none

/-- What the executing lanes give the operation. -/
def State.laneIns (s : State) (w : Warp) (srcs : List Src) : List LaneIn :=
  let ftz := s.headerBit w.ctx w.act 2
  w.executing.map fun l =>
    LaneIn.mk l.v (if w.slice then BitVec.ofNat 32 l.v else l.t.tid) ftz (rngThread l.t) w.pc l.badTok l.t.tsw (s.sourceVals w srcs l)

/-- The residue check of a lane fails: the operation is performed there, and the upset reaches it (R88, R142). -/
def State.laneFails (s : State) (checked : Bool) (i : LaneIn) (o : LaneOut) : Bool :=
  checked && s.upset.contains i.v && i.poison.isNone && !(o.outs.any fun v => v.tok?.isSome)

/-- What they get: the operation's results, and code 0x22 where a checked lane's residue does not match (R142). -/
def State.laneOuts (s : State) (w : Warp) (srcs : List Src) (checked : Bool) (f : List LaneIn → List LaneOut) : List (Lane × LaneOut) :=
  let ins := s.laneIns w srcs
  (w.executing.zip (ins.zip (f ins))).map fun (l, i, o) =>
    if s.laneFails checked i o then
      (l, { outs := o.outs.map fun _ => Val.tok (token 0x22 w.origin), flags := 0, tsw := none, failed := true })
    else (l, o)

/-- What a push raises: a tagged guard, and for q14 the destination word that the first thread gives (R90, R235). -/
def pushRaises (w : Warp) (q : Nat) (outs : List (Lane × LaneOut)) : List (Lane × Word × Nat) :=
  let guards := w.executing.filterMap fun l => l.badTok.map fun k => (l, k, 0x0A)
  let port := match outs.filter fun (l, _) => l.acts with
    | (l, o) :: _ =>
      let v := (o.outs.headD (.dat 0)).lo
      if q != 14 then [] else if v.tag then [(l, v.val, 3)] else if badPort v.val then [(l, token 0x10 w.origin, 3)] else []
    | [] => []
  sortBy (fun a b => decide (a.1.v ≤ b.1.v)) (guards ++ port)

/-- The lanes that have results of an instruction in which some raise: a message whose destination word is raised is not sent, and its
other threads only read their sources (R100). -/
def State.laneWrites (s : State) (w : Warp) (d : Dst) (outs : List (Lane × LaneOut)) : State :=
  outs.foldl (fun s (l, o) => s.modThread l.key fun t => if (w.pushing d).isSome && !l.acts then t else t.writeOut d o) s

/-- Each failed check is an event (R104, R142). -/
def State.upsetEvents (s : State) (w : Warp) (outs : List (Lane × LaneOut)) : State :=
  outs.foldl (fun s (_, o) => if o.failed then s.reliability 3 0x22 w.cluster 8 w.ctx 0 else s) s

/-- After a lane instruction: pops, kills, results, the residue events, and for a queue destination the push with its raises. A source marked with L dies
in the threads that act, not in those with a tagged guard (R44, R90). DEDUCED (log entry 138). -/
def State.laneDone (s : State) (w : Warp) (h : Head) (srcs : List Src) (d : Dst) (checked : Bool) (f : List LaneIn → List LaneOut) :
    State :=
  let outs := s.laneOuts w srcs checked f
  match w.pushing d with
  | none => (((s.started w srcs w.acting).laneWrites w d outs).upsetEvents w outs).step1 w h
  | some (q, wide, _) =>
    let bad := pushRaises w q outs
    let s1 := s.started w srcs (w.acting.filter fun l => !(bad.any fun x => x.1.v = l.v))
    let sent := if bad.any fun x => x.2.2 = 3 then s1
      else (s1.laneWrites w d outs).pushOuts w q wide (outs.filter fun (l, _) => l.acts)
    let s2 := sent.upsetEvents w outs
    if bad.isEmpty then s2.step1 w h else (s2.raiseLanes w bad).step1 w h true

/-- Run a lane instruction: sources, destination, whether a residue check guards it (R142), and what it computes from all
executing threads together. -/
def runLane (s : State) (h : Head) (srcs : List Src) (d : Dst) (checked : Bool) (f : List LaneIn → List LaneOut) :
    Host.Outcome State Fault Refusal :=
  match s.warp h with
  | none => .refused .noWarp
  | some w =>
    match s.barred w srcs d false, s.noRoom w srcs d with
    | some t, _ => .next t
    | none, some t => .next t
    | none, none => .next (s.laneDone w h srcs d checked f)

end Sys2Proof.Machine
end

