-- ==== Sys2Proof/Machine/Fetch.lean ====
section
/-! DEFINITION. Finding a translation at issue (spec/18 R391, R392), fetching and decoding an instruction (spec/05 R105 to R107),
and the instruction faults (spec/20 R424). -/

namespace Sys2Proof.Machine

/-- What an access finds. A host entry answers with the host's address, which stands untranslated where `raw` is set. -/
inductive Look where
  | hit (pa : Nat) (attr : BitVec 3)
  | host (pa : Nat) (raw : Bool)
  | ats
  | fault (code : Byte)
  | miss
deriving DecidableEq, Repr

/-- The walks' results that a slot or a slice keeps for its instruction. -/
def State.walked (s : State) (u : WalkUser) : Map Walked :=
  match u with
  | .slot k => (s.slot k).walks
  | .slice g => match s.group? g with | some gr => (match gr.slice with | some sl => sl.walks | none => []) | none => []
  | .copy e c => ((s.engine e).cmds.find? fun x => x.id = c).elim [] CopyCmd.walks
  | .stream g i =>
    match s.group? g with
    | some gr => (match gr.slice with | some sl => (sl.streams.find? fun x => x.id = i).elim [] Stream.walks | none => [])
    | none => []
  | .op _ => []

/-- The key under which the result for a page of the host is kept, beside those for granules. -/
def hostKey (va : Nat) (write : Bool) : Nat := 2 ^ 50 + 2 * (va / 4096) + b2n write

/-- The key of the walk that HOME makes for a granule: it claims nothing (R183). -/
def homeKey (va : Nat) : Nat := 2 ^ 48 + granule va

/-- The translation of an access at issue (R200, R387 to R391, R397). -/
def State.lookup (s : State) (u : WalkUser) (cluster ctx va : Nat) (a : Access) : Look :=
  if fld va 63 56 != 0 then .fault 0x11 else
  let tlb := (s.row (rowOf cluster)).tlb.filter fun e =>
    e.ctx = ctx && (e.cluster = none || e.cluster = some cluster)
      && decide (e.base ≤ va) && decide (va < e.base + e.bytes)
  match tlb.find? fun e => e.host && (a != .write || e.w) && a != .fetch with
  | some e => .host (e.pa + (va - e.base)) e.untranslated
  | none =>
    let leaf (pa : Nat) (attr : BitVec 3) : Look :=
      if attrRefuses attr.toNat a then .fault 0x10
      else if attr != 3 && s.inCheckRange pa then .fault 0x10
      else if attr = 3 then
        (match find (s.walked u) (hostKey va (a = .write)) with | some (.fault c) => .fault c | _ => .ats)
      else .hit pa attr
    match find (s.walked u) (granule va) with
    | some (.ok pa attr _ _) => leaf (pa + va % 2 ^ 16) attr
    | some (.fault c) => .fault c
    | none =>
      match tlb.find? fun e => !e.host with
      | some e => leaf (e.pa + (va - e.base)) e.attr
      | none => .miss

/-- Ask for a walk, or join the one in progress (R392): 16 walk at once in a die row and 512 wait. -/
def State.askWalk (s : State) (row ctx g : Nat) (u : WalkUser) : State :=
  let r := s.row row
  match r.walks.find? fun w => w.ctx = ctx && w.granule = g with
  | some w =>
    if w.users.contains u then s else
    s.setRow row { r with walks := r.walks.map fun x => if x.ctx = ctx && x.granule = g then { x with users := x.users ++ [u] } else x }
  | none =>
    if 16 + 512 ≤ r.walks.length then s else
    let busy := (r.walks.filter fun w => w.started).length
    s.setRow row { r with walks := r.walks ++ [⟨ctx, g, decide (busy < 16), [u]⟩] }

/-- What the fetch at a PC gives. -/
inductive Fetched where
  | ok (d : Decoded) (len : Nat)
  | fault (cause : Cause) (code : Byte) (va : Nat)
  | miss (va : Nat)
deriving DecidableEq, Repr

/-- One halfword of an instruction: its two bytes, or what stops it (R106). -/
def State.halfword (s : State) (u : WalkUser) (cluster ctx va : Nat) : Except Fetched (List Byte) :=
  match s.lookup u cluster ctx va .fetch with
  | .hit pa _ =>
    match s.markIn pa 2 with
    | some c => .error (.fault .fetch c va)
    | none => .ok (s.bytesAt pa 2)
  | .fault c => .error (.fault .fetch c va)
  | .miss => .error (.miss va)
  | _ => .error (.fault .fetch 0x10 va)

/-- The following n halfwords. -/
def State.halfwords (s : State) (u : WalkUser) (cluster ctx : Nat) : Nat → Nat → Except Fetched (List Byte)
  | 0, _ => .ok []
  | n + 1, va =>
    match s.halfword u cluster ctx va with
    | .error e => .error e
    | .ok b =>
      match s.halfwords u cluster ctx n (va + 2) with
      | .error e => .error e
      | .ok r => .ok (b ++ r)

/-- Fetch and decode at a PC (R105 to R107). -/
def State.fetch (s : State) (slice : Bool) (u : WalkUser) (cluster ctx : Nat) (pc : Dword) : Fetched :=
  match s.halfword u cluster ctx pc.toNat with
  | .error e => e
  | .ok first =>
    match s.halfwords u cluster ctx (lengthOf (first.headD 0) / 2 - 1) (pc.toNat + 2) with
    | .error e => e
    | .ok rest =>
      match decode slice (first ++ rest) with
      | .ok (d, len) => .ok d len
      | .error c => .fault c 0 pc.toNat

/-- The warp or slice that stands at `State.cur`: user, cluster, context, PC and the thread that a decode fault names. -/
structure Front where
  slice : Bool
  user : WalkUser
  cluster : Nat
  ctx : Nat
  pc : Dword
  slot : Nat
  keys : List Nat
deriving DecidableEq, Repr

def State.front (s : State) : Option Front :=
  match s.warp ⟨false, 7, 0, 0⟩ with
  | none => none
  | some w =>
    let first := (w.lanes.head?.map fun l => slotOfKey l.key).getD 0
    some ⟨w.slice, if w.slice then .slice w.unit else .slot w.unit, w.cluster, w.ctx, w.pc, if w.slice then 0x7FF else first,
      w.lanes.map fun l => l.key⟩

/-- What the warp at `State.cur` has fetched. -/
def State.fetched (s : State) (f : Front) : Fetched := s.fetch f.slice f.user f.cluster f.ctx f.pc

/-- A slot or slice waits for a translation. -/
def State.waitWalk (s : State) (u : WalkUser) : State :=
  match u with
  | .slot k => s.modSlot k fun sl => if sl.wait = 4 then sl else { sl with wait := 4, since := s.now, dog := 0 }
  | .slice k => s.modGroup k fun gr => { gr with slice := gr.slice.map fun sl => if sl.wait = 4 then sl else { sl with wait := 4, since := s.now, dog := 0 } }
  | _ => s

/-- Ask the host for a page's translation: one request for a (PASID, page, write), which later users join (R397). -/
def State.askAts (s : State) (ctx va : Nat) (write : Bool) (u : WalkUser) : State :=
  let page := va / 4096
  let pasid := (s.ctx ctx).pasid
  match s.port.ats.find? fun r => r.pasid = pasid && r.page = page && r.write = write with
  | some r =>
    if r.users.contains u then s
    else { s with port := { s.port with ats := s.port.ats.map fun x => if x.id = r.id then { x with users := x.users ++ [u] } else x } }
  | none =>
    let id := s.port.nextId
    let r : AtsReq := ⟨id, pasid, page, write, [u], [], s.now⟩
    { s with port := { s.port with ats := s.port.ats ++ [r], nextId := id + 1 } }.send (.atsRequest id pasid page (!write))

/-- Wait for a walk in the slot (R200). -/
def State.stallFor (s : State) (row ctx g : Nat) (u : WalkUser) : State :=
  let s := s.askWalk row ctx g u
  s.waitWalk u

/-- An instruction fault (R424): a fetch whose translation found a page not resident rolls every thread of the warp back, with one record for
the warp; every other one lowers the curtain, a marked sector whatever its code (R106), and so does code 0x01 in an access slice, which has
no region (R101; log entry 110). -/
def State.takeInstrFault (s : State) (f : Front) (cause : Cause) (code : Byte) (va : Nat) : State :=
  let rec1 : Record := ⟨f.pc.toNat, 0x0C, code.toNat, cause.num * 2 ^ 16, f.cluster, f.slot, 0⟩
  if cause = .fetch ∧ s.lookup f.user f.cluster f.ctx va .fetch = .fault 1 ∧ !f.slice then
    let s := s.putRecord f.ctx f.cluster rec1
    let s := f.keys.foldl (fun s k =>
      let s := s.modThread k fun t => { t with rec1 := some (va, .fetch) }
      s.rollback k 1 f.pc 0x0C) s
    match f.user with
    | .slot k => s.setSlot k { Slot.init with busy := (s.slot k).busy, issued := (s.slot k).issued }
    | _ => s
  else s.instrFault f.ctx f.cluster f.slot f.pc code.toNat cause.num

/-- INSTRUCTION_FAULT (R107, R424): the warp of a slot meets an instruction fault in place of an instruction. -/
def execInstructionFault (cluster slot : Nat) (s : State) : Host.Outcome State Fault Refusal :=
  let s := { s with cur := .slot (cluster * 4 + slot) }
  match s.front with
  | none => .refused .notEnabled
  | some f =>
    match s.fetched f with
    | .fault cause code va => .next (s.takeInstrFault f cause code va)
    | _ => .refused .notEnabled

end Sys2Proof.Machine
end

