-- ==== Sys2Proof/Machine/Acts.lean ====
section
/-! DEFINITION. What follows from a write (monitors, spec/08 R238), from an arrival (barriers, R241) and from an exit: groups, acts,
triggers and signals (spec/07 R177, R198, spec/10 R268, R269, spec/16 R356). -/

namespace Sys2Proof.Machine

/-! Monitors. -/

/-- The stamp of a line (R297): the entry's clock and scope, or the floor. -/
def State.stampAt (s : State) (pa : Nat) : Clock × Option Nat :=
  match s.region pa with
  | some (.home c) =>
    let cl := s.cluster c
    match cl.stamps.find? fun e => e.line = pa / 64 with
    | some e => (e.clock, some e.scope)
    | none => (cl.floor, none)
  | _ => (Clock.zero, none)

/-- R289: scope a includes scope b. -/
def includes (a b : Nat) : Bool :=
  b = 0 || a = b || (match a with
    | 2 => b = 1
    | 4 => b = 3
    | 5 => b = 3 || b = 4
    | 6 => b = 1 || b = 2
    | 7 => decide (1 ≤ b ∧ b ≤ 5)
    | 8 => decide (1 ≤ b ∧ b ≤ 5) || b = 7
    | 9 => decide (1 ≤ b ∧ b ≤ 7)
    | 10 => decide (1 ≤ b ∧ b ≤ 7) || b = 9
    | 11 => true
    | _ => false)

/-- R290 on an acquire that reads a stamp. -/
def scopesMeet (a : Nat) (b : Option Nat) : Bool := match b with | none => true | some n => includes a n || includes n a

/-- Write a destination that is never pending (R204). -/
def Thread.deliver (t : Thread) (d : Byte) (v : Tw) : Thread :=
  if d = 0xC8 then { t with l0 := Cell.ofTw v } else if d.toNat < 0xC8 then t.writeFile (fileIndex d) v else t

/-- Merge a stamp as an acquire (R300); where the scopes do not meet the access becomes relaxed (R290, R298). -/
def Thread.acquire (t : Thread) (scope : Nat) (stamp : Clock × Option Nat) : Thread :=
  if scope = 0 then { t with rs := t.rs.max stamp.1 }
  else if scopesMeet scope stamp.2 then { t with vc := t.vc.max stamp.1 } else { t with rs := t.rs.max stamp.1 }.flag SDROP

/-- Put a returned value into its place in a queue or in a message that waits for it (R39). -/
def fillHole (op : Nat) (hi : Bool) (v : Tw) (l : List QEl) : List QEl :=
  l.map fun e => match e with | .hole o h => if o = op ∧ h = hi then .val v else e | _ => e

def hasHole (l : List QEl) : Bool := l.any fun e => match e with | .hole _ _ => true | _ => false

/-- A message whose values have all returned gets its destination; it counts in class 3 from then on (R39, R235). -/
def State.closeMessages (s : State) (cluster : Nat) : State :=
  (s.cluster cluster).outbox.foldl (fun s m =>
    match m.cargo with
    | .queue _ _ (.val v :: r) vc op origin =>
      if m.dst = 1023 ∧ !hasHole (.val v :: r) then
        let off := s.modCluster cluster fun c => { c with outbox := c.outbox.filter fun x => x.id != m.id }
        if v.tag || badPort v.val then
          off.lateFailure m.ctx m.pc 3 (if v.tag then tokCode v.val else 0x10) cluster m.slot
        else
          let n := v.val.toNat
          let s := s.modCluster cluster fun c => { c with outbox := c.outbox.map fun x =>
            if x.id = m.id then { m with dst := fld n 25 16, cargo := .queue (bit n 6) (fld n 6 0) r vc op origin } else x }
          let mine (o : Op) : Bool := match o.work with | .message id => id = m.id | _ => false
          let s := s.ops.foldl (fun s (_, o) => match o.issuer with
            | .thread k => if mine o then s.modThread k fun t => t.count 3 else s
            | _ => s) s
          { s with ops := mapVals (fun _ o => if mine o then { o with cls := 3, retired := false, pa := fld n 25 16 * 2 ^ 21 } else o) s.ops }
      else s
    | _ => s) s

def State.fill (s : State) (cluster op : Nat) (hi : Bool) (v : Tw) : State :=
  let s := { s with groups := mapVals (fun _ g => { g with q := mapVals (fun _ l => fillHole op hi v l) g.q }) s.groups }
  let s := s.modCluster cluster fun c => { c with outbox := c.outbox.map fun m =>
    match m.cargo with
    | .queue a p l vc o g => { m with cargo := .queue a p (fillHole op hi v l) vc o g }
    | _ => m }
  s.closeMessages cluster

/-- The hole that a queue destination of a wait left, by thread. -/
def waitHole (key : Nat) : Nat := 2 ^ 64 + key

/-- A condition wait ends with the word's value (R237, R238, R306). -/
def State.endWait (s : State) (key : Nat) (w : MonWait) (v : Tw) : State :=
  match s.thread? key with
  | none => s
  | some t =>
    let stamp := match w.word with | .mem pa => s.stampAt pa | .pad _ _ => (Clock.zero, none)
    let t := if w.order = 2 then t.acquire w.scope.toNat stamp else if w.order = 1 then { t with rs := t.rs.max stamp.1 } else t
    let s := s.resume key (t.deliver w.dst v)
    if 0xD0 ≤ w.dst.toNat ∧ w.dst.toNat < 0xE0 then s.fill (clusterOfKey key) (waitHole key) false v else s

/-- A write that the warps of other slots see from the next core cycle (R187). -/
def Group.kWrite (gr : Group) (cycle n : Nat) (v : Tw) : Group :=
  let prev := match gr.kPrev with | some (c, l) => if c = cycle then (c, l) else (cycle, gr.k) | none => (cycle, gr.k)
  { gr with k := gr.k.set n v, kPrev := some prev }

/-- k registers written before any slot issues in that core cycle (R188). -/
def Group.kLoad (gr : Group) (k : Nat) (words : List Tw) : Group :=
  let on (l : List Tw) : List Tw := words.zipIdx.foldl (fun l (v, i) => l.set (k + i) v) l
  { gr with k := on gr.k, kPrev := gr.kPrev.map fun (c, l) => (c, on l) }

/-- TAPE writes the four k registers and its warp goes on (R190); a stamp is that of the read that ended a wait, which every
thread of the warp merges (R306). -/
def State.endTape (s : State) (key : Nat) (k : Nat) (words : List Tw) (stamp : Option (Clock × Option Nat)) : State :=
  match s.thread? key with
  | none => s
  | some t0 =>
    let warp := (s.threads.filter fun (n, t) => n = key || t.waitOn = WaitOn.follow key).map fun (n, _) => n
    let s := warp.foldl (fun s n => match s.thread? n with
      | some t => s.resume n (match stamp with | some c => t.acquire 7 c | none => t)
      | none => s) s
    match t0.group with
    | some g => s.modGroup g fun gr => words.zipIdx.foldl (fun gr (v, i) => gr.kWrite (s.coreCycle gr.cluster) (k + i) v) gr
    | none => s

/-- The words of a TAPE whose wait ended with a token in place of word 0. -/
def tapeWords (v : Tw) (words : List Tw) : List Tw :=
  if v.tag then (match words with | [] => [] | _ :: r => v :: r) else words

/-- Release the thread's wait where its word satisfies it; the monitor goes with its last waiter. -/
def State.recheck (s : State) (key : Nat) : State :=
  match s.thread? key with
  | none => s
  | some t =>
    match t.waitOn with
    | .cond w => match w.over s with | some v => s.endWait key w v | none => s
    | .tape w k words =>
      match w.over s with
      | some v => s.endTape key k (tapeWords v words) (match w.word with | .mem pa => some (s.stampAt pa) | .pad _ _ => none)
      | none => s
    | _ => s

/-- The unit whose monitors watch a word: the home MSE's cluster. -/
def State.watchCluster (s : State) (w : Watched) : Nat :=
  match w with
  | .mem pa => match s.region pa with | some (.home c) => c | _ => 0
  | .pad g _ => g / 2048

def State.keepFar (s : State) (w : FarWait) : State := { s with pkg := { s.pkg with waits := s.pkg.waits ++ [w] } }

/-- A wait of another package or of a callboard is evaluated at its word, and registered where it does not hold; with no free monitor the
device reads the word again later (R238). -/
def State.registerFar (s : State) (w : FarWait) : State :=
  let w := { w with pa := s.placed? w.pa }
  let c := w.pa / 2 ^ 30
  let s := { s with pkg := { s.pkg with waits := s.pkg.waits.filter fun x => x.who != w.who } }
  if s.farOver w then s.farEnd w else
  let mons := (s.cluster c).mons
  if mons.any fun m => m.ctx = w.ctx && m.word = .mem w.pa && m.cond = w.cond && m.cmp = w.cmp then s.keepFar { w with monitor := true }
  else if (mons.filter fun m => match m.word with | .mem _ => true | .pad _ _ => false).length < 1024 then
    (s.modCluster c fun v => { v with mons := v.mons ++ [⟨w.ctx, .mem w.pa, w.cond, w.cmp⟩] }).keepFar { w with monitor := true }
  else
    let n := if w.interval = 0 then 256 else min (2 * w.interval) 65536
    s.keepFar { w with interval := n, next := s.coreCycle c + n }

def Saved.mapThreads (f : Thread → Thread) : Saved → Saved
  | .ensemble k e gs ts ls cs => .ensemble k e gs (ts.map fun (n, t) => (n, f t)) ls cs
  | .roaming c k t asked q => .roaming c k (f t) asked q

/-- The wait of a saved thread whose word now satisfies it ends when it returns, whatever the word then holds (R281). -/
def Thread.promise (s : State) (hit : Watched → Bool) (t : Thread) : Thread :=
  match t.waitOn with
  | .cond w => if hit w.word && (w.over s).isSome then { t with waitOn := .cond { w with cond := 6, cmp := 0 } } else t
  | .tape w k words => if hit w.word && (w.over s).isSome then { t with waitOn := .tape { w with cond := 6, cmp := 0 } k words } else t
  | _ => t

def State.touchSaved (s : State) (hit : Watched → Bool) : State :=
  if s.ctxs.any (fun (_, c) => !c.saved.isEmpty) then
    { s with ctxs := mapVals (fun _ c => { c with saved := c.saved.map (Saved.mapThreads (Thread.promise s hit)) }) s.ctxs }
  else s

/-- MONITOR_RELEASE (R238): after an operation has written bytes of a word, the waiters whose condition now holds go on. -/
def State.touch (s : State) (hit : Watched → Bool) : State :=
  let s := (s.touchSaved hit).farWake hit
  let keys := (s.threads.filter fun (_, t) =>
    !(s.ctx t.ctx).low && (match t.waitOn.watch with | some w => w.monitor && hit w.word | none => false)).map fun (k, _) => k
  if keys.isEmpty then s else
  let s' := keys.foldl State.recheck s
  let clusters := (keys.filterMap fun k => (s.thread? k).bind fun t => t.waitOn.watch.map fun w => s.watchCluster w.word).eraseDups
  clusters.foldl State.sweepMonitors s'

/-- What the device itself has written in a step takes effect: waits that it ended go on with the word's value of that time, and monitors
that no wait holds are free (R238, log entry 16). -/
def State.afterWrites (s : State) : State :=
  if s.wrote.isEmpty && s.woken.isEmpty then s else
  let hit (w : Watched) : Bool := s.wrote.any fun x => match w with | .mem a => decide (a < x.1 + x.2 ∧ x.1 < a + 4) | .pad _ _ => false
  let s0 := { s with wrote := [], woken := [] }.touchSaved hit
  let wake (s : State) (x : Nat × Tw) : State :=
    match s.thread? x.1 with
    | none => s
    | some t =>
      if (s.ctx t.ctx).low then s else
      match t.waitOn with
      | .cond w => if w.monitor then s.endWait x.1 w x.2 else s
      | .tape w k words =>
        if w.monitor then s.endTape x.1 k (tapeWords x.2 words) (match w.word with | .mem pa => some (s.stampAt pa) | .pad _ _ => none) else s
      | _ => s
  (s.woken.foldl wake s0).clusters.foldl (fun s (x : Nat × Cluster) => if x.2.mons.isEmpty then s else s.sweepMonitors x.1) (s.woken.foldl wake s0)

/-- Memory bytes [pa, pa + n) have been written. -/
def State.touchMem (s : State) (pa n : Nat) : State :=
  s.touch fun w => match w with | .mem a => decide (a < pa + n ∧ pa < a + 4) | .pad _ _ => false

def State.touchPad (s : State) (g word : Nat) : State := s.touch fun w => w = .pad g word

/-! The stamp table (R297). -/

/-- The entries of an MSE; an entry evicted by a full table is merged into the floor (log entry 8: the oldest goes). -/
def Cluster.stamp (c : Cluster) (line : Nat) (clock : Clock) (scope : Nat) : Cluster :=
  match c.stamps.find? fun e => e.line = line with
  | some e => { c with stamps := c.stamps.map fun x => if x.line = line then ⟨line, e.clock.max clock, scope⟩ else x }
  | none =>
    let el : StampEl := ⟨line, c.floor.max clock, scope⟩
    if c.stamps.length < 4096 then { c with stamps := c.stamps ++ [el] } else
    match c.stamps with
    | old :: r => { c with stamps := r ++ [{ el with clock := (c.floor.max old.clock).max clock }], floor := c.floor.max old.clock }
    | [] => { c with stamps := [el] }

def State.stampLine (s : State) (pa : Nat) (clock : Clock) (scope : Nat) : State :=
  match s.region pa with
  | some (.home c) => s.modCluster c fun cl => cl.stamp (pa / 64) clock scope
  | _ => s

/-! Writing memory as its home MSE does (R84). -/

def State.storeBytes (s : State) (pa : Nat) (bytes : List Byte) : State :=
  let s := s.putBytes pa bytes
  let s := { s with marks := clearMarks s.marks pa bytes.length }
  s.touchMem pa bytes.length

/-- Bytes written where they stand now: those of an access of which only a part has moved in as many parts (log entry 125). -/
def State.storeNow (s : State) (pa : Nat) (bytes : List Byte) : State :=
  if s.split pa bytes.length then (s.runsAt pa bytes).foldl (fun s (a, l) => s.storeBytes a l) s else s.storeBytes (s.placed? pa) bytes

/-! Triggers and signals (R198, R308, R356). -/

/-- ACT_SIGNAL: the saturating add at the counter's home; a counter in a marked sector is left and sets PTGT (R93). -/
def State.actSignal (s : State) (ctx act : Nat) : State :=
  match s.act? ctx act with
  | none => s
  | some a =>
    if a.signalled then s else
    let s := s.setAct { a with signalled := true }
    let addr := fld a.header 639 576
    if addr = 0 then s else
    match s.resolveDevice 0 ctx addr with
    | .error _ => s
    | .ok (s, raw) =>
      let pa := s.placed? raw
      match s.markAt pa with
      | some c => s.msx ctx (2 ^ 8) (some c.toNat)
      | none =>
        let sum := s.readN pa 4 + fld a.header 575 544
        let s := ((s.reach pa).stampLine pa Clock.zero 7).storeBytes pa (toBytes 4 (min sum 0xFFFFFFFF))
        if 0xFFFFFFFF < sum then
          let s := s.modAct ctx act fun a => { a with ovf := true }
          if a.board < 256 then s.setBoard a.board { s.board a.board with ovf := true } else s
        else s

/-- A guest record whose count U is zero sends its trigger notices (R278). -/
def State.tellUntriggered (s : State) (a : Act) : State :=
  let senders := a.guest.getD []
  let s := senders.foldl (fun s d => if d.untriggered = 0 then s else s.notify 0 d d.untriggered) s
  s.setAct { a with guest := some (senders.map fun d => { d with untriggered := 0 }) }

/-- TRIGGER_FIRE (R198): no thread of the act is untriggered and the writes before each TRIG have retired (R308). -/
def State.tryFire (s : State) (ctx act : Nat) : State :=
  match s.act? ctx act with
  | none => s
  | some a =>
    if a.fired || a.untrig != 0 || a.remoteUntrig != 0 || a.signalled then s
    else if a.preTrig.any fun n => (find s.ops n).isSome then s
    else if a.guest.isSome then s.tellUntriggered a
    else ((s.setAct { a with fired := true }).actSignal ctx act).setActState ctx act 4

/-- The class 3 and 4 operations of a thread that have not retired. -/
def State.writesOf (s : State) (key : Nat) : List Nat :=
  (s.ops.filter fun (_, o) => o.issuer = .thread key && (o.cls = 3 || o.cls = 4) && !o.retired).map fun (k, _) => k

/-- A thread becomes triggered (R198). -/
def State.trigger (s : State) (key : Nat) : State :=
  match s.thread? key with
  | none => s
  | some t =>
    if t.trig then s else
    let s := s.setThread key { t with trig := true }
    let pre := s.writesOf key
    let s := s.modAct t.ctx t.act fun a => if a.signalled then a else { a with untrig := a.untrig - 1, preTrig := a.preTrig ++ pre }
    s.tryFire t.ctx t.act

/-! Barriers (R241, R303). -/

/-- What stands in an ensemble's list for a group that has retired: its slots may be another ensemble's by now (R268). -/
def noGroup : Nat := 768 * 2048

/-- BARRIER_PHASE_COMPLETE: the waiters go on with the maximum of the arrivers' clocks. -/
def State.phaseDone (s : State) (waits : Thread → Bool) (vc : Clock) : State :=
  ((s.threads.filter fun (_, t) => waits t).map fun (k, _) => k).foldl (fun s k =>
    match s.thread? k with | some t => s.resume k { t with vc := t.vc.max vc } | none => s) s

def Barrier.next (b : Barrier) : Barrier := { Barrier.init with phase := b.phase + 1 }

/-- Complete a group barrier's phase where its arrivals have reached E. -/
def State.groupBarrier (s : State) (g id : Nat) : State :=
  match s.group? g with
  | none => s
  | some gr =>
    let b := get gr.bars id Barrier.init
    match b.expected with
    | some e =>
      if e ≤ b.arrived then
        (s.setGroup g { gr with bars := put gr.bars id b.next }).phaseDone (fun t => t.group = some g && t.waitOn = WaitOn.bar id) b.vc
      else s
    | none => s

def State.ensBarrier (s : State) (k id : Nat) : State :=
  match find s.ensembles k with
  | none => s
  | some en =>
    let b := get en.bars id Barrier.init
    match b.expected with
    | some e =>
      if e ≤ b.arrived then
        { s with ensembles := put s.ensembles k { en with bars := put en.bars id b.next } }.phaseDone
          (fun t => (match t.group with | some g => en.groups.contains g | none => false) && t.waitOn = WaitOn.ebar id) b.vc
      else s
    | none => s

/-- An exit lowers an E that was computed from live threads. -/
def lowerLive (bars : Map Barrier) : Map Barrier :=
  mapVals (fun _ b => if b.live then { b with expected := b.expected.map fun e => e - 1 } else b) bars

/-- A thread as R264 creates it. -/
def Thread.new (ctx act : Nat) (group : Option Nat) (gid : Nat) (tid : Word) (pc : Dword) (now : Nat) : Thread :=
  { ctx := ctx, act := act, group := group, gid := gid, tid := tid, pc := pc, region := pc, cue := .runnable, wait := 0, waitOn := .none
    since := now, dog := 0, promoted := none, admitted := now, level := 0, regs := [], rest := .dead, l0 := Cell.dead, l1 := Cell.dead
    preds := List.replicate 7 PCell.false, tsw := 0, vc := Clock.zero, rs := Clock.zero, fc := Clock.zero, fscope := 0, trig := false
    blocks := 0, spilled := 0, rec1 := none, rec2 := none, rec3 := none, txn := none, brk := none, last := none }

/-! Exit and retirement (R177, R268, R269). -/

def hdrRegs (h : Nat) : Nat := fld h 63 56

/-- The extended blocks that REGS grants (R351). -/
def hdrBlocks (h : Nat) : Nat := if hdrRegs h ≤ 64 then 0 else (hdrRegs h - 64 + 31) / 32

/-- The blocks that a thread of an act holds at its creation or arrival (R180, R184). -/
def State.actBlocks (s : State) (ctx act : Nat) : Nat := match s.act? ctx act with | some a => hdrBlocks a.header | none => 0

/-- The blocks that a travelling thread asks for; one that was evicted takes its own again (R374). -/
def State.travelBlocks (s : State) (a : Travel) : Nat :=
  match a.saved with
  | some (_, t) => t.blocks + t.spilled
  | none => s.actBlocks a.ctx a.act

/-- Blocks in use on a cluster, against the pool of R184. -/
def State.blocksUsed (s : State) (cluster : Nat) : Nat :=
  (s.threads.filter fun (k, _) => !isLaneKey k && clusterOfKey k = cluster).foldl (fun a (_, t) => a + t.blocks) 0
def State.blocksFree (s : State) (cluster : Nat) : Nat := 4096 - s.blocksUsed cluster

/-- The slice of a group stops (R268): streams, pending pushes and the elements of q0 to q13 are discarded. -/
def State.stopSlice (s : State) (g : Nat) : State :=
  let s := s.modGroup g fun gr => { gr with slice := gr.slice.map fun sl => { sl with running := false, streams := [] }
                                            q := keep (fun q _ => 14 ≤ q) gr.q }
  let ofSlice (o : Op) : Bool := match o.issuer with
    | .slice k => k = g
    | .thread k => isLaneKey k && laneGroup k = g
    | .copy _ _ => false
    | .gone _ h => h = some g && (match o.dst with | .queue q _ => decide (q < 8) | _ => false)
  { s with threads := keep (fun k _ => !(isLaneKey k && laneGroup k = g)) s.threads
           ops := keep (fun _ o => !ofSlice o || (match o.dst with | .queue _ _ => false | _ => true)) s.ops }

/-- An operation of a group is still in flight (R268). -/
def State.groupBusy (s : State) (g : Nat) : Bool :=
  match s.group? g with
  | none => false
  | some gr =>
    !gr.mq.isEmpty || s.engines.any (fun (_, e) => e.cmds.any fun c => c.group = some g)
      || s.ops.any (fun (_, o) => match o.issuer with
        | .slice k => k = g
        | .thread k => (isLaneKey k && laneGroup k = g) || decide (gr.base + 2048 * gr.cluster ≤ k ∧ k < gr.base + 2048 * gr.cluster + gr.size) && o.act = gr.act && o.ctx = gr.ctx
        | .copy _ _ => false
        | .gone _ h => h = some g)

/-- A group whose threads have all exited and whose operations have retired returns its resources; its ensemble goes with its
last group (R268). -/
def State.freeGroup (s : State) (g : Nat) : State :=
  match s.group? g with
  | none => s
  | some gr =>
    if gr.exited < gr.size || s.groupBusy g then s else
    let s := { s with groups := drop s.groups g }
    match find s.ensembles gr.ens with
    | none => s
    | some en =>
      let left := en.groups.map fun k => if k = g then noGroup else k
      if left.all fun k => k = noGroup then { s with ensembles := drop s.ensembles gr.ens }
      else { s with ensembles := put s.ensembles gr.ens { en with groups := left } }

/-- A slot's table loses a thread that has gone. -/
def State.dropLane (s : State) (key : Nat) : State :=
  { s with slots := mapVals (fun _ sl => { sl with lanes := sl.lanes.map fun o => if o = some key then none else o }) s.slots }

/-- A thread leaves the cue table for good (R177): register blocks, transaction, its part in counts, triggers and barriers. -/
def State.exitThread (s : State) (key : Nat) : State :=
  match s.thread? key with
  | none => s
  | some t =>
    let s := (s.dropTxn key).dropLane key
    let s := (s.trigger key).modAct t.ctx t.act fun a => { a with live := a.live - 1 }
    let s := { s with groups := mapVals (fun _ (g : Group) => { g with mq := g.mq.map fun (m : MxOp) => { m with threads := m.threads.filter fun k => k != key } }) s.groups }
    let gone (o : Op) : Op := if o.issuer != .thread key then o else
      { o with issuer := .gone key t.group }
    let s := { s with threads := drop s.threads key
                      ops := mapVals (fun _ o => gone o) s.ops
                      engines := mapVals (fun _ (e : Engine) => { e with
                        cmds := e.cmds.map (fun (c : CopyCmd) => { c with threads := c.threads.filter fun k => k != key })
                        done := e.done.filter fun d => d.2 != key }) s.engines }
    match t.group with
    | none => s
    | some g =>
      let s := s.modGroup g fun gr => { gr with exited := gr.exited + 1, bars := lowerLive gr.bars }
      let s := (List.range 16).foldl (fun s i => s.groupBarrier g i) s
      match s.group? g with
      | none => s
      | some gr =>
        let s := { s with ensembles := match find s.ensembles gr.ens with
          | some en => put s.ensembles gr.ens { en with bars := lowerLive en.bars }
          | none => s.ensembles }
        let s := (List.range 4).foldl (fun s i => s.ensBarrier gr.ens i) s
        if gr.exited < gr.size then s else (s.stopSlice g).freeGroup g

end Sys2Proof.Machine
end

