-- ==== Sys2Proof/Machine/Flits.lean ====
section
/-! DEFINITION. Messages as they travel: their order (spec/10 R277, spec/12 R312, R313), the groups they leave over (spec/19 R411), and the
flits of a migration and of a spawn to another package (spec/10 R271, R276). -/

namespace Sys2Proof.Machine

/-- Message b goes to the q15 of message a, or may do so: one whose values have not all returned names its q15 later. -/
def Msg.sameQueue (a b : Msg) : Bool :=
  match a.cargo, b.cargo with
  | .queue x p _ _ _ _, .queue y q _ _ _ _ =>
    if a.dst = 1023 then a.slot = b.slot
    else a.dst = b.dst && x = y && (if x then a.ctx = b.ctx && a.act = b.act else p = q)
  | _, _ => false

/-- The home that a message of the migration class goes to (R312). -/
def Msg.bound (m : Msg) : Option (Option Nat × Bool × Nat) :=
  match m.cargo with
  | .spawn _ p fab _ => some (p, fab, m.dst)
  | .travel _ _ p _ => some (p, false, m.dst)
  | .queue _ _ _ _ _ _ => none

def Msg.spawns (m : Msg) : Bool := match m.cargo with | .spawn _ _ _ _ => true | _ => false

/-- A message that has no answer yet, of the migration class to the same home as another. -/
def Msg.sameHome (a b : Msg) : Bool := !a.acked && a.bound.isSome && a.bound = b.bound

/-- The group over which a message is on its way to another package. -/
def Msg.over (m : Msg) : Option Nat :=
  match m.cargo with
  | .spawn _ _ _ eg => eg
  | .travel _ _ _ eg => eg
  | .queue _ _ _ _ _ _ => none

def Msg.routed (m : Msg) (eg : Option Nat) : Msg :=
  { m with cargo := match m.cargo with
    | .spawn t p fab _ => .spawn t p fab eg
    | .travel t k p _ => .travel t k p eg
    | .queue a p l vc o g => .queue a p l vc o g }

/-- The earlier messages of the cluster that this one may not pass. The outbox stands in the order of sending (R313). A spawn that waits
for a retry holds back later spawns to its home (R277); a migration passes those. -/
def State.ahead (s : State) (cluster : Nat) (m : Msg) : List Msg :=
  let l := (s.cluster cluster).outbox.takeWhile fun x => x.id != m.id
  let retries (x : Msg) : Bool := x.spawns && l.any fun y => y.spawns && decide (y.id ≤ x.id) && y.sameHome x && y.next != 0
  l.filter fun x => x.sameQueue m || (x.sameHome m && (m.spawns || !retries x))

def State.behind (s : State) (cluster : Nat) (m : Msg) : Bool := !(s.ahead cluster m).isEmpty

def State.modMsg (s : State) (cluster id : Nat) (f : Msg → Msg) : State :=
  s.modCluster cluster fun c => { c with outbox := c.outbox.map fun m => if m.id = id then f m else m }

/-! The two flits of a migration and of a spawn message to another package (R271, R276). -/

/-- Fields that stand side by side from bit 0 up: width and value of each. -/
def pack : List (Nat × Nat) → Nat
  | [] => 0
  | (w, v) :: r => v % 2 ^ w + 2 ^ w * pack r

/-- A bit for each member of a list, the first in bit 0. -/
def bitsOf (l : List Bool) : Nat := pack (l.map fun b => (1, b2n b))

/-- Header and payload of the two flits, from H and P. -/
def flitsOf (kind pkg cluster h p : Nat) : List (BitVec 128 × BitVec 512) :=
  [0, 1].map fun n =>
    (BitVec.ofNat 128 (pack [(9, 0), (10, cluster), (8, pkg), (1, n), (4, kind), (96, h / 2 ^ (96 * n))]), BitVec.ofNat 512 (p / 2 ^ (512 * n)))

def Clock.fields (c : Clock) : List (Nat × Nat) := [(64, c.d0), (64, c.d1), (64, c.d2), (64, c.d3)]

/-- The registers that a message carries, from 0 on. -/
def Travel.cells (t : Travel) (n : Nat) : List Cell := (List.range n).map fun i => get t.regs i Cell.dead

def Travel.migrationFlits (t : Travel) (own pkg source cluster : Nat) : List (BitVec 128 × BitVec 512) :=
  let g := t.cells 16
  flitsOf 1 pkg cluster
    (pack [(6, t.ctx), (16, t.act), (32, t.tid.toNat), (55, t.pc.toNat / 2), (16, bitsOf (g.map fun c => c.tag))
           , (16, bitsOf (g.map fun c => c.st != .live)), (7, bitsOf (t.preds.map fun p => p.val)), (7, bitsOf (t.preds.map fun p => p.tag))
           , (1, b2n t.trig), (8, own), (10, source), (4, t.fscope.toNat)])
    (pack ((g.map fun c => (32, if c.st = .live then c.val.toNat else 0)) ++ t.vc.fields
           ++ (t.preds.map fun p => (32, if p.tag then p.tok.toNat else 0)) ++ [(32, t.tsw.toNat)]))

def Travel.spawnFlits (t : Travel) (own pkg source cluster : Nat) (fab : Bool) : List (BitVec 128 × BitVec 512) :=
  let n := t.regs.length
  let g := t.cells n
  flitsOf 2 pkg cluster
    (pack [(32, 0), (3, t.level), (6, t.ctx), (16, t.act), (32, t.tid.toNat), (55, t.pc.toNat / 2), (8, bitsOf (g.map fun c => c.tag)), (4, n)
           , (1, b2n t.trig), (1, b2n fab), (8, own), (10, source)])
    (pack ((g.map fun c => (32, c.val.toNat)) ++ [(32 * (8 - n), 0)] ++ t.vc.fields))

end Sys2Proof.Machine
end

