-- ==== Sys2Proof/Machine/Float.lean ====
section
/-! DEFINITION. The number formats of spec/03: decoding, rounding, arithmetic, conversion (R53 to R65). Every operation is
computed exactly on dyadic numbers and rounded once. -/

namespace Sys2Proof.Machine

/-- A floating format (R56). `ieee` where it has infinities and NaNs by exponent; E4M3 and E2M1 have none. -/
structure Fmt where
  code : Nat
  w : Nat
  ebits : Nat
  mbits : Nat
  bias : Nat
  ieee : Bool
deriving DecidableEq, Repr

def f64 : Fmt := ⟨0xB, 64, 11, 52, 1023, true⟩
def f32 : Fmt := ⟨0xA, 32, 8, 23, 127, true⟩
def f16 : Fmt := ⟨0x8, 16, 5, 10, 15, true⟩
def bf16 : Fmt := ⟨0x9, 16, 8, 7, 127, true⟩
def e4m3 : Fmt := ⟨0xC, 8, 4, 3, 7, false⟩
def e5m2 : Fmt := ⟨0xD, 8, 5, 2, 15, true⟩
def e2m1 : Fmt := ⟨0xE, 4, 2, 1, 1, false⟩

/-- The format of a floating type code; E8M0 is apart. -/
def fmtOf (t : Nat) : Fmt :=
  match t with
  | 0x8 => f16 | 0x9 => bf16 | 0xB => f64 | 0xC => e4m3 | 0xD => e5m2 | 0xE => e2m1 | _ => f32

/-- R64: the formats that flush. -/
def Fmt.flushes (f : Fmt) : Bool := f.code = 0x8 || f.code = 0x9 || f.code = 0xA

/-- A number: NaN with sign, mantissa field and whether it signals; an infinity; (−1)^s × m × 2^e. -/
inductive Num where
  | nan (s : Bool) (frac : Nat) (sig : Bool)
  | inf (s : Bool)
  | fin (s : Bool) (m : Nat) (e : Int)
deriving DecidableEq, Repr

def Num.isNan : Num → Bool | .nan _ _ _ => true | _ => false
def Num.isSig : Num → Bool | .nan _ _ g => g | _ => false
def Num.isInf : Num → Bool | .inf _ => true | _ => false
def Num.isZero : Num → Bool | .fin _ 0 _ => true | _ => false
def Num.sign : Num → Bool | .nan s _ _ => s | .inf s => s | .fin s _ _ => s

/-- R57, R58. -/
def Fmt.decode (f : Fmt) (x : Nat) : Num :=
  let x := x % 2 ^ f.w
  let s := x.testBit (f.w - 1)
  let e := x / 2 ^ f.mbits % 2 ^ f.ebits
  let m := x % 2 ^ f.mbits
  if f.ieee ∧ e = 2 ^ f.ebits - 1 then
    if m = 0 then .inf s else .nan s m (!m.testBit (f.mbits - 1))
  else if f.code = 0xC ∧ e = 15 ∧ m = 7 then .nan s m false
  else if e = 0 then .fin s m (1 - (f.bias : Int) - f.mbits)
  else .fin s (2 ^ f.mbits + m) ((e : Int) - f.bias - f.mbits)

/-- The greatest finite magnitude, as bits. -/
def Fmt.maxBits (f : Fmt) : Nat :=
  if f.ieee then (2 ^ f.ebits - 1) * 2 ^ f.mbits - 1 else if f.code = 0xC then 0x7E else 7
def Fmt.infBits (f : Fmt) : Nat := (2 ^ f.ebits - 1) * 2 ^ f.mbits
/-- R58: the default NaN. -/
def Fmt.defNan (f : Fmt) : Nat := if f.ieee then f.infBits + 2 ^ (f.mbits - 1) else 0x7F
def Fmt.signBits (f : Fmt) (s : Bool) : Nat := if s then 2 ^ (f.w - 1) else 0

/-- A NaN source made quiet (R58). -/
def Fmt.quiet (f : Fmt) (x : Nat) : Nat :=
  let x := x % 2 ^ f.w
  if f.ieee then x ||| 2 ^ (f.mbits - 1) else x

/-- Whether the remainder r of 2^k makes a magnitude with low bit odd and sign s round up (R61). -/
def roundsUp (mode : Nat) (s odd : Bool) (r k : Nat) : Bool :=
  let half := 2 ^ k
  match mode with
  | 0 => decide (half < 2 * r) || (2 * r = half && odd)
  | 1 => false
  | 2 => r != 0 && !s
  | 3 => r != 0 && s
  | _ => decide (half ≤ 2 * r)

/-- m × 2^e as a multiple of 2^q, rounded: the multiple, and whether it is inexact. -/
def roundTo (mode : Nat) (s : Bool) (m : Nat) (e q : Int) : Nat × Bool :=
  if q ≤ e then (m * 2 ^ (e - q).toNat, false)
  else
    let k := (q - e).toNat
    let a := m / 2 ^ k
    let r := m % 2 ^ k
    (if roundsUp mode s (a % 2 = 1) r k then a + 1 else a, r != 0)

/-- The exponent of the leading bit. -/
def topExp (m : Nat) (e : Int) : Int := (Nat.log2 m : Int) + e

/-- What goes beyond the greatest finite value (R62, R63). -/
def Fmt.overflow (f : Fmt) (mode : Nat) (s sat : Bool) : Nat × Word :=
  let sg := f.signBits s
  if sat then (sg + f.maxBits, SAT ||| NX)
  else
    let toInf := mode = 0 || mode = 4 || (mode = 2 && !s) || (mode = 3 && s)
    if !toInf then (sg + f.maxBits, OF ||| NX)
    else if f.ieee then (sg + f.infBits, OF ||| NX)
    else if f.code = 0xC then (sg + 0x7F, OF ||| NX)
    else (sg + 7, OF ||| NX)

/-- Round a finite value (R62): bits, flags, whether the result is tiny. Tininess is that of the rounded result (R62, and the
E2M1 entry of −0.75 under R60). A zero keeps its sign. -/
def Fmt.roundFull (f : Fmt) (mode : Nat) (sat : Bool) (s : Bool) (m : Nat) (e : Int) : Nat × Word × Bool :=
  if m = 0 then (f.signBits s, 0, false) else
  let emin : Int := 1 - f.bias
  let q := max (topExp m e) emin - f.mbits
  let (a, inexact) := roundTo mode s m e q
  let field := (q + f.mbits + f.bias).toNat
  let bits := field * 2 ^ f.mbits + a - 2 ^ f.mbits
  if f.maxBits < bits then
    let (b, fl) := f.overflow mode s sat
    (b, fl, false)
  else
    let tiny := decide (bits < 2 ^ f.mbits)
    (f.signBits s + bits, when inexact NX ||| when (inexact && tiny) UF, tiny)

/-- R65 on a result: a tiny one becomes a zero of its sign under flush-to-zero. -/
def Fmt.finish (f : Fmt) (ftz : Bool) (mode : Nat) (s : Bool) (m : Nat) (e : Int) : Nat × Word :=
  let (b, fl, tiny) := f.roundFull mode false s m e
  if ftz && f.flushes && tiny then (f.signBits s, UF ||| NX ||| FTZD) else (b, fl)

/-- R65 on a source: a subnormal becomes a zero of its sign. -/
def Fmt.flush (f : Fmt) (ftz : Bool) (x : Nat) : Nat × Word :=
  let x := x % 2 ^ f.w
  let sub := x / 2 ^ f.mbits % 2 ^ f.ebits = 0 && x % 2 ^ f.mbits != 0
  if ftz && f.flushes && sub then (f.signBits (x.testBit (f.w - 1)), FTZD) else (x, 0)

/-- A source read under the act's mode. -/
def Fmt.source (f : Fmt) (ftz : Bool) (x : Nat) : Num × Nat × Word :=
  let (y, fl) := f.flush ftz x
  (f.decode y, y, fl)

/-- The result of NaN sources: the first, made quiet, NV where any signals (R58). -/
def Fmt.nanOf (f : Fmt) (xs : List (Num × Nat)) : Nat × Word :=
  let nv := when (xs.any fun x => x.1.isSig) NV
  match xs.find? fun x => x.1.isNan with
  | some (_, b) => (f.quiet b, nv)
  | none => (f.defNan, NV)

/-! Exact arithmetic on finite values. -/

/-- A signed mantissa. -/
def sm (s : Bool) (m : Nat) : Int := if s then -(m : Int) else (m : Int)

/-- a × 2^ea + b × 2^eb as one mantissa and exponent. -/
def addExact (a : Int) (ea : Int) (b : Int) (eb : Int) : Int × Int :=
  let e := min ea eb
  (a * (2 : Int) ^ (ea - e).toNat + b * (2 : Int) ^ (eb - e).toNat, e)

/-- The sum of two finite values; the sign of an exact zero by R62. -/
def sumNum (mode : Nat) (s1 : Bool) (m1 : Nat) (e1 : Int) (s2 : Bool) (m2 : Nat) (e2 : Int) : Bool × Nat × Int :=
  let (v, e) := addExact (sm s1 m1) e1 (sm s2 m2) e2
  if v = 0 then ((if m1 = 0 ∧ m2 = 0 ∧ s1 = s2 then s1 else mode = 3), 0, 0) else (decide (v < 0), v.natAbs, e)

def Num.neg : Num → Num
  | .nan s f g => .nan s f g
  | .inf s => .inf (!s)
  | .fin s m e => .fin (!s) m e

/-- An exact product or sum before its rounding. -/
def mulNum : Num → Num → Option Num
  | .fin s1 m1 e1, .fin s2 m2 e2 => some (.fin (s1 != s2) (m1 * m2) (e1 + e2))
  | a, b => if a.isNan || b.isNan || a.isZero || b.isZero then none else some (.inf (a.sign != b.sign))

/-- a + b without NaN sources, rounded. -/
def Fmt.addNum (f : Fmt) (ftz : Bool) (mode : Nat) (a b : Num) : Nat × Word :=
  match a, b with
  | .fin s1 m1 e1, .fin s2 m2 e2 =>
    let (s, m, e) := sumNum mode s1 m1 e1 s2 m2 e2
    f.finish ftz mode s m e
  | .inf s1, .inf s2 => if s1 = s2 then (f.signBits s1 + f.infBits, 0) else (f.defNan, NV)
  | .inf s, _ => (f.signBits s + f.infBits, 0)
  | _, .inf s => (f.signBits s + f.infBits, 0)
  | _, _ => (f.defNan, NV)

/-- s1 + s2, or s1 − s2 where `sub` (R149). -/
def Fmt.add (f : Fmt) (ftz : Bool) (mode : Nat) (sub : Bool) (x y : Nat) : Nat × Word :=
  let (a, xa, fa) := f.source ftz x
  let (b, yb, fb) := f.source ftz y
  let r := if a.isNan || b.isNan then f.nanOf [(a, xa), (b, yb)] else f.addNum ftz mode a (if sub then b.neg else b)
  (r.1, r.2 ||| fa ||| fb)

/-- s1 × s2 (R149). -/
def Fmt.mul (f : Fmt) (ftz : Bool) (mode : Nat) (x y : Nat) : Nat × Word :=
  let (a, xa, fa) := f.source ftz x
  let (b, yb, fb) := f.source ftz y
  let r := if a.isNan || b.isNan then f.nanOf [(a, xa), (b, yb)] else
    match mulNum a b with
    | some (.fin s m e) => f.finish ftz mode s m e
    | some (.inf s) => (f.signBits s + f.infBits, 0)
    | _ => (f.defNan, NV)
  (r.1, r.2 ||| fa ||| fb)

/-- s1 × s2 + s3 with one rounding (R149). ∞ × 0 with a quiet NaN addend gives the NaN of R58 (IEEE 754-2019 7.2 lets NV be
set or not; the addend is a NaN source, so no NaN is created and NV stays as the sources set it). -/
def Fmt.fma (f : Fmt) (ftz : Bool) (mode : Nat) (x y z : Nat) : Nat × Word :=
  let (a, xa, fa) := f.source ftz x
  let (b, yb, fb) := f.source ftz y
  let (c, zc, fc) := f.source ftz z
  let r := if a.isNan || b.isNan || c.isNan then f.nanOf [(a, xa), (b, yb), (c, zc)] else
    match mulNum a b with
    | some p => f.addNum ftz mode p c
    | none => (f.defNan, NV)
  (r.1, r.2 ||| fa ||| fb ||| fc)

/-- m1 / m2 to enough bits, a sticky bit below: mantissa and exponent. -/
def divBits (m1 : Nat) (e1 : Int) (m2 : Nat) (e2 : Int) : Nat × Int :=
  let k := 70 + Nat.log2 m2
  let n := m1 * 2 ^ k
  (2 * (n / m2) + b2n (n % m2 != 0), e1 - e2 - k - 1)

/-- s1 / s2 (R149 FDIVFIX). -/
def Fmt.div (f : Fmt) (ftz : Bool) (mode : Nat) (x y : Nat) : Nat × Word :=
  let (a, xa, fa) := f.source ftz x
  let (b, yb, fb) := f.source ftz y
  let s := a.sign != b.sign
  let r := if a.isNan || b.isNan then f.nanOf [(a, xa), (b, yb)] else
    match a, b with
    | .inf _, .inf _ => (f.defNan, NV)
    | .inf _, _ => (f.signBits s + f.infBits, 0)
    | _, .inf _ => (f.signBits s, 0)
    | .fin _ m1 e1, .fin _ m2 e2 =>
      if m2 = 0 then (if m1 = 0 then (f.defNan, NV) else (f.signBits s + f.infBits, DZ))
      else
        let (m, e) := divBits m1 e1 m2 e2
        f.finish ftz mode s m e
    | _, _ => (f.defNan, NV)
  (r.1, r.2 ||| fa ||| fb)

/-- s1 × 2^n (R149 FSCALE). -/
def Fmt.scale (f : Fmt) (ftz : Bool) (mode : Nat) (x : Nat) (n : Int) : Nat × Word :=
  let (a, xa, fa) := f.source ftz x
  let r := match a with
    | .nan _ _ _ => f.nanOf [(a, xa)]
    | .inf _ => (xa, 0)
    | .fin s m e =>
      -- beyond this range the result overflows or underflows whatever the mantissa
      let n := max (min n 5000) (-5000)
      f.finish ftz mode s m (e + n)
  (r.1, r.2 ||| fa)

/-- s1 rounded to an integral value; never inexact (R149 FRND). -/
def Fmt.rnd (f : Fmt) (ftz : Bool) (mode : Nat) (x : Nat) : Nat × Word :=
  let (a, xa, fa) := f.source ftz x
  let r := match a with
    | .nan _ _ _ => f.nanOf [(a, xa)]
    | .inf _ => (xa, (0 : Word))
    | .fin s m e =>
      let (n, _) := roundTo mode s m e 0
      let n' := if 0 ≤ e then (m, e) else (n, (0 : Int))
      ((f.roundFull 0 false s n'.1 n'.2).1, 0)
  (r.1, r.2 ||| fa)

/-! Order (R150, R153, R220). -/

/-- The place of a non-NaN pattern in the order, −0 below +0. -/
def Fmt.orderKey (f : Fmt) (x : Nat) : Nat :=
  let x := x % 2 ^ f.w
  if x.testBit (f.w - 1) then 2 ^ f.w - 1 - x else x + 2 ^ (f.w - 1)

/-- FMIN, FMAX (R150). -/
def Fmt.minmax (f : Fmt) (ftz : Bool) (isMax : Bool) (x y : Nat) : Nat × Word :=
  let (a, xa, fa) := f.source ftz x
  let (b, yb, fb) := f.source ftz y
  let nv := when (a.isSig || b.isSig) NV
  let r :=
    if a.isNan && b.isNan then f.quiet xa
    else if a.isNan then yb
    else if b.isNan then xa
    else if isMax = decide (f.orderKey yb ≤ f.orderKey xa) then xa else yb
  (r, nv ||| fa ||| fb)

/-- FCMP, DCMP (R153): the condition codes of R126. -/
def Fmt.compare (f : Fmt) (ftz : Bool) (cond : Nat) (x y : Nat) : Bool × Word :=
  let (a, xa, fa) := f.source ftz x
  let (b, yb, fb) := f.source ftz y
  let nan := a.isNan || b.isNan
  let sig := a.isSig || b.isSig
  let zero := a.isZero && b.isZero
  let eq := zero || xa = yb
  let lt := !zero && decide (f.orderKey xa < f.orderKey yb)
  let v := match cond with
    | 0 => !nan && eq
    | 1 => nan || !eq
    | 2 => !nan && lt
    | 3 => !nan && (lt || eq)
    | 4 => !nan && !(lt || eq)
    | 5 => !nan && !lt
    | 6 => nan
    | _ => !nan
  let nv := if 2 ≤ cond ∧ cond ≤ 5 then nan else sig
  (v, when nv NV ||| fa ||| fb)

/-- FCLASS (R154). -/
def Fmt.classOf (f : Fmt) (ftz : Bool) (x : Nat) : Nat × Word :=
  let (a, xa, fa) := f.source ftz x
  let c := match a with
    | .inf s => if s then 0 else 7
    | .nan _ _ g => if g then 8 else 9
    | .fin s 0 _ => if s then 3 else 4
    | .fin s _ _ =>
      let sub := xa / 2 ^ f.mbits % 2 ^ f.ebits = 0
      if s then (if sub then 2 else 1) else (if sub then 5 else 6)
  (2 ^ c, fa)

/-! Conversions (R59, R63, R155). -/

/-- The range of an integer type code 0 to 7 (R124). -/
def intWidth (t : Nat) : Nat := match t / 2 with | 0 => 8 | 1 => 16 | 2 => 32 | _ => 64
def intSigned (t : Nat) : Bool := t % 2 = 0
def intMin (t : Nat) : Int := if intSigned t then -((2 : Int) ^ (intWidth t - 1)) else 0
def intMax (t : Nat) : Int := if intSigned t then (2 : Int) ^ (intWidth t - 1) - 1 else (2 : Int) ^ intWidth t - 1
/-- An integer of a type, from the low bits of a register. -/
def intRead (t x : Nat) : Int := if intSigned t then signed (intWidth t) x else ((x % 2 ^ intWidth t : Nat) : Int)

/-- Conversion to E8M0 (R59). -/
def toE8m0 : Num → Nat
  | .nan _ _ _ => 0xFF
  | .inf _ => 0xFF
  | .fin _ 0 _ => 0
  | .fin _ m e =>
    let k := topExp m e + 127
    if k < 0 then 0 else if 254 < k then 254 else k.toNat

/-- A source of any type as a number; E8M0 by R59. -/
def numOf (t x : Nat) : Num :=
  if t < 8 then
    let v := intRead t x
    .fin (decide (v < 0)) v.natAbs 0
  else if t = 0xF then (if x % 256 = 255 then .nan false 1 false else .fin false 1 ((x % 256 : Nat) - 127))
  else (fmtOf t).decode x

/-- A floating source to an integer type (R63, R155). -/
def numToInt (t mode : Nat) : Num → Nat × Word
  | .nan _ _ _ => (0, NV)
  | .inf s => (wrap (intWidth t) (if s then intMin t else intMax t), NV)
  | .fin s m e =>
    let (a, inexact) := roundTo mode s m e 0
    let v := sm s a
    if v < intMin t then (wrap (intWidth t) (intMin t), NV)
    else if intMax t < v then (wrap (intWidth t) (intMax t), NV)
    else (wrap (intWidth t) v, when inexact NX)

/-- A NaN of one format as a quiet NaN of another (R63): sign kept, top mantissa bits of the source, quiet bit set. -/
def Fmt.nanFrom (f src : Fmt) (s : Bool) (frac : Nat) : Nat :=
  if f.code = 0xC then f.signBits s + 0x7F
  else
    let top := if f.mbits ≤ src.mbits then frac / 2 ^ (src.mbits - f.mbits) else frac * 2 ^ (f.mbits - src.mbits)
    (f.signBits s + f.infBits + top % 2 ^ f.mbits) ||| 2 ^ (f.mbits - 1)

/-- Conversion of one element (R155): the bits and flags, or `none` for the token "conversion NaN" (R63). A scale that the destination can
not hold exactly is rounded, and 0xFF gives an integer 0 with NV (R59; log entry 118). -/
def convert (ftz : Bool) (dt st mode : Nat) (sat : Bool) (x : Nat) : Option (Nat × Word) :=
  if dt = st then
    if st < 8 ∨ st = 0xF then some (x % 2 ^ (if st = 0xF then 8 else intWidth st), 0)
    else
      let f := fmtOf st
      let (x, fl) := f.flush ftz x
      let n := f.decode x
      some (if n.isSig then (f.quiet x, NV) else (x % 2 ^ f.w, fl))
  else if dt = 0xF then
    some (toE8m0 (numOf st x), 0)
  else if st = 0xF then
    match numOf st x with
    | .nan _ _ _ => if dt < 8 then some (0, NV) else if dt = 0xE then none else some ((fmtOf dt).defNan, 0)
    | .inf _ => none
    | .fin s m e => if dt < 8 then some (numToInt dt 0 (.fin s m e)) else
        let f := fmtOf dt
        let (b, fl, tiny) := f.roundFull 0 false s m e
        some (if ftz && f.flushes && tiny then (f.signBits s, UF ||| NX ||| FTZD) else (b, fl))
  else if dt < 8 ∧ st < 8 then
    let v := intRead st x
    if sat then
      if intMax dt < v then some (wrap (intWidth dt) (intMax dt), SAT)
      else if v < intMin dt then some (wrap (intWidth dt) (intMin dt), SAT)
      else some (wrap (intWidth dt) v, 0)
    else some (wrap (intWidth dt) v, 0)
  else
    -- the mode leaves FP64 and the narrow destinations alone (R64)
    let (x, fl) := if 8 ≤ st ∧ (dt < 8 ∨ (fmtOf dt).flushes) then (fmtOf st).flush ftz x else (x, 0)
    let n := numOf st x
    if dt < 8 then
      let (b, f2) := numToInt dt mode n
      some (b, fl ||| f2)
    else
      let f := fmtOf dt
      match n with
      | .nan s frac g =>
        if dt = 0xE then none else some (f.nanFrom (fmtOf st) s frac, when g NV)
      | .inf s =>
        if sat then some (f.signBits s + f.maxBits, SAT ||| NX)
        else if dt = 0xC then some (f.signBits s + 0x7F, NV)
        else if dt = 0xE then some (f.signBits s + 7, OF ||| NX)
        else some (f.signBits s + f.infBits, 0)
      | .fin s m e =>
        let (b, f2, tiny) := f.roundFull mode sat s m e
        some (if ftz && f.flushes && tiny then (f.signBits s, fl ||| UF ||| NX ||| FTZD) else (b, fl ||| f2))

/-! Stochastic rounding of one element (R67). -/

/-- The distance from the greatest finite value to the one that would follow it: hi beyond max (R67), as a mantissa and
exponent. -/
def Fmt.beyond (f : Fmt) : Nat × Int :=
  match f.decode f.maxBits with
  | .fin _ m e => (m + 1, e)
  | _ => (0, 0)

/-- R67 with the random word r: bits, flags, or `none` for a conversion NaN. -/
def convertStochastic (ftz : Bool) (dt st : Nat) (sat : Bool) (r : Nat) (x : Nat) : Option (Nat × Word) :=
  let f := fmtOf dt
  let (x, fl) := if f.flushes then (fmtOf st).flush ftz x else (x, 0)
  match (fmtOf st).decode x with
  | .fin s m e =>
    let emin : Int := 1 - f.bias
    if m = 0 then (convert ftz dt st 0 sat x).map fun (b, g) => (b, g ||| fl) else
    let q := max (topExp m e) emin - f.mbits
    let (a, inexact) := roundTo 1 s m e q
    let bits := (q + f.mbits + f.bias).toNat * 2 ^ f.mbits + a - 2 ^ f.mbits
    let past := f.maxBits < bits ∨ (f.maxBits = bits ∧ inexact)
    if !inexact ∧ ¬ past then (convert ftz dt st 0 sat x).map fun (b, g) => (b, g ||| fl)
    else
      -- the part of |x| above lo, in units of hi − lo, times 2^32
      let (lo, step) := if past then (match f.decode f.maxBits with | .fin _ mm ee => (mm, ee) | _ => (0, 0)) else (a, q)
      let (d, ed) := addExact (m : Int) e (-(lo : Int)) step
      let sh := ed - step + 32
      let big := if 0 ≤ sh then d.toNat * 2 ^ sh.toNat else d.toNat / 2 ^ (-sh).toNat
      let frac := min big (2 ^ 32)
      let up := decide (2 ^ 32 ≤ frac + r % 2 ^ 32)
      if up ∧ (past ∨ bits = f.maxBits) then
        let (b, g) := f.overflow 0 s sat
        some (b, g ||| fl)
      else
        let c := if past then f.maxBits else if up then bits + 1 else bits
        let tiny := decide (c < 2 ^ f.mbits)
        if ftz && f.flushes && tiny then some (f.signBits s, NX ||| UF ||| fl ||| (if c = 0 then 0 else FTZD))
        else some (f.signBits s + c, NX ||| when tiny UF ||| fl)
  | _ => (convert ftz dt st 0 sat x).map fun (b, g) => (b, g ||| fl)

end Sys2Proof.Machine
end

