-- ==== Sys2Proof/Machine/Shake.lean ====
section
/-! DEFINITION. SHAKE256 of FIPS 202, which CVTS (spec/03 R66) and attestation (spec/21 R447) use. -/

namespace Sys2Proof.Machine

/-- One step of the shift register of FIPS 202, algorithm 5: x^8 + x^6 + x^5 + x^4 + 1. -/
def rcStep (r : Nat) : Nat := if r < 128 then 2 * r else Nat.xor (2 * r) 0x171

/-- The constant of round i: seven bits of the shift register, at the places 2^j - 1 (FIPS 202, 3.2.5). -/
def keccakRc (i : Nat) : Dword :=
  (List.range 7).foldl (fun w j => if (Nat.repeat rcStep (7 * i + j) 1) % 2 = 1 then w + 1#64 <<< (2 ^ j - 1) else w) 0

/-- Rotations of rho: the walk of FIPS 202, 3.2.2 visits the lanes from (1, 0) on, and step t turns its lane by t (t + 1) / 2. -/
def rhoTurn (x y : Nat) : Nat :=
  let walk := (List.range 24).map fun t => (Nat.repeat (fun p : Nat × Nat => (p.2, (2 * p.1 + 3 * p.2) % 5)) t (1, 0), t)
  match walk.find? fun p => p.1 == (x, y) with
  | some (_, t) => (t + 1) * (t + 2) / 2 % 64
  | none => 0

/-- A row with its lanes moved n places toward x = 0. -/
def turnRow (n : Nat) (r : List Dword) : List Dword := r.drop n ++ r.take n

/-- theta: to each lane the parities of the columns on its two sides, the right one turned by 1. The sheet is a list of five rows of
five lanes, row y holding the lanes (x, y) in order of x. -/
def theta (rows : List (List Dword)) : List (List Dword) :=
  let parity := rows.foldl (List.zipWith (· ^^^ ·)) (List.replicate 5 0)
  let sides := List.zipWith (fun l r => l ^^^ r.rotateLeft 1) (turnRow 4 parity) (turnRow 1 parity)
  rows.map (List.zipWith (· ^^^ ·) sides)

/-- rho and pi: lane (x, y) is lane ((x + 3y) mod 5, x) after its own turn. -/
def rhoPi (rows : List (List Dword)) : List (List Dword) :=
  (List.range 5).map fun y => rows.mapIdx fun x r =>
    let x' := (x + 3 * y) % 5
    (r.getD x' 0).rotateLeft (rhoTurn x' x)

/-- chi, row by row. -/
def chi (r : List Dword) : List Dword :=
  List.zipWith (· ^^^ ·) r (List.zipWith (fun n m => ~~~n &&& m) (turnRow 1 r) (turnRow 2 r))

/-- One round; iota goes into lane (0, 0). -/
def keccakRound (rc : Dword) (rows : List (List Dword)) : List (List Dword) :=
  match (rhoPi (theta rows)).map chi with
  | (l :: r) :: rest => ((l ^^^ rc) :: r) :: rest
  | l => l

def keccakF (rows : List (List Dword)) : List (List Dword) :=
  (List.range 24).foldl (fun a i => keccakRound (keccakRc i) a) rows

/-- Five lanes of bytes; a lane past the end is 0. -/
def laneRow (l : List Byte) : List Dword := (List.range 5).map fun x => BitVec.ofNat 64 (ofBytes ((l.drop (8 * x)).take 8))

/-- A block of bytes added to the sheet. -/
def addBlock (rows : List (List Dword)) (block : List Byte) : List (List Dword) :=
  rows.mapIdx fun y r => List.zipWith (· ^^^ ·) r (laneRow (block.drop (40 * y)))

/-- Absorb n blocks of 136 bytes. -/
def absorb : Nat → List (List Dword) → List Byte → List (List Dword)
  | 0, a, _ => a
  | n + 1, a, l => absorb n (keccakF (addBlock a (l.take 136))) (l.drop 136)

/-- The first n bytes of SHAKE256(m), n at most 136. -/
def shake256 (m : List Byte) (n : Nat) : List Byte :=
  let blocks := m.length / 136 + 1
  let zeros := blocks * 136 - m.length - 1
  let padded := if zeros = 0 then m ++ [0x9F] else m ++ [0x1F] ++ List.replicate (zeros - 1) 0 ++ [0x80]
  let rows := absorb blocks (List.replicate 5 (List.replicate 5 0)) padded
  (rows.flatten.flatMap fun l => toBytes 8 l.toNat).take n

end Sys2Proof.Machine
end

