-- ==== Sys2Proof/Machine/Trans.lean ====
section
/-! DEFINITION. The functions of spec/06 R151, correctly rounded: exact where the value is, else an interval about the value
narrowed until both of its ends round alike. -/

namespace Sys2Proof.Machine

/-! Fixed point: an integer a stands for a / 2^p. -/

/-- The integer square root by one bit a round, from 2^n down. -/
def isqrtFrom : Nat → Nat → Nat → Nat
  | 0, x, r => if (r + 1) * (r + 1) ≤ x then r + 1 else r
  | n + 1, x, r =>
    let c := r + 2 ^ (n + 1)
    isqrtFrom n x (if c * c ≤ x then c else r)

def isqrt (x : Nat) : Nat := isqrtFrom (Nat.log2 x / 2 + 1) x 0

/-- Terms of a series: t, t·f(1), t·f(1)·f(2), ..., summed. -/
def series (f : Nat → Int → Int) : Nat → Nat → Int → Int
  | 0, _, _ => 0
  | n + 1, k, t => t + series f n (k + 1) (f (k + 1) t)

/-- a × b in fixed point, rounded toward −∞. -/
def fixMul (p : Nat) (a b : Int) : Int := a * b / (2 : Int) ^ p

/-- Σ z^(2k+1) / (2k+1), z in fixed point, |z| ≤ 1/2. -/
def atanhFix (p : Nat) (z : Int) : Int :=
  let z2 := fixMul p z z
  let rec go : Nat → Nat → Int → Int
    | 0, _, _ => 0
    | n + 1, k, t => t / (2 * k + 1 : Int) + go n (k + 1) (fixMul p t z2)
  go (p / 2 + 2) 0 z

/-- Σ (−1)^k / ((2k+1) n^(2k+1)). -/
def atanInv (p n : Nat) : Int :=
  let rec go : Nat → Nat → Int → Int
    | 0, _, _ => 0
    | m + 1, k, t => t / (2 * k + 1 : Int) - go m (k + 1) (t / (n * n : Int))
  go (p / 4 + 2) 0 ((2 : Int) ^ p / n)

def ln2Fix (p : Nat) : Int := 2 * atanhFix p ((2 : Int) ^ p / 3)
/-- π by Machin's formula. -/
def piFix (p : Nat) : Int := 16 * atanInv p 5 - 4 * atanInv p 239

/-- e^t, |t| < 1. -/
def expFix (p : Nat) (t : Int) : Int := series (fun k x => fixMul p x t / (k : Int)) (p / 3 + 20) 0 ((2 : Int) ^ p)

def sinFix (p : Nat) (t : Int) : Int :=
  let t2 := fixMul p t t
  series (fun k x => -(fixMul p x t2) / ((2 * k) * (2 * k + 1) : Int)) (p / 6 + 12) 0 t

def cosFix (p : Nat) (t : Int) : Int :=
  let t2 := fixMul p t t
  series (fun k x => -(fixMul p x t2) / ((2 * k - 1) * (2 * k) : Int)) (p / 6 + 12) 0 ((2 : Int) ^ p)

/-- m × 2^e in fixed point. -/
def toFix (p : Nat) (m : Int) (e : Int) : Int :=
  if 0 ≤ e + p then m * (2 : Int) ^ (e + p).toNat else m / (2 : Int) ^ (-(e + p)).toNat

/-! The functions, on m × 2^e: a mantissa at scale 2^p with an error far below 2^20, and an exponent to add. -/

def exp2Fix (p : Nat) (m : Int) (e : Int) : Int × Int :=
  let n := if 0 ≤ e then m * (2 : Int) ^ e.toNat else m / (2 : Int) ^ (-e).toNat
  let x := toFix p m e - n * (2 : Int) ^ p
  (expFix p (fixMul p x (ln2Fix p)), max (-5000) (min 5000 n))

def log2Fix (p : Nat) (m : Int) (e : Int) : Int × Int :=
  let k := Nat.log2 m.toNat
  let y := toFix p m (-(k : Int))
  let one := (2 : Int) ^ p
  let z := (y - one) * one / (y + one)
  ((e + k) * one + 2 * atanhFix p z * one / ln2Fix p, 0)

/-- sin or cos of m × 2^e, |m × 2^e| < 2^128, reduced by multiples of π/2. -/
def trigFix (cosine : Bool) (p : Nat) (m : Int) (e : Int) : Int × Int :=
  let w := p + 160
  let half := piFix w / 2
  let x := toFix w m e
  let q := (2 * x + half) / (2 * half)
  let r := (x - q * half) / (2 : Int) ^ 160
  let k := ((q + (if cosine then 1 else 0)) % 4).toNat
  let v := if k % 2 = 0 then sinFix p r else cosFix p r
  (if k < 2 then v else -v, 0)

def tanhFix (p : Nat) (m : Int) (e : Int) : Int × Int :=
  let one := (2 : Int) ^ p
  let y := toFix p (m.natAbs : Int) (e + 1)
  let f := if 128 * one ≤ y then 0 else (List.range 8).foldl (fun a _ => fixMul p a a) (expFix p (-y / 256))
  -- beyond 128 the value is nearer to 1 than any rounding can tell, and below it
  let v := if 128 * one ≤ y then one - (2 : Int) ^ 21 else (one - f) * one / (one + f)
  (if m < 0 then -v else v, 0)

/-- Round a value known to lie strictly within 2^20 units of v. -/
def zivTry (f : Fmt) (ftz : Bool) (mode : Nat) (p : Nat) (v : Int × Int) : Option (Nat × Word) :=
  let ends (d : Int) : Nat × Word :=
    let x := 2 * (v.1 + d) + 1
    f.finish ftz mode (decide (x < 0)) x.natAbs (v.2 - p - 1)
  let a := ends (-(2 : Int) ^ 20)
  let b := ends ((2 : Int) ^ 20)
  if a = b then some a else none

/-- Narrow the interval; the last precision decides the least result and the closest case of every format of R151. -/
def ziv (f : Fmt) (ftz : Bool) (mode : Nat) (g : Nat → Int × Int) : Nat × Word :=
  match zivTry f ftz mode 96 (g 96) with
  | some r => r
  | none =>
    match zivTry f ftz mode 384 (g 384) with
    | some r => r
    | none => (zivTry f ftz mode 1024 (g 1024)).getD (f.defNan, NV)

/-- The functions of R151. -/
inductive Fun where
  | rcp | rsq | sqrt | exp2 | log2 | sin | cos | tanh
deriving DecidableEq, Repr

/-- f on a finite value that is not zero. -/
def Fun.finite (g : Fun) (f : Fmt) (ftz : Bool) (mode : Nat) (s : Bool) (m : Nat) (e : Int) : Nat × Word :=
  let v := sm s m
  match g with
  | .rcp =>
    let (a, b) := divBits 1 0 m e
    f.finish ftz mode s a b
  | .sqrt =>
    if s then (f.defNan, NV) else
    -- an even exponent, and 128 more bits
    let (m', e') := if e % 2 = 0 then (m * 2 ^ 128, e - 128) else (m * 2 ^ 129, e - 129)
    let r := isqrt m'
    f.finish ftz mode false (2 * r + b2n (r * r != m')) (e' / 2 - 1)
  | .rsq =>
    if s then (f.defNan, NV) else
    let (m', e') := if e % 2 = 0 then (m, e) else (2 * m, e - 1)
    let q := 2 ^ 256 / m'
    let r := isqrt q
    f.finish ftz mode false (2 * r + b2n (r * r * m' != 2 ^ 256)) (-(e' / 2) - 128 - 1)
  | .exp2 =>
    let whole := if 0 ≤ e then some (v * (2 : Int) ^ (min e 20).toNat) else
      if v % (2 : Int) ^ (-e).toNat = 0 then some (v / (2 : Int) ^ (-e).toNat) else none
    match whole with
    | some n => f.finish ftz mode false 1 (max (-5000) (min 5000 n))
    | none => ziv f ftz mode fun p => exp2Fix p v e
  | .log2 =>
    if s then (f.defNan, NV)
    else if m = 2 ^ Nat.log2 m then
      let n := e + Nat.log2 m
      f.finish ftz mode (decide (n < 0)) n.natAbs 0
    else ziv f ftz mode fun p => log2Fix p v e
  | .sin => ziv f ftz mode fun p => trigFix false p v e
  | .cos => ziv f ftz mode fun p => trigFix true p v e
  | .tanh => ziv f ftz mode fun p => tanhFix p v e

/-- A function of R151 on a source. -/
def Fun.apply (g : Fun) (f : Fmt) (ftz : Bool) (mode : Nat) (x : Nat) : Nat × Word :=
  let (a, xa, fa) := f.source ftz x
  let one := f.bias * 2 ^ f.mbits
  let r := match a with
    | .nan _ _ _ => f.nanOf [(a, xa)]
    | .inf s =>
      match g with
      | .rcp => (f.signBits s, (0 : Word))
      | .rsq => if s then (f.defNan, NV) else (0, 0)
      | .sqrt | .log2 => if s then (f.defNan, NV) else (f.infBits, 0)
      | .exp2 => if s then (0, 0) else (f.infBits, 0)
      | .sin | .cos => (f.defNan, NV)
      | .tanh => (f.signBits s + one, 0)
    | .fin s 0 _ =>
      match g with
      | .rcp | .rsq => (f.signBits s + f.infBits, DZ)
      | .sqrt | .sin | .tanh => (f.signBits s, 0)
      | .exp2 | .cos => (one, 0)
      | .log2 => (f.signBits true + f.infBits, DZ)
    | .fin s m e => g.finite f ftz mode s m e
  (r.1, r.2 ||| fa)

end Sys2Proof.Machine
end

