-- ==== Sys2Proof/Machine/LaneInt.lean ====
section
/-! DEFINITION. Integer, logic, shift, bit-field and comparison instructions (spec/06 R144 to R148) in every form. -/

namespace Sys2Proof.Machine

abbrev Res := Host.Outcome State Fault Refusal

def hHead (f : HForm) : Head := ⟨false, 7, if f.e then 1 else 0, 2⟩
def wHead (f : WForm) : Head := ⟨false, f.p.toNat, f.cue.toNat, 4⟩
def wimmHead (f : WImmForm) : Head := ⟨false, f.p.toNat, f.cue.toNat, 4⟩
def wiHead (f : WIForm) : Head := ⟨false, f.p.toNat, f.cue.toNat, 4⟩
def dHead (f : DForm) : Head := ⟨f.neg, f.p.toNat, f.cue.toNat, 8⟩
def dpHead (f : DPForm) : Head := ⟨f.neg, f.p.toNat, f.cue.toNat, 8⟩
def diHead (f : DIForm) : Head := ⟨f.neg, f.p.toNat, f.cue.toNat, 8⟩
def dmHead (f : DMForm) : Head := ⟨f.neg, f.p.toNat, f.cue.toNat, 8⟩

/-! The forms: sources and destinations. -/

/-- A function of the sources' bits: result and flags. `Bool` is the act's flush mode (R64). -/
abbrev Fn := Bool → List Dword → Dword × Word

def aReg (f : HForm) : Byte := f.a.zeroExtend 8

/-- H form (R109): a is destination and first source. -/
def runH (float checked : Bool) (g : Fn) (f : HForm) (s : State) : Res :=
  runLane s (hHead f) [.reg (aReg f) false 0 0, hSrc float f.b] (.reg (aReg f) false) checked (perLane fun i => g i.ftz)

def runW1 (checked : Bool) (g : Fn) (f : WForm) (s : State) : Res :=
  runLane s (wHead f) [src6 f.s1] (.reg (reg6 f.d) false) checked (perLane fun i => g i.ftz)

def runW2 (checked : Bool) (g : Fn) (f : WForm) (s : State) : Res :=
  runLane s (wHead f) [src6 f.s1, src6 f.s2] (.reg (reg6 f.d) false) checked (perLane fun i => g i.ftz)

/-- W form, immediate variant (R112): the immediate is sign-extended. -/
def runWimm (checked : Bool) (g : Fn) (f : WImmForm) (s : State) : Res :=
  runLane s (wimmHead f) [src6 f.s1, .const (f.imm.signExtend 32)] (.reg (reg6 f.d) false) checked (perLane fun i => g i.ftz)

/-- WI form (R112): d is destination and first source. -/
def runWi (checked : Bool) (g : Fn) (f : WIForm) (s : State) : Res :=
  runLane s (wiHead f) [src6 f.d, .const (f.imm.signExtend 32)] (.reg (reg6 f.d) false) checked (perLane fun i => g i.ftz)

/-- D form with the given sources. -/
def runD (srcs : List Src) (d : Dst) (checked : Bool) (g : Fn) (f : DForm) (s : State) : Res :=
  runLane s (dHead f) srcs d checked (perLane fun i => g i.ftz)

/-- D form: n sources and the destination of a type. -/
def runDT (n : Nat) (t : BitVec 4) (checked : Bool) (g : Fn) (f : DForm) (s : State) : Res :=
  runD (([srcOf t f.s1 f.s1lk, srcOf t f.s2 f.s2lk, srcOf t f.s3 f.s3lk]).take n) (dstOf t f.d) checked g f s

def dpSrc1 (f : DPForm) : Src := .reg f.s1 (f.s1lk.getLsbD 1) f.s1pat.toNat f.s1amt.toNat
def dpSrc2 (f : DPForm) : Src := .reg f.s2 (f.s2lk.getLsbD 1) f.s2pat.toNat f.s2amt.toNat

def runDp1 (checked : Bool) (g : Fn) (f : DPForm) (s : State) : Res :=
  runLane s (dpHead f) [dpSrc1 f] (.reg f.d false) checked (perLane fun i => g i.ftz)
def runDp2 (checked : Bool) (g : Fn) (f : DPForm) (s : State) : Res :=
  runLane s (dpHead f) [dpSrc1 f, dpSrc2 f] (.reg f.d false) checked (perLane fun i => g i.ftz)

/-! Integer results (R53, R54, R139, R144). -/

/-- A w-bit pattern of a type in a register or pair. -/
def extOut (t x : Nat) : Dword := if 6 ≤ t then BitVec.ofNat 64 x else BitVec.ofNat 64 (wrap 32 (intRead t x))

/-- An exact value under a type: clamped with SAT, or wrapped. -/
def fitInt (t : Nat) (sat : Bool) (v : Int) : Dword × Word :=
  if sat ∧ intMax t < v then (extOut t (wrap (intWidth t) (intMax t)), SAT)
  else if sat ∧ v < intMin t then (extOut t (wrap (intWidth t) (intMin t)), SAT)
  else (extOut t (wrap (intWidth t) v), 0)

def arg (xs : List Dword) (n : Nat) : Dword := xs.getD n 0
/-- Source n under the type t. -/
def iarg (t : Nat) (xs : List Dword) (n : Nat) : Int := intRead t (arg xs n).toNat
/-- The w-bit pattern of source n. -/
def barg (t : Nat) (xs : List Dword) (n : Nat) : Nat := (arg xs n).toNat % 2 ^ intWidth t
/-- A single 32-bit source (R139). -/
def warg (xs : List Dword) (n : Nat) : Nat := (arg xs n).toNat % 2 ^ 32

def fnMov (t : Nat) : Fn := fun _ xs => fitInt t false (iarg t xs 0)
def fnAdd (t : Nat) (sat : Bool) : Fn := fun _ xs => fitInt t sat (iarg t xs 0 + iarg t xs 1)
def fnAddx (t : Nat) (sat : Bool) : Fn := fun _ xs => fitInt t sat (iarg t xs 0 + iarg t xs 1 + iarg t xs 2)
def fnSub (t : Nat) (sat : Bool) : Fn := fun _ xs => fitInt t sat (iarg t xs 0 - iarg t xs 1)
def fnMul (t : Nat) (sat : Bool) : Fn := fun _ xs => fitInt t sat (iarg t xs 0 * iarg t xs 1)
def fnMulh (t : Nat) : Fn := fun _ xs => fitInt t false (iarg t xs 0 * iarg t xs 1 / (2 : Int) ^ intWidth t)
def fnMad (t : Nat) (sat : Bool) : Fn := fun _ xs => fitInt t sat (iarg t xs 0 * iarg t xs 1 + iarg t xs 2)
def fnAbs (t : Nat) (sat : Bool) : Fn := fun _ xs => fitInt t sat ((iarg t xs 0).natAbs : Int)
def fnNeg (t : Nat) (sat : Bool) : Fn := fun _ xs => fitInt t sat (-(iarg t xs 0))
def fnMin (t : Nat) : Fn := fun _ xs => fitInt t false (min (iarg t xs 0) (iarg t xs 1))
def fnMax (t : Nat) : Fn := fun _ xs => fitInt t false (max (iarg t xs 0) (iarg t xs 1))

/-! Logic and shifts (R145). -/

def fnAnd (t : Nat) : Fn := fun _ xs => (extOut t (barg t xs 0 &&& barg t xs 1), 0)
def fnOr (t : Nat) : Fn := fun _ xs => (extOut t (barg t xs 0 ||| barg t xs 1), 0)
def fnXor (t : Nat) : Fn := fun _ xs => (extOut t (barg t xs 0 ^^^ barg t xs 1), 0)
def fnAndn (t : Nat) : Fn := fun _ xs => (extOut t (barg t xs 0 &&& (2 ^ intWidth t - 1 - barg t xs 1)), 0)
def fnNot (t : Nat) : Fn := fun _ xs => (extOut t (2 ^ intWidth t - 1 - barg t xs 0), 0)
def fnShl (t : Nat) : Fn := fun _ xs =>
  (extOut t (if warg xs 1 < intWidth t then barg t xs 0 * 2 ^ warg xs 1 % 2 ^ intWidth t else 0), 0)
def fnShr (t : Nat) : Fn := fun _ xs => (extOut t (if warg xs 1 < intWidth t then barg t xs 0 / 2 ^ warg xs 1 else 0), 0)
def fnSar (t : Nat) : Fn := fun _ xs =>
  let w := intWidth t
  (extOut t (wrap w (signed w (barg t xs 0) / (2 : Int) ^ min (warg xs 1) w)), 0)
def fnRot (t : Nat) : Fn := fun _ xs =>
  let w := intWidth t
  let n := warg xs 1 % w
  (extOut t (barg t xs 0 * 2 ^ n % 2 ^ w + barg t xs 0 / 2 ^ (w - n)), 0)
def fnFunnel (t : Nat) : Fn := fun _ xs =>
  let w := intWidth t
  (extOut t ((barg t xs 0 * 2 ^ w + barg t xs 1) / 2 ^ (warg xs 2 % w) % 2 ^ w), 0)

/-- A number from its low n bits. -/
def fromBits (n : Nat) (b : Nat → Bool) : Nat := (List.range n).foldl (fun a i => a + b2n (b i) * 2 ^ i) 0

def fnTbl3 (tt : Nat) : Fn := fun _ xs =>
  (BitVec.ofNat 64 (fromBits 32 fun i => tt.testBit (b2n ((arg xs 0).getLsbD i) + 2 * b2n ((arg xs 1).getLsbD i)
    + 4 * b2n ((arg xs 2).getLsbD i))), 0)

/-! Bit fields and counts (R146). -/

def fnBfx (t : Nat) : Fn := fun _ xs =>
  let w := intWidth t
  let x := barg t xs 0
  let pos := fld (warg xs 1) 7 0
  let len := min (fld (warg xs 1) 15 8) w
  let sg := intSigned t
  let b (i : Nat) : Bool := if pos + i < w then x.testBit (pos + i) else sg && x.testBit (w - 1)
  let f := fromBits len b
  (extOut t (if sg ∧ len != 0 then wrap w (signed len f) else f), 0)
def fnBfi (t : Nat) : Fn := fun _ xs =>
  let w := intWidth t
  let pos := fld (warg xs 2) 7 0
  let len := min (fld (warg xs 2) 15 8) w
  (extOut t (fromBits w fun j => if pos ≤ j ∧ j < pos + len then (barg t xs 0).testBit (j - pos) else (barg t xs 1).testBit j), 0)

/-- The number of leading false values. -/
def leading : List Bool → Nat
  | false :: r => leading r + 1
  | _ => 0
/-- Bits from the least significant up. -/
def bitsUp (w x : Nat) : List Bool := (List.range w).map x.testBit

def fnPopc (t : Nat) : Fn := fun _ xs => (BitVec.ofNat 64 ((bitsUp (intWidth t) (barg t xs 0)).filter id).length, 0)
def fnClz (t : Nat) : Fn := fun _ xs => (BitVec.ofNat 64 (leading (bitsUp (intWidth t) (barg t xs 0)).reverse), 0)
def fnCtz (t : Nat) : Fn := fun _ xs => (BitVec.ofNat 64 (leading (bitsUp (intWidth t) (barg t xs 0))), 0)
def fnBrev (t : Nat) : Fn := fun _ xs =>
  let w := intWidth t
  (extOut t (fromBits w fun i => (barg t xs 0).testBit (w - 1 - i)), 0)
def fnLea (t : Nat) : Fn := fun _ xs =>
  let u := if 6 ≤ t then t - 2 else t
  fitInt t false (iarg t xs 0 + intRead u (arg xs 1).toNat * (2 : Int) ^ (warg xs 2 % 16))

/-! Dot products (R147). -/

def fnDot (k w : Nat) (s1 s2 sat : Bool) : Fn := fun _ xs =>
  let el (sg : Bool) (x i : Nat) : Int := let y := x / 2 ^ (w * i) % 2 ^ w; if sg then signed w y else (y : Int)
  let sum := (List.range k).foldl (fun a i => a + el s1 (warg xs 0) i * el s2 (warg xs 1) i) (0 : Int)
  fitInt 4 sat (sum + intRead 4 (warg xs 2))

/-! Comparison, selection, predicates (R126, R148). -/

def condInt (c : Nat) (a b : Int) : Bool :=
  match c with
  | 0 => a = b | 1 => a != b | 2 => decide (a < b) | 3 => decide (a ≤ b) | 4 => decide (b < a) | _ => decide (b ≤ a)

def boolOut (b : Bool) : Dword := if b then 1 else 0

def fnIcmp (t c : Nat) : Fn := fun _ xs => (boolOut (condInt c (iarg t xs 0) (iarg t xs 1)), 0)
def fnPtbl (tt : Nat) : Fn := fun _ xs => (boolOut (tt.testBit ((arg xs 0).toNat + 2 * (arg xs 1).toNat + 4 * (arg xs 2).toNat)), 0)
def fnPmov : Fn := fun _ xs => (boolOut (warg xs 0 != 0), 0)

/-- SEL under R89: the guard, the selector and the selected source count. -/
def selLane (t : Nat) (ls : List LaneIn) : List LaneOut :=
  ls.map fun i =>
    match i.bad, i.ins with
    | some k, _ => .one (.tok k)
    | none, [a, b, .dat p] =>
      match (if p != 0 then a else b) with
      | .tok k => .one (.tok k)
      | .dat v => .one (.dat (fitInt t false (intRead t v.toNat)).1)
    | none, [_, _, .tok k] => .one (.tok k)
    | none, _ => .one (.dat 0)

/-! Fields of the D form. -/
def mTy (f : DForm) : BitVec 4 := WellFormed.mType f
def mTyN (f : DForm) : Nat := (mTy f).toNat
def dTable (f : DForm) : Nat := (f.mod.extractLsb' 0 8).toNat
def s1of (f : DForm) : Src := srcOf (mTy f) f.s1 f.s1lk
def s2of (f : DForm) : Src := srcOf (mTy f) f.s2 f.s2lk
def s3of (f : DForm) : Src := srcOf (mTy f) f.s3 f.s3lk
def s2w (f : DForm) : Src := src8 f.s2 f.s2lk
def s3w (f : DForm) : Src := src8 f.s3 f.s3lk
/-- A predicate named in an 8-bit field (R123). -/
def predNo (r : Byte) : Nat := r.toNat % 8

/-! The 16-bit form (R111). -/

def execMovH (f : HForm) (s : State) : Res := runLane s (hHead f) [hSrc false f.b] (.reg (aReg f) false) false (perLane fun i => fnMov 4 i.ftz)
def execIaddH : HForm → State → Res := runH false false (fnAdd 4 false)
def execIsubH : HForm → State → Res := runH false false (fnSub 4 false)
def execImulH : HForm → State → Res := runH false true (fnMul 4 false)
def execAndH : HForm → State → Res := runH false false (fnAnd 4)
def execOrH : HForm → State → Res := runH false false (fnOr 4)
def execXorH : HForm → State → Res := runH false false (fnXor 4)
def execShlH : HForm → State → Res := runH false false (fnShl 4)
def execShrH : HForm → State → Res := runH false false (fnShr 4)
def execSarH : HForm → State → Res := runH false false (fnSar 4)
def execIminH : HForm → State → Res := runH false false (fnMin 4)
def execImaxH : HForm → State → Res := runH false false (fnMax 4)

/-! The 32-bit form (R114, R115). -/

def execMovW : WForm → State → Res := runW1 false (fnMov 4)
def execIaddW : WForm → State → Res := runW2 false (fnAdd 4 false)
def execIsubW : WForm → State → Res := runW2 false (fnSub 4 false)
def execImulW : WForm → State → Res := runW2 true (fnMul 4 false)
def execImulhW : WForm → State → Res := runW2 true (fnMulh 4)
def execIminW : WForm → State → Res := runW2 false (fnMin 4)
def execImaxW : WForm → State → Res := runW2 false (fnMax 4)
def execAndW : WForm → State → Res := runW2 false (fnAnd 4)
def execOrW : WForm → State → Res := runW2 false (fnOr 4)
def execXorW : WForm → State → Res := runW2 false (fnXor 4)
def execAndnW : WForm → State → Res := runW2 false (fnAndn 4)
def execNotW : WForm → State → Res := runW1 false (fnNot 4)
def execShlW : WForm → State → Res := runW2 false (fnShl 4)
def execShrW : WForm → State → Res := runW2 false (fnShr 4)
def execSarW : WForm → State → Res := runW2 false (fnSar 4)
def execRotW : WForm → State → Res := runW2 false (fnRot 4)
def execPopcW : WForm → State → Res := runW1 false (fnPopc 4)
def execClzW : WForm → State → Res := runW1 false (fnClz 4)
def execCtzW : WForm → State → Res := runW1 false (fnCtz 4)
def execBrevW : WForm → State → Res := runW1 false (fnBrev 4)
def execInegW : WForm → State → Res := runW1 false (fnNeg 4 false)
def execIabsW : WForm → State → Res := runW1 false (fnAbs 4 false)

def execIaddWimm : WImmForm → State → Res := runWimm false (fnAdd 4 false)
def execImulWimm : WImmForm → State → Res := runWimm true (fnMul 4 false)
def execAndWimm : WImmForm → State → Res := runWimm false (fnAnd 4)
def execOrWimm : WImmForm → State → Res := runWimm false (fnOr 4)
def execXorWimm : WImmForm → State → Res := runWimm false (fnXor 4)
def execShlWimm : WImmForm → State → Res := runWimm false (fnShl 4)
def execShrWimm : WImmForm → State → Res := runWimm false (fnShr 4)
def execSarWimm : WImmForm → State → Res := runWimm false (fnSar 4)
def execRotWimm : WImmForm → State → Res := runWimm false (fnRot 4)
def execIminWimm : WImmForm → State → Res := runWimm false (fnMin 4)
def execImaxWimm : WImmForm → State → Res := runWimm false (fnMax 4)

/-- MOVI in WI does not read d (R114). -/
def execMoviWi (f : WIForm) (s : State) : Res :=
  runLane s (wiHead f) [.const (f.imm.signExtend 32)] (.reg (reg6 f.d) false) false (perLane fun i => fnMov 4 i.ftz)
def execIaddWi : WIForm → State → Res := runWi false (fnAdd 4 false)
def execImulWi : WIForm → State → Res := runWi true (fnMul 4 false)
def execAndWi : WIForm → State → Res := runWi false (fnAnd 4)
def execOrWi : WIForm → State → Res := runWi false (fnOr 4)
def execXorWi : WIForm → State → Res := runWi false (fnXor 4)
def execIminWi : WIForm → State → Res := runWi false (fnMin 4)
def execImaxWi : WIForm → State → Res := runWi false (fnMax 4)

/-! The D form (R144 to R148). -/

/-- MOV of a pair copies each register with its own tag (R82, R89, R144; log entry 103). -/
def movPair (ls : List LaneIn) : List LaneOut :=
  ls.map fun i =>
    match i.bad with
    | some k => ⟨[.tok k, .tok k], 0, none, false⟩
    | none => ⟨i.ins, 0, none, false⟩

def execMovD (f : DForm) (s : State) : Res :=
  if WellFormed.is64 (mTy f) then runLane s (dHead f) [.many f.s1 2 false (f.s1lk.getLsbD 1)] (.reg f.d true) false movPair
  else runDT 1 (mTy f) false (fnMov (mTyN f)) f s
def execIaddD (f : DForm) (s : State) : Res := runDT 2 (mTy f) false (fnAdd (mTyN f) (WellFormed.mSat f)) f s
def execIaddxD (f : DForm) (s : State) : Res := runDT 3 (mTy f) false (fnAddx (mTyN f) (WellFormed.mSat f)) f s
def execIsubD (f : DForm) (s : State) : Res := runDT 2 (mTy f) false (fnSub (mTyN f) (WellFormed.mSat f)) f s
def execImulD (f : DForm) (s : State) : Res := runDT 2 (mTy f) true (fnMul (mTyN f) (WellFormed.mSat f)) f s
def execImulhD (f : DForm) (s : State) : Res := runDT 2 (mTy f) true (fnMulh (mTyN f)) f s
def execImadD (f : DForm) (s : State) : Res := runDT 3 (mTy f) true (fnMad (mTyN f) (WellFormed.mSat f)) f s
def execIabsD (f : DForm) (s : State) : Res := runDT 1 (mTy f) false (fnAbs (mTyN f) (WellFormed.mSat f)) f s
def execInegD (f : DForm) (s : State) : Res := runDT 1 (mTy f) false (fnNeg (mTyN f) (WellFormed.mSat f)) f s
def execIminD (f : DForm) (s : State) : Res := runDT 2 (mTy f) false (fnMin (mTyN f)) f s
def execImaxD (f : DForm) (s : State) : Res := runDT 2 (mTy f) false (fnMax (mTyN f)) f s
def execAndD (f : DForm) (s : State) : Res := runDT 2 (mTy f) false (fnAnd (mTyN f)) f s
def execOrD (f : DForm) (s : State) : Res := runDT 2 (mTy f) false (fnOr (mTyN f)) f s
def execXorD (f : DForm) (s : State) : Res := runDT 2 (mTy f) false (fnXor (mTyN f)) f s
def execNotD (f : DForm) (s : State) : Res := runDT 1 (mTy f) false (fnNot (mTyN f)) f s
def execAndnD (f : DForm) (s : State) : Res := runDT 2 (mTy f) false (fnAndn (mTyN f)) f s
def execBrevD (f : DForm) (s : State) : Res := runDT 1 (mTy f) false (fnBrev (mTyN f)) f s
def execShlD (f : DForm) (s : State) : Res := runD [s1of f, s2w f] (dstOf (mTy f) f.d) false (fnShl (mTyN f)) f s
def execShrD (f : DForm) (s : State) : Res := runD [s1of f, s2w f] (dstOf (mTy f) f.d) false (fnShr (mTyN f)) f s
def execSarD (f : DForm) (s : State) : Res := runD [s1of f, s2w f] (dstOf (mTy f) f.d) false (fnSar (mTyN f)) f s
def execRotD (f : DForm) (s : State) : Res := runD [s1of f, s2w f] (dstOf (mTy f) f.d) false (fnRot (mTyN f)) f s
def execBfxD (f : DForm) (s : State) : Res := runD [s1of f, s2w f] (dstOf (mTy f) f.d) false (fnBfx (mTyN f)) f s
def execFunnelD (f : DForm) (s : State) : Res := runD [s1of f, s2of f, s3w f] (dstOf (mTy f) f.d) false (fnFunnel (mTyN f)) f s
def execBfiD (f : DForm) (s : State) : Res := runD [s1of f, s2of f, s3w f] (dstOf (mTy f) f.d) false (fnBfi (mTyN f)) f s
def execLeaD (f : DForm) (s : State) : Res := runD [s1of f, s2w f, s3w f] (dstOf (mTy f) f.d) false (fnLea (mTyN f)) f s
def execPopcD (f : DForm) (s : State) : Res := runD [s1of f] (.reg f.d false) false (fnPopc (mTyN f)) f s
def execClzD (f : DForm) (s : State) : Res := runD [s1of f] (.reg f.d false) false (fnClz (mTyN f)) f s
def execCtzD (f : DForm) (s : State) : Res := runD [s1of f] (.reg f.d false) false (fnCtz (mTyN f)) f s
def execTbl3D (f : DForm) (s : State) : Res := runD [src8 f.s1 f.s1lk, s2w f, s3w f] (.reg f.d false) false (fnTbl3 (dTable f)) f s
def execDp4D (f : DForm) (s : State) : Res := runD [src8 f.s1 f.s1lk, s2w f, s3w f] (.reg f.d false) true (fnDot 4 8 (f.mod.getLsbD 9) (f.mod.getLsbD 8) (f.mod.getLsbD 7)) f s
def execDp8D (f : DForm) (s : State) : Res := runD [src8 f.s1 f.s1lk, s2w f, s3w f] (.reg f.d false) true (fnDot 8 4 (f.mod.getLsbD 9) (f.mod.getLsbD 8) (f.mod.getLsbD 7)) f s
def execIcmpD (f : DForm) (s : State) : Res := runD [s1of f, s2of f] (.pred (predNo f.d)) false (fnIcmp (mTyN f) (WellFormed.mCond f).toNat) f s
def execSelD (f : DForm) (s : State) : Res :=
  runLane s (dHead f) [s1of f, s2of f, .pred (predNo f.s3)] (dstOf (mTy f) f.d) false (selLane (mTyN f))
def execPtblD (f : DForm) (s : State) : Res := runD [.pred (predNo f.s1), .pred (predNo f.s2), .pred (predNo f.s3)] (.pred (predNo f.d)) false (fnPtbl (dTable f)) f s
def execPmovD (f : DForm) (s : State) : Res := runD [src8 f.s1 f.s1lk] (.pred (predNo f.d)) false fnPmov f s

/-! The DP form (R45, R119). -/

def dpSat (f : DPForm) : Bool := f.mod.getLsbD 3
/-- IMIN and IMAX: 1 gives .n32 (R119). -/
def dpTy (f : DPForm) : Nat := if f.mod.getLsbD 2 then 5 else 4

def execMovDp (f : DPForm) (s : State) : Res := runDp1 false (fnMov 4) f s
def execIaddDp (f : DPForm) (s : State) : Res := runDp2 false (fnAdd 4 (dpSat f)) f s
def execIsubDp (f : DPForm) (s : State) : Res := runDp2 false (fnSub 4 (dpSat f)) f s
def execImulDp (f : DPForm) (s : State) : Res := runDp2 true (fnMul 4 (dpSat f)) f s
def execIminDp (f : DPForm) (s : State) : Res := runDp2 false (fnMin (dpTy f)) f s
def execImaxDp (f : DPForm) (s : State) : Res := runDp2 false (fnMax (dpTy f)) f s
def execAndDp (f : DPForm) (s : State) : Res := runDp2 false (fnAnd 4) f s
def execOrDp (f : DPForm) (s : State) : Res := runDp2 false (fnOr 4) f s
def execXorDp (f : DPForm) (s : State) : Res := runDp2 false (fnXor 4) f s
def execShlDp (f : DPForm) (s : State) : Res := runDp2 false (fnShl 4) f s
def execShrDp (f : DPForm) (s : State) : Res := runDp2 false (fnShr 4) f s

/-! The DI form (R118). -/

def execMoviDi (f : DIForm) (s : State) : Res :=
  runLane s (diHead f) [.const f.imm] (.reg f.d false) false (perLane fun i => fnMov 4 i.ftz)

end Sys2Proof.Machine
end

