-- ==== Sys2Proof/Machine/LaneFloat.lean ====
section
/-! DEFINITION. Floating-point instructions and conversions (spec/06 R149 to R158) in every form. -/

namespace Sys2Proof.Machine

/-! Scalars: a result narrower than 32 bits stands in the low bits (R139). -/

def fltOut (r : Nat × Word) : Dword × Word := (BitVec.ofNat 64 r.1, r.2)
def farg (xs : List Dword) (n : Nat) : Nat := (arg xs n).toNat

def fnFadd (f : Fmt) (m : Nat) : Fn := fun z xs => fltOut (f.add z m false (farg xs 0) (farg xs 1))
def fnFsub (f : Fmt) (m : Nat) : Fn := fun z xs => fltOut (f.add z m true (farg xs 0) (farg xs 1))
def fnFmul (f : Fmt) (m : Nat) : Fn := fun z xs => fltOut (f.mul z m (farg xs 0) (farg xs 1))
def fnFma (f : Fmt) (m : Nat) : Fn := fun z xs => fltOut (f.fma z m (farg xs 0) (farg xs 1) (farg xs 2))
def fnFmin (f : Fmt) : Fn := fun z xs => fltOut (f.minmax z false (farg xs 0) (farg xs 1))
def fnFmax (f : Fmt) : Fn := fun z xs => fltOut (f.minmax z true (farg xs 0) (farg xs 1))
def fnFdiv (f : Fmt) (m : Nat) : Fn := fun z xs => fltOut (f.div z m (farg xs 0) (farg xs 1))
def fnFscale (f : Fmt) (m : Nat) : Fn := fun z xs => fltOut (f.scale z m (farg xs 0) (intRead 4 (farg xs 1)))
def fnFrnd (f : Fmt) (m : Nat) : Fn := fun z xs => fltOut (f.rnd z m (farg xs 0))
def fnFun (g : Fun) (f : Fmt) (m : Nat) : Fn := fun z xs => fltOut (g.apply f z m (farg xs 0))
def fnFclass (f : Fmt) : Fn := fun z xs => fltOut (f.classOf z (farg xs 0))
def fnFcmp (f : Fmt) (c : Nat) : Fn := fun z xs => let r := f.compare z c (farg xs 0) (farg xs 1); (boolOut r.1, r.2)

/-- A packed pair: the function on the low and on the high element (R152). -/
def fnPair (g : Fn) : Fn := fun z xs =>
  let part (k : Nat) : Dword × Word := g z (xs.map fun x => BitVec.ofNat 64 (fld x.toNat (16 * k + 15) (16 * k)))
  let (a, b) := (part 0, part 1)
  (BitVec.ofNat 64 (a.1.toNat % 2 ^ 16 + b.1.toNat % 2 ^ 16 * 2 ^ 16), a.2 ||| b.2)

/-- FFMA of the H form: a + b × l0 (R149); the inputs rank a, b, l0 (R88). -/
def execFfmaH (f : HForm) (s : State) : Res :=
  runLane s (hHead f) [.reg (aReg f) false 0 0, hSrc true f.b, .reg 0xC8 false 0 0] (.reg (aReg f) false) true
    (perLane fun i xs => fltOut (fmaH i.ftz (farg xs 0) (farg xs 1) (farg xs 2)))
where
  /-- The addend is first among the NaN sources, as it is first in the order of the inputs. -/
  fmaH (z : Bool) (a b c : Nat) : Nat × Word :=
    let (na, xa, fa) := f32.source z a
    let (nb, xb, fb) := f32.source z b
    let (nc, xc, fc) := f32.source z c
    if na.isNan || nb.isNan || nc.isNan then
      let r := f32.nanOf [(na, xa), (nb, xb), (nc, xc)]
      (r.1, r.2 ||| fa ||| fb ||| fc)
    else f32.fma z 0 b c a

def dFmt (f : DForm) : Fmt := fmtOf (mTyN f)
def dRnd (f : DForm) : Nat := (WellFormed.mRound f).toNat
def s1f (f : DForm) : Src := src8 f.s1 f.s1lk

def execFaddH : HForm → State → Res := runH true true (fnFadd f32 0)
def execFmulH : HForm → State → Res := runH true true (fnFmul f32 0)
def execFmaxH : HForm → State → Res := runH true true (fnFmax f32)

/-! The 32-bit form: .f32 and .f16x2 at nearest-even (R114). -/

def execFaddW : WForm → State → Res := runW2 true (fnFadd f32 0)
def execFsubW : WForm → State → Res := runW2 true (fnFsub f32 0)
def execFmulW : WForm → State → Res := runW2 true (fnFmul f32 0)
def execFminW : WForm → State → Res := runW2 true (fnFmin f32)
def execFmaxW : WForm → State → Res := runW2 true (fnFmax f32)
def execFrcpW : WForm → State → Res := runW1 true (fnFun .rcp f32 0)
def execFrsqW : WForm → State → Res := runW1 true (fnFun .rsq f32 0)
def execFsqrtW : WForm → State → Res := runW1 true (fnFun .sqrt f32 0)
def execFexp2W : WForm → State → Res := runW1 true (fnFun .exp2 f32 0)
def execFlog2W : WForm → State → Res := runW1 true (fnFun .log2 f32 0)
def execFsinW : WForm → State → Res := runW1 true (fnFun .sin f32 0)
def execFcosW : WForm → State → Res := runW1 true (fnFun .cos f32 0)
def execFtanhW : WForm → State → Res := runW1 true (fnFun .tanh f32 0)
def execHpaddW : WForm → State → Res := runW2 true (fnPair (fnFadd f16 0))
def execHpmulW : WForm → State → Res := runW2 true (fnPair (fnFmul f16 0))
def execHpmaxW : WForm → State → Res := runW2 true (fnPair (fnFmax f16))

/-! The D form. -/

def execFaddD (f : DForm) (s : State) : Res := runD [s1f f, s2w f] (.reg f.d false) true (fnFadd (dFmt f) (dRnd f)) f s
def execFsubD (f : DForm) (s : State) : Res := runD [s1f f, s2w f] (.reg f.d false) true (fnFsub (dFmt f) (dRnd f)) f s
def execFmulD (f : DForm) (s : State) : Res := runD [s1f f, s2w f] (.reg f.d false) true (fnFmul (dFmt f) (dRnd f)) f s
def execFminD (f : DForm) (s : State) : Res := runD [s1f f, s2w f] (.reg f.d false) true (fnFmin (dFmt f)) f s
def execFmaxD (f : DForm) (s : State) : Res := runD [s1f f, s2w f] (.reg f.d false) true (fnFmax (dFmt f)) f s
def execFscaleD (f : DForm) (s : State) : Res := runD [s1f f, s2w f] (.reg f.d false) true (fnFscale (dFmt f) (dRnd f)) f s
def execFdivfixD (f : DForm) (s : State) : Res := runD [s1f f, s2w f] (.reg f.d false) true (fnFdiv (dFmt f) (dRnd f)) f s
def execHpaddD (f : DForm) (s : State) : Res := runD [s1f f, s2w f] (.reg f.d false) true (fnPair (fnFadd (dFmt f) (dRnd f))) f s
def execHpmulD (f : DForm) (s : State) : Res := runD [s1f f, s2w f] (.reg f.d false) true (fnPair (fnFmul (dFmt f) (dRnd f))) f s
def execHpmaxD (f : DForm) (s : State) : Res := runD [s1f f, s2w f] (.reg f.d false) true (fnPair (fnFmax (dFmt f))) f s
def execFfmaD (f : DForm) (s : State) : Res := runD [s1f f, s2w f, s3w f] (.reg f.d false) true (fnFma (dFmt f) (dRnd f)) f s
def execHpfmaD (f : DForm) (s : State) : Res := runD [s1f f, s2w f, s3w f] (.reg f.d false) true (fnPair (fnFma (dFmt f) (dRnd f))) f s
def execFrcpD (f : DForm) (s : State) : Res := runD [s1f f] (.reg f.d false) true (fnFun .rcp (dFmt f) (dRnd f)) f s
def execFrsqD (f : DForm) (s : State) : Res := runD [s1f f] (.reg f.d false) true (fnFun .rsq (dFmt f) (dRnd f)) f s
def execFsqrtD (f : DForm) (s : State) : Res := runD [s1f f] (.reg f.d false) true (fnFun .sqrt (dFmt f) (dRnd f)) f s
def execFexp2D (f : DForm) (s : State) : Res := runD [s1f f] (.reg f.d false) true (fnFun .exp2 (dFmt f) (dRnd f)) f s
def execFlog2D (f : DForm) (s : State) : Res := runD [s1f f] (.reg f.d false) true (fnFun .log2 (dFmt f) (dRnd f)) f s
def execFsinD (f : DForm) (s : State) : Res := runD [s1f f] (.reg f.d false) true (fnFun .sin (dFmt f) (dRnd f)) f s
def execFcosD (f : DForm) (s : State) : Res := runD [s1f f] (.reg f.d false) true (fnFun .cos (dFmt f) (dRnd f)) f s
def execFtanhD (f : DForm) (s : State) : Res := runD [s1f f] (.reg f.d false) true (fnFun .tanh (dFmt f) (dRnd f)) f s
def execFrndD (f : DForm) (s : State) : Res := runD [s1f f] (.reg f.d false) true (fnFrnd (dFmt f) (dRnd f)) f s
def execFclassD (f : DForm) (s : State) : Res := runD [s1f f] (.reg f.d false) true (fnFclass (dFmt f)) f s
def execFcmpD (f : DForm) (s : State) : Res := runD [s1f f, s2w f] (.pred (predNo f.d)) true (fnFcmp (dFmt f) (WellFormed.mCond f).toNat) f s

/-- An FP64 instruction occupies its slot for 4 core cycles (R24). -/
def occupyFour (s : State) (r : Res) : Res :=
  match s.cur, r with
  | .slot k, .next s' =>
    if (s'.slot k).wait != 0 then r
    else .next (s'.modSlot k fun sl => { sl with busy := s.now + 4 * cycleOf (s.row (rowOf (k / 4))).clk })
  | _, _ => r

def execDaddD (f : DForm) (s : State) : Res := occupyFour s (runDT 2 (mTy f) true (fnFadd f64 (dRnd f)) f s)
def execDmulD (f : DForm) (s : State) : Res := occupyFour s (runDT 2 (mTy f) true (fnFmul f64 (dRnd f)) f s)
def execDfmaD (f : DForm) (s : State) : Res := occupyFour s (runDT 3 (mTy f) true (fnFma f64 (dRnd f)) f s)
def execDcmpD (f : DForm) (s : State) : Res :=
  occupyFour s (runD [s1of f, s2of f] (.pred (predNo f.d)) true (fnFcmp f64 (WellFormed.mCond f).toNat) f s)

/-! The DP form: .f32 with a rounding code (R119). -/

def dpRnd (f : DPForm) : Nat := (WellFormed.dpRound f).toNat

def execFaddDp (f : DPForm) (s : State) : Res := runDp2 true (fnFadd f32 (dpRnd f)) f s
def execFsubDp (f : DPForm) (s : State) : Res := runDp2 true (fnFsub f32 (dpRnd f)) f s
def execFmulDp (f : DPForm) (s : State) : Res := runDp2 true (fnFmul f32 (dpRnd f)) f s
def execFminDp (f : DPForm) (s : State) : Res := runDp2 true (fnFmin f32) f s
def execFmaxDp (f : DPForm) (s : State) : Res := runDp2 true (fnFmax f32) f s

/-! Conversions (R155 to R158). -/

def typeWidth (t : Nat) : Nat := WellFormed.width (BitVec.ofNat 4 t)

/-- One converted element as a register holds it (R139). -/
def scalarOut (t x : Nat) : Dword := if t < 8 then extOut t x else BitVec.ofNat 64 x

/-- Converted elements packed, with zeros above (R55); a conversion NaN takes its token (R158). -/
def packOut (pc : Dword) (dt : Nat) (els : List (Option (Nat × Word))) : LaneOut :=
  if els.any Option.isNone then .one (.tok (token 0x40 (originOf pc)))
  else
    let vs := els.filterMap id
    let w := typeWidth dt
    .one (.dat (BitVec.ofNat 64 (vs.zipIdx.foldl (fun a (v, i) => a + v.1 % 2 ^ w * 2 ^ (w * i)) 0)))
      (vs.foldl (fun a v => a ||| v.2) (0 : Word))

/-- The results of a conversion: one under R139, or E packed (R155). -/
def joinOut (pc : Dword) (dt : Nat) : List (Option (Nat × Word)) → LaneOut
  | [some v] => .one (.dat (scalarOut dt v.1)) v.2
  | els => packOut pc dt els

/-- The E sources of a conversion. -/
def convSrc (f : DForm) (st : Nat) : Src :=
  let e := WellFormed.mCount f
  let wide := decide (typeWidth st = 64)
  if e = 1 then (if wide then .pair f.s1 (f.s1lk.getLsbD 1) else src8 f.s1 f.s1lk) else .many f.s1 e wide (f.s1lk.getLsbD 1)

def cvtLane (f : DForm) (dt st : Nat) (ls : List LaneIn) : List LaneOut :=
  ls.map fun i =>
    match i.poison with
    | some k => .one (.tok k)
    | none => joinOut i.pc dt (i.ins.map fun v => convert i.ftz dt st (dRnd f) (WellFormed.mCvtSat f) v.bits.toNat)

def execCvtD (dt : BitVec 4) (f : DForm) (s : State) : Res :=
  runLane s (dHead f) [convSrc f (mTyN f)] (dstOf dt f.d) true (cvtLane f dt.toNat (mTyN f))

/-- The random bits of R66: 4 bytes for each element. -/
def cvtsBits (seed thread : Word) (pc : Dword) (iter : Word) (e : Nat) : List Byte :=
  shake256 (toBytes 4 seed.toNat ++ toBytes 4 thread.toNat ++ toBytes 8 pc.toNat ++ toBytes 4 iter.toNat) (4 * e)

def cvtsLane (f : DForm) (dt st : Nat) (ls : List LaneIn) : List LaneOut :=
  ls.map fun i =>
    match i.poison with
    | some k => .one (.tok k)
    | none =>
      let e := WellFormed.mCount f
      let xs := i.ins.map Val.bits
      let bits := cvtsBits (lo32 (arg xs e)) i.rng i.pc (lo32 (arg xs (e + 1))) e
      joinOut i.pc dt ((xs.take e).zipIdx.map fun (x, n) =>
        convertStochastic i.ftz dt st (WellFormed.mCvtSat f) (ofBytes ((bits.drop (4 * n)).take 4)) x.toNat)

def execCvtsD (dt : BitVec 4) (f : DForm) (s : State) : Res :=
  runLane s (dHead f) [convSrc f (mTyN f), src8 f.s2 0, s3w f] (dstOf dt f.d) true (cvtsLane f dt.toNat (mTyN f))

/-- PACK reads FP32 or .i32, converts as CVT does and packs whatever the count (R157). -/
def packLane (f : DForm) (dt st : Nat) (ls : List LaneIn) : List LaneOut :=
  ls.map fun i =>
    match i.poison with
    | some k => .one (.tok k)
    | none => packOut i.pc dt (i.ins.map fun v => convert i.ftz dt st (dRnd f) (WellFormed.mCvtSat f) v.bits.toNat)

def execPackD (f : DForm) (s : State) : Res :=
  let t := mTyN f
  let st := if t < 8 then 4 else 0xA
  runLane s (dHead f) [convSrc f st] (.reg f.d false) true (packLane f t st)

/-- UNPACK's elements (R157): a token goes to every destination register (R158). -/
def unpackLane (t e : Nat) (ls : List LaneIn) : List LaneOut :=
  ls.map fun i =>
    match i.poison with
    | some k => ⟨List.replicate e (.tok k), 0, none, false⟩
    | none =>
      let w := typeWidth t
      let xs := i.ins.map Val.bits
      let els := (List.range e).map fun n =>
        let x := (arg xs 0).toNat / 2 ^ (w * ((warg xs 1 + n) % (32 / w))) % 2 ^ w
        if t < 8 then (extOut t x, (0 : Word)) else fltOut ((convert i.ftz 0xA t 0 false x).getD (0, 0))
      ⟨els.map fun v => .dat v.1, els.foldl (fun a v => a ||| v.2) 0, none, false⟩

def execUnpackD (f : DForm) (s : State) : Res :=
  let e := WellFormed.mCount f
  runLane s (dHead f) [s1f f, s2w f] (if e = 1 then .reg f.d false else .many f.d e) true (unpackLane (mTyN f) e)

end Sys2Proof.Machine
end

