-- ==== Sys2Proof/Machine/Scalar.lean ====
section
/-! DEFINITION. The scalar operations of atomics (spec/08 R217, R219, R220, spec/03 R72). -/

namespace Sys2Proof.Machine

/-- The key that orders scores (R220). -/
def scoreKey (v : Word) : Nat := if v.getLsbD 31 then 0xFFFFFFFF - v.toNat else v.toNat + 0x80000000

/-- PMAX on dwords: the score in the upper word, the index in the lower one. -/
def pmaxOf (m x : Nat) : Nat :=
  let score (v : Nat) : Word := BitVec.ofNat 32 (v / 2 ^ 32)
  if scoreKey (score m) < scoreKey (score x) ∨ (score x = score m ∧ fld x 31 0 < fld m 31 0) then x else m

/-- What an operation leaves in m, what it returns, and its flags: x is the data, c the value compared, l the limit of LADD. -/
def atomVal (op : AtomOp) (type m x c l : Nat) : Nat × Nat × Word :=
  let w := typeWidth type
  match op with
  | .add => ((m + x) % 2 ^ w, m, 0)
  | .min => (if intRead type x < intRead type m then x else m, m, 0)
  | .max => (if intRead type m < intRead type x then x else m, m, 0)
  | .and => (m &&& x, m, 0)
  | .or => (m ||| x, m, 0)
  | .xor => (m ^^^ x, m, 0)
  | .xchg => (x, m, 0)
  | .cas => (if m = c then x else m, m, 0)
  | .fadd => let r := (fmtOf type).add false 0 false m x; (r.1, m, r.2)
  | .binc => (if m < x then m + 1 else m, m, 0)
  | .winc => (if x ≤ m then 0 else m + 1, m, 0)
  | .cdec => (m - 1, m, 0)
  | .ladd => if m + x ≤ l then (m + x, m, 0) else (m, 0xFFFFFFFF, 0)
  | .pmax => (pmaxOf m x, m, 0)

/-- The bytes of the target. -/
def atomBytes (op : AtomOp) (type : Nat) : Nat := if op = .pmax then 8 else typeWidth type / 8

end Sys2Proof.Machine
end

