-- ==== Sys2Proof/Machine/Memory.lean ====
section
/-! DEFINITION. The operation that every memory instruction issues (spec/08 R199 to R204): its address, its translation, the
waits and faults at issue (spec/11 R290, R294, R299 to R301), and the operations it sends. -/

namespace Sys2Proof.Machine

def typeBytes (t : Nat) : Nat := typeWidth t / 8

/-- A value of a type as a destination receives it (R139, R199). -/
def loadOut (t x : Nat) : List Tw :=
  let v := scalarOut t x
  if typeWidth t = 64 then [.data (lo32 v), .data (hi32 v)] else [.data (lo32 v)]

def tokOut (wide : Bool) (k : Word) : List Tw := if wide then [.tok k, .tok k] else [.tok k]

/-! Addresses (R120). -/

/-- base + index × size + offset × size, modulo 2^64; the base's token before the index's. -/
def dmSum (size : Nat) (off : BitVec 9) (base index : Val) : Val :=
  match base, index with
  | .tok k, _ => .tok k
  | _, .tok k => .tok k
  | .dat b, .dat i => .dat (BitVec.ofNat 64 (wrap 64 ((b.toNat : Int) + intRead 4 i.toNat * size + off.toInt * size)))

def dmBase (f : DMForm) : Src := .pair f.base (f.blk.getLsbD 1)
/-- The base of an instruction that addresses scratchpad: the even register alone is read, and L kills the pair (R120, R123). -/
def padBase (f : DMForm) : Src := .even f.base (f.blk.getLsbD 1)
def dmIndex (f : DMForm) : Src := .reg f.index false 0 0
def dmTy (f : DMForm) : Nat := f.type.toNat
def dmWide (f : DMForm) : Bool := WellFormed.is64 f.type
def dmSize (f : DMForm) : Nat := typeBytes (dmTy f)

/-! Where an access goes. -/

/-- The place of a physical address, or the code that refuses it there (R384, R406, R408, R412, R415, R416). -/
def State.placeOf (s : State) (ctx pa : Nat) : Except Nat Place :=
  match s.region pa with
  | some (.home c) => .ok (.home c)
  | some .hostRaw => .ok .hostRaw
  | some (.cxl n off) => match s.cxlFault ctx n off with | some c => .error c | none => .ok (.cxl n)
  | some (.peer q _) => if s.pkg.gone.contains q then .error 0x15 else .ok (.peer q)
  | some (.fabric e _) => .ok (.fabric e)
  | none => .error 0x10

/-- What a lane's access meets at issue. -/
inductive Aim where
  | tok (k : Word)
  | code (c : Nat)
  | at (p : Place) (va pa : Nat) (attr : BitVec 3)
  | miss (va : Nat)
  | ats (va : Nat)
deriving DecidableEq, Repr

def Warp.user (w : Warp) : WalkUser := if w.slice then .slice w.unit else .slot w.unit

/-- Alignment first, then translation (R200; log entry 20). -/
def State.aim (s : State) (w : Warp) (align : Nat) (acc : Access) (v : Val) : Aim :=
  match v with
  | .tok k => .tok k
  | .dat a =>
    let va := a.toNat
    if va % align != 0 then .code 0x12 else
    match s.lookup w.user w.cluster w.ctx va acc with
    | .hit pa attr => (match s.placeOf w.ctx pa with | .error c => .code c | .ok p => .at p va (s.cellOf pa) attr)
    | .host pa _ => .at .host va pa 3
    | .ats => .ats va
    | .fault c => .code c.toNat
    | .miss => .miss va

/-- An access to the issuing group's scratchpad (R210): beyond the allocation it is code 0x10. -/
def State.aimPad (s : State) (w : Warp) (align size : Nat) (v : Val) : Aim :=
  match v with
  | .tok k => .tok k
  | .dat a =>
    let n := a.toNat
    match w.group with
    | none => .code 0x10
    | some g =>
      let scr := match s.group? g with | some gr => gr.scr | none => 0
      if n % align != 0 then .code 0x12 else if scr < n + size then .code 0x10 else .at (.pad g) n n 0

/-- R288: the location set of a scope. -/
def inScope (scope cluster : Nat) (p : Place) : Bool :=
  let home (f : Nat → Bool) : Bool := match p with | .home c => f c | .pad g => f (g / 2048) | _ => false
  let pkg := match p with | .home _ | .pad _ | .cxl _ => true | _ => false
  let peer := match p with | .peer _ => true | _ => false
  let host := match p with | .host | .hostRaw => true | _ => false
  match scope with
  | 3 => home fun c => c = cluster
  | 4 => home fun c => rowOf c = rowOf cluster
  | 5 => home fun c => dieOf c = dieOf cluster
  | 1 | 2 | 7 => pkg
  | 6 => pkg || peer
  | 8 => pkg || host
  | 9 => pkg || peer
  | 10 => pkg || peer || (match p with | .fabric _ => true | _ => false)
  | _ => true

/-- The order that takes effect, and whether the side effect is dropped (R290). -/
def effectiveOrder (scope order cluster : Nat) (p : Place) : Nat × Bool :=
  if order < 2 then (order, false) else if scope = 0 then (1, false)
  else if inScope scope cluster p then (order, false) else (1, true)

/-- The stamp clock and scope that a write leaves at its line (R297, R299, R302). -/
def stampOf (t : Thread) (scope order : Nat) (p : Place) : Option (Clock × Nat) :=
  match p with
  | .home _ =>
    if order = 3 ∨ order = 4 then some (if scope = 6 ∨ 8 ≤ scope then Clock.zero else t.vc, scope)
    else if (order = 1 ∨ order = 2) ∧ t.fscope != 0 then some (t.fc, t.fscope.toNat) else none
  | _ => none

/-! Routes (R411, R413). -/

/-- The groups that may carry a message of a context to a package or endpoint. A group that step 6 of a switch has entered in PODRT carries
messages from the end of step 7 on (R415). -/
def State.routes (s : State) (ctx : Nat) (p : Place) : List Nat :=
  match p with
  | .peer q => (List.range 16).filter fun n => bit (get s.pkg.podrt q 0) n && s.mayUse ctx n && (s.eg n).step = 0 && !(s.eg n).quiet
  | .fabric e =>
    let f := get s.pkg.fabep e 0
    (List.range 16).filter fun n => bit f.toNat 63 && bit f.toNat n && s.mayUse ctx n && (s.eg n).pers = 3 && (s.eg n).step = 0 && !(s.eg n).quiet
  | _ => []

def State.route (s : State) (ctx : Nat) (p : Place) (src dst : Nat) : Option Nat :=
  let g := s.routes ctx p
  if g.isEmpty then none else g[(src + dst) % g.length]?

/-- A packet of an open transaction that another package has yet to answer (R418). -/
def Op.asks (o : Op) : Bool := o.stage = .txn && o.done = 0 && (match o.place with | .peer _ | .fabric _ => true | _ => false)

/-- Messages of a pair and class keep one group until the earlier ones are acknowledged (R411). -/
def State.routeFree (s : State) (o : Op) (n : Nat) : Bool :=
  s.ops.all fun (_, x) => !((x.stage = .sent || x.asks) && x.place = o.place && x.cluster = o.cluster && fld x.pa 39 30 = fld o.pa 39 30)
    || x.eg = some n || x.eg = none

/-- The address on the host's bus: that of the direct window begins at zero (R384). -/
def busAddr (p : Place) (pa : Nat) : Nat := if p = .hostRaw then pa - 768 * 2 ^ 30 else pa

/-- The host port sends one thread's atomic after the completion of the one before it, in ascending tid order (R218). -/
def State.hostTurn (s : State) (o : Op) : Bool :=
  match o.work with
  | .atomic _ _ _ _ => s.ops.all fun (_, x) =>
      !(x.batch = o.batch && (x.place = .host || x.place = .hostRaw) && decide (x.tid.toNat < o.tid.toNat) && x.stage != .performed)
  | _ => true

/-- A thread waits for an operation's answer: the reply of a KLD, an entry of a TAPE, the word of another package. -/
def Thread.awaits (t : Thread) (key k : Nat) (o : Op) : Bool :=
  match t.waitOn with
  | .kload n => n = k
  | .tapeRead _ _ _ _ => o.issuer = .thread key && (match o.dst with | .tape _ => true | _ => false)
  | .cond _ | .tape _ _ _ => o.issuer = .thread key && o.work = .watch
  | _ => false

/-- The reason of those waits where their message is on its way. -/
def WaitOn.reason : WaitOn → Nat
  | .kload _ => 12
  | .cond _ => 9
  | _ => 13

/-- While an operation waits for a route, so do the threads that wait for its answer, and no longer (R412, R435). -/
def State.routeReason (s : State) (k : Nat) : State :=
  match find s.ops k with
  | none => s
  | some o =>
    let turn (key : Nat) (t : Thread) : Thread :=
      let want := if o.stage = .route then 0x17 else t.waitOn.reason
      if t.awaits key k o && t.cue = .waiting && t.wait != BitVec.ofNat 16 want && (o.stage = .route || t.wait = 0x17) then
        { t with wait := BitVec.ofNat 16 want, since := s.now, dog := 0 }
      else t
    { s with threads := mapVals turn s.threads }

/-- Send an operation that leaves the package; without a route it waits (R412), and so does a host atomic before its turn. -/
def State.goOut (s : State) (k : Nat) : State :=
  match find s.ops k with
  | none => s
  | some o =>
    match o.place with
    | .host | .hostRaw =>
      let addr := busAddr o.place o.pa
      let note : Sent := match o.work with
        | .atomic _ _ _ _ | .count _ _ => .hostAtomic k addr
        | .store n v => .hostWrite (if o.place = .host then some (s.ctx o.ctx).pasid else none) addr (toBytes n v.toNat)
        | _ => .hostRead k addr
      if s.hostTurn o then (s.setOp k { o with stage := .sent, sentAt := max o.sentAt s.now }).send note
      else s.setOp k { o with stage := .route }
    | .peer _ | .fabric _ =>
      match s.route o.ctx o.place o.cluster (fld o.pa 39 30) with
      | some n => if s.routeFree o n then (s.setOp k { o with stage := .sent, eg := some n }).send (.peerOp k n)
                  else s.setOp k { o with stage := .route }
      | none => s.setOp k { o with stage := .route }
    | _ => s

def State.depart (s : State) (k : Nat) : State :=
  match find s.ops k with
  | some { place := .peer _, .. } | some { place := .fabric _, .. } => (s.goOut k).routeReason k
  | _ => s.goOut k

/-- A packet of an open transaction leaves for its target (R194, R411). -/
def State.sendHeld (s : State) (k : Nat) : State :=
  match find s.ops k with
  | none => s
  | some o =>
    if !o.asks || o.eg.isSome then s else
    match s.route o.ctx o.place o.cluster (fld o.pa 39 30) with
    | some n => if s.routeFree o n then (s.setOp k { o with eg := some n }).send (.peerOp k n) else s
    | none => s

/-- The place of a transaction's target outside the package. -/
def Target.place : Target → Option Place
  | .self => none
  | .peer q => some (.peer q)
  | .fabric e => some (.fabric e)

/-- A thread's FCOMMIT leaves for its target; without a route the thread waits for one (R195, R411, R412). -/
def State.sendCommit (s : State) (key : Nat) : State :=
  match s.thread? key with
  | none => s
  | some t =>
    match t.waitOn, t.txn with
    | .commit _ _, some x =>
      (match x.eg, x.target, x.target.bind Target.place with
      | none, some g, some p =>
        (match s.route t.ctx p (clusterOfKey key) 0 with
        | some n =>
          let t := if t.wait = 0x11 then t else { t with wait := 0x11, since := s.now, dog := 0 }
          (s.setThread key { t with txn := some { x with eg := some n } }).send
            (match g with | .fabric e => .peerCommit key e true n | .peer q => .peerCommit key q false n | .self => .peerCommit key 0 false n)
        | none => if t.wait = 0x17 then s else s.setThread key { t with wait := 0x17, since := s.now, dog := 0 })
      | _, _, _ => s)
    | _, _ => s

/-- A spawn to another package leaves over its group, once no earlier spawn of the cluster to that home waits for its answer (R277) and what
else is on its way there went over the same group (R411). -/
def State.sendSpawn (s : State) (cluster : Nat) (m : Msg) : State :=
  match m.cargo with
  | .spawn t (some q) fab none =>
    if m.acked || m.next != 0 || (s.ctx m.ctx).low then s else
    (match s.route m.ctx (if fab then .fabric q else .peer q) cluster m.dst with
    | none => s
    | some n =>
      if (s.ahead cluster m).any fun x => x.spawns || x.over != some n then s else
      let own := if fab then Config.ownEndpoint.toNat else s.ownPkg
      (s.modMsg cluster m.id fun m => m.routed (some n)).send (.peerSpawn q fab (t.spawnFlits own q cluster m.dst fab) (s.ctx m.ctx).job))
  | _ => s

/-- The spawns of a cluster that can leave now. -/
def State.sendSpawns (s : State) (cluster : Nat) : State :=
  (s.cluster cluster).outbox.foldl (fun s m => s.sendSpawn cluster m) s

/-- Held messages are routed (R411, R414 step 7), and the host's atomics whose turn has come are sent (R218); not those of a context whose
curtain is low (R430). -/
def State.routeHeld (s : State) : State :=
  let s := s.ops.foldl (fun s (k, o) =>
    if (s.ctx o.ctx).low then s else
    match o.stage, o.place with
    | .route, .peer _ | .route, .fabric _ | .route, .host | .route, .hostRaw => s.depart k
    | .txn, _ => s.sendHeld k
    | _, _ => s) s
  let s := (s.threads.filter fun (_, t) => (match t.waitOn with | .commit _ _ => true | _ => false) && !(s.ctx t.ctx).low).foldl
    (fun s (k, _) => s.sendCommit k) s
  s.clusters.foldl (fun s (x : Nat × Cluster) => s.sendSpawns x.1) s

/-! Issuing. -/

/-- What a memory instruction is: its sources, its destination and how it uses them. -/
structure MemDo where
  srcs : List Src
  dst : Dst
  align : Nat
  size : Nat
  pad : Bool
  /-- A fault becomes a token of the destination, else it is raised. -/
  loads : Bool
  writes : Bool
  cls : Nat
  scope : Nat
  order : Nat
  addr : List Val → Val
  /-- The first tagged data source. -/
  data : List Val → Option Word
  work : List Val → Work
  /-- The targets the form takes; any other is code 0x10. -/
  takes : Place → BitVec 3 → Bool
  /-- Set where a thread may travel to the data (R206). -/
  travels : Bool
  /-- The load's type, for a travelling load. -/
  type : BitVec 4
  cached : Bool := false
  /-- Set for LD and LDF, which a mirror serves (R346). -/
  mirrors : Bool := false
  /-- Set for LDG: its order is that of its element, whose place the record names (R215). -/
  late : Bool := false
  /-- An address that is not translated in the ordinary way. -/
  special : Option (State → Warp → List Val → Aim) := none

/-- A lane with what it asks. -/
structure Ask where
  lane : Lane
  aim : Aim
  vals : List Val
  /-- Effective order, and SDROP. -/
  eff : Nat × Bool
  /-- The thread travels to the data. -/
  goes : Bool

/-- The place that takes the value (R37, R47). -/
def Dst.dest (slice : Bool) : Dst → Dest
  | .reg r wide => if isPush slice r then .queue (r.toNat - 0xD0) wide else if r = 0xF0 then .none else .reg r wide
  | _ => .none

/-- Room for the value of a long-latency instruction in a queue (R39): what it reserves, or that it lacks room. -/
def State.roomFor (s : State) (w : Warp) (q n : Nat) : Bool :=
  if q = 14 then decide ((s.cluster w.cluster).unseen < 16) else decide (queueUsed (s.queue w q) + n ≤ queueCap q)

/-- Reserve places in a queue, or in a message that waits, for the operations ks. The message counts in class 0 from issue (R39): a load stands
for it until its value has come, an operation of another class does not. -/
def State.reserve (s : State) (w : Warp) (q : Nat) (wide : Bool) (ks : List (Lane × Nat)) : State :=
  let holes := ks.flatMap fun (_, k) => if wide then [QEl.hole k false, QEl.hole k true] else [QEl.hole k false]
  if ks.isEmpty then s
  else if q = 14 then
    let (id, s) := s.fresh
    let port := match w.group with | some g => g % 2048 / 32 | none => 0x40
    let vc := ks.foldl (fun c x => c.max x.1.t.vc) Clock.zero
    let slot := (ks.head?.map fun x => slotOfKey x.1.key).getD 0
    let fetch := ks.all fun (_, k) => (find s.ops k).all fun o => o.cls = 0
    let s := if fetch then s else ks.foldl (fun s (l, _) => s.modThread l.key fun t => t.count 0) s
    let (s, first) := ks.foldl (fun (s, first) (l, _) =>
      let (n, s) := s.fresh
      let o := Thread.operation w l.key l.t id 0 (.message id) .window s.now
      (s.setOp n { o with retired := fetch }, if first = 0 then n else first)) (s, 0)
    let m : Msg := ⟨id, w.ctx, w.act, slot, 1023, w.pc, .queue false 0 holes vc first port, 0, 256, false⟩
    s.modCluster w.cluster fun c => { c with outbox := c.outbox ++ [m] }
  else s.setQueue w q (s.queue w q ++ holes)

/-! Read-only lines (R208, R314). -/

/-- A running publish has had the cluster drop the line: until its completion word the cluster takes the line from its home alone (R230,
R316). -/
def State.lineBarred (s : State) (cluster pa : Nat) : Bool :=
  s.engines.any fun (_, e) => e.cmds.any fun c => c.kind = 4 && c.acks.contains cluster && c.lines.contains (pa / 64)

/-- The line in the cluster's cache or in its row's slice. -/
def State.heldLine (s : State) (cluster pa : Nat) : Option Line :=
  match (s.cluster cluster).lines.find? fun l => l.pa = pa / 64 * 64 with
  | some l => some l
  | none => if s.lineBarred cluster pa then none else ((s.row (rowOf cluster)).slices.find? fun x => x.2.pa = pa / 64 * 64).map fun x => x.2

/-- The unit and kind of R443 and R444 that hold a cluster's line: its own cache, or the slice of its row. -/
def State.lineUnit (s : State) (cluster pa : Nat) : Nat × Nat :=
  if (s.cluster cluster).lines.any fun l => l.pa = pa / 64 * 64 then (cluster, 7)
  else match (s.row (rowOf cluster)).slices.find? fun x => x.2.pa = pa / 64 * 64 with
    | some x => (rowOf cluster * 4 + x.1, 2)
    | none => (cluster, 7)

/-- A line found in a slice is installed in the cluster's cache, where the policy allows it. -/
def State.keepLine (s : State) (cluster : Nat) (install : Bool) (l : Line) : State :=
  if install && !s.lineBarred cluster l.pa then s.modCluster cluster fun c => { c with lines := l :: c.lines.filter fun x => x.pa != l.pa } else s

/-- A read of n bytes in a line. -/
def Line.read (l : Line) (type pa : Nat) (origin : Nat) : List Tw :=
  match (l.marks.getD (pa % 64 / 32) none) with
  | some c => tokOut (typeWidth type = 64) (token c.toNat origin)
  | none => loadOut type (ofBytes ((l.bytes.drop (pa % 64)).take (typeBytes type)))

/-! Scratchpad words (R82, R210). -/

/-- Write a word of a table of tagged words whose unlisted words are zero. -/
def putTw (m : Map Tw) (n : Nat) (v : Tw) : Map Tw := if v = Tw.zero then drop m n else put m n v

/-- Write one whole word of a group's scratchpad. -/
def State.padWrite (s : State) (g word : Nat) (v : Tw) : State :=
  (s.modGroup g fun gr => { gr with pad := putTw gr.pad word v }).touchPad g word

/-- A read of the scratchpad: a tagged word gives its token. -/
def Group.padLoad (gr : Group) (type addr : Nat) : List Tw :=
  let n := typeBytes type
  let w := get gr.pad (addr / 4) Tw.zero
  if n = 8 then
    let h := get gr.pad (addr / 4 + 1) Tw.zero
    if w.tag then tokOut true w.val else if h.tag then tokOut true h.val else loadOut type (dw w.val h.val).toNat
  else if w.tag then tokOut false w.val
  else loadOut type (w.val.toNat / 2 ^ (8 * (addr % 4)) % 2 ^ (8 * n))

/-- A write of bytes at an address: 32 and 64 bits write untagged words; a narrower one leaves a tag and its code. -/
def State.padStore (s : State) (g bytes addr : Nat) (v : Dword) : State :=
  if bytes = 8 then (s.padWrite g (addr / 4) (.data (lo32 v))).padWrite g (addr / 4 + 1) (.data (hi32 v))
  else if bytes = 4 then s.padWrite g (addr / 4) (.data (lo32 v))
  else
    let old := match s.group? g with | some gr => get gr.pad (addr / 4) Tw.zero | none => Tw.zero
    let lo := 8 * (addr % 4)
    let n := setFld old.val.toNat (lo + 8 * bytes - 1) lo v.toNat
    let n := if old.tag then setFld n 31 24 (tokCode old.val) else n
    s.padWrite g (addr / 4) ⟨old.tag, BitVec.ofNat 32 n⟩

/-- The unit of a packet's target in bytes; a row is 4-byte aligned. -/
def packetUnit (op : Nat) : Nat :=
  match op with
  | 1 | 4 | 5 | 6 => 8
  | 2 | 3 => 16
  | _ => 4

/-- The numbers by which a packet goes on: a chase at another MSE, a move whose range is frozen, a ROWGET whose words are on their way. No OP
has them. -/
def chaseOn : Nat := 260
def moveOn : Nat := 267
def getOn : Nat := 266

/-- The bytes that a packet reads or writes at its target. -/
def Packet.bytes (p : Packet) : Nat := if p.op = chaseOn then 8 else if p.op ≤ 6 then packetUnit p.op else 4 * p.len

/-- The bytes that a packet reads or writes at its A (R223). -/
def Packet.aBytes (p : Packet) : Nat :=
  match p.op with
  | 2 => 8
  | 7 => p.len * (if p.sub = 0 then 4 else 2)
  | 9 | 10 | 11 | 266 | 267 => 4 * p.len
  | _ => 0

/-- The bytes of an operation at its place. -/
def Op.span (o : Op) : Nat :=
  match o.work with
  | .load t _ _ => typeBytes t.toNat
  | .ldw t => typeBytes t.toNat
  | .ragged t _ _ _ got _ _ => if got.isEmpty then 32 else if got.length < 3 then 8 else if got.length < 5 then 4 else typeBytes t.toNat
  | .store n _ => n
  | .stw t _ => typeBytes t.toNat
  | .stm _ n _ => n
  | .atomic op t _ _ => if op = .ladd then 8 else atomBytes op t.toNat
  | .packet p => min p.bytes (2 ^ 16 - o.va % 2 ^ 16)
  | .put _ l => 4 * l.length
  | _ => 4

/-- Two operations of one issuer meet where their locations stand now, though one was sent to where they stood before (R346). -/
def State.meetsNow (s : State) (a b : Op) : Bool :=
  match a.place, b.place with
  | .home _, .home _ =>
    let x := s.placed? a.pa
    let y := s.placed? b.pa
    (x != a.pa || y != b.pa) && decide (x < y + b.span ∧ y < x + a.span)
  | _, _ => false

/-- Two operations meet at a location. -/
def Op.meets (a b : Op) : Bool := a.place = b.place && decide (a.pa < b.pa + b.span ∧ b.pa < a.pa + a.span)

/-- A packet meets an operation at its A. -/
def Op.reaches (x o : Op) : Bool :=
  match x.work, o.work, o.place with
  | .packet _, .put _ _, _ => false
  | .packet p, _, .home _ => decide (p.a < o.va + o.span ∧ o.va < p.a + p.aBytes)
  | _, _, _ => false

/-- The dwords that a chase from a pointer would read now, where they stand. -/
def State.chaseNodes (s : State) (row ctx b : Nat) : Nat → Nat → List Nat
  | 0, _ => []
  | n + 1, ptr =>
    let va := (ptr + b) % 2 ^ 64
    if ptr = 0 ∨ va % 8 != 0 then [] else
    match s.walk row ctx va false with
    | .error _ => []
    | .ok l =>
      match (if l.attr = 3 then none else s.region l.pa) with
      | some (.home _) => s.standsAt l.pa 8 :: s.chaseNodes row ctx b n (s.readNow l.pa 8)
      | _ => []

/-- The nodes that a queue packet or a chase would reach now, where they stand (R454). -/
def State.nodesOf (s : State) (o : Op) (p : Packet) : List Nat :=
  let row := rowOf o.cluster
  let at' (va : Nat) : Option Nat := match s.walk row o.ctx va false with
    | .ok l => if l.attr = 3 then none else some (s.standsAt l.pa 8)
    | .error _ => none
  match p.op with
  | 2 => [p.a, s.readNow (o.pa + 8) 8].filterMap at'
  | 3 => [s.readNow o.pa 8].filterMap at'
  | 4 => s.chaseNodes row o.ctx p.b.toNat p.sub (s.readNow o.pa 8)
  | 260 => s.chaseNodes row o.ctx p.b.toNat p.sub p.a
  | _ => []

/-- A packet meets an operation at a node. -/
def State.nodesMeet (s : State) (x o : Op) : Bool :=
  match x.place, x.work, o.place with
  | .home _, .packet p, .home _ =>
    let a := s.placed? o.pa
    (s.nodesOf x p).any fun n => decide (n < a + o.span ∧ a < n + 8)
  | _, _, _ => false

def Op.isStore (o : Op) : Bool := match o.work with | .store _ _ => true | _ => false
def Op.isAtomic (o : Op) : Bool := match o.work with | .atomic _ _ _ _ => true | _ => false

/-- Two atomics reach one bank in one core cycle: slots issue in ascending order there (R204). -/
def State.sameCycle (s : State) (x o : Op) : Bool :=
  x.isAtomic && (match o.place with | .pad _ => true | _ => false) && x.cluster = o.cluster && x.batch != o.batch
    && (s.row (rowOf o.cluster)).cycleAt x.sentAt = (s.row (rowOf o.cluster)).cycleAt o.sentAt

/-- The operations that are applied before one that meets them: the earlier ones of its issuer (R284), the stores of its instruction by
threads of lower tid, and what lower slots have sent to its bank in the same core cycle (R204). -/
def State.earlier (s : State) (k : Nat) (o : Op) : List Nat :=
  (s.ops.filter fun (n, x) => x.stage != .performed && x.stage != .txn
    && (x.meets o && (decide (n < k) && (x.issuer = o.issuer || s.sameCycle x o)
        || x.batch = o.batch && x.isStore && o.isStore && decide (x.tid.toNat < o.tid.toNat))
      || decide (n < k) && x.issuer = o.issuer && (x.reaches o || s.meetsNow x o || s.nodesMeet x o))).map fun (n, _) => n

/-! Bank atomic units (R204, R217, R220). -/

/-- The bits of n bytes of a scratchpad, or the token of a tagged word. -/
def Group.padRaw (gr : Group) (n addr : Nat) : Except Word Nat :=
  let w := get gr.pad (addr / 4) Tw.zero
  if w.tag then .error w.val
  else if n = 8 then
    let h := get gr.pad (addr / 4 + 1) Tw.zero
    if h.tag then .error h.val else .ok (w.val.toNat + h.val.toNat * 2 ^ 32)
  else .ok (w.val.toNat / 2 ^ (8 * (addr % 4)) % 2 ^ (8 * n))

/-- The result of an atomic at its place: a token where the target is poisoned (R93), else the value, with its flags (R72, R221). -/
def State.atomDone (s : State) (k : Nat) (o : Op) (type : Nat) (r : Except Word (Nat × Word)) : State :=
  let wide := match o.dst with | .reg _ w => w | .queue _ w => w | _ => false
  match r with
  | .error tok =>
    let s := if o.dst = .none then s.msx o.ctx msxPTGT (some (tokCode tok)) else s
    s.setOp k { o with stage := .performed, reply := tokOut wide (token (tokCode tok) (originOf o.pc)) }
  | .ok (v, f) =>
    let s := if o.dst = .none ∧ f != 0 then s.msx o.ctx (f.toNat % 32) else s
    s.setOp k { o with stage := .performed, reply := loadOut type v, flags := f.extractLsb' 0 5 }

/-- One operation at its bank. A tagged word's own token is what a returning form receives. -/
def State.bankOne (s : State) (k : Nat) : State :=
  match find s.ops k with
  | none => s
  | some o =>
    match o.place, o.work with
    | .pad g, .atomic op type x c =>
      let n := atomBytes op type.toNat
      match (match s.group? g with | some gr => gr.padRaw n o.pa | none => .ok 0) with
      | .error t =>
        let s := if o.dst = .none then s.msx o.ctx msxPTGT (some (tokCode t)) else s
        s.setOp k { o with stage := .performed, reply := tokOut (decide (n = 8)) t }
      | .ok m =>
        let (m', v, f) := atomVal op type.toNat m (x.toNat % 2 ^ (8 * n)) (c.toNat % 2 ^ (8 * n)) 0
        (s.padStore g n o.pa (BitVec.ofNat 64 m')).atomDone k o type.toNat (.ok (v, f))
    | .pad g, .count _ _ =>
      match (match s.group? g with | some gr => gr.padRaw 4 o.pa | none => .ok 0) with
      | .error t => (s.msx o.ctx msxPTGT (some (tokCode t))).setOp k { o with stage := .performed }
      | .ok m => (s.padStore g 4 o.pa (BitVec.ofNat 64 (m + 1))).setOp k { o with stage := .performed }
    | _, _ => s

/-- The operations of one instruction at one location, in ascending tid order (R71). -/
def State.batchOf (s : State) (o : Op) : List (Nat × Op) :=
  sortBy (fun (a b : Nat × Op) => decide (a.2.tid.toNat ≤ b.2.tid.toNat))
    (s.ops.filter fun (_, x) => x.batch = o.batch && x.place = o.place && x.pa = o.pa && x.stage != .performed && x.stage != .txn)

def State.bankBatch (s : State) (o : Op) : State := (s.batchOf o).foldl (fun s x => s.bankOne x.1) s

/-- The banks apply a thread's earlier operations on a word before its next access to it (R284). -/
def State.flushBank (s : State) (k : Nat) (o : Op) : State :=
  (s.earlier k o).foldl (fun s n => match find s.ops n with | some x => s.bankBatch x | none => s) s

/-! STM (R211, R212, R317). -/

def bitNames (mask : Nat) (l : List Nat) : List Nat := (l.zipIdx.filter fun x => bit mask x.2).map fun x => x.1

/-- The groups of an ensemble that a mask names, on one cluster, and the mask without them. -/
def stmSplit (groups : List Nat) (mask cluster : Nat) : List Nat × Nat :=
  ((bitNames mask groups).filter fun g => g / 2048 = cluster,
    (groups.zipIdx.filter fun x => bit mask x.2 && x.1 / 2048 != cluster).foldl (fun m x => m + 2 ^ x.2) 0)

/-- The groups of a group's ensemble, in ascending index. -/
def State.ensGroups (s : State) (g : Nat) : List Nat :=
  match s.group? g with
  | some gr => (match find s.ensembles gr.ens with | some e => e.groups | none => [])
  | none => []

/-- The copies of an STM for one cluster, in ascending index; with its last copy it is performed. -/
def State.stmWrite (s : State) (k : Nat) (o : Op) (cluster : Nat) : State :=
  match o.place, o.work with
  | .pad g, .stm mask n v =>
    let (gs, rest) := stmSplit (s.ensGroups g) mask cluster
    let s := gs.foldl (fun s x => s.padStore x n o.pa v) s
    s.setOp k { o with work := .stm rest n v, stage := if rest = 0 then .performed else o.stage }
  | _, _ => s

/-- Apply an operation that its scratchpad takes at issue: a load or a store. -/
def State.padApply (s : State) (k : Nat) : State :=
  match find s.ops k with
  | none => s
  | some o =>
    let s := s.flushBank k o
    match o.place, o.work with
    | .pad g, .load type _ _ =>
      let v := match s.group? g with | some gr => gr.padLoad type.toNat o.pa | none => []
      s.setOp k { o with stage := .performed, reply := v, seen := some (Clock.zero, none) }
    | .pad g, .store n v => (s.padStore g n o.pa v).modOp k fun o => { o with stage := .performed }
    | .pad _, .stm _ _ _ => s.stmWrite k o o.cluster
    | _, _ => s

/-! Mirrors (spec/15 R346). -/

/-- A load on the cluster of a mirror reads the newer range there; one that finds only onward mirrors goes to that cluster's MSE, by the
latest of them. -/
def State.mirrorAim (s : State) (cluster : Nat) (aim : Aim) : Aim :=
  match aim with
  | .at (.home c) va pa attr =>
    let on (f : Forward) : Bool := decide (f.base ≤ pa ∧ pa < f.base + f.bytes)
    let ms := (s.cluster cluster).mirrors
    match (match ms.find? fun f => !f.onward && on f with | some f => some f | none => (ms.filter on).getLast?) with
    | some f => .at (.home cluster) va (if f.onward then pa else f.dst + (pa - f.base)) attr
    | none => .at (.home c) va pa attr
  | x => x

/-! The operation of one lane. -/

def dieOfPlace (p : Place) : Option Nat := match p with | .home c => some (dieOf c) | _ => none

/-- The stamp of a leaving operation (R294): a thread sends at most one in a network cycle. -/
def State.leaveStamp (s : State) (t : Thread) (cluster : Nat) (p : Place) (writes : Bool) : Option Nat :=
  match dieOfPlace p with
  | some d => if writes && d != dieOf cluster then some (max s.nc (t.vc.get (dieOf cluster) + 1)) else none
  | none => none

/-- Make the destination of a lane's operation pending (R48). -/
def Thread.pendDst (t : Thread) (d : Dest) (op cls : Nat) : Thread :=
  match d with
  | .reg r wide => if wide then (t.pend r op cls).pend (nextReg r 1) op cls else t.pend r op cls
  | _ => t

/-- The recovery address that a recoverable code leaves (R398, R417). -/
def Thread.noteFault (t : Thread) (code va : Nat) (a : Access) : Thread :=
  match code with
  | 1 => { t with rec1 := some (va, a) }
  | 2 => { t with rec2 := some (va, a) }
  | 3 => { t with rec3 := some va }
  | _ => t

/-- The read of a load that the caches serve, with what its policy installs (R208). -/
def Work.onPage (w : Work) (attr : BitVec 3) : Work :=
  match w with
  | .load t c i => .load t (c && attr = 2) (i && attr = 2)
  | .ragged t item grp off got _ i => .ragged t item grp off got (attr = 2) i
  | x => x

/-- Send the operation of one lane. -/
def State.sendOne (s : State) (w : Warp) (m : MemDo) (batch : Nat) (a : Ask) : State × Nat :=
  let (k, s) := s.fresh
  let l := a.lane
  match s.thread? l.key with
  | none => (s, k)
  | some t =>
    let d := m.dst.dest w.slice
    let wide := match d with | .reg _ x => x | .queue _ x => x | _ => false
    let t := if l.acts then t.killRegs (m.srcs.flatMap Src.kills) else t
    let base := Thread.operation w l.key t batch m.cls (m.work a.vals) .window s.now
    let done (tok : Word) : State :=
      (s.setThread l.key ((t.count m.cls).pendDst d k m.cls)).setOp k { base with dst := d, stage := .performed, reply := tokOut wide tok }
    match l.badTok, a.aim with
    | some g, _ => (done g, k)
    | none, .tok g => (done g, k)
    | none, .code c =>
      let va := (m.addr a.vals).bits.toNat
      ((done (token c w.origin)).modThread l.key fun t => t.noteFault c va .read, k)
    | none, .at p va pa attr =>
      let cls := match p with | .peer _ | .fabric _ => 4 | _ => m.cls
      let stamp := s.leaveStamp t w.cluster p m.writes
      let rel := if m.writes then stampOf t m.scope a.eff.1 p else none
      let t' := (t.count cls).pendDst d k cls
      let t' := if a.eff.2 then t'.flag SDROP else t'
      let t' := match stamp with | some n => { t' with vc := t'.vc.set (dieOf w.cluster) n } | none => t'
      let o := { base with cls := cls, place := p, va := va, pa := pa, dst := d, stamp := stamp, scope := BitVec.ofNat 4 m.scope
                           order := BitVec.ofNat 3 a.eff.1, rel := rel, sentAt := max s.now (stamp.getD 0 * 24)
                           kills := if m.travels && l.acts then m.srcs.flatMap Src.kills else [] }
      let o := { o with work := o.work.onPage attr }
      let s := (s.setThread l.key t').setOp k o
      let hit := if attr = 2 ∧ m.cached then s.heldLine w.cluster pa else none
      match hit, o.work with
      | some line, .load type _ install =>
        ((s.keepLine w.cluster install line).setOp k { o with stage := .performed, reply := line.read type.toNat pa w.origin, seen := some (s.stampAt pa), done := 1 }, k)
      | _, _ => ((s.depart k).padApply k, k)
    | none, .miss _ => (s, k)
    | none, .ats _ => (s, k)

/-- Wait in the slot for the walks and the host's answers that an instruction needs (R200, R397). -/
def State.seek (s : State) (w : Warp) (granules hosts : List Nat) (write : Bool) : State :=
  let s := granules.foldl (fun s g => s.stallFor (rowOf w.cluster) w.ctx g w.user) s
  (hosts.foldl (fun s va => s.askAts w.ctx va write w.user) s).waitWalk w.user

/-- What each executing lane asks of memory: its address's aim and its values. -/
def State.memAsks (s : State) (w : Warp) (m : MemDo) : List Ask :=
  w.executing.map fun l =>
    let vals := s.sourceVals w m.srcs l
    let aim := match m.special with
      | some g => g s w vals
      | none => if m.pad then s.aimPad w m.align m.size (m.addr vals)
                else s.aim w m.align (if m.writes then .write else .read) (m.addr vals)
    let aim := if m.mirrors then s.mirrorAim w.cluster aim else aim
    let aim := match aim with
      | .at p _ _ attr => if m.takes p attr then aim else .code 0x10
      | x => x
    let eff := match aim with
      | .at p _ _ _ => if m.late && 2 ≤ m.order && m.scope != 0 then (m.order, false) else effectiveOrder m.scope m.order w.cluster p
      | _ => (0, false)
    let goes := m.travels && l.acts && l.t.group.isNone && l.t.txn.isNone && !(s.ctx w.ctx).fetchMode
      && (match aim with | .at (.home c) _ _ attr => attr = 1 && c != w.cluster | .at (.peer _) _ _ attr => attr = 1 | _ => false)
    ⟨l, aim, vals, eff, goes⟩

/-- What is raised: a tagged guard, address or data, or the code of a store's or an atomic's address (R90, R94, R99). -/
def State.memRaises (s : State) (w : Warp) (m : MemDo) : List (Lane × Word × Nat) :=
  if m.loads then [] else (s.memAsks w m).filterMap fun a =>
    match a.lane.badTok, a.aim with
    | some k, _ => some (a.lane, k, 0x0A)
    | none, .tok k => some (a.lane, k, 3)
    | none, .code c => some (a.lane, token c w.origin, 3)
    | none, _ => (m.data a.vals).map fun k => (a.lane, k, 2)

/-- The lanes whose operation is sent: those that raise nothing and do not travel. -/
def State.memSends (s : State) (w : Warp) (m : MemDo) : List Ask :=
  (s.memAsks w m).filter fun a => !a.goes && !((s.memRaises w m).any fun r => r.1.v = a.lane.v)

/-- The class of an operation (R203). -/
def Ask.cls (m : MemDo) (a : Ask) : Nat := match a.aim with | .at (.peer _) _ _ _ => 4 | .at (.fabric _) _ _ _ => 4 | _ => m.cls

/-- What keeps a memory instruction in its slot: a fault at issue, an acquire before it (R300), queues (R39), walks (R200), releases
(R299, R301), a full class (R203). -/
def State.memWait (s : State) (w : Warp) (m : MemDo) : Option State :=
  let push := m.dst.push w.slice
  if (m.pad && w.group.isNone) || (w.queues m.srcs m.dst).any (fun q => !s.queueExists w q) || w.missingBlock m.dst then some (s.issueFault w) else
  if w.acting.any fun l => s.acquirePending l.key then some (s.stall w 16) else
  if !(s.takePops w m.srcs).2.2.2 then some (s.stall w 2) else
  let asks := s.memAsks w m
  let misses := asks.filterMap fun a => match a.lane.acts, a.aim with | true, .miss va => some (granule va) | _, _ => none
  let hosts := asks.filterMap fun a => match a.lane.acts, a.aim with | true, .ats va => some va | _, _ => none
  if !misses.isEmpty || !hosts.isEmpty then some (s.seek w misses hosts m.writes) else
  let sends := s.memSends w m
  if sends.any fun a => decide (2 ≤ a.eff.1) && s.releasePending a.lane.key then some (s.stall w 15) else
  if sends.any fun a => (a.eff.1 = 3 || a.eff.1 = 4) && !s.releaseReady a.lane.key w.cluster a.lane.t.vc m.scope m.pad then
    some (s.stall w 15) else
  if sends.any fun a => decide (255 ≤ s.outstanding a.lane.key (a.cls m)) then some (s.stall w 5) else
  let room := match push with
    | some (q, wide) => sends.isEmpty || (s.takePops w m.srcs).1.roomFor w q (sends.length * (if wide then 2 else 1))
    | none => true
  if !room then some (s.stall w 3) else
  if (push.map fun x => x.1) = some 14 ∧ !(w.acting.all fun l => s.releaseReady l.key w.cluster l.t.vc 7 false) then some (s.stall w 15)
  else none

/-- The atomics of one instruction leave together, in the network cycle of the last (R71, R294). -/
def State.together (s : State) (batch : Nat) : State :=
  let mine (o : Op) : Bool := o.batch = batch && o.isAtomic
  let last := s.ops.foldl (fun n (_, o) => if mine o then max n o.sentAt else n) 0
  { s with ops := mapVals (fun _ o => if mine o then { o with sentAt := last } else o) s.ops }

/-- The operations of a memory instruction are sent, in ascending lane: the state, and each lane with its operation. -/
def State.memSend (s : State) (w : Warp) (m : MemDo) : State × List (Lane × Nat) :=
  let s1 := s.popped w m.srcs (w.quiet (s.memRaises w m))
  let s2 := (s.memAsks w m).foldl (fun s a => if m.loads then s else match a.aim with
    | .code c => s.modThread a.lane.key fun t => t.noteFault c (m.addr a.vals).bits.toNat (if m.writes then .write else .read)
    | _ => s) s1
  let (batch, s2) := s2.fresh
  let (s3, ks) := (s.memSends w m).foldl (fun (s, ks) a => let (s', k) := s.sendOne w m batch a; (s', ks ++ [(a.lane, k)])) (s2, [])
  (s3.together batch, ks)

/-- A lane that travels waits for its departure (R206). -/
def State.travelAway (s : State) (w : Warp) (h : Head) (m : MemDo) (a : Ask) : State :=
  if !a.goes then s else
  match a.aim with
  | .at p va pa _ =>
    let (pkg, c) : Option Nat × Nat := match p with | .peer q => (some q, fld pa 39 30) | .home c => (none, c) | _ => (none, 0)
    s.modThread a.lane.key fun t => t.enter s.now .waiting 0x1D (.depart
      { pkg := pkg, cluster := c, migr := false, pc := w.pc, resume := w.after h, hold := h.cue = 2, va := va, pa := pa
        type := m.type, dst := (match m.dst with | .reg r _ => r | _ => 0xF0), order := BitVec.ofNat 3 m.order
        scope := BitVec.ofNat 4 m.scope, kills := if a.lane.acts then m.srcs.flatMap Src.kills else [] })
  | _ => s

/-- After a memory instruction that waits for nothing. -/
def State.memDone (s : State) (w : Warp) (h : Head) (m : MemDo) : State :=
  let (s3, ks) := s.memSend w m
  let s4 := match m.dst.push w.slice with | some (q, wide) => s3.reserve w q wide ks | none => s3
  let s5 := (s.memAsks w m).foldl (fun s a => s.travelAway w h m a) s4
  let raises := s.memRaises w m
  if raises.isEmpty then
    let s6 := s5.step1 w h
    if m.travels then ks.foldl (fun s (l, k) => s.modThread l.key fun t => { t with last := some k }) s6 else s6
  else (s5.raiseLanes w raises).step1 w h true

/-- Run a memory instruction (R199 to R203). -/
def runMemory (s : State) (h : Head) (m : MemDo) : Res :=
  match s.warp h with
  | none => .refused .noWarp
  | some w =>
    match s.memWait w m with
    | some t => .next t
    | none => .next (s.memDone w h m)

end Sys2Proof.Machine
end

