-- ==== Sys2Proof/Machine/Loads.lean ====
section
/-! DEFINITION. Loads and stores of memory (spec/08 R205 to R209), of scratchpad (R210 to R212), of the register window (R213,
R214), and the ragged load (R215, R216). -/

namespace Sys2Proof.Machine

def valAt (vs : List Val) (n : Nat) : Val := vs.getD n (.dat 0)

/-- The address of R120 from the base and index among the sources. -/
def dmAddr (f : DMForm) (vs : List Val) : Val := dmSum (dmSize f) f.offset (valAt vs 0) (valAt vs 1)

/-- A load of a DM form. -/
def loadDo (f : DMForm) (pad travels : Bool) : MemDo :=
  { srcs := [if pad then padBase f else dmBase f, dmIndex f], dst := .reg f.d (dmWide f), align := dmSize f, size := dmSize f, pad := pad
    loads := true, writes := false, cls := 0, scope := f.scope.toNat, order := f.order.toNat, addr := dmAddr f
    data := fun _ => none, work := fun _ => .load f.type true (f.cache != 1), takes := fun _ _ => true, travels := travels
    type := f.type, cached := !pad }

/-- The data of a store: its d field. -/
def storeSrc (f : DMForm) : Src := if dmWide f then .pair f.d false else .reg f.d false 0 0

def storeDo (f : DMForm) (pad : Bool) : MemDo :=
  { srcs := [if pad then padBase f else dmBase f, dmIndex f, storeSrc f], dst := .none, align := dmSize f, size := dmSize f, pad := pad
    loads := false, writes := true, cls := 3, scope := f.scope.toNat, order := f.order.toNat, addr := dmAddr f
    data := fun vs => (valAt vs 2).tok?, work := fun vs => .store (dmSize f) (valAt vs 2).bits, takes := fun _ _ => true
    travels := false, type := f.type }

def execLdDm (f : DMForm) (s : State) : Res := runMemory s (dmHead f) { loadDo f false true with mirrors := true }
def execLdfDm (f : DMForm) (s : State) : Res :=
  runMemory s (dmHead f) { loadDo f false false with mirrors := true }
def execLdsDm (f : DMForm) (s : State) : Res := runMemory s (dmHead f) (loadDo f true false)
def execStDm (f : DMForm) (s : State) : Res := runMemory s (dmHead f) (storeDo f false)
def execStsDm (f : DMForm) (s : State) : Res := runMemory s (dmHead f) (storeDo f true)

/-! STM (R211, R212). -/

/-- The offset into the mirrored window: bits [15:0] of the base with the index and offset terms of R120. -/
def stmOffset (f : DMForm) (vs : List Val) : Val :=
  match valAt vs 0 with
  | .tok k => .tok k
  | .dat b => dmSum (dmSize f) f.offset (.dat (BitVec.ofNat 64 (b.toNat % 2 ^ 16))) (valAt vs 1)

def stmMask (vs : List Val) : Nat := fld (valAt vs 0).bits.toNat 31 16

def stmAim (f : DMForm) (s : State) (w : Warp) (vs : List Val) : Aim :=
  match stmOffset f vs, w.group with
  | .tok k, _ => .tok k
  | .dat _, none => .code 0x10
  | .dat o, some g =>
    let n := o.toNat
    let win := match s.group? g with | some gr => gr.mirror | none => 0
    if n % dmSize f != 0 then .code 0x12
    else if win < n + dmSize f then .code 0x10
    else if 2 ^ (s.ensGroups g).length ≤ stmMask vs then .code 0x10
    else .at (.pad g) n n 0

def execStmDm (f : DMForm) (s : State) : Res :=
  runMemory s (dmHead f) { storeDo f true with
    addr := stmOffset f
    work := fun vs => .stm (stmMask vs) (dmSize f) (valAt vs 2).bits
    special := some (stmAim f) }

/-! The register window: the coordinate is not translated (R213). -/

def windowAim (f : DMForm) (_ : State) (_ : Warp) (vs : List Val) : Aim :=
  match dmAddr f vs with
  | .tok k => .tok k
  | .dat a => if a.toNat % dmSize f != 0 then .code 0x12 else .at .window a.toNat a.toNat 0

def execLdwDm (f : DMForm) (s : State) : Res :=
  runMemory s (dmHead f) { loadDo f false false with work := fun _ => .ldw f.type, cached := false, special := some (windowAim f) }

def execStwDm (f : DMForm) (s : State) : Res :=
  runMemory s (dmHead f) { storeDo f false with work := fun vs => .stw f.type (valAt vs 2).bits, special := some (windowAim f) }

/-! LDG: the operation starts at the record; what follows is read from there (R216). -/

def ldgAddr (vs : List Val) : Val :=
  match valAt vs 0, valAt vs 1 with
  | .tok k, _ => .tok k
  | _, .tok k => .tok k
  | b, _ => b

def execLdgDm (f : DMForm) (s : State) : Res :=
  runMemory s (dmHead f) { loadDo f false false with
    srcs := [dmBase f, .pair f.index false]
    align := 32
    late := true
    addr := ldgAddr
    work := fun vs =>
      let x := (valAt vs 1).bits
      .ragged f.type (lo32 x) (hi32 x) f.offset.toInt [] false (f.cache != 1) }

end Sys2Proof.Machine
end

