-- ==== Sys2Proof/Machine/Atomics.lean ====
section
/-! DEFINITION. Atomic operations at issue: ATOM, ATOMS, RED (spec/08 R217, R218), ATOMQ (R219), PMAX (R220). -/

namespace Sys2Proof.Machine

/-- The operations of R218 that a host performs. -/
def hostAtomic (op : AtomOp) : Bool :=
  match op with
  | .add | .xchg | .cas => true
  | _ => false

/-- The targets of R218; `q` is an ATOMQ. -/
def atomTakes (op : AtomOp) (q : Bool) (p : Place) (attr : BitVec 3) : Bool :=
  match p with
  | .home _ => attr = 1
  | .peer _ => true
  | .cxl _ => !q
  | .host | .hostRaw => !q && hostAtomic op
  | _ => false

/-- base + SignExt(offset) × size (R199). -/
def atomAddr (f : DMForm) (vs : List Val) : Val := dmSum (dmSize f) f.offset (valAt vs 0) (.dat 0)

/-- The data operand: the index field (R121). -/
def atomSrc (f : DMForm) : Src := if dmWide f then .pair f.index false else .reg f.index false 0 0

/-- An atomic: `pad` for one in scratchpad, `align` for its address. A compare reads d before it is written (R217). -/
def atomDo (f : DMForm) (op : AtomOp) (pad q : Bool) (align : Nat) : MemDo :=
  { srcs := [if pad then padBase f else dmBase f, atomSrc f] ++ (if op = .cas then [storeSrc f] else [])
    dst := .reg f.d (dmWide f), align := align, size := dmSize f, pad := pad, loads := false, writes := true, cls := 3
    scope := f.scope.toNat, order := f.order.toNat, addr := atomAddr f
    data := fun vs => match (valAt vs 1).tok? with | some k => some k | none => if op = .cas then (valAt vs 2).tok? else none
    work := fun vs => .atomic op f.type (valAt vs 1).bits (valAt vs 2).bits
    takes := fun p attr => pad || atomTakes op q p attr, travels := false, type := f.type }

def execAtomAdd (f : DMForm) (s : State) : Res := runMemory s (dmHead f) (atomDo f .add false false (dmSize f))
def execAtomMin (f : DMForm) (s : State) : Res := runMemory s (dmHead f) (atomDo f .min false false (dmSize f))
def execAtomMax (f : DMForm) (s : State) : Res := runMemory s (dmHead f) (atomDo f .max false false (dmSize f))
def execAtomAnd (f : DMForm) (s : State) : Res := runMemory s (dmHead f) (atomDo f .and false false (dmSize f))
def execAtomOr (f : DMForm) (s : State) : Res := runMemory s (dmHead f) (atomDo f .or false false (dmSize f))
def execAtomXor (f : DMForm) (s : State) : Res := runMemory s (dmHead f) (atomDo f .xor false false (dmSize f))
def execAtomXchg (f : DMForm) (s : State) : Res := runMemory s (dmHead f) (atomDo f .xchg false false (dmSize f))
def execAtomCas (f : DMForm) (s : State) : Res := runMemory s (dmHead f) (atomDo f .cas false false (dmSize f))
def execAtomFadd (f : DMForm) (s : State) : Res := runMemory s (dmHead f) (atomDo f .fadd false false (dmSize f))

/-! ATOMQ. -/

def execAtomqBinc (f : DMForm) (s : State) : Res := runMemory s (dmHead f) (atomDo f .binc false true 4)
def execAtomqWinc (f : DMForm) (s : State) : Res := runMemory s (dmHead f) (atomDo f .winc false true 4)
def execAtomqCdec (f : DMForm) (s : State) : Res := runMemory s (dmHead f) (atomDo f .cdec false true 4)
def execAtomqLadd (f : DMForm) (s : State) : Res := runMemory s (dmHead f) (atomDo f .ladd false true 8)

/-! ATOMS. -/

def execAtomsAdd (f : DMForm) (s : State) : Res := runMemory s (dmHead f) (atomDo f .add true false (dmSize f))
def execAtomsMin (f : DMForm) (s : State) : Res := runMemory s (dmHead f) (atomDo f .min true false (dmSize f))
def execAtomsMax (f : DMForm) (s : State) : Res := runMemory s (dmHead f) (atomDo f .max true false (dmSize f))
def execAtomsAnd (f : DMForm) (s : State) : Res := runMemory s (dmHead f) (atomDo f .and true false (dmSize f))
def execAtomsOr (f : DMForm) (s : State) : Res := runMemory s (dmHead f) (atomDo f .or true false (dmSize f))
def execAtomsXor (f : DMForm) (s : State) : Res := runMemory s (dmHead f) (atomDo f .xor true false (dmSize f))
def execAtomsXchg (f : DMForm) (s : State) : Res := runMemory s (dmHead f) (atomDo f .xchg true false (dmSize f))
def execAtomsCas (f : DMForm) (s : State) : Res := runMemory s (dmHead f) (atomDo f .cas true false (dmSize f))
def execAtomsFadd (f : DMForm) (s : State) : Res := runMemory s (dmHead f) (atomDo f .fadd true false (dmSize f))

/-! RED: the atomic of the same operation with d = 0xF0, which its encoding holds (R121). -/

def execRedAdd (f : DMForm) (s : State) : Res := runMemory s (dmHead f) (atomDo f .add false false (dmSize f))
def execRedMin (f : DMForm) (s : State) : Res := runMemory s (dmHead f) (atomDo f .min false false (dmSize f))
def execRedMax (f : DMForm) (s : State) : Res := runMemory s (dmHead f) (atomDo f .max false false (dmSize f))
def execRedAnd (f : DMForm) (s : State) : Res := runMemory s (dmHead f) (atomDo f .and false false (dmSize f))
def execRedOr (f : DMForm) (s : State) : Res := runMemory s (dmHead f) (atomDo f .or false false (dmSize f))
def execRedXor (f : DMForm) (s : State) : Res := runMemory s (dmHead f) (atomDo f .xor false false (dmSize f))
def execRedFadd (f : DMForm) (s : State) : Res := runMemory s (dmHead f) (atomDo f .fadd false false (dmSize f))

/-! PMAX: an 8-byte dword of the scratchpad. -/

def execPmaxDm (f : DMForm) (s : State) : Res := runMemory s (dmHead f) (atomDo f .pmax true false 8)

end Sys2Proof.Machine
end

