-- ==== Sys2Proof/Machine/LaneCross.lean ====
section
/-! DEFINITION. Cross-lane and poison instructions (spec/06 R159 to R166, spec/04 R91). -/

namespace Sys2Proof.Machine

/-- An input of a cross-lane instruction: the guard's token stands for each input of a thread with a tagged guard (R91). -/
def LaneIn.input (i : LaneIn) (n : Nat) : Val :=
  match i.bad with
  | some k => .tok k
  | none => i.ins.getD n (.dat 0)

/-- The token of the lowest-tid thread with a tagged input; the lanes stand in ascending tid (R30). -/
def firstTok (ls : List LaneIn) : Option Word := ls.findSome? LaneIn.poison

/-- The same result for every executing thread, or the first token (R91). -/
def allLanes (ls : List LaneIn) (v : LaneIn → Dword) : List LaneOut :=
  match firstTok ls with
  | some k => ls.map fun _ => .one (.tok k)
  | none => ls.map fun i => .one (.dat (v i))

/-! SHFL (R159). -/

def shflLane (tid : Bool) (ls : List LaneIn) : List LaneOut :=
  ls.map fun i =>
    match i.input 1 with
    | .tok k => .one (.tok k)
    | .dat sel =>
      match ls.find? fun x => if tid then zx x.tid = sel else BitVec.ofNat 64 x.v = sel with
      | some x => .one (x.input 0)
      | none => .one (i.input 2)

def execShflD (f : DForm) (s : State) : Res :=
  runLane s (dHead f) [s1of f, s2w f, s3of f] (dstOf (mTy f) f.d) false (shflLane (f.mod.getLsbD 0))

/-! BALLOT, AGREE (R160). -/

/-- One bit for each lane that p accepts. -/
def laneMask (ls : List LaneIn) (p : LaneIn → Bool) : Dword :=
  BitVec.ofNat 64 (ls.foldl (fun a i => a + b2n (p i) * 2 ^ i.v) 0)

def LaneIn.holds (i : LaneIn) : Bool := (i.input 0).bits != 0

def ballotLane (ls : List LaneIn) : List LaneOut := allLanes ls fun _ => laneMask ls LaneIn.holds

def execBallotD (f : DForm) (s : State) : Res :=
  runLane s (dHead f) [.pred (predNo f.s1)] (.reg f.d false) false ballotLane

def agreeLane (sub : Nat) (ls : List LaneIn) : List LaneOut :=
  allLanes ls fun _ => boolOut (match sub with
    | 0 => ls.all LaneIn.holds
    | 1 => ls.any LaneIn.holds
    | _ => ls.all LaneIn.holds || !ls.any LaneIn.holds)

def execAgreeD (f : DForm) (s : State) : Res :=
  runLane s (dHead f) [.pred (predNo f.s1)] (.pred (predNo f.d)) false (agreeLane (WellFormed.mSub f).toNat)

/-! VRED, VPFX (R70, R161). -/

/-- A node of the tree: a value and the flags of the nodes below it. -/
abbrev Node := Val × Word

def treeOp (f : Dword → Dword → Dword × Word) (a b : Node) : Node :=
  match a.1, b.1 with
  | .tok k, _ => (.tok k, a.2 ||| b.2)
  | _, .tok k => (.tok k, a.2 ||| b.2)
  | .dat x, .dat y => let r := f x y; (.dat r.1, a.2 ||| b.2 ||| r.2)

def treeLevel (f : Dword → Dword → Dword × Word) : List Node → List Node
  | a :: b :: r => treeOp f a b :: treeLevel f r
  | l => l

/-- Tree (R70): five levels join 32 values. -/
def tree (f : Dword → Dword → Dword × Word) (l : List Node) : Node :=
  ((List.range 5).foldl (fun l _ => treeLevel f l) l).headD (.dat 0, 0)

/-- The operation of a node (R161). -/
def redFn (t sub mode : Nat) : Fn :=
  if t < 8 then (match sub with | 0 => fnAdd t false | 1 => fnMin t | 2 => fnMax t | 3 => fnAnd t | 4 => fnOr t | _ => fnXor t)
  else match sub with | 0 => fnFadd (fmtOf t) mode | 1 => fnFmin (fmtOf t) | _ => fnFmax (fmtOf t)

def redOp (t sub mode : Nat) (z : Bool) (x y : Dword) : Dword × Word := redFn t sub mode z [x, y]

def nodeOut (n : Node) : LaneOut := match n.1 with | .tok k => .one (.tok k) | .dat v => .one (.dat v) n.2

def vredLane (t sub mode : Nat) (ls : List LaneIn) : List LaneOut :=
  let r := tree (redOp t sub mode (ls.any fun i => i.ftz)) (ls.map fun i => (i.input 0, 0))
  ls.map fun _ => nodeOut r

def vpfxLane (t sub mode : Nat) (ls : List LaneIn) : List LaneOut :=
  let nodes : List Node := ls.map fun i => (i.input 0, 0)
  (List.range ls.length).map fun j => nodeOut (tree (redOp t sub mode (ls.any fun i => i.ftz)) (nodes.take (j + 1)))

def execVredD (f : DForm) (s : State) : Res :=
  runLane s (dHead f) [s1of f] (dstOf (mTy f) f.d) true (vredLane (mTyN f) (WellFormed.mSub f).toNat (dRnd f))
def execVpfxD (f : DForm) (s : State) : Res :=
  runLane s (dHead f) [s1of f] (dstOf (mTy f) f.d) true (vpfxLane (mTyN f) (WellFormed.mSub f).toNat (dRnd f))

/-! MATCH, CONFL, XSECT (R162, R163). -/

def matchLane (ls : List LaneIn) : List LaneOut :=
  allLanes ls fun i => laneMask ls fun x => x.input 0 = i.input 0

def execMatchD (f : DForm) (s : State) : Res := runLane s (dHead f) [s1of f] (.reg f.d false) false matchLane

def conflLane (ls : List LaneIn) : List LaneOut :=
  allLanes ls fun _ => laneMask ls fun x => ls.any fun y => decide (y.v < x.v) && y.input 0 = x.input 0

def execConflD (f : DForm) (s : State) : Res := runLane s (dHead f) [s1of f] (.reg f.d false) false conflLane

/-- Strictly ascending. -/
def ascending : List Int → Bool
  | a :: b :: r => decide (a < b) && ascending (b :: r)
  | _ => true

def xsectLane (t : Nat) (ls : List LaneIn) : List LaneOut :=
  let as' := ls.map fun i => iarg t [(i.input 0).bits] 0
  let bs := ls.map fun i => iarg t [(i.input 1).bits] 0
  let m := min (as'.getLastD 0) (bs.getLastD 0)
  let count (l : List Int) : Nat := (l.filter fun x => decide (x ≤ m)).length
  let u := b2n (!(ascending as' && ascending bs))
  let pairs := as'.zipIdx.flatMap fun (a, i) => (bs.zipIdx.filter fun (b, _) => a = b).map fun (_, j) => (i, j)
  let word (r : Nat) : Dword :=
    let (v, ia, ib) := match pairs[r]? with | some (i, j) => (1, i, j) | none => (0, 0, 0)
    BitVec.ofNat 64 (u * 2 ^ 31 + count bs * 2 ^ 24 + count as' * 2 ^ 16 + v * 2 ^ 15 + ib * 2 ^ 8 + ia)
  match firstTok ls with
  | some k => ls.map fun _ => .one (.tok k)
  | none => (List.range ls.length).map fun r => .one (.dat (word r))

def execXsectD (f : DForm) (s : State) : Res :=
  runLane s (dHead f) [s1of f, s2of f] (.reg f.d false) false (xsectLane (mTyN f))

/-! ISPOI, PCLR (R165, R166). -/

def ispoiLane (ls : List LaneIn) : List LaneOut :=
  ls.map fun i =>
    match i.bad with
    | some k => .one (.tok k)
    | none => .one (.dat (boolOut ((i.input 0).tok?).isSome))

def execIspoiD (f : DForm) (s : State) : Res := runLane s (dHead f) [s1f f] (.pred (predNo f.d)) false ispoiLane

def pclrLane (ls : List LaneIn) : List LaneOut :=
  ls.map fun i =>
    match i.bad, i.input 0 with
    | some k, _ => .one (.tok k)
    | none, .dat v => .one (.dat v)
    | none, .tok k => ⟨[i.input 1], 0, some (setPcode (i.tsw ||| PREC) (BitVec.ofNat 8 (tokCode k))), false⟩

def execPclrD (f : DForm) (s : State) : Res := runLane s (dHead f) [s1f f, s2w f] (.reg f.d false) false pclrLane

end Sys2Proof.Machine
end

