-- ==== Sys2Proof/Machine/Sync.lean ====
section
/-! DEFINITION. Waiting and fences (spec/08 R236 to R239, spec/11 R302, R306) and barriers (R240, R241, R303), with the frame that
every instruction which is no lane instruction and no memory access runs in. -/

namespace Sys2Proof.Machine

/-! The frame of control instructions: instruction faults at issue, pops, sources, kills. -/

/-- Run an instruction over the executing threads: `body` receives the warp, the state after pops and kills, which it asks for with what
it raises (R100), and the sources of each executing thread. -/
def control (s : State) (h : Head) (srcs : List Src) (d : Dst) (fault : Warp → Bool)
    (body : Warp → (List (Lane × Word × Nat) → State) → List (Lane × List Val) → Res) : Res :=
  match s.warp h with
  | none => .refused .noWarp
  | some w =>
    match s.barred w srcs d (fault w) with
    | some t => .next t
    | none => body w (fun raises => s.started w srcs (w.quiet raises)) (w.executing.map fun l => (l, s.sourceVals w srcs l))

/-- Raise what is to be raised, and move past the instruction. -/
def State.finish (s : State) (w : Warp) (h : Head) (raises : List (Lane × Word × Nat)) (ends : Bool := false) : Res :=
  if raises.isEmpty then .next (s.step1 w h ends) else .next ((s.raiseLanes w raises).step1 w h true)

/-- The tagged guards, each raised with consumer code 0x0A (R90, R99). -/
def badGuards (w : Warp) : List (Lane × Word × Nat) := w.executing.filterMap fun l => l.badTok.map fun k => (l, k, 0x0A)

/-- An executing thread stands inside, or outside, a fabric transaction (R171). -/
def Warp.someTxn (w : Warp) : Bool := w.executing.any fun l => l.t.txn.isSome
def Warp.someNoTxn (w : Warp) : Bool := w.executing.any fun l => l.t.txn.isNone

/-- A thread waits, at the address of the next instruction; with the hold cue it holds when the wait is over (R50). -/
def State.block (s : State) (key : Nat) (pc : Dword) (reason : Nat) (on : WaitOn) (hold : Bool) : State :=
  s.modThread key fun t => { t with pc := pc, held := hold }.enter s.now .waiting reason on

/-- An instruction that acts in each thread whose guard holds, and raises a tagged guard. -/
def simple (s : State) (h : Head) (ends : Bool) (fault : Warp → Bool) (act : Warp → State → Lane → State) : Res :=
  control s h [] .none fault fun w go _ => (w.acting.foldl (act w) (go [])).finish w h (badGuards w) ends

/-! WAITC (R236). -/

/-- A class count is low enough: the operations that it covers, all but the last n of the class, stop being pending (R48), and the thread
goes on. -/
def State.endCount (s : State) (key cls n : Nat) : State :=
  match s.thread? key with
  | none => s
  | some t => if s.outstanding key cls ≤ n then s.resume key (t.settle fun c => c.cls = cls && decide (c.nth + n ≤ get t.counts cls 0)) else s

def execWaitcD (f : DForm) (s : State) : Res :=
  let n := (f.mod.extractLsb' 4 6).toNat
  let cls := (f.mod.extractLsb' 1 3).toNat
  let h := dHead f
  simple s h true (fun _ => false) fun w s l => (s.block l.key (w.after h) 6 (.count cls n) h.holds).endCount l.key cls n

/-! FENCE (R239, R302). -/

/-- What a fence waits for. -/
def State.fenceReady (s : State) (key : Nat) (t : Thread) (scope order : Nat) : Bool :=
  let mine := s.ops.filter fun (_, o) => o.issuer = .thread key && !o.retired
  let rel := order = 2 || s.releaseReady key (clusterOfKey key) t.vc scope false
  let acq := order = 3 || mine.all fun (_, o) => !(o.isRead && o.order = 1)
  let near (c : Nat) : Bool := if scope = 3 then c = clusterOfKey key else if scope = 4 then rowOf c = rowOf (clusterOfKey key)
    else if scope = 5 ∨ scope = 1 ∨ scope = 2 ∨ scope = 7 then dieOf c = dieOf (clusterOfKey key) else false
  let sent := order = 2 || mine.all fun (_, o) => o.stage = .performed || match o.work with
    | .message _ => o.cls != 3 || !near (o.pa / 2 ^ 21)
    | _ => true
  let all := order != 4 || mine.all fun (_, o) => o.cls != 3 && o.cls != 4
  rel && sent && acq && all

/-- The clocks after a fence. DEDUCED (log entry 21): with .ar the acquire takes effect before the release. -/
def Thread.fenced (t : Thread) (scope : BitVec 4) (order : Nat) : Thread :=
  let t := if order = 3 then t else { t with vc := t.vc.max t.rs }
  if order = 2 then t else { t with fc := t.vc, fscope := scope }

def State.endFence (s : State) (key : Nat) (scope : BitVec 4) (order : Nat) : State :=
  match s.thread? key with
  | none => s
  | some t => if s.fenceReady key t scope.toNat order then s.resume key (t.fenced scope order) else s

def execFenceD (f : DForm) (s : State) : Res :=
  let h := dHead f
  let scope := WellFormed.mScope f
  let order := WellFormed.mOrder f
  simple s h true (fun _ => false) fun w s l =>
    (s.block l.key (w.after h) 14 (.fence scope order) h.holds).endFence l.key scope order.toNat

/-! What the retirement or the performance of an operation ends. -/

/-- A thread whose wait may be over goes on; a stopped context's threads are frozen (R430). -/
def State.wake (s : State) (key : Nat) : State :=
  match s.thread? key with
  | none => s
  | some t =>
    if (s.ctx t.ctx).low then s else
    match t.waitOn with
    | .hold => if s.longOut key then s else s.setThread key ((t.settle fun _ => true).run s.now)
    | .count cls n => s.endCount key cls n
    | .fence scope order => s.endFence key scope order.toNat
    | _ => s

def State.wakeAll (s : State) (p : Thread → Bool) : State :=
  ((s.threads.filter fun (_, t) => p t).map fun (k, _) => k).foldl State.wake s

def Op.threadKey (o : Op) : Option Nat := match o.issuer with | .thread k => some k | _ => none

def State.wakeOf (s : State) (o : Op) : State := match o.threadKey with | some k => s.wake k | none => s

/-! Condition monitors (R237, R238). -/

/-- The bank of a word of a group's scratchpad (R266). -/
def Group.bank (gr : Group) (word : Nat) : Nat :=
  let u := word / 2
  let g := if gr.swz = 0 then 1 else 2 ^ gr.swz
  Nat.xor (u % 64) (u / 64 % g)

/-- A monitor is free for the word, or one with the same word, condition and comparand stands. -/
def State.monitorRoom (s : State) (ctx : Nat) (w : MonWait) : Option Bool :=
  let c := s.watchCluster w.word
  let mons := (s.cluster c).mons
  if mons.any fun m => m.ctx = ctx && m.word = w.word && m.cond = w.cond && m.cmp = w.cmp then some false
  else match w.word with
    | .mem _ =>
      if (mons.filter fun m => match m.word with | .mem _ => true | _ => false).length < 1024 then some true else none
    | .pad g n =>
      let bankOf (g n : Nat) : Nat := match s.group? g with | some gr => gr.bank n | none => 0
      if (mons.filter fun m => match m.word with | .pad g' n' => bankOf g' n' = bankOf g n | _ => false).length < 16 then some true
      else none

def WaitOn.setWatch (on : WaitOn) (w : MonWait) : WaitOn :=
  match on with
  | .cond _ => .cond w
  | .tape _ k words => .tape w k words
  | x => x

/-- Evaluate a wait at its word, where that stands now (R226), and register it where it does not hold; with no free monitor the device re-reads
the word later, doubling the interval (R238). -/
def State.register (s : State) (key : Nat) : State :=
  let s := (s.modThread key fun t => match t.waitOn.watch with
    | some w => (match w.word with | .mem pa => { t with waitOn := t.waitOn.setWatch { w with word := .mem (s.placed? pa) } } | .pad _ _ => t)
    | none => t).recheck key
  match s.thread? key with
  | none => s
  | some t =>
    match t.waitOn.watch with
    | none => s
    | some w =>
      match s.monitorRoom t.ctx w with
      | some new =>
        let s := if new then s.modCluster (s.watchCluster w.word) fun c => { c with mons := c.mons ++ [⟨t.ctx, w.word, w.cond, w.cmp⟩] } else s
        s.modThread key fun t => { t with waitOn := t.waitOn.setWatch { w with monitor := true } }
      | none =>
        let n := if w.interval = 0 then 256 else min (2 * w.interval) 65536
        (s.msx t.ctx msxMONF).modThread key fun t =>
          { t with waitOn := t.waitOn.setWatch { w with interval := n, next := s.coreCycle (clusterOfKey key) + n } }

/-- The wait reaches its word: at once where the word's gate covers the thread's clock and the thread has no access to the word before it,
else as an operation that the gate holds or that goes to the peer (R284, R296, R306). -/
def State.watchAt (s : State) (w : Warp) (key : Nat) (p : Place) (pa : Nat) : State :=
  match s.thread? key with
  | none => s
  | some t =>
    let (k, s1) := s.fresh
    let o := { Thread.operation w key t k 5 .watch p s.now with pa := pa, va := pa }
    let later : State := (s1.setOp k o).depart k
    match p with
    | .home c => if s.covers (dieOf c) t.vc && s.plainAt c pa && (s.earlier k o).isEmpty then s.register key else later
    | .pad _ => (s.flushBank k o).register key
    | _ => later

/-- MWAIT and WAITA from the aim of their address (R237). -/
def runWait (f : DForm) (pad : Bool) (reason : Nat) (s : State) : Res :=
  let h := dHead f
  let addr : Src := if pad then src8 f.s1 f.s1lk else .pair f.s1 (f.s1lk.getLsbD 1)
  let scope := (WellFormed.mScope f).toNat
  let order := (WellFormed.mOrder f).toNat
  let d : Dst := .reg f.d false
  control s h [addr, src8 f.s2 f.s2lk] d (fun w => pad && w.group.isNone) fun w go vals =>
    if w.acting.any fun l => s.acquirePending l.key then .next (s.stall w 16) else
    let asks : List (Lane × List Val × Aim) := vals.map fun (l, vs) =>
      let aim := if pad then s.aimPad w 4 4 (valAt vs 0) else s.aim w 4 .read (valAt vs 0)
      let aim := match aim with
        | .at (.home _) _ _ _ => aim
        | .at (.pad _) _ _ _ => aim
        | .at (.peer _) _ _ _ => aim
        | .at _ _ _ _ => .code 0x10
        | .ats _ => .code 0x10
        | a => a
      (l, vs, aim)
    let misses := asks.filterMap fun (x : Lane × List Val × Aim) => match x.1.acts, x.2.2 with | true, .miss va => some (granule va) | _, _ => none
    if !misses.isEmpty then .next (s.seek w misses [] false) else
    let raises := asks.filterMap fun (l, vs, a) =>
      match l.badTok, a with
      | some k, _ => some (l, k, 0x0A)
      | none, .tok k => some (l, k, 3)
      | none, .code c => some (l, token c w.origin, 3)
      | none, _ => (valAt vs 1).tok?.map fun k => (l, k, 3)
    let goes := asks.filter fun (l, _, _) => !(raises.any fun r => r.1.v = l.v)
    if order = 2 ∧ goes.any (fun (l, _, _) => s.releasePending l.key) then .next (s.stall w 15) else
    let s1 := go raises
    let push := d.push w.slice
    let room := match push with | some (q, _) => s1.roomFor w q goes.length | none => true
    if !room then .next (s.stall w 3) else
    if (push.map fun x => x.1) = some 14 ∧ !(w.acting.all fun l => s.releaseReady l.key w.cluster l.t.vc 7 false) then .next (s.stall w 15) else
    let s2 := match push with | some (q, _) => s1.reserve w q false (goes.map fun (x : Lane × List Val × Aim) => (x.1, waitHole x.1.key)) | none => s1
    let s2 := asks.foldl (fun s (l, vs, a) => match a with
      | .code c => s.modThread l.key fun t => t.noteFault c (valAt vs 0).bits.toNat .read
      | _ => s) s2
    let s3 := goes.foldl (fun s (l, vs, a) =>
      match a with
      | .at p _ pa _ =>
        let eff := effectiveOrder scope order w.cluster p
        let word : Watched := match p with | .pad g => .pad g (pa / 4) | _ => .mem pa
        let m : MonWait := ⟨word, (WellFormed.mSub f).toNat, lo32 (valAt vs 1).bits, BitVec.ofNat 3 eff.1, BitVec.ofNat 4 scope, f.d,
          false, 0, 0, w.pc⟩
        let s := if eff.2 then s.modThread l.key fun t => t.flag SDROP else s
        (s.block l.key (w.after h) reason (.cond m) h.holds).watchAt w l.key p pa
      | _ => s) s2
    s3.finish w h raises true

def execMwaitD (f : DForm) (s : State) : Res := runWait f false 9 s
def execWaitaD (f : DForm) (s : State) : Res := runWait f true 10 s

/-! Barriers (R240, R241, R303). -/

/-- The threads of groups that have not exited. -/
def State.liveOf (s : State) (gs : List Nat) : Nat :=
  gs.foldl (fun a g => match s.group? g with | some gr => a + (gr.size - gr.exited) | none => a) 0

/-- One thread's arrival, of a count, with a given total or the live threads. -/
def Barrier.arrive (b : Barrier) (count : Nat) (given : Option Nat) (live : Nat) (vc : Clock) : Barrier :=
  if count = 0 then b else
  let b := match b.expected with
    | some _ => b
    | none => (match given with | some e => { b with expected := some e, live := false } | none => { b with expected := some live, live := true })
  { b with arrived := b.arrived + count, vc := b.vc.max vc }

def State.arriveGroup (s : State) (g id count : Nat) (given : Option Nat) (vc : Clock) : State :=
  let live := s.liveOf [g]
  (s.modGroup g fun gr => { gr with bars := put gr.bars id ((get gr.bars id Barrier.init).arrive count given live vc) }).groupBarrier g id

def State.arriveEns (s : State) (e id count : Nat) (given : Option Nat) (vc : Clock) : State :=
  match find s.ensembles e with
  | none => s
  | some en =>
    let live := s.liveOf en.groups
    let bar := (get en.bars id Barrier.init).arrive count given live vc
    let s := { s with ensembles := put s.ensembles e { en with bars := put en.bars id bar } }
    s.ensBarrier e id

/-- BAR and EBAR: each executing thread waits, unless it only arrives, and then arrives. -/
def runBar (f : DForm) (reason : Nat) (on : Nat → WaitOn) (arrive : State → Warp → Nat → Nat → Option Nat → Clock → State)
    (s : State) : Res :=
  let h := dHead f
  let counted := f.mod.getLsbD 4
  let given := f.mod.getLsbD 3
  let arv := f.mod.getLsbD 5
  let id := (f.mod.extractLsb' 6 4).toNat
  let srcs := (if counted then [src8 f.s1 f.s1lk] else []) ++ (if given then [src8 f.s2 f.s2lk] else [])
  control s h srcs .none (fun w => w.group.isNone || w.someTxn) fun w go vals =>
    let raises := vals.filterMap fun (l, vs) =>
      match l.badTok with
      | some k => some (l, k, 0x0A)
      | none => (vs.findSome? Val.tok?).map fun k => (l, k, 3)
    let goes := vals.filter fun (l, _) => !(raises.any fun r => r.1.v = l.v)
    if goes.any fun (l, _) => s.releasePending l.key || !s.releaseReady l.key w.cluster l.t.vc 7 false then .next (s.stall w 15) else
    let s2 := goes.foldl (fun s (l, vs) =>
      let num (n : Nat) : Nat := (valAt vs n).bits.toNat
      let count := if counted then num 0 else 1
      let total := if given then some (num (if counted then 1 else 0)) else none
      let vc := match s.thread? l.key with | some t => t.vc | none => Clock.zero
      let s := if arv then s else s.block l.key (w.after h) reason (on id) h.holds
      arrive s w id count total vc) (go raises)
    s2.finish w h raises true

def execBarD (f : DForm) (s : State) : Res :=
  runBar f 7 .bar (fun s w id n e vc => s.arriveGroup (w.group.getD 0) id n e vc) s

def execEbarD (f : DForm) (s : State) : Res :=
  runBar f 8 .ebar (fun s w id n e vc =>
    match s.group? (w.group.getD 0) with
    | some gr => s.arriveEns gr.ens id n e vc
    | none => s) s

end Sys2Proof.Machine
end

