-- ==== Sys2Proof/Machine/Control.lean ====
section
/-! DEFINITION. Branches, calls and returns (spec/07 R172 to R174), run control, exit and regions (R175 to R178), group registers
and the tape (R187 to R190), status, traps and breakpoints (R191 to R193), and the thread's side of fabric transactions (R194 to
R196). -/

namespace Sys2Proof.Machine

/-! Branches, calls and returns. -/

/-- A pair written beside l0 and l1 (R168); zero discards. -/
def Thread.writePair (t : Thread) (r : Byte) (v : Dword) : Thread :=
  if r = 0xC8 then t.setL (.data (lo32 v)) (.data (hi32 v))
  else if r.toNat < 0xC8 then (t.writeFile (fileIndex r) (.data (lo32 v))).writeFile (fileIndex r + 1) (.data (hi32 v))
  else t

/-- A 32-bit register written beside l0 and l1; zero discards. -/
def Thread.writeReg (t : Thread) (r : Byte) (v : Tw) : Thread := if r.toNat < 0xC8 then t.writeFile (fileIndex r) v else t

/-- A branch: `target` of the sources, and the pair that takes the return address. In the access slice targets that differ are a
raise with code 0x43 (R170). -/
def runBranch (h : Head) (srcs : List Src) (d : Dst) (link : Option Byte) (target : Warp → List Val → Val) (s : State) : Res :=
  control s h srcs d (fun _ => false) fun w go vals =>
    let raises := vals.filterMap fun (l, vs) =>
      match l.badTok, target w vs with
      | some k, _ => some (l, k, 4)
      | none, .tok k => some (l, k, 4)
      | none, _ => none
    let s1 := go raises
    let after := w.after h
    let goes := vals.filter fun (l, _) => !(raises.any fun r => r.1.v = l.v)
    let next (l : Lane) : Dword :=
      match goes.find? fun x => x.1.v = l.v with
      | some (_, vs) => (target w vs).bits
      | none => after
    let s2 := match link with
      | some r => goes.foldl (fun (s : State) (x : Lane × List Val) => s.modThread x.1.key fun t => t.writePair r after) s1
      | none => s1
    let pcs := w.lanes.map next
    if w.slice && raises.isEmpty && !(pcs.all fun p => p = pcs.headD 0) then
      .next (s.curtain w.ctx w.cluster ⟨w.pc.toNat, 0x0F, 0x43, w.origin, w.cluster, 0x7FF, 1⟩)
    else if raises.isEmpty then .next (s2.advance w h next) else .next ((s2.raiseLanes w raises).advance w h next true)

/-- PC + 2 × SignExt(offset). -/
def relative (off : Int) (w : Warp) (_ : List Val) : Val := .dat (w.pc + BitVec.ofInt 64 (2 * off))

/-- s1 with bit 0 cleared. -/
def absolute (_ : Warp) (vs : List Val) : Val :=
  match valAt vs 0 with
  | .tok k => .tok k
  | .dat v => .dat (v &&& ~~~1)

def pairS1 (f : DForm) : Src := .pair f.s1 (f.s1lk.getLsbD 1)

def execBraWi (f : WIForm) (s : State) : Res := runBranch (wiHead f) [] .none none (relative f.imm.toInt) s
def execBraDi (f : DIForm) (s : State) : Res := runBranch (diHead f) [] .none none (relative f.imm.toInt) s
def execBrxD (f : DForm) (s : State) : Res := runBranch (dHead f) [pairS1 f] .none none absolute s
def execCallDi (f : DIForm) (s : State) : Res := runBranch (diHead f) [] (.reg f.d true) (some f.d) (relative f.imm.toInt) s
def execCallxD (f : DForm) (s : State) : Res := runBranch (dHead f) [pairS1 f] (.reg f.d true) (some f.d) absolute s
def execRetD (f : DForm) (s : State) : Res := runBranch (dHead f) [pairS1 f] .none none absolute s
def execRetW (f : WForm) (s : State) : Res := runBranch (wHead f) [.pair (reg6 f.s1) false] .none none absolute s

/-! CHECK (R164). -/

/-- The tagged guards and operands that CHECK raises, with consumer code 0x01. -/
def State.checkRaises (s : State) (w : Warp) (src : Src) : List (Lane × Word × Nat) :=
  w.executing.filterMap fun l =>
    match l.badTok with
    | some k => some (l, k, 1)
    | none => match s.sourceVals w [src] l with
      | [.tok k] => some (l, k, 1)
      | _ => none

/-- In a thread that raises, the operand is not killed (R100). -/
def runCheck (s : State) (h : Head) (src : Src) : Res :=
  match s.warp h with
  | none => .refused .noWarp
  | some w =>
    match s.barred w [src] .none false with
    | some t => .next t
    | none =>
      let found := s.checkRaises w src
      (s.started w [src] (w.acting.filter fun l => !(found.any fun x => x.1.v = l.v))).finish w h found

def execCheckW (f : WForm) (s : State) : Res := runCheck s (wHead f) (src6 f.s1)
def execCheckD (f : DForm) (s : State) : Res := runCheck s (dHead f) (s1f f)

/-! Run control and exit (R176, R177). -/

def runNop (h : Head) (s : State) : Res := simple s h false (fun _ => false) fun _ s _ => s

def execNopW (f : WForm) (s : State) : Res := runNop (wHead f) s
def execNopD (f : DForm) (s : State) : Res := runNop (dHead f) s

/-- A thread that does not execute HOLD or YIELD becomes Runnable, whatever the cue (R176). -/
def unheld (h : Head) : Head := { h with cue := 1 }

def runHold (h : Head) (s : State) : Res := simple s (unheld h) true (fun _ => false) fun w s l => s.hold l.key (w.after h)

def execHoldW (f : WForm) (s : State) : Res := runHold (wHead f) s
def execHoldD (f : DForm) (s : State) : Res := runHold (dHead f) s

/-- YIELD under a hold cue parks the threads that execute it (R50). -/
def runYield (h : Head) (s : State) : Res :=
  simple s (unheld h) true (fun _ => false) fun w s l => if h.holds then s.hold l.key (w.after h) else s

def execYieldW (f : WForm) (s : State) : Res := runYield (wHead f) s
def execYieldD (f : DForm) (s : State) : Res := runYield (dHead f) s

/-- EXIT of a thread, or of a lane of a slice: the slice's issue ends with its last lane (R323). -/
def State.exitLane (s : State) (w : Warp) (l : Lane) : State :=
  if w.slice then
    let s := { s with threads := drop s.threads l.key }
    if (List.range 32).any fun v => (s.thread? (laneKey w.unit v)).isSome then s
    else s.modGroup w.unit fun g => { g with slice := g.slice.map fun sl => { sl with running := false, wait := 0 } }
  else s.exitThread l.key

def runExit (h : Head) (s : State) : Res := simple s h false (fun _ => false) fun w s l => s.exitLane w l

def execExitW (f : WForm) (s : State) : Res := runExit (wHead f) s
def execExitD (f : DForm) (s : State) : Res := runExit (dHead f) s

/-- REGION (R178). -/
def execRegionD (f : DForm) (s : State) : Res :=
  simple s (dHead f) false Warp.someTxn fun w s l => s.modThread l.key fun t => { t with region := w.pc }

/-- TRIG (R198). -/
def execTrigD (f : DForm) (s : State) : Res := simple s (dHead f) false (fun _ => false) fun _ s l => s.trigger l.key

/-! Status, traps, breakpoints. -/

/-- STAT (R191): the old TSW is the result. -/
def statLane (sub : Nat) (ls : List LaneIn) : List LaneOut :=
  ls.map fun i =>
    match i.poison with
    | some k => .one (.tok k)
    | none =>
      let v := lo32 ((i.ins.getD 0 (.dat 0)).bits)
      let new := match sub with
        | 1 => some (statClear i.tsw v)
        | 2 => some (setPcode i.tsw (v.extractLsb' 0 8))
        | _ => none
      ⟨[.dat (zx i.tsw)], 0, new, false⟩

def execStatD (f : DForm) (s : State) : Res :=
  let sub := (f.mod.extractLsb' 0 2).toNat
  runLane s (dHead f) (if sub = 0 then [] else [src8 f.s1 f.s1lk]) (.reg f.d false) false (statLane sub)

/-- TRAP (R192): one record for each executing thread, then the curtain; a tagged guard's record takes the same path (R101). -/
def execTrapDi (f : DIForm) (s : State) : Res :=
  let h := diHead f
  control s h [] .none (fun _ => false) fun w go _ =>
    let s := go []
    if w.acting.isEmpty then s.finish w h (badGuards w)
    else
      let recs := w.executing.map fun l =>
        let (cons, v) : Nat × Word := match l.badTok with | some k => (0x0A, k) | none => (0x0B, f.imm)
        (⟨w.pc.toNat, cons, tokCode v, tokOrigin v, w.cluster, slotOfKey l.key, 1⟩ : Record)
      let s := recs.foldl (fun s r => s.putRecord w.ctx w.cluster r) s
      let r := (recs.find? fun r => r.cons = 0x0B || !recoverable r.code).getD ⟨0, 0x0B, 0, 0, 0, 0, 1⟩
      .next ((s.lowerCurtain w.ctx r.cons r.code).step1 w h true)

/-- BRK (R193). -/
def execBrkDi (f : DIForm) (s : State) : Res :=
  let h := diHead f
  control s h [] .none (fun _ => false) fun w go _ =>
    let s := go []
    if !(s.ctx w.ctx).debug then s.finish w h (badGuards w)
    else
      let s := w.acting.foldl (fun s l => (s.block l.key (w.after h) 0x1B .brk h.holds).modThread l.key fun t => { t with brk := some f.imm }) s
      s.finish w h (badGuards w) true

/-! Group registers (R169, R187). -/

/-- The elected lane (R169). -/
def Warp.elected (w : Warp) : Option Lane := w.executing.head?

/-- The state after the reads of an instruction that the elected lane performs: the pops are its own, the kills those of every thread that
executes the instruction (R44, R169). -/
def State.elect (s : State) (w : Warp) (l : Lane) (srcs : List Src) (acting : List Lane) : State :=
  (s.popped { w with lanes := [l] } srcs (acting.filter fun x => x.v = l.v)).killed srcs acting

/-- An instruction that acts in the elected lane alone: its sources are read there, its pops taken there. `body` asks for the state after
them with what the lane raises (R100). -/
def once (s : State) (h : Head) (srcs : List Src) (ends : Bool) (fault : Warp → Bool)
    (body : Warp → (List (Lane × Word × Nat) → State) → Lane → List Val → Res) : Res :=
  match s.warp h with
  | none => .refused .noWarp
  | some w =>
    match w.elected with
    | none => if (w.queues srcs .none).any (fun q => !s.queueExists w q) || fault w then .next (s.issueFault w) else .next (s.step1 w h ends)
    | some l =>
      let w1 := { w with lanes := [l] }
      match s.barred w1 srcs .none (fault w) with
      | some t => .next t
      | none => body w (fun raises => s.elect w l srcs (w.quiet raises)) l (s.sourceVals w1 srcs l)

/-- KMOV and KADD: the new value from the old one, the token that reaches it, and s1 + imm32. -/
def runK (new : Tw → Option Word → Word → Tw) (f : DIForm) (s : State) : Res :=
  let h := diHead f
  once s h [.reg f.s1 false 0 0] false (fun w => w.group.isNone) fun w go l vals =>
    let s := go []
    let v := valAt vals 0
    let tok := match l.badTok with | some k => some k | none => v.tok?
    let n := f.d.toNat - 0xE0
    let s := s.modGroup (w.group.getD 0) fun gr =>
      gr.kWrite (s.coreCycle w.cluster) n (new (gr.k.getD n Tw.zero) tok (lo32 v.bits + f.imm))
    .next (s.step1 w h)

def execKmovDi (f : DIForm) (s : State) : Res := runK (fun _ tok v => match tok with | some k => .tok k | none => .data v) f s

def execKaddDi (f : DIForm) (s : State) : Res :=
  runK (fun old tok v => if old.tag then old else match tok with | some k => .tok k | none => .data (old.val + v)) f s

/-! KLD (R188). -/

def State.noteFault (s : State) (key code va : Nat) : State := s.modThread key fun t => t.noteFault code va .read

/-- Every thread of the warp waits. -/
def State.blockAll (s : State) (w : Warp) (h : Head) (reason : Nat) (on : Nat → WaitOn) : State :=
  w.lanes.foldl (fun s l => s.block l.key (w.after h) reason (on l.key) h.holds) s

/-- A read of the elected lane that stays in no class. -/
def State.readFor (s : State) (w : Warp) (l : Lane) (p : Place) (va pa : Nat) (attr : BitVec 3) (type : BitVec 4) (d : Dest) : State × Nat :=
  let (k, s) := s.fresh
  let t := (s.thread? l.key).getD l.t
  let o := { Thread.operation w l.key t k 5 (.load type (attr = 2) (attr = 2)) p s.now with va := va, pa := pa, dst := d }
  let s := s.setOp k o
  match (if attr = 2 then s.heldLine w.cluster pa else none) with
  | some line => ((s.keepLine w.cluster true line).setOp k { o with stage := .performed, reply := line.read type.toNat pa w.origin, done := 1 }, k)
  | none => (s.depart k, k)

def execKldDm (f : DMForm) (s : State) : Res :=
  let h := dmHead f
  let n := f.d.toNat - 0xE0
  once s h [dmBase f, dmIndex f] true (fun w => w.group.isNone) fun w go l vals =>
    let s1 := go []
    let kset (v : Tw) : State := s1.modGroup (w.group.getD 0) fun gr => gr.kWrite (s.coreCycle w.cluster) n v
    match l.badTok with
    | some k => .next ((kset (.tok k)).step1 w h true)
    | none =>
      if s.acquirePending l.key then .next (s.stall w 16) else
      let addr := dmAddr f vals
      match s.aim w 4 .read addr with
      | .tok k => (go [(l, k, 3)]).finish w h [(l, k, 3)] true
      | .miss va => .next (s.seek w [granule va] [] false)
      | .ats va => .next (s.seek w [] [va] false)
      | .code c => .next (((kset (.tok (token c w.origin))).noteFault l.key c addr.bits.toNat).step1 w h true)
      | .at p va pa attr =>
        let (s2, k) := s1.readFor w l p va pa attr 5 (.k n)
        .next (((s2.blockAll w h 12 fun _ => .kload k).routeReason k).step1 w h true)

/-! TAPE (R189, R190). -/

/-- The counter that an entry names, if it waits: its address and the value awaited. -/
def tapeCounter (counters : Option Nat) (words : List Tw) : Option (Nat × Nat) :=
  let w0 := words.getD 0 Tw.zero
  let n := w0.val.toNat
  match counters with
  | some a => if !w0.tag && fld n 31 16 != 0 then some ((a + 4 * fld n 15 8) % 2 ^ 64, fld n 31 16) else none
  | none => none

/-- A TAPE's side effect is dropped in the threads of its warp (R290). -/
def State.tapeDrops (s : State) (key : Nat) : State :=
  { s with threads := mapVals (fun n t => if n = key || t.waitOn = WaitOn.follow key then t.flag SDROP else t) s.threads }

/-- The entry has come: write the k registers, or wait on the counter, whose address is translated now. The wait is an acquire at .pkg, and
relaxed where the counter lies outside the package (R290). -/
def State.tapeGo (s : State) (key k : Nat) (counters : Option Nat) (pc : Dword) (words : List Tw) : State :=
  match s.thread? key with
  | none => s
  | some t =>
    match tapeCounter counters words with
    | none => s.endTape key k words none
    | some (va, n) =>
      let cluster := clusterOfKey key
      let stop (c : Nat) : State := s.endTape key k (tapeWords (.tok (token c (originOf pc))) words) none
      if va % 4 != 0 then stop 0x12 else
      match s.resolve cluster t.ctx va .read with
      | .error c => stop c.toNat
      | .ok (s', leaf) =>
        let go (p : Place) : State :=
          let (eff, drops) := effectiveOrder 7 2 cluster p
          let m : MonWait := ⟨.mem leaf.pa, 6, BitVec.ofNat 32 n, BitVec.ofNat 3 eff, 7, 0xF0, false, 0, 0, pc⟩
          let s' := if drops then s'.tapeDrops key else s'
          let s' := s'.modThread key fun t => { t with waitOn := .tape m k words }
          let w : Warp := ⟨false, 0, cluster, t.group, t.ctx, t.act, pc, []⟩
          s'.watchAt w key p leaf.pa
        if leaf.attr = 3 then stop 0x10 else
        match s'.region leaf.pa with
        | some (.home c) => go (.home c)
        | some (.peer q _) => if s.pkg.gone.contains q then stop 0x15 else go (.peer q)
        | _ => stop 0x10

def execTapeD (f : DForm) (s : State) : Res :=
  let h := dHead f
  let n := f.d.toNat - 0xE0
  once s h [pairS1 f, .pair f.s2 (f.s2lk.getLsbD 1)] true (fun w => w.group.isNone || w.someTxn) fun w go l vals =>
    let s1 := go []
    let kset (v : Word) : State := s1.modGroup (w.group.getD 0) fun gr =>
      (List.range 4).foldl (fun gr i => gr.kWrite (s.coreCycle w.cluster) (n + i) (.tok v)) gr
    match l.badTok with
    | some k => .next ((kset k).step1 w h true)
    | none =>
      if s.acquirePending l.key then .next (s.stall w 16)
      else if s.releasePending l.key then .next (s.stall w 15) else
      match (valAt vals 1).tok? with
      | some k => (go [(l, k, 3)]).finish w h [(l, ((valAt vals 0).tok?).getD k, 3)] true
      | none =>
        match s.aim w 16 .read (valAt vals 0) with
        | .tok k => (go [(l, k, 3)]).finish w h [(l, k, 3)] true
        | .miss va => .next (s.seek w [granule va] [] false)
        | .ats va => .next (s.seek w [] [va] false)
        | .code c => .next (((kset (token c w.origin)).noteFault l.key c (valAt vals 0).bits.toNat).step1 w h true)
        | .at p va pa attr =>
          let counters := if f.s2 = 0xF0 then none else some (valAt vals 1).bits.toNat
          let s2 := s1.blockAll w h 13 fun _ => .follow l.key
          let s2 := s2.block l.key (w.after h) 13 (.tapeRead n counters w.pc []) h.holds
          let (s3, _) := s2.readFor w l p va pa attr 7 (.tape 0)
          let (s4, _) := s3.readFor w l p (va + 8) (pa + 8) attr 7 (.tape 2)
          .next (s4.step1 w h true)

/-- Half of an entry has come. -/
def State.tapeWord (s : State) (key i : Nat) (v : List Tw) : State :=
  match s.thread? key with
  | none => s
  | some t =>
    match t.waitOn with
    | .tapeRead k counters pc words =>
      let words := (v.zipIdx).foldl (fun m (x, j) => put m (i + j) x) words
      if words.length = 4 then s.tapeGo key k counters pc (words.map fun x => x.2)
      else s.setThread key { t with waitOn := .tapeRead k counters pc words }
    | _ => s

/-! Fabric transactions: the issuing side (R194 to R196). -/

/-- FBEGIN: the checkpoint, then d := 0. -/
def execFbeginD (f : DForm) (s : State) : Res :=
  let h := dHead f
  control s h [] (.reg f.d false) Warp.someTxn fun w go _ =>
    let s := w.acting.foldl (fun s l => s.modThread l.key fun t =>
      let low := (List.range 32).map fun i => (i, t.cell i)
      let x : Txn := { regs := low, preds := t.preds, next := w.after h, dst := f.d, target := none, first := none, held := [], failed := none }
      { t with txn := some x }.writeReg f.d (.data 0)) (go [])
    s.finish w h (badGuards w)

/-- FABORT (R196). The consumer code of a tagged s1 is DEDUCED (log entry 22). -/
def execFabortD (f : DForm) (s : State) : Res :=
  let h := dHead f
  control s h [src8 f.s1 f.s1lk] .none Warp.someNoTxn fun w go vals =>
    let raises := vals.filterMap fun (l, vs) =>
      match l.badTok with
      | some k => some (l, k, 0x0A)
      | none => (valAt vs 0).tok?.map fun k => (l, k, 0x0A)
    let goes := vals.filter fun (l, _) => !(raises.any fun r => r.1.v = l.v)
    let s2 := goes.foldl (fun s (l, vs) => s.failTxn l.key 2 0 ((valAt vs 0).bits.toNat % 65536)) (go raises)
    s2.finish w h raises

/-- The token of the first held packet, in issue order, that is marked poisoned (R102). -/
def State.markedPacket (s : State) (x : Txn) : Option Word :=
  x.held.findSome? fun k => (find s.ops k).bind fun o => match o.work with | .packet p => p.tok | _ => none

/-- More than 1 ms has passed since the first packet's arrival (R196). -/
def Txn.expired (x : Txn) (now : Nat) : Bool := match x.first with | some n => decide (n + 1000 * ticksPerUs < now) | none => false

/-- One thread's FCOMMIT that raises nothing: failure already found, success at once, or the request to the target (R195). -/
def State.commit (s : State) (w : Warp) (h : Head) (d : Byte) (l : Lane) : State :=
  match s.thread? l.key with
  | none => s
  | some t =>
    match t.txn with
    | none => s
    | some x =>
      match (if x.expired s.now then some (4, 0) else x.failed) with
      | some (reason, code) => s.failTxn l.key reason.toNat code.toNat 0
      | none =>
        if x.held.isEmpty then s.resume l.key ({ t with txn := none, pc := w.after h, held := h.holds }.writeReg d (.data 0))
        else
          (s.block l.key (w.after h) 17 (.commit d w.pc) h.holds).sendCommit l.key

/-- FCOMMIT (R195, R196). A held packet that is marked poisoned is raised also where the hold has expired. DEDUCED (log entry 139). -/
def execFcommitD (f : DForm) (s : State) : Res :=
  let h := dHead f
  control s h [] (.reg f.d false) Warp.someNoTxn fun w go _ =>
    let raises := w.executing.filterMap fun l =>
      match l.badTok with
      | some k => some (l, k, 0x0A)
      | none => (l.t.txn.bind fun x => if x.failed.isSome then none else s.markedPacket x).map fun k => (l, k, 8)
    let goes := w.acting.filter fun l => !(raises.any fun r => r.1.v = l.v)
    (goes.foldl (fun s l => s.commit w h f.d l) (go raises)).finish w h raises true

end Sys2Proof.Machine
end

