-- ==== Sys2Proof/Machine/Roam.lean ====
section
/-! DEFINITION. Homes, migration and spawning at issue (spec/07 R179 to R183, spec/10 R276, R278), register blocks (R184 to R186). -/

namespace Sys2Proof.Machine

/-! HOME (R183, R390). -/

/-- The home word of a leaf. -/
def State.homeWord (s : State) (pa : Nat) (attr : Nat) : Word :=
  if attr = 3 then 0x80000000 else
  match s.region pa with
  | some (.home c) => BitVec.ofNat 32 ((if attr = 2 then 2 ^ 29 else 0) + s.ownPkg * 2 ^ 16 + c)
  | some (.peer q a) => BitVec.ofNat 32 (2 ^ 30 + q * 2 ^ 16 + fld a 39 30)
  | some (.fabric _ a) => BitVec.ofNat 32 (2 ^ 28 + fld a 39 30)
  | _ => 0x80000000

/-- What HOME finds for an address: a translation that a TLB holds, or its own walk's leaf, which no owner check has seen. -/
def State.homeLook (s : State) (u : WalkUser) (cluster ctx va : Nat) : Look :=
  if fld va 63 56 != 0 then .fault 0x11 else
  match (s.row (rowOf cluster)).tlb.find? fun e =>
    e.ctx = ctx && !e.host && (e.cluster = none || e.cluster = some cluster)
      && decide (e.base ≤ va) && decide (va < e.base + e.bytes) with
  | some e => if e.attr != 3 && s.inCheckRange (e.pa + (va - e.base)) then .fault 0x10 else .hit (e.pa + (va - e.base)) e.attr
  | none =>
    match find (s.walked u) (homeKey va) with
    | some (.ok pa attr _ _) => .hit (pa + va % 2 ^ 16) attr
    | some (.fault c) => .fault c
    | none => .miss

/-- The home word of one thread, or the token of its fault. -/
def State.homeOf (s : State) (w : Warp) (v : Dword) : Val :=
  match s.homeLook w.user w.cluster w.ctx v.toNat with
  | .hit pa attr => .dat (zx (s.homeWord pa attr.toNat))
  | .fault c => .tok (token c.toNat w.origin)
  | _ => .dat 0

def execHomeD (f : DForm) (s : State) : Res :=
  let h := dHead f
  match s.warp h with
  | none => .refused .noWarp
  | some w =>
    let misses := w.acting.filterMap fun l =>
      match s.readPair w l f.s1 with
      | .dat v => (match s.homeLook w.user w.cluster w.ctx v.toNat with | .miss => some (homeKey v.toNat) | _ => none)
      | .tok _ => none
    if !w.missingBlock (.reg f.d false) ∧ !misses.isEmpty then .next (s.seek w misses [] false) else
    runLane s h [pairS1 f] (.reg f.d false) false fun ls => ls.map fun i =>
      match i.poison with
      | some k => .one (.tok k)
      | none => .one (s.homeOf w (i.ins.getD 0 (.dat 0)).bits)

/-! Where a thread goes. -/

/-- The cluster and package of a home, or the code of an address that has none (R179, R181, R182). -/
inductive Goal where
  | here (cluster : Nat) | peer (q cluster : Nat) | fabric (e cluster : Nat) | code (c : Nat)
deriving DecidableEq, Repr

def State.goal (s : State) (pa : Nat) : Goal :=
  match s.region pa with
  | some (.home c) => .here c
  | some (.peer q a) => if s.pkg.gone.contains q then .code 0x15 else .peer q (fld a 39 30)
  | some (.fabric e a) => .fabric e (fld a 39 30)
  | _ => .code 0x10

/-- The goal of an address, or the token that is raised, or a walk. -/
inductive Course where
  | to (g : Goal) | raise (k : Word) | miss (va : Nat)
deriving DecidableEq, Repr

def State.course (s : State) (w : Warp) (v : Val) : Course :=
  match v with
  | .tok k => .raise k
  | .dat a =>
    match s.lookup w.user w.cluster w.ctx a.toNat .read with
    | .hit pa _ => (match s.goal pa with | .code c => .raise (token c w.origin) | g => .to g)
    | .fault c => .raise (token c.toNat w.origin)
    | .miss => .miss a.toNat
    | _ => .raise (token 0x10 w.origin)

/-- A recovery address for a translation that found code 0x01 (R398). -/
def State.noteCourse (s : State) (key : Nat) (v : Val) (k : Word) : State :=
  match v with
  | .dat a => s.noteFault key (tokCode k) a.toNat
  | .tok _ => s

/-- The thread waits for its departure (R180), which covers what a hold cue would wait for. -/
def State.leave (s : State) (l : Lane) (pkg : Option Nat) (c : Nat) (w : Warp) (h : Head) : State :=
  s.block l.key (w.after h) 0x1D (.depart
    { pkg := pkg, cluster := c, migr := true, pc := w.pc, resume := w.after h, hold := false, va := 0, pa := 0, type := 0
      dst := 0xF0, order := 0, scope := 0 }) false

/-- MIGR (R179). -/
def execMigrD (f : DForm) (s : State) : Res :=
  let h := dHead f
  control s h [pairS1 f] .none (fun w => w.group.isSome || w.someTxn) fun w go vals =>
    let asks : List (Lane × Val × Course) := vals.map fun (l, vs) => (l, valAt vs 0, s.course w (valAt vs 0))
    let misses := asks.filterMap fun (x : Lane × Val × Course) => match x.1.acts, x.2.2 with | true, .miss va => some (granule va) | _, _ => none
    if !misses.isEmpty then .next (s.seek w misses [] false) else
    let raises := asks.filterMap fun (x : Lane × Val × Course) =>
      match x.1.badTok, x.2.2 with
      | some k, _ => some (x.1, k, 0x0A)
      | none, .raise k => some (x.1, k, 5)
      | none, .to (.fabric _ _) => some (x.1, token 0x15 w.origin, 5)
      | none, _ => none
    let s2 := asks.foldl (fun (s : State) (x : Lane × Val × Course) =>
      match x.1.badTok, x.2.2 with
      | none, .raise k => s.noteCourse x.1.key x.2.1 k
      | none, .to (.here c) =>
        if c = w.cluster then s else s.leave x.1 none c w h
      | none, .to (.peer q c) => s.leave x.1 (some q) c w h
      | _, _ => s) (go raises)
    s2.finish w h raises true

/-! SPAWN (R181, R182, R276, R278). -/

/-- The thread that a SPAWN of one lane creates, as its message carries it. -/
def spawned (t : Thread) (a : Act) (entry : Dword) (args : List Cell) (inside : Bool) (now : Nat) : Travel :=
  { ctx := t.ctx, act := t.act, gid := 0, tid := BitVec.ofNat 32 a.ctr, pc := entry, regs := args.zipIdx.map fun (c, i) => (i, c)
    rest := .dead, preds := List.replicate 7 PCell.false, tsw := 0, vc := if inside then t.vc else Clock.zero, fscope := 0
    trig := t.trig, level := a.level, saved := none, since := now }

/-- The counts of what an act has in other packages are kept by package, then by endpoint. -/
def remoteKey (fab : Bool) (n : Nat) : Nat := if fab then 256 + n else n
def bump (m : Map Nat) (k n : Nat) : Map Nat := put m k (get m k 0 + n)

/-- The spawn of one lane: a credit, the act's counts, the message. -/
def State.spawnOne (s : State) (w : Warp) (l : Lane) (goal : Goal) (entry : Dword) (first n : Nat) : State :=
  match s.thread? l.key, s.act? w.ctx w.act with
  | some t, some a =>
    let args := (List.range n).map fun i => Cell.ofTw (t.readFile (first + i) w.origin)
    let (inside, pkg, fab, c) : Bool × Option Nat × Bool × Nat := match goal with
      | .peer q c => (false, some q, false, c)
      | .fabric e c => (false, some e, true, c)
      | .here c => (true, none, false, c)
      | .code _ => (true, none, false, 0)
    let (id, s) := s.fresh
    let m : Msg := ⟨id, w.ctx, w.act, slotOfKey l.key, c, w.pc, .spawn (spawned t a entry args inside s.now) pkg fab none, 0, 256, false⟩
    let u := if t.trig then 0 else 1
    let s := s.setAct { a with ctr := a.ctr + 1, live := a.live + 1, untrig := if inside then a.untrig + u else a.untrig
                               remote := if inside then a.remote else bump a.remote (remoteKey fab (pkg.getD 0)) 1
                               remoteUntrig := if inside then a.remoteUntrig else a.remoteUntrig + u }
    (s.modCluster w.cluster fun cl => { cl with credits := cl.credits - 1, outbox := cl.outbox ++ [m] }).sendSpawn w.cluster m
  | _, _ => s

/-- SPAWN (R182). Where s1 is refused and s2 is tagged, the token of s2 is raised (log entry 120). -/
def execSpawnD (f : DForm) (s : State) : Res :=
  let h := dHead f
  let n := (f.mod.extractLsb' 0 4).toNat
  control s h [pairS1 f, .pair f.s2 (f.s2lk.getLsbD 1)] .none (fun w => w.group.isSome || w.someTxn) fun w go vals =>
    let asks : List (Lane × List Val × Course) := vals.map fun (l, vs) => (l, vs, s.course w (valAt vs 0))
    let misses := asks.filterMap fun (x : Lane × List Val × Course) =>
      match x.1.acts, x.2.2 with | true, .miss va => some (granule va) | _, _ => none
    if !misses.isEmpty then .next (s.seek w misses [] false) else
    let raises := asks.filterMap fun (x : Lane × List Val × Course) =>
      match x.1.badTok, x.2.2, (valAt x.2.1 1).tok? with
      | some k, _, _ => some (x.1, k, 0x0A)
      | none, .raise k, none => some (x.1, k, 5)
      | none, .raise k, some e => some (x.1, ((valAt x.2.1 0).tok?).getD (if (valAt x.2.1 0).tok?.isSome then k else e), 5)
      | none, _, e => e.map fun e => (x.1, e, 5)
    let goes := asks.filter fun (x : Lane × List Val × Course) => !(raises.any fun r => r.1.v = x.1.v)
    let scope (x : Lane × List Val × Course) : Nat := match x.2.2 with | .to (.here _) => 7 | _ => 9
    if goes.any fun (x : Lane × List Val × Course) => !s.releaseReady x.1.key w.cluster x.1.t.vc (scope x) false then .next (s.stall w 15) else
    let afar (x : Lane × List Val × Course) : Option Target := match x.2.2 with | .to (.peer q _) => some (.peer q) | .to (.fabric e _) => some (.fabric e) | _ => none
    if (s.cluster w.cluster).credits < w.executing.length then
      .next ((s.stall w 0x13).modSlot w.unit fun sl => { sl with toward := goes.filterMap afar }) else
    let last (l : Lane) (s : State) : State :=
      if f.s3lk.getLsbD 1 then s.modThread l.key fun t => t.killRegs ((List.range n).map fun i => nextReg f.s3 i) else s
    let s2 := asks.foldl (fun (s : State) (x : Lane × List Val × Course) =>
      if raises.any fun r => r.1.v = x.1.v then
        (match x.2.2 with | .raise k => s.noteCourse x.1.key (valAt x.2.1 0) k | _ => s)
      else
        match x.2.2 with
        | .to g => last x.1 (s.spawnOne w x.1 g ((valAt x.2.1 1).bits &&& ~~~1) f.s3.toNat n)
        | _ => s) (go raises)
    s2.finish w h raises

/-! Register blocks (R184 to R186). -/

/-- The registers of newly held blocks are dead. -/
def Thread.grow (t : Thread) (n : Nat) : Thread :=
  let new := (List.range (32 * (n - t.blocks))).map fun i => 64 + 32 * t.blocks + i
  { new.foldl (fun t i => t.setCell i Cell.dead) t with blocks := max n t.blocks }

/-- A request for extended blocks that waits (R185): of a thread, or of an entry of the arrival buffer. -/
structure PoolReq where
  thread : Option Nat
  need : Nat
  since : Nat
  cycle : Nat
  slot : Nat
  tid : Nat
deriving DecidableEq, Repr

/-- Oldest first, by core cycle; requests of one core cycle in ascending order of the slots that issued them, then in ascending tid order
(R372). -/
def PoolReq.le (a b : PoolReq) : Bool := lexLe [a.cycle, a.slot, a.tid, a.since] [b.cycle, b.slot, b.tid, b.since]

/-- The requests of a cluster: threads in RACQ, spilled threads whose wait is over (R373), the arrival buffer (R272). -/
def State.poolRequests (s : State) (cluster : Nat) : List PoolReq :=
  let cycle (n : Nat) : Nat := (s.row (rowOf cluster)).cycleAt n
  let ths := (s.threads.filter fun (k, _) => !isLaneKey k && clusterOfKey k = cluster).filterMap fun (k, t) =>
    match t.waitOn with
    | .pool n slot => some (⟨some k, n - t.blocks, t.since, cycle t.since, slot, t.tid.toNat⟩ : PoolReq)
    | .spill n => some ⟨some k, n, t.since, cycle t.since, 4, t.tid.toNat⟩
    | _ => none
  let arr := (s.cluster cluster).arrivals.filterMap fun a =>
    let n := s.travelBlocks a
    if n = 0 then none else some (⟨none, n, a.since, cycle a.since, 5, a.tid.toNat⟩ : PoolReq)
  sortBy PoolReq.le (ths ++ arr)

/-- What a blocking or a trying RACQ does in one thread. -/
def State.racqOne (s : State) (w : Warp) (h : Head) (l : Lane) (n : Nat) (try_ : Option Nat) : State :=
  match s.thread? l.key with
  | none => s
  | some t =>
    let say (b : Bool) (t : Thread) : Thread := match try_ with | some p => t.setPred p ⟨b, false, 0, false⟩ | none => t
    if n ≤ t.blocks then s.setThread l.key (say true t)
    else if n - t.blocks ≤ s.blocksFree w.cluster ∧ (s.poolRequests w.cluster).isEmpty then s.setThread l.key (say true (t.grow n))
    else match try_ with
      | some _ => s.setThread l.key (say false t)
      | none => s.block l.key (w.after h) 11 (.pool n (w.unit % 4)) h.holds

def execRacqD (f : DForm) (s : State) : Res :=
  let h := dHead f
  let n := (WellFormed.mSub f).toNat
  let pred := if f.mod.getLsbD 3 then some (predNo f.d) else none
  simple s h true Warp.someTxn fun w s l => s.racqOne w h l n pred

/-- RREL: the registers above X(n) are given up. -/
def execRrelD (f : DForm) (s : State) : Res :=
  let n := (WellFormed.mSub f).toNat
  simple s (dHead f) false Warp.someTxn fun _ s l => s.modThread l.key fun t =>
    if t.blocks ≤ n then t else { t with blocks := n, regs := keep (fun i _ => decide (blockOf i ≤ n)) t.regs }

end Sys2Proof.Machine
end

