-- ==== Sys2Proof/Machine/Engines.lean ====
section
/-! DEFINITION. Copies, streams, the access slice's own instructions and operation packets at issue (spec/08 R222, R227 to R234,
spec/12 R319, R324, spec/07 R194 for packets in a fabric transaction). -/

namespace Sys2Proof.Machine

/-! Free values (log entry 4). -/

def State.freeWords (s : State) (n : Nat) : List Word × State :=
  ((List.range n).map fun i => Config.freeWord (s.free + i), { s with free := s.free + n })

/-! CPY and CPYT. -/

/-- What a read outside the package brings that the device makes itself: n words, or the code of a failure (R396, R409, R412, R413), all
of it free (log entry 4). -/
def State.outside (s : State) (n : Nat) : Except Byte (List Word) × State :=
  let codes : List Byte := [0x03, 0x13, 0x14, 0x15, 0x20]
  let (ws, s) := s.freeWords (n + 1)
  match codes[(ws.headD 0).toNat % 8]? with
  | some c => (.error c, s)
  | none => (.ok (ws.drop 1), s)

/-- The words of a descriptor, a line of 64 bytes, as the elected lane reads them: a marked sector's code, or the words; nothing while the
gate or the MSE of its home keeps the read back, or an earlier write of the thread to it (R284, R296; log entry 112). A line that is held
serves a read-only page (R314). Whether an expander's read fails or brings poison (R409) is free (log entry 4). -/
def State.readDescriptor (s : State) (w : Warp) (l : Lane) (p : Place) (va pa : Nat) (attr : BitVec 3) :
    Option (Except Byte (List Word) × State) :=
  let words (s : State) (f : Nat → Nat) : Except Byte (List Word) × State := (.ok ((List.range 16).map fun i => BitVec.ofNat 32 (f i)), s)
  match p with
  | .home _ =>
    match (if attr = 2 then s.heldLine w.cluster pa else none) with
    | some line =>
      some (match line.marks.findSome? id with | some c => (.error c, s) | none => words s fun i => ofBytes ((line.bytes.drop (4 * i)).take 4))
    | none =>
      let at' (i : Nat) : Nat := s.placed? (pa + 4 * i)
      let o : Op := { Thread.operation w l.key l.t s.seq 5 (.ragged 7 0 0 0 [] false false) p s.now with va := va, pa := pa }
      let second : Op := { o with pa := pa + 32 }
      let free (i : Nat) : Bool :=
        let c := at' i / 2 ^ 30
        s.plainAt c (at' i) && s.covers (dieOf c) l.t.vc && !s.copied (at' i) && !(s.pkg.repairs.any fun x => x.started && x.kind = 3 && x.unit = c)
      if !((List.range 16).all free && (s.earlier s.seq o).isEmpty && (s.earlier s.seq second).isEmpty) then none
      else some (match (List.range 16).findSome? fun i => s.markAt (at' i) with
        | some c => (.error c, s)
        | none => words s fun i => s.readN (at' i) 4)
  | .cxl _ =>
    let codes : List Byte := [0x14, 0x20]
    let (ws, s) := s.freeWords 1
    some (match codes[(ws.headD 0).toNat % 8]?, s.markIn pa 64 with
      | some c, _ => (.error c, s)
      | none, some c => (.error c, s)
      | none, none => words s fun i => s.readN (pa + 4 * i) 4)
  | _ => some (s.outside 16)

/-- The parameters of R228. -/
structure CopyPar where
  cw : Nat
  blist : Nat
  nblk : Nat
  dstr2 : Nat
  dstr1 : Nat
  z : Nat
  y : Nat
  x : Nat
  sstr2 : Nat
  sstr1 : Nat
  dblk : Nat
deriving DecidableEq, Repr

def CopyPar.ofWords (l : List Word) : CopyPar :=
  let w (i : Nat) : Nat := (l.getD i 0).toNat
  let q (i : Nat) : Nat := w i + w (i + 1) * 2 ^ 32
  ⟨q 14, q 12, w 11, w 10, w 9, w 8, w 7, w 6, q 4, q 2, q 0⟩

def allOnes : Nat := 2 ^ 64 - 1

/-- The kinds that push (R227). -/
def pushes (kind : Nat) : Bool := kind = 2 || kind = 3

/-- Alignment of R229: for kinds 010 and 011 s2 names a queue, and DBLK and CW are ignored (R227, R228). -/
def CopyPar.misaligned (c : CopyPar) (kind s1 s2 : Nat) : Bool :=
  s1 % 4 != 0 || c.x % 4 != 0 || c.sstr1 % 4 != 0 || c.sstr2 % 4 != 0 || c.dstr1 % 4 != 0 || c.dstr2 % 4 != 0
    || (!pushes kind && (s2 % 4 != 0 || c.dblk % 4 != 0 || (c.cw != allOnes && c.cw % 4 != 0)))

/-- The number of elements of a copy (R229). -/
def CopyCmd.blocks (c : CopyCmd) : Nat := if c.blist = 0 then 1 else c.nblk
def CopyCmd.total (c : CopyCmd) : Nat := c.blocks * c.z * c.y * ((c.x + 3) / 4)

/-- The engine that serves a cluster (R319). -/
def engineOf (cluster : Nat) : Nat := rowOf cluster * 4 + cluster % 24 / 6

/-- Put a mark at the end of a queue or FIFO: the place of what its owner still pushes (R231, R233). -/
def State.markFifo (s : State) (g : Nat) (fifo : Bool) (n owner : Nat) : State :=
  s.modGroup g fun gr =>
    if fifo then { gr with fifos := put gr.fifos n (get gr.fifos n [] ++ [.mark owner]) }
    else { gr with q := put gr.q n (get gr.q n [] ++ [.mark owner]) }

/-- What a copy finds at issue once its parameters are known: an instruction fault, a raise, or the command. -/
inductive CopyGo where
  | fault | code (c : Nat) | go

def State.copyCheck (s : State) (w : Warp) (kind s1 s2 : Nat) (c : CopyPar) (cpyt : Bool) : CopyGo :=
  let gr := w.group.bind s.group?
  if c.misaligned kind s1 s2 then .code 0x12
  else match kind with
    | 2 => if s2 < 8 ∨ 11 < s2 then .code 0x10 else if !s.queueExists w s2 then .fault else .go
    | 3 => if (gr.elim 0 Group.nfifo) ≤ s2 then .code 0x10 else .go
    | 1 => if !cpyt && c.x != 0 && decide (gr.elim 0 Group.scr < s2 + c.x) then .code 0x10 else .go
    | _ => .go

/-- The engine accepts a command. -/
def State.copyAccept (s : State) (w : Warp) (l : Lane) (f : DForm) (kind s1 s2 : Nat) (c : CopyPar) : State :=
  let e := engineOf w.cluster
  let (id, s) := s.fresh
  let eng := s.engine e
  let order := (WellFormed.mOrder f)
  let vc := match s.thread? l.key with | some t => t.vc | none => Clock.zero
  let cmd : CopyCmd :=
    { id := id, serial := eng.serial + 1, ctx := w.ctx, act := w.act, cluster := w.cluster, group := w.group
      threads := w.acting.map fun l => l.key, pc := w.pc, kind := kind, scope := WellFormed.mScope f, order := order, src := s1, dst := s2
      x := c.x, y := c.y, z := c.z, sstr1 := c.sstr1, sstr2 := c.sstr2, dstr1 := c.dstr1, dstr2 := c.dstr2, dblk := c.dblk
      blist := c.blist, nblk := c.nblk, cw := if pushes kind then allOnes else c.cw, index := 0
      ec := if order = 3 then vc else Clock.zero, counted := false, entry := none, lines := [], acks := [], walks := [] }
  let s := s.setEngine e { eng with serial := eng.serial + 1, cmds := eng.cmds ++ [cmd] }
  if pushes kind ∧ cmd.total != 0 then s.markFifo (w.group.getD 0) (kind = 3) s2 id else s

/-- CPY and CPYT from the operands that hold their parameters (R227 to R231). -/
def runCopy (f : DForm) (cpyt : Bool) (s : State) : Res :=
  let h := dHead f
  let kind := (WellFormed.mSub f).toNat
  let lk := f.s3lk.getLsbD 1
  let srcs := [pairS1 f, .pair f.s2 (f.s2lk.getLsbD 1)]
    ++ (if cpyt then [.pair f.s3 lk] else [.reg f.s3 lk 0 0, .many (nextReg f.s3 2) 2 false lk])
  once s h srcs false (fun w => pushes kind && w.group.isNone) fun w go0 l vals =>
    let s1 := go0 []
    match l.badTok with
    | some k => (go0 [(l, k, 0x0A)]).finish w h [(l, k, 0x0A)]
    | none =>
      if s.acquirePending l.key then .next (s.stall w 16) else
      if w.acting.any fun x => decide (255 ≤ s.outstanding x.key 1) then .next (s.stall w 5) else
      match vals.findSome? Val.tok? with
      | some k => (go0 [(l, k, 7)]).finish w h [(l, k, 7)]
      | none =>
        let src := (valAt vals 0).bits.toNat
        let dst := (valAt vals 1).bits.toNat
        let order := (WellFormed.mOrder f).toNat
        if order = 3 ∧ (s.releasePending l.key || !s.releaseReady l.key w.cluster l.t.vc (WellFormed.mScope f).toNat false) then .next (s.stall w 15) else
        if 64 ≤ (s.engine (engineOf w.cluster)).cmds.length then .next (s.stall w 0x14) else
        let fail (f : State → State) (c : Nat) : Res := (f (go0 [(l, token c w.origin, 7)])).finish w h [(l, token c w.origin, 7)]
        let go (s : State) (c : CopyPar) : Res :=
          match s.copyCheck w kind src dst c cpyt with
          | .fault => .next (s.issueFault w)
          | .code n => fail id n
          | .go => .next ((s.copyAccept w l f kind src dst c).step1 w h)
        if !cpyt then
          go s1 ⟨(valAt vals 3).bits.toNat + (valAt vals 4).bits.toNat * 2 ^ 32, 0, 0, 0, 0, 1, 1, (valAt vals 2).bits.toNat, 0, 0, 0⟩
        else
          match s.aim w 64 .read (valAt vals 2) with
          | .tok k => (go0 [(l, k, 7)]).finish w h [(l, k, 7)]
          | .miss va => .next (s.seek w [granule va] [] false)
          | .ats va => .next (s.seek w [] [va] false)
          | .code c => fail (fun s => s.noteFault l.key c (valAt vals 2).bits.toNat) c
          | .at p va pa attr =>
            match s.readDescriptor w l p va pa attr with
            | none => .next (s.stall w 4)
            | some (.error c, s') => fail (fun s => { s with free := s'.free }.noteFault l.key c.toNat va) c.toNat
            | some (.ok ws, s') => go { s1 with free := s'.free } (CopyPar.ofWords ws)

def execCpyD (f : DForm) (s : State) : Res := runCopy f false s
def execCpytD (f : DForm) (s : State) : Res := runCopy f true s

/-! ASTR (R233, R324). -/

/-- The streams of a group's slice. -/
def State.streams (s : State) (g : Nat) : List Stream :=
  match s.group? g with
  | some gr => (match gr.slice with | some sl => sl.streams | none => [])
  | none => []

def execAstrD (f : DForm) (s : State) : Res :=
  let h := dHead f
  once s h [pairS1 f, .reg f.s2 (f.s2lk.getLsbD 1) 0 0, .reg (nextReg f.s2 1) (f.s2lk.getLsbD 1) 0 0] false (fun w => !w.slice)
    fun w go l vals =>
    let s1 := go []
    match l.badTok with
    | some k => (go [(l, k, 0x0A)]).finish w h [(l, k, 0x0A)]
    | none =>
      let g := w.unit
      if 8 ≤ (s.streams g).length then .next (s.stall w 0x15) else
      let tok := match (valAt vals 0).tok? with | some k => some k | none => vals.findSome? Val.tok?
      let (id, s2) := s1.fresh
      let serial := (s2.cluster w.cluster).accSer + 1
      let s2 := s2.modCluster w.cluster fun c => { c with accSer := serial }
      let (count, s2) : Nat × State := match valAt vals 2 with
        | .dat v => (v.toNat % 2 ^ 32, s2)
        | .tok _ => let (l, s) := s2.freeWords 1; ((l.headD 0).toNat, s)
      let q := f.d.toNat - 0xD0
      let st : Stream :=
        { id := id, serial := serial, q := q, base := (valAt vals 0).bits.toNat, stride := signed 32 (valAt vals 1).bits.toNat, count := count
          wide := WellFormed.mSub f = 1, index := 0, pc := w.pc, tok := tok, clock := l.t.vc, walks := [] }
      if count = 0 then .next (s2.step1 w h) else
      let s2 := s2.modGroup g fun gr => { gr with slice := gr.slice.map fun sl => { sl with streams := sl.streams ++ [st] } }
      .next ((s2.markFifo g false q id).step1 w h)

/-! AGAT and ASCT (R234). -/

/-- The address of an element in the group's scratchpad, or the token that stands for it. -/
def padAt (size scr : Nat) (origin : Nat) (v : Val) : Except Word Nat :=
  match v with
  | .tok k => .error k
  | .dat a =>
    let n := a.toNat
    if n % size != 0 then .error (token 0x12 origin) else if scr < n + size then .error (token 0x10 origin) else .ok n

def execAgatDm (f : DMForm) (s : State) : Res :=
  let h := dmHead f
  let wide := dmWide f
  control s h [padBase f, dmIndex f] (.reg f.d wide) (fun w => w.group.isNone) fun w go vals =>
    let s1 := go []
    let g := w.group.getD 0
    let q := f.d.toNat - 0xD0
    if !s1.roomFor w q (vals.length * (if wide then 2 else 1)) then .next (s.stall w 3) else
    let serial := (s.cluster w.cluster).accSer + 1
    match s.group? g with
    | none => .next (s.issueFault w)
    | some gr =>
      let els := vals.flatMap fun (l, vs) =>
        match l.badTok with
        | some k => tokOut wide k
        | none =>
          match padAt (dmSize f) gr.scr serial (dmAddr f vs) with
          | .error k => tokOut wide k
          | .ok a => gr.padLoad (dmTy f) a
      let s2 := s1.modCluster w.cluster fun c => { c with accSer := serial }
      .next ((s2.setQueue w q (s2.queue w q ++ els.map QEl.val)).step1 w h)

def execAsctDm (f : DMForm) (s : State) : Res :=
  let h := dmHead f
  let n := if dmWide f then 2 else 1
  let q := f.d.toNat - 0xD0
  control s h [padBase f, dmIndex f] .none (fun w => w.group.isNone || !s.queueExists w q) fun w go vals =>
    let g := w.group.getD 0
    let need := w.acting.length * n
    let l := s.queue w q
    if queueReady l < need then .next (s.stall w 2) else
    let scr := match s.group? g with | some gr => gr.scr | none => 0
    let acting := vals.filter fun (l, _) => l.acts
    let asks : List (Lane × Except Word Nat × Dword) := acting.zipIdx.map fun ((x, vs), i) =>
      let lo := qelVal (l.getD (n * i) (.val Tw.zero))
      let hi := if n = 2 then qelVal (l.getD (n * i + 1) (.val Tw.zero)) else Tw.zero
      let at' : Except Word Nat :=
        if lo.tag then .error lo.val else if hi.tag then .error hi.val
        else match valAt vs 1 with
          | .tok k => .error k
          | .dat _ => padAt (dmSize f) scr w.origin (dmAddr f vs)
      (x, at', dw lo.val hi.val)
    let raises := vals.filterMap fun (x, _) => x.badTok.map fun k => (x, k, 0x0A)
    let raises := raises ++ asks.filterMap fun (x : Lane × Except Word Nat × Dword) => match x.2.1 with | .error k => some (x.1, k, 9) | .ok _ => none
    let kept := (acting.zipIdx.filter fun ((x, _), _) => raises.any fun r => r.1.v = x.v).flatMap fun (_, i) => (l.drop (n * i)).take n
    let s2 := (go raises).setQueue w q (kept ++ l.drop need)
    let s3 := asks.foldl (fun (s : State) (x : Lane × Except Word Nat × Dword) =>
      match x.2.1 with | .ok a => s.padStore g (dmSize f) a x.2.2 | .error _ => s) s2
    s3.finish w h (sortBy (fun a b => decide (a.1.v ≤ b.1.v)) raises)

/-! OPK (R222, R223). -/

/-- OP, SUB, LEN and the operands that the repertoire limits. DEDUCED (log entry 23): where the table names no SUB, any stands. -/
def packetOk (p : Packet) : Bool :=
  let rows := decide (1 ≤ p.len ∧ p.len ≤ 1024)
  match p.op with
  | 1 | 2 | 3 => true
  | 4 => decide (1 ≤ p.sub) && p.b.toNat % 8 = 0
  | 5 => decide (p.a < 2 ^ 63)
  | 6 => decide (p.sub ≤ 1)
  | 7 => decide (p.sub ≤ 2) && rows
  | 8 => decide (p.sub ≤ 1) && rows
  | 9 | 10 | 11 | 12 => rows
  | _ => false

def packetOf (vs : List Val) : Packet :=
  let w (i : Nat) : Word := lo32 (valAt vs i).bits
  ⟨fld (w 1).toNat 7 0, fld (w 1).toNat 15 8, fld (w 1).toNat 31 16, w 2, (dw (w 3) (w 4)).toNat, (valAt vs 5).bits,
    vs.findSome? Val.tok?, 0, (0, 0)⟩

/-- What one lane's packet meets; a raise for an address that was refused names that address. -/
inductive PkAim where
  | raise (k : Word) (cons : Nat) (va : Option Nat)
  | at (p : Place) (va pa next : Nat)
  | marked (k : Word)
  | miss (va : Nat)
deriving DecidableEq, Repr

/-- The package that a packet goes to; none where the MSE of no package serves it. -/
def targetOf (p : Place) : Option Target :=
  match p with
  | .home _ => some .self
  | .peer q => some (.peer q)
  | .fabric e => some (.fabric e)
  | _ => none

/-- Checks of R222 on an untagged packet. A tagged one inside a transaction is held marked poisoned (R102). The part of a row that lies in
another granule is translated too, and lies in the same package (log entry 113). -/
def State.packetAim (s : State) (w : Warp) (l : Lane) (vs : List Val) : PkAim :=
  let p := packetOf vs
  match l.badTok, p.tok with
  | some k, _ => .raise k 0x0A none
  | none, some k => if l.t.txn.isSome then .marked k else .raise k 6 none
  | none, none =>
    if !packetOk p then .raise (token 0x10 w.origin) 6 none else
    match s.aim w (packetUnit p.op) .write (valAt vs 0) with
    | .tok k => .raise k 6 none
    | .code c => .raise (token c w.origin) 6 (some (valAt vs 0).bits.toNat)
    | .miss va => .miss va
    | .ats _ => .raise (token 0x10 w.origin) 6 none
    | .at q va pa _ =>
      let past := (va / 2 ^ 16 + 1) * 2 ^ 16
      if targetOf q = none then .raise (token 0x10 w.origin) 6 none
      else if va + p.bytes ≤ past then .at q va pa 0 else
      match s.aim w 4 .write (.dat (BitVec.ofNat 64 past)) with
      | .at q' _ next _ => if targetOf q' = targetOf q then .at q va pa next else .raise (token 0x10 w.origin) 6 none
      | .code c => .raise (token c w.origin) 6 (some past)
      | .miss v => .miss v
      | _ => .raise (token 0x10 w.origin) 6 none

/-- Packets and transactions that this package holds (R418). -/
def State.heldHere (s : State) : Nat × Nat :=
  let own := s.threads.filterMap fun (_, t) => t.txn.bind fun x => if x.target = some .self then some x.held.length else none
  (own.length + s.pkg.held.length, own.foldl (· + ·) 0 + (s.pkg.held.foldl (fun a h => a + h.packets.length) 0))

/-- A packet whose address A lies in the package (R418). -/
def State.aInside (s : State) (cluster ctx : Nat) (p : Packet) : Bool :=
  match s.walk (rowOf cluster) ctx p.a false with
  | .ok l => l.attr != 3 && (match s.region l.pa with | some (.home _) => true | _ => false)
  | .error _ => true

/-- Why a transaction fails at this packet: reason 0x03, 0x04 or 0x05 (R196, R418). -/
def State.txnRefuses (s : State) (w : Warp) (x : Txn) (p : Packet) (t : Option Target) : Option Nat :=
  if x.expired s.now then some 4 else
  if x.failed.isSome then x.failed.map fun f => f.1.toNat else
  match x.target, t with
  | some a, some b => if a != b then some 5 else rest x p b
  | none, some b => rest x p b
  | _, none => if 64 ≤ x.held.length then some 3 else none
where
  rest (x : Txn) (p : Packet) (b : Target) : Option Nat :=
    let (txns, packets) := s.heldHere
    if 64 ≤ x.held.length then some 3
    else if b = .self && p.tok.isNone && ((p.op = 4 || p.op = 11 || p.op = 12)
      || ((p.op = 7 || p.op = 9 || p.op = 10) && !s.aInside w.cluster w.ctx p)) then some 3
    else if b = .self && (decide (32768 ≤ packets) || (x.held.isEmpty && decide (2048 ≤ txns))) then some 3
    else none

/-- Where a packet's value goes. -/
def opkDest (d : Byte) : Dest := if d = 0xF0 then .none else .reg d true

/-- One lane's packet leaves, or is held for its transaction. -/
def State.packetOne (s : State) (w : Warp) (f : DForm) (batch : Nat) (l : Lane) (vs : List Val) (aim : PkAim) : State :=
  match s.thread? l.key with
  | none => s
  | some t =>
    let scope := (WellFormed.mScope f).toNat
    let order := (WellFormed.mOrder f).toNat
    let p := { packetOf vs with next := match aim with | .at _ _ _ n => n | _ => 0 }
    let (k, s) := s.fresh
    let eff := match aim with | .at q _ _ _ => effectiveOrder scope order w.cluster q | _ => (order, false)
    let rel := match aim with | .at q _ _ _ => stampOf t scope eff.1 q | _ => none
    let base := { Thread.operation w l.key t batch 3 (.packet p) .window s.now with
      dst := opkDest f.d, scope := BitVec.ofNat 4 scope, order := BitVec.ofNat 3 eff.1, rel := rel }
    match t.txn with
    | none =>
      match aim with
      | .at q va pa _ =>
        let cls := match q with | .home _ => 3 | _ => 4
        let stamp := s.leaveStamp t w.cluster q true
        let t := (t.count cls).pendDst (opkDest f.d) k cls
        let t := if eff.2 then t.flag SDROP else t
        let o := { base with cls := cls, place := q, va := va, pa := pa, stamp := stamp
                             sentAt := max s.now (stamp.getD 0 * 24) }
        let t := match stamp with | some n => { t with vc := t.vc.set (dieOf w.cluster) n } | none => t
        ((s.setThread l.key t).setOp k o).depart k
      | _ => s
    | some x =>
      let target := match aim with | .at q _ _ _ => targetOf q | _ => x.target
      match s.txnRefuses w x p target with
      | some reason => s.failTxn l.key reason 0 0
      | none =>
        let o := match aim with
          | .at q va pa _ => { base with place := q, va := va, pa := pa }
          | _ => { base with place := (target.bind Target.place).getD .window }
        let x := { x with target := target, held := x.held ++ [k] }
        let t := ({ t with txn := some x }.count 4).pendDst (opkDest f.d) k 4
        let t := if eff.2 then t.flag SDROP else t
        ((s.setThread l.key t).setOp k { o with cls := 4, stage := .txn }).sendHeld k

def execOpkD (f : DForm) (s : State) : Res :=
  let h := dHead f
  let scope := (WellFormed.mScope f).toNat
  let srcs := [pairS1 f, .many f.s2 4 false (f.s2lk.getLsbD 1), .pair f.s3 (f.s3lk.getLsbD 1)]
  control s h srcs (.reg f.d true) (fun _ => false) fun w go vals =>
    if w.acting.any fun l => s.acquirePending l.key then .next (s.stall w 16) else
    let asks : List (Lane × List Val × PkAim) := vals.map fun (l, vs) => (l, vs, s.packetAim w l vs)
    let misses := asks.filterMap fun (x : Lane × List Val × PkAim) => match x.2.2 with | .miss va => some (granule va) | _ => none
    if !misses.isEmpty then .next (s.seek w misses [] false) else
    let raises := asks.filterMap fun (x : Lane × List Val × PkAim) => match x.2.2 with | .raise k c _ => some (x.1, k, c) | _ => none
    let goes := asks.filter fun (x : Lane × List Val × PkAim) => match x.2.2 with | .raise _ _ _ => false | _ => true
    let eff (x : Lane × List Val × PkAim) : Nat :=
      match x.2.2 with | .at q _ _ _ => (effectiveOrder scope (WellFormed.mOrder f).toNat w.cluster q).1 | _ => 0
    let waits (x : Lane × List Val × PkAim) : Bool :=
      (decide (2 ≤ eff x) && s.releasePending x.1.key)
        || ((eff x = 3 || eff x = 4) && !s.releaseReady x.1.key w.cluster x.1.t.vc scope false)
    if goes.any waits then .next (s.stall w 15) else
    let clsOf (x : Lane × List Val × PkAim) : Nat :=
      if x.1.t.txn.isSome then 4 else match x.2.2 with | .at (.home _) _ _ _ => 3 | _ => 4
    if goes.any fun x => decide (255 ≤ s.outstanding x.1.key (clsOf x)) then .next (s.stall w 5) else
    let s2 := asks.foldl (fun (s : State) (x : Lane × List Val × PkAim) =>
      match x.2.2 with
      | .raise k _ (some va) => s.modThread x.1.key fun t => t.noteFault (tokCode k) va .write
      | _ => s) (go raises)
    let (batch, s2) := s2.fresh
    let s3 := goes.foldl (fun (s : State) (x : Lane × List Val × PkAim) => s.packetOne w f batch x.1 x.2.1 x.2.2) s2
    s3.finish w h raises

end Sys2Proof.Machine
end

