-- ==== Sys2Proof/Machine/Launch.lean ====
section
/-! DEFINITION. Posting an act (spec/16 R349 to R354, R357): the header's checks, the act number, the status word; LAUNCH (spec/07
R197). -/

namespace Sys2Proof.Machine

/-! The header (R349). -/

def hdrRoaming (h : Nat) : Bool := bit h 0
def hdrAsl (h : Nat) : Bool := bit h 1
def hdrMemb (h : Nat) : Bool := bit h 3
def hdrPrio (h : Nat) : Nat := fld h 6 4
def hdrSwz (h : Nat) : Nat := fld h 10 8
def hdrNfifo (h : Nat) : Nat := fld h 13 11
def hdrQbind (h : Nat) : Nat := fld h 19 16
def hdrGrp (h : Nat) : Nat := fld h 47 32
def hdrEns (h : Nat) : Nat := fld h 55 48
def hdrNens (h : Nat) : Nat := fld h 95 64
def hdrNthr (h : Nat) : Nat := fld h 127 96
def hdrScr (h : Nat) : Nat := fld h 159 128
def hdrMirw (h : Nat) : Nat := fld h 176 160
def hdrAcc (h : Nat) : Nat := fld h 208 192
def hdrEntry (h : Nat) : Nat := fld h 319 256
def hdrAentry (h : Nat) : Nat := fld h 383 320
def hdrPtab (h : Nat) : Nat := fld h 447 384
def hdrWaddr (h : Nat) : Nat := fld h 511 448
def hdrWval (h : Nat) : Nat := fld h 543 512
def hdrSaddr (h : Nat) : Nat := fld h 639 576
def hdrStaddr (h : Nat) : Nat := fld h 703 640

/-- KINIT: the initial k registers. -/
def hdrK (h : Nat) : List Tw := (List.range 16).map fun n => Tw.data (BitVec.ofNat 32 (fld h (32 * n + 799) (32 * n + 768)))

def hdrReserved (h : Nat) : Bool :=
  fld h 2047 1280 != 0 || fld h 767 704 != 0 || fld h 255 209 != 0 || fld h 191 177 != 0 || fld h 31 20 != 0 || fld h 15 14 != 0 || bit h 7

/-- The fields that a roaming act holds at zero. -/
def hdrAnchoredOnly (h : Nat) : Bool :=
  hdrAsl h || hdrPtab h != 0 || hdrAcc h != 0 || hdrMirw h != 0 || hdrScr h != 0 || hdrSwz h != 0 || hdrNfifo h != 0 || hdrQbind h != 0

/-! What a cluster offers, and what a group takes (R357). -/

structure Take where
  slots : Nat
  blocks : Nat
  scratch : Nat
  acc : Nat
  fifos : Nat
  slices : Nat
deriving DecidableEq, Repr

def hdrTake (h : Nat) : Take :=
  ⟨(hdrGrp h + 31) / 32 * 32, hdrGrp h * hdrBlocks h, (hdrScr h + 4095) / 4096 * 4096, hdrAcc h, hdrNfifo h, b2n (hdrAsl h)⟩

/-- Scratchpad bytes of a cluster under the split mode in force (R366). -/
def splitBytes (split : Nat) : Nat := 2 ^ 20 - split * 2 ^ 17

/-- n groups stand together on one empty cluster. -/
def Take.fitsEmpty (t : Take) (split n : Nat) : Bool :=
  decide (n * t.slots ≤ 2048 ∧ n * t.blocks ≤ 4096 ∧ n * t.scratch ≤ splitBytes split ∧ n * t.acc ≤ 65536 ∧ n * t.fifos ≤ 16
    ∧ n * t.slices ≤ 32 ∧ n ≤ 64)

/-! Partitions (R364). -/

/-- The first row and the number of rows of the partition that holds a row. -/
def partitionFrom (map row : Nat) : Nat → Nat → Nat → Nat → Nat × Nat
  | 0, _, first, n => (first, n)
  | d + 1, node, first, n =>
    if !bit map node then (first, n)
    else if row < first + n / 2 then partitionFrom map row d (2 * node) first (n / 2)
    else partitionFrom map row d (2 * node + 1) (first + n / 2) (n / 2)

def State.partition (s : State) (row : Nat) : Nat × Nat := partitionFrom s.pkg.partmap.toNat row 5 1 0 32

/-- The rows of a context's partition. -/
def State.rowsOf (s : State) (ctx : Nat) : List Nat :=
  let (first, n) := s.partition (s.ctx ctx).part
  (List.range n).map fun i => first + i

/-! Posting. -/

/-- The lowest number that an ascending list lacks, from n on. -/
def lowestFree : List Nat → Nat → Nat
  | [], n => n
  | k :: r, n => if k < n then lowestFree r n else if k = n then lowestFree r (n + 1) else n

def State.freeAct (s : State) (ctx : Nat) : Option Nat :=
  let n := lowestFree ((s.acts.filter fun (k, _) => k / 65536 = ctx).map fun (k, _) => k % 65536) 0
  if n ≤ 65534 then some n else none

/-- The header at an address: its bits, or nothing where code 0x02 refuses it. One that lies outside the package has free bits, or fails
as the host, the peer or the fabric has it (R353, R397; log entry 4). -/
def State.readHeader (s : State) (cluster ctx va : Nat) : State × Option Nat :=
  match s.resolve cluster ctx va .read with
  | .error _ => (s, none)
  | .ok (s', l) =>
    let inside : State × Option Nat :=
      let at' (i : Nat) : Nat := s'.placed? (l.pa + 4 * i)
      if (List.range 64).any fun i => (s'.markAt (at' i)).isSome then (s', none)
      else (s', some ((List.range 64).foldr (fun i n => s'.readN (at' i) 4 + 2 ^ 32 * n) 0))
    match (if l.attr = 3 then .ok .host else s'.placeOf ctx l.pa) with
    | .error _ => (s', none)
    | .ok (.home _) => inside
    | .ok (.cxl _) => inside
    | .ok _ =>
      match s'.outside 64 with
      | (.ok ws, s'') => (s'', some (ws.foldr (fun w n => w.toNat + 2 ^ 32 * n) 0))
      | (.error _, s'') => (s'', none)

/-- An address that must be aligned and translate to writable device memory (code 0x0C); zero is none. -/
def State.addrOk (s : State) (cluster ctx addr align : Nat) : Bool :=
  addr = 0 || (addr % align = 0 && (match s.resolveDevice cluster ctx addr with | .ok _ => true | .error _ => false))

/-- The first of codes 0x05 to 0x0D of R353 that refuses a header. -/
def State.refuses (s : State) (cluster ctx h : Nat) : Option Nat :=
  let anchored := !hdrRoaming h
  if hdrReserved h || (hdrRoaming h && hdrAnchoredOnly h) then some 0x05
  else if anchored && (hdrGrp h = 0 || decide (1024 < hdrGrp h) || hdrEns h = 0 || decide (16 < hdrEns h) || decide (16384 < hdrGrp h * hdrEns h)) then
    some 0x06
  else if 192 < hdrRegs h then some 0x07
  else if hdrSwz h = 7 then some 0x08
  else if decide (2 ^ 20 < hdrScr h) || decide (65536 < hdrMirw h) || hdrMirw h % 4 != 0 || decide (hdrScr h < hdrMirw h)
      || decide (65536 < hdrAcc h) || decide (4 < hdrNfifo h) then some 0x09
  else if hdrEntry h % 2 != 0 || decide (2 ^ 56 ≤ hdrEntry h) || (hdrAsl h && (hdrAentry h % 2 != 0 || decide (2 ^ 56 ≤ hdrAentry h))) then
    some 0x0A
  else if anchored && !(hdrTake h).fitsEmpty (s.row (s.ctx ctx).part).split ((hdrEns h + 7) / 8) then some 0x0B
  else if !(s.addrOk cluster ctx (hdrWaddr h) 4 && s.addrOk cluster ctx (hdrSaddr h) 4 && s.addrOk cluster ctx (hdrStaddr h) 8
      && s.addrOk cluster ctx (hdrPtab h) 8) then some 0x0C
  else if (s.freeAct ctx).isNone then some 0x0D
  else none

/-- The act of an accepted header (R264, R269, R354); its level follows CEIL as that is written (R352). -/
def actOf (ctx num board ceil h posted : Nat) : Act :=
  let n := if hdrRoaming h then hdrNthr h else hdrNens h * hdrEns h * hdrGrp h
  { ctx := ctx, num := num, board := board, roaming := hdrRoaming h, header := h, state := 0, err := 0, ovf := false
    level := min (hdrPrio h) ceil, k := hdrK h, live := n, untrig := n, ctr := hdrNthr h, remote := [], remoteUntrig := 0
    signalled := false, fired := false, ready := false, placed := 0, retryAt := 0, retryGap := 256, lastRow := 32, inbox := []
    guest := none, preTrig := [], posted := posted }

/-- Refuse a post (R353): the code to LASTERR and, where STADDR was read and is valid, to its status word. -/
def State.refusePost (s : State) (cluster ctx board code : Nat) (staddr : Nat) : State :=
  let s := if board < 256 then s.setBoard board { s.board board with lasterr := BitVec.ofNat 8 code } else s
  if staddr = 0 ∨ staddr % 8 != 0 then s
  else (s.writeVirtual cluster ctx staddr (toBytes 8 (0xFFFF * 2 ^ 48 + code * 2 ^ 32 + 6))).1

/-- Post the header at an address to a callboard for a context (R352, R353). -/
def State.post (s : State) (cluster ctx board hdr : Nat) : State :=
  if hdr % 256 != 0 then s.refusePost cluster ctx board 0x01 0 else
  match s.readHeader cluster ctx hdr with
  | (s', none) => s'.refusePost cluster ctx board 0x02 0
  | (s', some h) =>
    let b := s.board board
    let refuse (code : Nat) : State := s'.refusePost cluster ctx board code (hdrStaddr h)
    if 256 ≤ board ∨ !bit b.ctl.toNat 15 ∨ fld b.ctl.toNat 5 0 != ctx then refuse 0x03
    else if 64 ≤ b.queue.length then refuse 0x04
    else match s'.refuses cluster ctx h, s'.freeAct ctx with
      | some code, _ => refuse code
      | none, none => refuse 0x0D
      | none, some n =>
        let (seq, s) := s'.fresh
        let s := s.setAct (actOf ctx n board (fld b.ctl.toNat 14 12) h seq)
        let s := s.setBoard board { s.board board with queue := b.queue ++ [actKey ctx n] }
        s.setActState ctx n 0

/-- LAUNCH: each executing thread waits as a release at .act (R307), then posts. -/
def execLaunchD (f : DForm) (s : State) : Res :=
  let h := dHead f
  control s h [pairS1 f, src8 f.s2 f.s2lk] .none Warp.someTxn fun w go vals =>
    let raises := vals.filterMap fun (l, vs) =>
      match l.badTok with
      | some k => some (l, k, 0x0A)
      | none => (vs.findSome? Val.tok?).map fun k => (l, k, 5)
    let goes := vals.filter fun (l, _) => !(raises.any fun r => r.1.v = l.v)
    if goes.any fun (l, _) => !s.releaseReady l.key w.cluster l.t.vc 6 false then .next (s.stall w 15) else
    let s2 := goes.foldl (fun s (_, vs) => s.post w.cluster w.ctx (valAt vs 1).bits.toNat (valAt vs 0).bits.toNat) (go raises)
    s2.finish w h raises

end Sys2Proof.Machine
end

