-- ==== Sys2Proof/Machine/Matrix.lean ====
section
/-! DEFINITION. The matrix array and the selection unit (spec/09 R242 to R260, spec/03 R73, R74, spec/04 R95, R96). -/

namespace Sys2Proof.Machine

/-! Element types (R247, R248). -/

/-- The width of an element, which is also the number of words of a row-block. -/
def mxWidth (t : Nat) : Nat := match t with | 0 | 7 | 8 => 4 | 3 | 4 => 16 | _ => 8
def mxFloat (t : Nat) : Bool := decide (t ≤ 4)
/-- The types that have scales. -/
def mxScaled (t : Nat) : Bool := decide (t ≤ 2)

def mxNum (t x : Nat) : Num :=
  match t with
  | 0 => e2m1.decode x | 1 => e4m3.decode x | 2 => e5m2.decode x | 3 => bf16.decode x | _ => f16.decode x

def mxInt (t x : Nat) : Int :=
  match t with
  | 5 => signed 8 x | 6 => (x % 256 : Nat) | 7 => signed 4 x | _ => (x % 16 : Nat)

/-- The 32 elements of a row-block, packed under R55. -/
def mxElems (t : Nat) (words : List Tw) : List Nat :=
  let n := mxWidth t
  (List.range 32).map fun e => (words.getD (e / (32 / n)) Tw.zero).val.toNat / 2 ^ (n * (e % (32 / n))) % 2 ^ n

/-- The first tagged word of a row-block, with the element at which it begins. -/
def mxTagged (t : Nat) (words : List Tw) : Option (Nat × Word) :=
  words.zipIdx.findSome? fun (w, i) => if w.tag then some (i * (32 / mxWidth t), w.val) else none

/-! One block of one accumulator (R73, R74). -/

/-- The scaled sum of the products of a block. -/
inductive MxSum where
  | nan (nv : Bool) | inf (s : Bool) | fin (m : Int) (e : Int)
deriving DecidableEq, Repr

/-- The sum of products of elements among which there is no NaN. -/
def mxDot : List (Num × Num) → MxSum
  | [] => .fin 0 0
  | (a, b) :: r =>
    match mulNum a b, mxDot r with
    | none, _ => .nan true
    | _, .nan nv => .nan nv
    | some (.inf s), .inf s' => if s = s' then .inf s else .nan true
    | some (.inf s), .fin _ _ => .inf s
    | some (.fin _ _ _), .inf s => .inf s
    | some (.fin s m e), .fin m' e' => let (x, y) := addExact (sm s m) e m' e'; .fin x y
    | some (.nan _ _ _), _ => .nan false

/-- v of R73, from the scales' bytes. -/
def mxBlock (sa sb : Nat) (a b : List Num) : MxSum :=
  if sa = 255 || sb = 255 || a.any Num.isNan || b.any Num.isNan then .nan false
  else match mxDot (a.zip b) with
    | .fin m e => .fin m (e + sa + sb - 254)
    | x => x

/-- RoundAcc(c + v), with the flags of R254. An infinity in c against the opposite one in v counts as +∞ and −∞ together.
DEDUCED (log entry 25). -/
def roundAcc (sat : Bool) (c : Nat) (v : MxSum) : Nat × Word :=
  let nan : Nat := 0x7FC00000
  match v with
  | .nan nv => (nan, when nv NV)
  | .inf s =>
    match f32.decode c with
    | .nan _ _ _ => (nan, 0)
    | .inf s' => if s = s' then (c, 0) else (nan, NV)
    | .fin _ _ _ => (f32.signBits s + f32.infBits, 0)
  | .fin m e =>
    if m = 0 then (c, 0) else
    match f32.decode c with
    | .nan _ _ _ => (nan, 0)
    | .inf _ => (c, 0)
    | .fin s m' e' =>
      let (x, y) := addExact (sm s m') e' m e
      let (b, fl, _) := f32.roundFull 0 sat (decide (x < 0)) x.natAbs y
      (b, fl &&& (OF ||| SAT))

/-- R74. -/
def intAcc (sat : Bool) (c : Nat) (sum : Int) : Nat × Word :=
  let x := signed 32 c + sum
  if sat then
    if x < -(2 : Int) ^ 31 then (0x80000000, SAT) else if (2 : Int) ^ 31 - 1 < x then (0x7FFFFFFF, SAT) else (wrap 32 x, 0)
  else (wrap 32 x, 0)

/-! The parameter block (R249). -/

structure MxPar where
  at_ : Nat
  bt : Nat
  sat : Bool
  aSrc : Bool
  bSrc : Bool
  aFifo : Nat
  bFifo : Nat
  m : Nat
  n : Nat
  kb : Nat
  flagEn : Bool
  flagW : Nat
  cBase : Nat
  cStr : Nat
  aOff : Nat
  aRstr : Nat
  aKstr : Nat
  bOff : Nat
  bRstr : Nat
  bKstr : Nat
  bList : Nat
  reserved : Bool

def MxPar.ofWords (ws : List Word) : MxPar :=
  let w (i : Nat) : Nat := (ws.getD i 0).toNat
  { at_ := fld (w 0) 3 0, bt := fld (w 0) 7 4, sat := bit (w 0) 8, aSrc := bit (w 0) 9, bSrc := bit (w 0) 10, aFifo := fld (w 0) 12 11
    bFifo := fld (w 0) 14 13, m := fld (w 0) 23 16, n := fld (w 0) 31 24, kb := fld (w 1) 11 0, flagEn := bit (w 1) 12
    flagW := fld (w 1) 30 13, cBase := fld (w 2) 15 0, cStr := fld (w 2) 31 16, aOff := w 3, aRstr := fld (w 4) 15 0
    aKstr := fld (w 4) 31 16, bOff := w 5, bRstr := fld (w 6) 15 0, bKstr := fld (w 6) 31 16, bList := w 7
    reserved := bit (w 0) 15 || bit (w 1) 31 }

/-- The parameter words that the operation reads (R243). -/
def MxPar.reads (p : MxPar) (mmab : Bool) (i : Nat) : Bool :=
  match i with
  | 3 | 4 => p.aSrc
  | 5 | 6 => p.bSrc
  | 7 => mmab
  | _ => true

/-- R245; a tile without entries has no last one (log entry 26). -/
def tileOk (acc cBase cStr m n : Nat) : Bool :=
  decide (n ≤ cStr) && (m = 0 || n = 0 || decide (cBase + (m - 1) * cStr + n - 1 < acc))

/-- The checks of R250, in order, on an operation with scale register counts na and nb where it names them. An operand of no rows or no
blocks has no row-block, and a list of no entries ends nowhere (log entry 26). -/
def MxPar.refuses (p : MxPar) (gr : Group) (mmab : Bool) (na nb : Option Nat) : Option Nat :=
  let scaleBad (t r : Nat) (n : Option Nat) : Bool := match n with
    | none => false
    | some k => !mxScaled t || decide (128 * k < r * p.kb)
  let beyond (t off rstr kstr r : Nat) : Bool :=
    r != 0 && p.kb != 0 && decide (gr.scr < off + (p.kb - 1) * kstr + (r - 1) * rstr + 4 * mxWidth t)
  if decide (8 < p.at_) || decide (8 < p.bt) || mxFloat p.at_ != mxFloat p.bt || p.reserved then some 0x10
  else if 128 < p.m ∨ 128 < p.n ∨ 1024 < p.kb then some 0x10
  else if !tileOk gr.nacc p.cBase p.cStr p.m p.n then some 0x10
  else if scaleBad p.at_ p.m na || scaleBad p.bt p.n nb then some 0x10
  else if (!p.aSrc && decide (gr.nfifo ≤ p.aFifo)) || (!p.bSrc && decide (gr.nfifo ≤ p.bFifo))
      || (!p.aSrc && !p.bSrc && p.aFifo = p.bFifo) then some 0x10
  else if p.flagEn && decide (gr.scr < 4 * p.flagW + 4) then some 0x10
  else if (p.aSrc && (p.aOff % 4 != 0 || p.aRstr % 4 != 0 || p.aKstr % 4 != 0))
      || (p.bSrc && (p.bOff % 4 != 0 || p.bRstr % 4 != 0 || p.bKstr % 4 != 0)) || (mmab && p.bList % 4 != 0) then some 0x12
  else if !mmab && ((p.aSrc && beyond p.at_ p.aOff p.aRstr p.aKstr p.m) || (p.bSrc && beyond p.bt p.bOff p.bRstr p.bKstr p.n)) then some 0x10
  else if mmab && p.kb != 0 && decide (gr.scr < p.bList + 4 * p.kb) then some 0x10
  else none

/-! Issue. -/

/-- The operation enters the group's queue; its serial is the count of operations that the cluster has accepted (R260). -/
def State.mxQueue (s : State) (w : Warp) (op : Option MxOp) : State :=
  let serial := (s.cluster w.cluster).matSer + 1
  let s := s.modCluster w.cluster fun c => { c with matSer := serial }
  match op with
  | none => s
  | some o =>
    s.modGroup (w.group.getD 0) fun gr => { gr with mq := gr.mq ++ [{ o with serial := serial, pc := w.pc, threads := w.acting.map fun l => l.key }] }

def MxOp.empty (kind : MxKind) (words : List Word) : MxOp :=
  { kind := kind, serial := 0, pc := 0, threads := [], words := words, type := 0, z := false, scaleA := [], scaleB := [], namedA := false
    namedB := false, rowMajorA := false, rowMajorB := false, started := false, takenA := [], takenB := [] }

/-- What a matrix instruction does in the elected lane (R243): its parameters, then a code that is raised, nothing to do, or an
operation. -/
inductive MxGo where
  | tok (k : Word) | code (c : Nat) | nothing | op (o : MxOp)
deriving DecidableEq, Repr

def runMatrix (f : DForm) (srcs : List Src) (go : State → Warp → Lane → Group → List Val → MxGo) (s : State) : Res :=
  let h := dHead f
  once s h srcs false (fun w => w.group.isNone) fun w start l vals =>
    let s1 := start []
    let raised (k : Word) (cons : Nat) : Res := (start [(l, k, cons)]).finish w h [(l, k, cons)]
    match l.badTok with
    | some k => raised k 0x0A
    | none =>
      if w.acting.any fun x => decide (255 ≤ s.outstanding x.key 2) then .next (s.stall w 5) else
      match s.group? (w.group.getD 0) with
      | none => .next (s.issueFault w)
      | some gr =>
        match go s w l gr vals with
        | .tok k => raised k 7
        | .code c => raised (token c w.origin) 7
        | .nothing => .next ((s1.mxQueue w none).step1 w h)
        | .op o => .next ((s1.mxQueue w (some o)).step1 w h)

/-- R251: byte q of an operand's scales, with the tag of its register. -/
def scaleByte (w : Warp) (r : Byte) (q : Nat) : Tw :=
  match w.lanes.find? fun x => x.v = q % 128 / 4 with
  | none => Tw.zero
  | some x =>
    let v := x.t.readFile (r.toNat + q / 128) w.origin
    if v.tag then v else .data (BitVec.ofNat 32 (v.val.toNat / 2 ^ (8 * (q % 4)) % 256))

def scaleBytes (w : Warp) (r : Byte) (n : Nat) : List Tw := if r = 0xF0 then [] else (List.range (128 * n)).map (scaleByte w r)

/-- MMA and MMAB. -/
def mmaGo (f : DForm) (mmab : Bool) (_ : State) (w : Warp) (_ : Lane) (gr : Group) (vals : List Val) : MxGo :=
  let words := vals.map fun v => lo32 v.bits
  match (valAt vals 0).tok? with
  | some k => .tok k
  | none =>
    let p := MxPar.ofWords words
    match (vals.zipIdx.filter fun x => p.reads mmab x.2).findSome? fun x => x.1.tok? with
    | some k => .tok k
    | none =>
      let na := (f.mod.extractLsb' 5 2).toNat + 1
      let nb := (f.mod.extractLsb' 3 2).toNat + 1
      match p.refuses gr mmab (if f.s2 = 0xF0 then none else some na) (if f.s3 = 0xF0 then none else some nb) with
      | some c => .code c
      | none =>
        if p.m = 0 ∨ p.n = 0 ∨ p.kb = 0 then .nothing else
        .op { MxOp.empty (if mmab then .mmab else .mma) words with
          scaleA := scaleBytes w f.s2 na, scaleB := scaleBytes w f.s3 nb, namedA := f.s2 != 0xF0, namedB := f.s3 != 0xF0
          rowMajorA := f.mod.getLsbD 8, rowMajorB := f.mod.getLsbD 7 }

def execMmaD (f : DForm) (s : State) : Res := runMatrix f [.many f.s1 8 false false] (mmaGo f false) s
def execMmabD (f : DForm) (s : State) : Res := runMatrix f [.many f.s1 8 false false] (mmaGo f true) s

/-- The tile of MZERO and MACC (R256): CBASE, CSTR, M, N, and whether it is refused. -/
def tileArgs (vals : List Val) : Nat × Nat × Nat × Nat × Bool :=
  let a := (valAt vals 0).bits.toNat
  let b := (valAt vals 1).bits.toNat
  (fld a 15 0, fld a 31 16, fld b 7 0, fld b 15 8, fld b 31 16 != 0)

def mzeroGo (_ : State) (_ : Warp) (_ : Lane) (gr : Group) (vals : List Val) : MxGo :=
  match vals.findSome? Val.tok? with
  | some k => .tok k
  | none =>
    let (cb, cs, m, n, hi) := tileArgs vals
    if decide (128 < m) || decide (128 < n) || hi || !tileOk gr.nacc cb cs m n then .code 0x10
    else if m = 0 ∨ n = 0 then .nothing
    else .op (MxOp.empty .mzero (vals.map fun v => lo32 v.bits))

def execMzeroD (f : DForm) (s : State) : Res := runMatrix f [src8 f.s1 f.s1lk, src8 f.s2 f.s2lk] mzeroGo s

/-- Words of one row of a MACC. -/
def maccWidth (type n : Nat) : Nat := if type = 5 then n else n / 2

/-- MACC at issue. Limits of the operands come before the alignment of SOFF and SSTR, and that before the odd N, the extent and the tile. DESIGN CHOICE
(log entry 141). -/
def maccGo (f : DForm) (_ : State) (_ : Warp) (_ : Lane) (gr : Group) (vals : List Val) : MxGo :=
  match vals.findSome? Val.tok? with
  | some k => .tok k
  | none =>
    let (cb, cs, m, n, hi) := tileArgs vals
    let type := (f.mod.extractLsb' 6 4).toNat
    let soff := (lo32 (valAt vals 2).bits).toNat
    let sstr := (hi32 (valAt vals 2).bits).toNat
    if decide (128 < m) || decide (128 < n) || hi then .code 0x10
    else if soff % 4 != 0 || sstr % 4 != 0 then .code 0x12
    else if (type != 5 && n % 2 != 0) || (m != 0 && n != 0 && decide (gr.scr < soff + (m - 1) * sstr + 4 * maccWidth type n))
        || !tileOk gr.nacc cb cs m n then .code 0x10
    else if m = 0 ∨ n = 0 then .nothing
    else
      let ws := [lo32 (valAt vals 0).bits, lo32 (valAt vals 1).bits, lo32 (valAt vals 2).bits, hi32 (valAt vals 2).bits]
      .op { MxOp.empty .macc ws with type := type, z := f.mod.getLsbD 5 }

def execMaccD (f : DForm) (s : State) : Res :=
  runMatrix f [src8 f.s1 f.s1lk, src8 f.s2 f.s2lk, .pair f.s3 false] (maccGo f) s

/-- SOFF, COLS, ROWS, K, RSTR, OOFF of R258. -/
structure SelPar where
  soff : Nat
  cols : Nat
  rows : Nat
  k : Nat
  rstr : Nat
  ooff : Nat
deriving DecidableEq, Repr

def SelPar.ofWords (ws : List Word) : SelPar :=
  let w (i : Nat) : Nat := (ws.getD i 0).toNat
  ⟨w 0, fld (w 1) 31 16, fld (w 1) 15 0, fld (w 2) 31 24, fld (w 2) 23 0, w 3⟩

/-- What SELC raises: the limits of its numbers before alignment, and that before extents and overlap. DESIGN CHOICE (log entry 141). -/
def SelPar.refuses (p : SelPar) (scr : Nat) : Option Nat :=
  let last := p.ooff + p.cols * p.k * 8
  if !(decide (1 ≤ p.cols ∧ p.cols ≤ 1024 ∧ 1 ≤ p.rows ∧ p.rows ≤ 16384 ∧ 1 ≤ p.k ∧ p.k ≤ 64)) then some 0x10
  else if p.soff % 4 != 0 || p.rstr % 4 != 0 || p.ooff % 8 != 0 then some 0x12
  else if scr < p.soff + (p.rows - 1) * p.rstr + 4 * p.cols ∨ scr < last then some 0x10
  else if (List.range p.rows).any fun r => decide (p.soff + r * p.rstr < last ∧ p.ooff < p.soff + r * p.rstr + 4 * p.cols) then some 0x10
  else none

def selcGo (_ : State) (_ : Warp) (_ : Lane) (gr : Group) (vals : List Val) : MxGo :=
  match vals.findSome? Val.tok? with
  | some k => .tok k
  | none =>
    let ws := vals.map fun v => lo32 v.bits
    match (SelPar.ofWords ws).refuses gr.scr with
    | some c => .code c
    | none => .op (MxOp.empty .selc ws)

def execSelcD (f : DForm) (s : State) : Res := runMatrix f [.many f.s1 4 false false] selcGo s

/-! Taking operands from FIFOs (R246, R248). -/

/-- The words that an operation takes from its FIFOs. -/
def MxOp.needs (o : MxOp) : Nat × Nat :=
  let p := MxPar.ofWords o.words
  match o.kind with
  | .mma | .mmab => (if p.aSrc then 0 else p.m * p.kb * mxWidth p.at_, if p.bSrc then 0 else p.n * p.kb * mxWidth p.bt)
  | _ => (0, 0)

/-- The values at the head of a FIFO, at most n. -/
def takeVals : Nat → List QEl → List Tw × List QEl
  | n + 1, .val v :: r => let (a, b) := takeVals n r; (v :: a, b)
  | _, l => ([], l)

/-- The operation at the head of the queue, where it has begun, takes what its FIFOs hold. -/
def Group.feed (gr : Group) : Group :=
  match gr.mq with
  | [] => gr
  | o :: r =>
    if !o.started then gr else
    let p := MxPar.ofWords o.words
    let (na, nb) := o.needs
    let (a, qa) := takeVals (na - o.takenA.length) (get gr.fifos p.aFifo [])
    let gr := if a.isEmpty then gr else { gr with fifos := put gr.fifos p.aFifo qa }
    let (b, qb) := takeVals (nb - o.takenB.length) (get gr.fifos p.bFifo [])
    let gr := if b.isEmpty then gr else { gr with fifos := put gr.fifos p.bFifo qb }
    if a.isEmpty && b.isEmpty then gr
    else { gr with mq := { o with takenA := o.takenA ++ a, takenB := o.takenB ++ b } :: r, mxDog := 0 }

/-- All operands of the head operation have come. -/
def MxOp.fed (o : MxOp) : Bool :=
  let (na, nb) := o.needs
  decide (na ≤ o.takenA.length) && decide (nb ≤ o.takenB.length)

/-- MATRIX_OPERATION_START (R244): the array or the selection unit begins the head of a group's queue. -/
def execMatrixOperationStart (group : Nat) (s : State) : Res :=
  match s.group? group with
  | none => .refused .notEnabled
  | some gr =>
    match gr.mq with
    | [] => .refused .notEnabled
    | o :: r =>
      if o.started || (s.ctx gr.ctx).low then .refused .notEnabled
      else .next (s.setGroup group ({ gr with mq := { o with started := true } :: r, mxDog := 0 }.feed))

/-! The product (R252, R253). -/

/-- The index of block p, or the token that an MMAB entry contributes. -/
def mxIndex (o : MxOp) (gr : Group) (p : Nat) : Except Word Nat :=
  match o.kind with
  | .mmab =>
    let e := get gr.pad ((MxPar.ofWords o.words).bList / 4 + p) Tw.zero
    if e.tag then .error e.val
    else if fld e.val.toNat 31 16 != 0 then .error (token 0x10 o.serial)
    else .ok (fld e.val.toNat 15 0)
  | _ => .ok p

/-- A row-block: of A (`b` false) or B, row i, at position p, of K block kb. -/
def mxRow (o : MxOp) (gr : Group) (b : Bool) (i p kb : Nat) : List Tw :=
  let x := MxPar.ofWords o.words
  let t := if b then x.bt else x.at_
  let n := mxWidth t
  if if b then x.bSrc else x.aSrc then
    let at' := (if b then x.bOff else x.aOff) + kb * (if b then x.bKstr else x.aKstr) + i * (if b then x.bRstr else x.aRstr)
    (List.range n).map fun w => if gr.scr < at' + 4 * w + 4 then .tok (token 0x10 o.serial) else get gr.pad (at' / 4 + w) Tw.zero
  else
    let r := if b then x.n else x.m
    ((if b then o.takenB else o.takenA).drop ((p * r + i) * n)).take n

/-- The scale of row i at position p (R251). -/
def mxScale (o : MxOp) (b : Bool) (i p : Nat) : Tw :=
  let x := MxPar.ofWords o.words
  let r := if b then x.n else x.m
  if if b then o.namedB else o.namedA then
    (if b then o.scaleB else o.scaleA).getD (if if b then o.rowMajorB else o.rowMajorA then i * x.kb + p else p * r + i) Tw.zero
  else .data 0x7F

/-- What c(i, j) takes from block kb at position p: its scales, its elements of A and of B. -/
structure MxIn where
  sa : Tw
  sb : Tw
  a : List Tw
  b : List Tw
deriving DecidableEq, Repr

def mxIn (o : MxOp) (gr : Group) (i j p kb : Nat) : MxIn :=
  let float := mxFloat (MxPar.ofWords o.words).at_
  ⟨if float then mxScale o false i p else .data 0x7F, if float then mxScale o true j p else .data 0x7F, mxRow o gr false i p kb, mxRow o gr true j p kb⟩

/-- R95: the candidate of the lowest k in a block, with its k there; at equal k the order is sa, sb, a, b. -/
def mxCandidate (ta tb : Nat) (x : MxIn) : Option (Nat × Word) :=
  if x.sa.tag then some (0, x.sa.val) else if x.sb.tag then some (0, x.sb.val) else
  match mxTagged ta x.a, mxTagged tb x.b with
  | none, none => none
  | some x, none => some x
  | none, some y => some y
  | some x, some y => if x.1 ≤ y.1 then some x else some y

/-- The candidate of c(i, j) over the operation: a tagged or bad list entry, the first of them, ahead of the elements and scales, of which that of the
lowest k, where block kb begins at 32 × kb (R95, R253). -/
def mxFirst (o : MxOp) (gr : Group) (i j : Nat) : Option Word :=
  let x := MxPar.ofWords o.words
  match (List.range x.kb).findSome? fun p => match mxIndex o gr p with | .error k => some k | .ok _ => none with
  | some k => some k
  | none => ((List.range x.kb).foldl (fun (best : Option (Nat × Word)) p =>
      match mxIndex o gr p with
      | .error _ => best
      | .ok kb => match mxCandidate x.at_ x.bt (mxIn o gr i j p kb), best with
        | none, _ => best
        | some (n, k), none => some (32 * kb + n, k)
        | some (n, k), some y => if y.1 ≤ 32 * kb + n then best else some (32 * kb + n, k)) none).map fun y => y.2

/-- An accumulator in an operation: its value, the flags so far, and whether a residue check of it has failed. -/
structure MxAcc where
  c : Tw
  flags : Word
  failed : Bool
deriving DecidableEq, Repr

/-- One block of c(i, j), which adds nothing once c holds a token. A residue check that fails is named by its block, row and column; it is one of an
update that is performed (R260). -/
def mxStep (o : MxOp) (gr : Group) (upset : List Nat) (i j : Nat) (c : MxAcc) (p : Nat) : MxAcc :=
  let x := MxPar.ofWords o.words
  if c.c.tag then c else
  match mxIndex o gr p with
  | .error k => { c with c := .tok k }
  | .ok kb =>
    let v := mxIn o gr i j p kb
    match mxCandidate x.at_ x.bt v with
    | some k => { c with c := .tok k.2 }
    | none =>
      if upset.contains ((p * x.m + i) * x.n + j) then { c with c := .tok (token 0x22 o.serial), failed := true } else
      let ea := mxElems x.at_ v.a
      let eb := mxElems x.bt v.b
      let (v, fl) :=
        if mxFloat x.at_ then
          roundAcc x.sat c.c.val.toNat (mxBlock v.sa.val.toNat v.sb.val.toNat (ea.map (mxNum x.at_)) (eb.map (mxNum x.bt)))
        else
          intAcc x.sat c.c.val.toNat ((ea.zip eb).foldl (fun n (u, w) => n + mxInt x.at_ u * mxInt x.bt w) 0)
      { c with c := .data (BitVec.ofNat 32 v), flags := c.flags ||| fl }

/-- c(i, j) after the operation: the token that it held, else that of the first candidate, else the sum in list order (R95, R252). Its flags are those of
a c that ends untagged (R254; log entry 27). -/
def mxCell (o : MxOp) (gr : Group) (upset : List Nat) (i j : Nat) : MxAcc :=
  let x := MxPar.ofWords o.words
  let old := get gr.acc (x.cBase + i * x.cStr + j) Tw.zero
  if old.tag then ⟨old, 0, false⟩ else
  let r := (List.range x.kb).foldl (mxStep o gr upset i j) ⟨old, 0, false⟩
  let r := match mxFirst o gr i j with | some k => { r with c := .tok k } | none => r
  if r.c.tag then { r with flags := 0 } else r

/-- The entries of a tile, by row and column. -/
def tileOf (m n : Nat) : List (Nat × Nat) := (List.range m).flatMap fun i => (List.range n).map fun j => (i, j)

/-- The product: every accumulator, then the flag word. Each failed residue check is reported (R104, R260). -/
def mmaDone (s : State) (g : Nat) (gr : Group) (o : MxOp) (upset : List Nat) : State :=
  let x := MxPar.ofWords o.words
  let cells := (tileOf x.m x.n).map fun (i, j) => (x.cBase + i * x.cStr + j, mxCell o gr upset i j)
  let s := s.setGroup g { gr with acc := cells.foldl (fun m (k, r) => putTw m k r.c) gr.acc }
  let flags := cells.foldl (fun f (_, r) => f ||| r.flags) (0 : Word)
  let s := cells.foldl (fun s (_, r) => if r.failed then s.reliability 3 0x22 gr.cluster 8 gr.ctx 0 else s) s
  if x.flagEn then
    let old := get gr.pad x.flagW Tw.zero
    s.padWrite g x.flagW ⟨old.tag, old.val ||| flags⟩
  else s

/-! MZERO, MACC, SELC. -/

/-- CBASE, CSTR, M, N of a queued MZERO or MACC. -/
def MxOp.tile (o : MxOp) : Nat × Nat × Nat × Nat :=
  let a := (o.words.getD 0 0).toNat
  let b := (o.words.getD 1 0).toNat
  (fld a 15 0, fld a 31 16, fld b 7 0, fld b 15 8)

def clearTile (acc : Map Tw) (o : MxOp) : Map Tw :=
  let (cb, cs, m, n) := o.tile
  (tileOf m n).foldl (fun acc (i, j) => drop acc (cb + i * cs + j)) acc

/-- Round(c, rne) to FP16 or BF16 (R257). -/
def maccHalf (type : Nat) (c : Tw) : Nat := ((convert false type 0xA 0 false c.val.toNat).map fun r => r.1).getD 0

/-- Word t of row i of a MACC. -/
def maccWord (gr : Group) (o : MxOp) (i t : Nat) : Tw :=
  let (cb, cs, _, _) := o.tile
  let c (j : Nat) : Tw := get gr.acc (cb + i * cs + j) Tw.zero
  if o.type = 5 then c t
  else
    let lo := c (2 * t)
    let hi := c (2 * t + 1)
    if lo.tag then lo else if hi.tag then hi
    else .data (BitVec.ofNat 32 (maccHalf o.type lo + maccHalf o.type hi * 2 ^ 16))

/-- The scratchpad words that a MACC writes, in order. -/
def maccWrites (gr : Group) (o : MxOp) : List (Nat × Tw) :=
  let (_, _, m, n) := o.tile
  let soff := (o.words.getD 2 0).toNat
  let sstr := (o.words.getD 3 0).toNat
  (tileOf m (maccWidth o.type n)).map fun (i, t) => ((soff + i * sstr) / 4 + t, maccWord gr o i t)


/-- The outputs of one column of a SELC, rank by rank: index, then score (R259). -/
def selcColumn (gr : Group) (p : SelPar) (c : Nat) : List (Tw × Tw) :=
  let scores := (List.range p.rows).map fun r => (r, get gr.pad ((p.soff + r * p.rstr + 4 * c) / 4) Tw.zero)
  match scores.find? fun x => x.2.tag with
  | some (_, v) => List.replicate p.k (v, v)
  | none =>
    let sorted := sortBy (fun (x y : Nat × Tw) => decide (scoreKey y.2.val ≤ scoreKey x.2.val)) scores
    let out := (sorted.take p.k).map fun (r, v) => (Tw.data (BitVec.ofNat 32 r), v)
    out ++ List.replicate (p.k - out.length) (Tw.data 0xFFFFFFFF, Tw.data 0xFF800000)

def selcWrites (gr : Group) (o : MxOp) : List (Nat × Tw) :=
  let p := SelPar.ofWords o.words
  (List.range p.cols).flatMap fun c => (selcColumn gr p c).zipIdx.flatMap fun ((i, v), t) =>
    let w := p.ooff / 4 + (c * p.k + t) * 2
    [(w, i), (w + 1, v)]

/-- Every effect of the head operation. -/
def State.mxDone (s : State) (g : Nat) (gr : Group) (o : MxOp) (upset : List Nat) : State :=
  match o.kind with
  | .mma | .mmab => mmaDone s g gr o upset
  | .mzero => s.setGroup g { gr with acc := clearTile gr.acc o }
  | .macc =>
    let s' := if o.z then s.setGroup g { gr with acc := clearTile gr.acc o } else s
    (maccWrites gr o).foldl (fun s (k, v) => s.padWrite g k v) s'
  | .selc => (selcWrites gr o).foldl (fun s (k, v) => s.padWrite g k v) s

/-- A retired operation lowers the class 2 count of its threads (R203, R244). -/
def State.mxRetire (s : State) (g : Nat) (o : MxOp) : State :=
  let s := s.modGroup g fun gr => { gr with mq := gr.mq.drop 1 }
  (o.threads.foldl State.wake s).freeGroup g

/-- MATRIX_OPERATION_COMPLETE (R244, R252 to R260). -/
def execMatrixOperationComplete (group : Nat) (upset : List Nat) (s : State) : Res :=
  match s.group? group with
  | none => .refused .notEnabled
  | some gr =>
    match gr.mq with
    | [] => .refused .notEnabled
    | o :: _ =>
      if !o.started || !o.fed || (s.ctx gr.ctx).low then .refused .notEnabled
      else .next ((s.mxDone group gr o upset).mxRetire group o)

end Sys2Proof.Machine
end

