-- ==== Sys2Proof/Machine/Slice.lean ====
section
/-! DEFINITION. ACCESS_ISSUE: one instruction of an access slice (spec/08 R232, spec/12 R323). -/

namespace Sys2Proof.Machine

/-- The meaning of an instruction of the access subset (`Laws.sliceExec_eq`). -/
def sliceExec (i : Instr) (s : State) : Res :=
  match i with
  | .movH f => execMovH f s
  | .iaddH f => execIaddH f s
  | .isubH f => execIsubH f s
  | .imulH f => execImulH f s
  | .andH f => execAndH f s
  | .orH f => execOrH f s
  | .xorH f => execXorH f s
  | .shlH f => execShlH f s
  | .shrH f => execShrH f s
  | .sarH f => execSarH f s
  | .iminH f => execIminH f s
  | .imaxH f => execImaxH f s
  | .movW f => execMovW f s
  | .iaddW f => execIaddW f s
  | .isubW f => execIsubW f s
  | .imulW f => execImulW f s
  | .imulhW f => execImulhW f s
  | .iminW f => execIminW f s
  | .imaxW f => execImaxW f s
  | .andW f => execAndW f s
  | .orW f => execOrW f s
  | .xorW f => execXorW f s
  | .andnW f => execAndnW f s
  | .notW f => execNotW f s
  | .shlW f => execShlW f s
  | .shrW f => execShrW f s
  | .sarW f => execSarW f s
  | .rotW f => execRotW f s
  | .popcW f => execPopcW f s
  | .clzW f => execClzW f s
  | .ctzW f => execCtzW f s
  | .brevW f => execBrevW f s
  | .inegW f => execInegW f s
  | .iabsW f => execIabsW f s
  | .iaddWimm f => execIaddWimm f s
  | .imulWimm f => execImulWimm f s
  | .andWimm f => execAndWimm f s
  | .orWimm f => execOrWimm f s
  | .xorWimm f => execXorWimm f s
  | .shlWimm f => execShlWimm f s
  | .shrWimm f => execShrWimm f s
  | .sarWimm f => execSarWimm f s
  | .rotWimm f => execRotWimm f s
  | .iminWimm f => execIminWimm f s
  | .imaxWimm f => execImaxWimm f s
  | .moviWi f => execMoviWi f s
  | .iaddWi f => execIaddWi f s
  | .imulWi f => execImulWi f s
  | .andWi f => execAndWi f s
  | .orWi f => execOrWi f s
  | .xorWi f => execXorWi f s
  | .iminWi f => execIminWi f s
  | .imaxWi f => execImaxWi f s
  | .braWi f => execBraWi f s
  | .checkW f => execCheckW f s
  | .nopW f => execNopW f s
  | .exitW f => execExitW f s
  | .movD f => execMovD f s
  | .iaddD f => execIaddD f s
  | .iaddxD f => execIaddxD f s
  | .isubD f => execIsubD f s
  | .imulD f => execImulD f s
  | .imulhD f => execImulhD f s
  | .imadD f => execImadD f s
  | .iabsD f => execIabsD f s
  | .inegD f => execInegD f s
  | .iminD f => execIminD f s
  | .imaxD f => execImaxD f s
  | .icmpD f => execIcmpD f s
  | .selD f => execSelD f s
  | .andD f => execAndD f s
  | .orD f => execOrD f s
  | .xorD f => execXorD f s
  | .notD f => execNotD f s
  | .andnD f => execAndnD f s
  | .tbl3D f => execTbl3D f s
  | .shlD f => execShlD f s
  | .shrD f => execShrD f s
  | .sarD f => execSarD f s
  | .rotD f => execRotD f s
  | .funnelD f => execFunnelD f s
  | .bfxD f => execBfxD f s
  | .bfiD f => execBfiD f s
  | .popcD f => execPopcD f s
  | .clzD f => execClzD f s
  | .ctzD f => execCtzD f s
  | .brevD f => execBrevD f s
  | .leaD f => execLeaD f s
  | .ptblD f => execPtblD f s
  | .pmovD f => execPmovD f s
  | .checkD f => execCheckD f s
  | .ispoiD f => execIspoiD f s
  | .movDp f => execMovDp f s
  | .iaddDp f => execIaddDp f s
  | .isubDp f => execIsubDp f s
  | .imulDp f => execImulDp f s
  | .iminDp f => execIminDp f s
  | .imaxDp f => execImaxDp f s
  | .andDp f => execAndDp f s
  | .orDp f => execOrDp f s
  | .xorDp f => execXorDp f s
  | .shlDp f => execShlDp f s
  | .shrDp f => execShrDp f s
  | .braDi f => execBraDi f s
  | .brxD f => execBrxD f s
  | .exitD f => execExitD f s
  | .nopD f => execNopD f s
  | .moviDi f => execMoviDi f s
  | .ldDm f => execLdDm f s
  | .ldfDm f => execLdfDm f s
  | .ldsDm f => execLdsDm f s
  | .stDm f => execStDm f s
  | .stsDm f => execStsDm f s
  | .agatDm f => execAgatDm f s
  | .asctDm f => execAsctDm f s
  | _ => .refused .notEnabled

def sliceDecoded (d : Decoded) (s : State) : Res :=
  match d with
  | .early i => sliceExec i s
  | .late (.astrD f) => execAstrD f s
  | .late _ => .refused .notEnabled

/-- The slice of a group fetches and does what it finds, as a slot does; `State.upset` is the lanes whose residue check fails (R142). -/
def State.sliceNow (s : State) (group : Nat) : Res :=
  let s := { s with cur := .slice group }
  match s.front with
  | none => .refused .notEnabled
  | some f =>
    match s.fetched f with
    | .ok d _ => sliceDecoded d s
    | .fault cause code va => .next (s.takeInstrFault f cause code va)
    | .miss va => .next (s.stallFor (rowOf f.cluster) f.ctx (granule va) f.user)

/-- The slice of a group has issued: it waits for nothing in the state that its step gives. -/
def State.sliceIssues (group : Nat) : Res → Bool
  | .next s => ((s.group? group).bind Group.slice).all fun sl => sl.wait = 0
  | _ => false

/-- The place of a base slot in the rotation that has come to another: ascending, round to the lowest again. -/
def rotation (last base : Nat) : Nat := (base + 2047 - last) % 2048

/-- The slices that the access processor of a cluster takes before that of a group, the first ones first. -/
def State.slicesBefore (s : State) (cluster base : Nat) : List Nat :=
  let last := (s.cluster cluster).access.2
  (s.groups.filter fun (_, g) => g.cluster = cluster && (g.slice.any Slice.running) && decide (rotation last g.base < rotation last base)).map
    fun (k, _) => k

/-- ACCESS_ISSUE: one access-slice instruction of a cluster in a core cycle, from the first slice of the rotation that can issue. A slice
that cannot has its wait noted at any time (R323). -/
def execAccessIssue (group : Nat) (s : State) : Res :=
  let c := group / 2048
  if (s.row (rowOf c)).clkUntil != 0 then .refused .notEnabled else
  let r := s.sliceNow group
  if !State.sliceIssues group r then r else
  if (s.cluster c).access.1 = s.coreCycle c + 1 || (s.slicesBefore c (group % 2048)).any (fun g => State.sliceIssues g (s.sliceNow g)) then
    .refused .notEnabled
  else
    match r with
    | .next s' => .next (s'.modCluster c fun v => { v with access := (s.coreCycle c + 1, group % 2048) })
    | r => r

end Sys2Proof.Machine
end

