-- ==== Sys2Proof/Machine/Returns.lean ====
section
/-! DEFINITION. How an operation retires (spec/08 R203, R216, R188, R190, spec/02 R48 to R50, spec/11 R300, R301): the value that comes
back, its destination, its class; and the ways in which an operation that left the package ends without its reply (spec/18 R396,
spec/19 R409, R412, R413, R415). -/

namespace Sys2Proof.Machine

def Op.origin (o : Op) : Nat := originOf o.pc

/-- The width of what comes back. -/
def Op.wide (o : Op) : Bool :=
  match o.dst with
  | .reg _ w => w
  | .queue _ w => w
  | .tape _ => true
  | _ => false

/-- It brings something back: a value for a destination, or what a load read for none. -/
def Op.returns (o : Op) : Bool := o.dst != .none || (match o.work with | .load _ _ _ | .ldw _ | .ragged _ _ _ _ _ _ _ => true | _ => false)

/-- A wait on a peer's word, which the peer's MSE performs (R306). -/
def Op.watches (o : Op) : Bool := match o.work with | .watch => true | _ => false

/-- The operation goes to a place outside the package. -/
def Op.abroad (o : Op) : Bool :=
  match o.place with
  | .host | .hostRaw | .peer _ | .fabric _ => true
  | _ => false

/-- The unit that asked: a copy engine, or a cluster. -/
def Op.asker (o : Op) : Nat := match o.issuer with | .copy e _ => 768 + e | _ => o.cluster

/-- A value as the form delivers it. -/
def Op.shape (o : Op) (v : Dword) : List Tw :=
  match o.work with
  | .load type _ _ => loadOut type.toNat v.toNat
  | .ldw type => loadOut type.toNat v.toNat
  | .ragged type _ _ _ _ _ _ => loadOut type.toNat v.toNat
  | .atomic _ type _ _ => loadOut type.toNat v.toNat
  | _ => [.data (lo32 v), .data (hi32 v)]

def Op.tokens (o : Op) (code : Nat) : List Tw := tokOut o.wide (token code o.origin)

/-- The operation has its result, and waits only for its turn to retire; at a host the next of its instruction may go (R218). -/
def State.answer (s : State) (k : Nat) (vals : List Tw) (flags : BitVec 5 := 0) : State :=
  let s' := s.modOp k fun o => { o with stage := .performed, reply := vals, flags := flags }
  if (find s.ops k).any Op.abroad then s'.routeHeld else s'

/-- A code that a read meets after issue, with the recovery address it leaves (R398, R417). -/
def State.answerCode (s : State) (k : Nat) (code va : Nat) : State :=
  match find s.ops k with
  | none => s
  | some o =>
    let s := s.answer k (o.tokens code)
    match o.threadKey with
    | some key => s.noteFault key code va
    | none => s

/-! The ragged load beyond its first read (R216). -/

/-- n bytes of a line at an address, or the code of its mark. -/
def Line.word (l : Line) (pa n : Nat) : Except Byte Dword :=
  match l.marks.getD (pa % 64 / 32) none with
  | some c => .error c
  | none => .ok (BitVec.ofNat 64 (ofBytes ((l.bytes.drop (pa % 64)).take n)))

/-- The host's address of a virtual address that a TLB holds for a cluster (R397). -/
def State.hostHeld (s : State) (cluster ctx va : Nat) : Option Nat :=
  ((s.row (rowOf cluster)).tlb.find? fun e =>
    e.ctx = ctx && e.host && (e.cluster = none || e.cluster = some cluster) && decide (e.base ≤ va) && decide (va < e.base + e.bytes)).map fun e => e.pa + (va - e.base)

/-- Its next read, at an address translated where the operation stands: it is sent, a held line serves it at once (R208, R314), or it waits for
the host's translation (R397). The order of an LDG is that of its element, at the element's place (R215, R290). -/
def State.raggedAt (s : State) (k : Nat) (va align : Nat) (got : List Dword) : State × Option (Except Byte Dword) :=
  match find s.ops k with
  | none => (s, none)
  | some o =>
    match o.work with
    | .ragged type item grp off _ _ inst =>
      if va % align != 0 then (s.answerCode k 0x12 va, none) else
      match s.resolve o.cluster o.ctx va .read with
      | .error c => (s.answerCode k c.toNat va, none)
      | .ok (s', leaf) =>
        let ro := decide (leaf.attr = 2)
        let next : Op := { o with work := .ragged type item grp off got ro inst, va := va, pa := s'.cellOf leaf.pa, stage := .sent, eg := none
                                  sentAt := s.now, hop := (o.cluster, 0), seen := none }
        let at' (p : Place) : Op × Bool :=
          if got.length = 5 ∧ 2 ≤ o.order.toNat then
            let (eff, drops) := effectiveOrder o.scope.toNat o.order.toNat o.cluster p
            ({ next with place := p, order := BitVec.ofNat 3 eff }, drops)
          else ({ next with place := p }, false)
        let put (p : Place) : State :=
          match at' p, o.threadKey with
          | (x, true), some key => (s'.setOp k x).modThread key fun t => t.flag SDROP
          | (x, _), _ => s'.setOp k x
        if leaf.attr = 3 then
          (match s'.hostHeld o.cluster o.ctx va with
          | some pa => (((put .host).modOp k fun x => { x with pa := pa }).depart k, none)
          | none => (((put .host).modOp k fun x => { x with stage := .ats }).askAts o.ctx va false (.op k), none))
        else
        match s'.placeOf o.ctx leaf.pa with
        | .error c => (s'.answerCode k c va, none)
        | .ok p =>
          match (if ro then s'.heldLine o.cluster leaf.pa else none) with
          | some line =>
            (((put p).modOp k fun x => { x with seen := some (s'.stampAt leaf.pa) }).keepLine o.cluster inst line, some (line.word leaf.pa next.span))
          | none => ((put p).depart k, none)
    | _ => (s, none)

/-- What follows one value that a ragged load has read: DATA, OFFS, NGRP with PITCH, two offsets, the element. -/
def State.raggedNext (s : State) (k : Nat) (v : Dword) : State × Option (Except Byte Dword) :=
  match find s.ops k with
  | none => (s, none)
  | some o =>
    match o.work with
    | .ragged type item grp off got _ _ =>
      let l := got ++ [v]
      let w (i : Nat) : Nat := (l.getD i 0).toNat
      let offs := w 1
      match l.length with
      | 1 => s.raggedAt k (o.va + 8) 8 l
      | 2 => s.raggedAt k (o.va + 8) 8 l
      | 3 => if fld (w 2) 31 0 ≤ grp.toNat then (s.answer k (o.tokens 0x42), none) else s.raggedAt k ((offs + 4 * grp.toNat) % 2 ^ 64) 4 l
      | 4 => s.raggedAt k ((offs + 4 * grp.toNat + 4) % 2 ^ 64) 4 l
      | 5 =>
        let lo := w 3 % 2 ^ 32
        let hi := w 4 % 2 ^ 32
        if hi < lo ∨ hi - lo ≤ item.toNat then (s.answer k (o.tokens 0x42), none)
        else if 2 ^ 32 ≤ lo + item.toNat then
          let s := s.answer k (o.tokens 0x41)
          (match o.threadKey with | some key => s.modThread key fun t => t.flag FLD | none => s, none)
        else
          let size := typeBytes type.toNat
          s.raggedAt k (wrap 64 ((w 0 : Int) + ((lo + item.toNat) * fld (w 2) 63 32 : Nat) + off * size)) size l
      | _ => (s.answer k (loadOut type.toNat v.toNat), none)
    | _ => (s, none)

/-- A ragged load goes on with a value, or ends with a code, as far as held lines serve it: it makes at most six reads. -/
def raggedRun (k : Nat) : Nat → State → Except Byte Dword → State
  | 0, s, _ => s
  | _ + 1, s, .error c => s.answerCode k c.toNat ((find s.ops k).elim 0 Op.va)
  | n + 1, s, .ok v =>
    match s.raggedNext k v with
    | (s', some r) => raggedRun k n s' r
    | (s', none) => s'

def State.raggedStep (s : State) (k : Nat) (v : Dword) : State := raggedRun k 8 s (.ok v)

/-- A ragged load that waited for the host's translation translates its next read again. -/
def State.raggedAgain (s : State) (k : Nat) : State :=
  match find s.ops k with
  | none => s
  | some o =>
    match o.stage, o.work with
    | .ats, .ragged _ _ _ _ got _ _ => (match s.raggedAt k o.va 1 got with | (s', some r) => raggedRun k 8 s' r | (s', none) => s')
    | _, _ => s

/-- A ragged load has read as far as its element. -/
def Op.element (o : Op) : Bool := match o.work with | .ragged _ _ _ _ got _ _ => got.length = 5 | _ => true

/-! Delivery and retirement. -/

/-- An older operation of the same thread and class has not retired (R203). -/
def State.olderOut (s : State) (k : Nat) (o : Op) : Bool :=
  match o.issuer with
  | .thread _ => o.cls != 5 && s.ops.any fun (n, x) => decide (n < k) && x.issuer = o.issuer && x.cls = o.cls && !x.retired
  | _ => false

/-- The cluster that performs an operation and replies to it: its MSE, or its register window. -/
def Op.server (o : Op) : Option Nat :=
  match o.place, o.work with
  | .home c, _ => some c
  | .window, .ldw _ | .window, .stw _ _ => some (fld o.pa 30 21)
  | _, _ => none

/-- The replies of a cluster to one cluster or engine arrive in the order in which it sent them (R313). One that has come and waits for an older
operation of its class holds none back. -/
def State.replyTurn (s : State) (o : Op) : Bool :=
  o.server.isNone || s.ops.all fun (n, x) =>
    !(x.server = o.server && x.asker = o.asker && x.stage = .performed && decide (2 ≤ x.done ∧ x.done < o.done) && !x.retired && !s.olderOut n x)

/-- The message that a value returns into stands in the thread's class 0 from now on, in the operation's stead (R39). -/
def State.owed (s : State) (k : Nat) (o : Op) : State :=
  let ids := (s.cluster o.cluster).outbox.filterMap fun m => match m.cargo with
    | .queue _ _ l _ _ _ => if l.any (fun e => match e with | .hole n _ => n = k | _ => false) then some m.id else none
    | .spawn _ _ _ _ => none
    | .travel _ _ _ _ => none
  if ids.isEmpty then s else
  { s with ops := mapVals (fun _ x => match x.work with
      | .message id => if ids.contains id && x.issuer = o.issuer then { x with retired := false } else x
      | _ => x) s.ops }

/-- The value goes where it is awaited (R37, R39, R49, R72, R188, R190). -/
def State.deliverTo (s : State) (k : Nat) (o : Op) (vals : List Tw) (flags : BitVec 5) : State :=
  let v (i : Nat) : Tw := vals.getD i Tw.zero
  match o.dst with
  | .none => s
  | .reg r wide =>
    match o.threadKey with
    | none => s
    | some key => s.modThread key fun t =>
        let t := t.arrive r k (v 0) flags
        if wide then t.arrive (nextReg r 1) k (v 1) 0 else t
  | .queue _ wide =>
    let s := match o.threadKey with | some key => s.modThread key fun t => t.flag (flags.zeroExtend 32) | none => s
    let s := (s.owed k o).fill o.cluster k false (v 0)
    if wide then s.fill o.cluster k true (v 1) else s
  | .k n =>
    (((s.threads.filter fun (_, t) => t.waitOn = WaitOn.kload k).map fun (n, _) => n).foldl (fun s n =>
      match s.thread? n with | some t => s.resume n t | none => s) s).modGroup
      ((o.threadKey.bind fun key => (s.thread? key).bind Thread.group).getD 0) fun gr => gr.kLoad n [v 0]
  | .tape i => match o.threadKey with | some key => s.tapeWord key i vals | none => s

/-- What an operation that returns a value gives to the thread's clocks when it retires (R298, R300). -/
def Op.merge (o : Op) (t : Thread) : Thread :=
  match (if o.returns then o.seen else none) with
  | none => t
  | some st =>
    if o.order = 2 ∨ o.order = 4 then t.acquire o.scope.toNat st
    else if o.order = 1 then { t with rs := t.rs.max st.1 } else t

/-- The group whose resources an operation holds (R268). -/
def State.groupOf (s : State) (o : Op) : Option Nat :=
  match o.issuer with
  | .thread key => if isLaneKey key then some (laneGroup key) else (s.thread? key).bind Thread.group
  | .slice g => some g
  | .copy _ _ => none
  | .gone _ g => g

/-- A copy command of a thread that is older than a number is at work. -/
def State.olderCopy (s : State) (key id : Nat) : Bool :=
  s.engines.any fun (_, e) => e.cmds.any fun c => c.threads.contains key && decide (c.id < id)

/-- The commands that are over leave the counts of their threads in issue order (R203). -/
def State.settleCopies (s : State) : State :=
  if s.engines.any fun (_, e) => !e.done.isEmpty then
    { s with engines := mapVals (fun _ e => { e with done := e.done.filter fun d => s.olderCopy d.2 d.1 }) s.engines }
  else s

/-- A copy command leaves its engine: the counts of its threads fall in issue order (R203), and its group may be free (R268). -/
def State.copyRetire (s : State) (e id : Nat) : State :=
  match (s.engine e).cmds.find? fun c => c.id = id with
  | none => s
  | some cmd =>
    let eng := s.engine e
    let s := (s.setEngine e { eng with
      cmds := eng.cmds.filter fun c => c.id != id
      done := eng.done ++ (cmd.threads.filter fun k => s.olderCopy k id).map fun k => (id, k) }).settleCopies
    let s := cmd.threads.foldl State.wake s
    match cmd.group with | some g => s.freeGroup g | none => s

/-- An operation retires: its value, its clocks, its count, and what waited for it. -/
def State.retire (s : State) (k : Nat) (o : Op) (vals : List Tw) (flags : BitVec 5) : State :=
  let s := s.deliverTo k o vals flags
  let s := match o.threadKey with | some key => s.modThread key o.merge | none => s
  let g := s.groupOf o
  let s := { s with ops := drop s.ops k }
  let s := (s.wakeOf o).tryFire o.ctx o.act
  let s := match g with | some g => s.freeGroup g | none => s
  let s := match o.work with | .count e id => s.copyRetire e id | _ => s
  if o.abroad then s.routeHeld else s

/-- The transport's replies are for operations that it carries; a reply to a stopped context is discarded (R430). -/
def State.carries (s : State) (o : Op) : Bool := o.abroad && o.stage = .sent && !(s.ctx o.ctx).low

/-- A peer's word ends a wait with its value, or with the token of a failure. -/
def State.watchReply (s : State) (k : Nat) (o : Op) (v : Tw) : State :=
  let s := { s with ops := drop s.ops k }
  match o.threadKey with
  | none => s
  | some key =>
    match (s.thread? key).map Thread.waitOn with
    | some (.cond w) => s.endWait key w v
    | some (.tape _ n words) => s.endTape key n (tapeWords v words) none
    | _ => s

/-- LONG_WRITE_RETURN (R203): the value that an operation has read or that its reply brings is delivered, in class order. -/
def execLongWriteReturn (op : Nat) (reply : Reply) (s : State) : Res :=
  match find s.ops op with
  | none => .refused .notEnabled
  | some o =>
    let mine := o.returns && (match o.dst with | .k _ => false | _ => true)
    if o.watches then
      (match reply with
      | .home => .refused .notEnabled
      | .value v _ => if s.carries o then .next (s.watchReply op o (.data (lo32 v))) else .refused .notEnabled
      | .fail c => if s.carries o then .next (s.watchReply op o (.tok (token c.toNat o.origin))) else .refused .notEnabled)
    else if !mine || o.retired || (s.ctx o.ctx).down then .refused .notEnabled else
    match reply with
    | .home =>
      if o.stage = .performed && !s.olderOut op o && s.replyTurn o then .next (s.retire op o o.reply o.flags) else .refused .notEnabled
    | .value v flags =>
      if !s.carries o then .refused .notEnabled
      else if !o.element then .next (s.raggedStep op v)
      else if s.olderOut op o then .next (s.answer op (o.shape v) flags)
      else .next (s.retire op o (o.shape v) flags)
    | .fail c =>
      if !s.carries o then .refused .notEnabled
      else if s.olderOut op o then .next (s.answerCode op c.toNat o.va)
      else
        let s := s.answerCode op c.toNat o.va
        .next (s.retire op o (o.tokens c.toNat) 0)

/-- No slot of a cluster has issued in the present core cycle. -/
def State.cycleStart (s : State) (cluster : Nat) : Bool :=
  (List.range 4).all fun i => (s.slot (cluster * 4 + i)).issued != s.coreCycle cluster + 1

/-- KLD_REPLY (R188): the word is written before any slot issues in the core cycle, and the warp's threads are Runnable. -/
def execKldReply (op : Nat) (reply : Reply) (s : State) : Res :=
  match find s.ops op with
  | none => .refused .notEnabled
  | some o =>
    let mine := match o.dst with | .k _ => true | _ => false
    if !mine || (s.ctx o.ctx).low || !s.cycleStart o.cluster then .refused .notEnabled else
    match reply with
    | .home => if o.stage = .performed && s.replyTurn o then .next (s.retire op o o.reply 0) else .refused .notEnabled
    | .value v _ => if s.carries o then .next (s.retire op o (o.shape v) 0) else .refused .notEnabled
    | .fail c =>
      if !s.carries o then .refused .notEnabled
      else
        let s := s.answerCode op c.toNat o.va
        .next (s.retire op o (o.tokens c.toNat) 0)

/-- A write that returns nothing has failed at its target after issue: OFAIL for a packet (R224), PTGT where an atomic's or a packet's
target is marked (R93), else the issuing context's curtain (R410, R412), with the thread slot that issued the operation, wherever its thread
stands now (R103). -/
def State.writeFailed (s : State) (o : Op) (code : Nat) : State :=
  let late : State := s.lateFailure o.ctx o.pc 3 code (clusterOfKey o.born) (slotOfKey o.born)
  let marked := !(code = 0x10 || (0x13 ≤ code && code ≤ 0x15))
  match o.work with
  | .packet _ => if marked then s.msx o.ctx msxPTGT (some code) else s.msx o.ctx msxOFAIL
  | .atomic _ _ _ _ => if marked then s.msx o.ctx msxPTGT (some code) else late
  | .put k _ => s.modOp k fun x => match x.work with | .packet p => { x with work := .packet { p with c := 1 } } | _ => x
  | .element _ _ _ | .count _ _ => s.msx o.ctx msxCDROP
  | _ => late

/-- What another package has recorded of an operation that returns nothing: the flags of an atomic or of a DRAIN (R72), a packet's failure
(R224). DEDUCED (log entry 55). -/
def State.recorded (s : State) (o : Op) (v : Dword) (flags : BitVec 5) : State :=
  let s := if flags = 0 then s else s.msx o.ctx flags.toNat
  match o.work with
  | .packet p => if v = BitVec.allOnes 64 && p.op != 1 && p.op != 4 then s.msx o.ctx msxOFAIL else s
  | _ => s

/-- STORE_ACKNOWLEDGEMENT (R203): a write that returns nothing retires in class order. -/
def execStoreAcknowledgement (op : Nat) (reply : Reply) (s : State) : Res :=
  match find s.ops op with
  | none => .refused .notEnabled
  | some o =>
    if o.returns || o.retired || o.watches || (s.ctx o.ctx).down || s.olderOut op o then .refused .notEnabled else
    match reply with
    | .home =>
      let posted := (o.place = .host || o.place = .hostRaw) && o.stage = .sent && (match o.work with | .store _ _ => true | _ => false)
      if posted || (o.stage = .performed && s.replyTurn o) then .next (s.retire op o [] 0) else .refused .notEnabled
    | .value v flags => if s.carries o then .next ((s.retire op o [] 0).recorded o v flags) else .refused .notEnabled
    | .fail c => if s.carries o then .next ((s.retire op o [] 0).writeFailed o c.toNat) else .refused .notEnabled

/-! Requests that get no reply. -/

/-- An operation ends without its reply: `read` and `ret` are the codes that a read and a returning operation get; a write that
returns nothing counts as done. -/
def State.endSent (s : State) (k : Nat) (o : Op) (read ret : Nat) : State :=
  match o.work with
  | .load _ _ _ | .ragged _ _ _ _ _ _ _ => s.answerCode k read o.va
  | _ => if o.returns then s.answerCode k ret o.va else s.answer k []

/-- CXL_TIMEOUT (R409): an error response, or none within 10 ms, is code 0x14. -/
def execCxlTimeout (op : Nat) (s : State) : Res :=
  match find s.ops op with
  | none => .refused .notEnabled
  | some o =>
    match o.place, o.stage with
    | .cxl _, .sent =>
      let s' := s.endSent op o 0x14 0x14
      .next (if o.returns then s' else s'.writeFailed o 0x14)
    | _, _ => .refused .notEnabled

/-- HOST_COMPLETION_TIMEOUT (R396): 50 ms after a non-posted request; its code is 0x14. DEDUCED (log entry 30). -/
def execHostCompletionTimeout (op : Nat) (s : State) : Res :=
  match find s.ops op with
  | none => .refused .notEnabled
  | some o =>
    let posted := match o.work with | .store _ _ => true | _ => false
    if !(o.place = .host || o.place = .hostRaw) || o.stage != .sent || posted || decide (s.now < o.sentAt + 50000 * ticksPerUs) then
      .refused .notEnabled
    else
      let s' := s.endSent op o 0x14 0x14
      .next (if o.returns then s' else s'.writeFailed o 0x14)

/-- Add 1 to a group's WFAIL (R405). -/
def State.wfail (s : State) (n : Nat) : State := s.modEg n fun g => { g with wfail := min (g.wfail + 1) 0xFFFF }

/-- FABRIC_ACK_TIMEOUT (R413). -/
def execFabricAckTimeout (op : Nat) (s : State) : Res :=
  match find s.ops op with
  | none => .refused .notEnabled
  | some o =>
    match o.place, o.stage with
    | .fabric _, .sent =>
      let s' := s.endSent op o 0x03 0x13
      .next (match o.work with
        | .packet _ => if o.returns then s' else s'.msx o.ctx msxOFAIL
        | .store _ _ => s'.wfail (o.eg.getD 0)
        | _ => s')
    | _, _ => .refused .notEnabled

end Sys2Proof.Machine
end

