-- ==== Sys2Proof/Machine/Mse.lean ====
section
/-! DEFINITION. The points of order at work (spec/11 R283 to R285): gates (R294 to R297), memory-side engines and edge port groups
(spec/08 R206 to R209, R217 to R219), bank atomic units, STM copies (spec/12 R317), the register window (R213, R214), read-only lines
(R314), forwarding (R226, spec/15 R346), zero-fill (spec/17 R383). -/

namespace Sys2Proof.Machine

/-! What lets an operation be applied. -/

/-- A repair of the home's MSE is in progress (R444). -/
def State.mseDown (s : State) (c : Nat) : Bool := s.pkg.repairs.any fun x => x.started && x.kind = 3 && x.unit = c

/-- The operation stands at its place with nothing before it: its time has come, its issuer's earlier accesses to the location are
performed (R284), its frame is filled, and the engine has not stopped the context's work (R430). -/
def State.standing (s : State) (k : Nat) (o : Op) : Bool :=
  decide (o.sentAt ≤ s.now) && (s.earlier k o).isEmpty && (match o.place with
    | .home c => !s.unfilled o.pa && !s.mseDown c && !s.copied o.pa && !(s.ctx o.ctx).treated.contains (5, c)
    | .cxl _ => true
    | .window => !(s.ctx o.ctx).down && (match o.work with | .ldw _ | .stw _ _ => true | _ => false)
    | _ => false)

/-- The unit that a message of class 0 goes to over the network: a cluster, or an edge port group. -/
def Op.target (o : Op) : Option Nat :=
  match o.place with
  | .home c => if o.hop.1 = c then none else some c
  | .cxl n => some (4096 + n)
  | .window => let c := fld o.pa 30 21; if o.hop.1 = c || (match o.work with | .message _ => true | _ => false) then none else some c
  | _ => none

/-- When a message was sent, and its number among the messages of one moment. -/
def Op.sending (k : Nat) (o : Op) : List Nat := [o.sentAt, if o.hop.2 = 0 then k else o.hop.2]

/-- The messages of one pair of units arrive in the order in which they were sent: none that could be taken now stands before this one
(R313). The atomics of one instruction go as one. -/
def State.inTurn (s : State) (k : Nat) (o : Op) : Bool :=
  o.target.isNone || s.ops.all fun (n, x) =>
    !(x.stage = .sent && x.hop.1 = o.hop.1 && x.target = o.target && n != k && !(x.batch = o.batch && x.isAtomic)
      && lexLe (x.sending n) (o.sending k) && s.standing n x)

def State.movedOp (s : State) (o : Op) : Option Moved :=
  match o.place, o.work with
  | .home c, .packet p => if p.op = 12 ∨ p.op = moveOn ∨ p.op = getOn then none else s.movedAt c o.pa o.span
  | .home c, _ => s.movedAt c o.pa o.span
  | _, _ => none

/-- What a freeze queues as an update; it holds the others back as lookups (R226). -/
def Op.isUpdate (o : Op) : Bool :=
  match o.work with
  | .store _ _ | .atomic _ _ _ _ | .element _ _ _ | .count _ _ | .put _ _ => true
  | .packet p => p.op != 10
  | _ => false

/-- Updates that a freeze has queued go on in the order in which they came, before any that comes later (R226). -/
def State.forwardTurn (s : State) (o : Op) : Bool :=
  let before (n : Nat) : Bool := match o.stage with | .frozen m => decide (n < m) | _ => true
  !o.isUpdate || s.ops.all fun (k, x) =>
    match x.stage with
    | .frozen n => !(x.isUpdate && x.place = o.place && !(x.batch = o.batch && x.isAtomic) && before n && s.movedOp x != some .frozen && s.standing k x)
    | _ => true

/-- The operation may be applied: what has been sent has arrived in its turn, and what was queued before it has gone on. -/
def State.mayApply (s : State) (k : Nat) (o : Op) : Bool := s.standing k o && (o.stage != .sent || s.inTurn k o) && s.forwardTurn o

/-- The gate of the home's die lets an operation pass (R296). -/
def State.passes (s : State) (o : Op) : Bool := match o.place with | .home c => s.covers (dieOf c) o.clock | _ => true

/-- An access that its gate does not pass is held, or refused by a full gate. -/
def State.hold? (s : State) (k : Nat) (o : Op) : State :=
  let f := (dieOfPlace o.place).getD 0
  let held := (s.ops.filter fun (_, x) => x.stage = .held && dieOfPlace x.place = some f).length
  s.setOp k { o with stage := if held < 8192 then .held else .refused (s.now + 64 * 24) }

/-- An MSE numbers what it applies (R81). -/
def State.countMse (s : State) (p : Place) : State :=
  match p with
  | .home c => s.modCluster c fun cl => { cl with mseSer := cl.mseSer + 1 }
  | _ => s

/-! Errors in HBM (R439, R441, R443). -/

/-- What ECC finds in the sector that a read meets: a corrected error is counted and recorded, an uncorrectable one marks the
sector. Standard ECC corrects one symbol, strong ECC two (R439). Which of the home's four pseudo-channels holds a sector is free (log entry 4). -/
def State.detect (s : State) (pa : Nat) (ecc : Ecc) : State :=
  match s.region pa with
  | some (.home c) =>
    if (s.markAt pa).isSome then s else
    let (ws, s') := s.freeWords 1
    let unit := stackOf c * 384 + c % 96 * 4 + (ws.headD 0).toNat % 4
    let owner := get s.owners (pa / 2 ^ 16) 0x40
    match ecc, (s.row (rowOf c)).ecc with
    | .clean, _ => s
    | .corrected, _ | .two, true => s'.reliability 1 0 unit 4 owner (pa / 32 * 32)
    | .two, false | .uncorrectable, _ => (s'.setMark pa 0x20).reliability 2 0x20 unit 4 owner (pa / 32 * 32)
  | _ => s

/-- The code that a read of n bytes meets: that of a marked sector; an expander's poisoned data is code 0x20 (R409). -/
def State.readCode (s : State) (p : Place) (pa n : Nat) (ecc : Ecc) : Option Nat :=
  match s.markNow pa n with
  | some c => some c.toNat
  | none => match p, ecc with | .cxl _, .uncorrectable => some 0x20 | _, _ => none

/-! Reads. -/

/-- A ragged load reads its record, or the next of its words. -/
def State.raggedRead (s : State) (k : Nat) (o : Op) (f : Nat → Nat → Except Byte Dword) : State :=
  match o.work with
  | .ragged type item grp off [] ro inst =>
    match f o.pa 8, f (o.pa + 8) 8 with
    | .ok a, .ok b => raggedRun k 8 (s.modOp k fun o => { o with work := .ragged type item grp off [a, b] ro inst }) (f (o.pa + 16) 8)
    | r, _ => raggedRun k 8 s r
  | .ragged _ _ _ _ _ _ _ => raggedRun k 8 s (f o.pa o.span)
  | _ => s

/-- A wait looks at its word: the read that R237 has it make, which R81 does not number. -/
def State.watchRead (s : State) (k : Nat) (o : Op) : State :=
  let s := { s with ops := drop s.ops k }
  match o.threadKey with
  | none => s
  | some key =>
    (s.modThread key fun t => match t.waitOn.watch with
      | some w => { t with waitOn := t.waitOn.setWatch { w with word := .mem o.pa } }
      | none => t).register key

/-- Apply a read at its place. -/
def State.readAt (s : State) (k : Nat) (o : Op) (ecc : Ecc) : State :=
  let n := o.span
  let s := (s.detect o.pa ecc).countMse o.place
  let s := s.modOp k fun o => { o with seen := some (s.stampAt o.pa) }
  match o.work with
  | .load type _ _ =>
    match s.readCode o.place o.pa n ecc with
    | some c => s.answer k (o.tokens c)
    | none => s.answer k (loadOut type.toNat (s.readNow o.pa n))
  | _ => s.raggedRead k o fun pa n =>
    match s.readCode o.place pa n ecc with
    | some c => .error (BitVec.ofNat 8 c)
    | none => .ok (BitVec.ofNat 64 (s.readNow pa n))

/-- A line as its home holds it. -/
def State.lineAt (s : State) (pa : Nat) : Line :=
  let a := pa / 64 * 64
  ⟨a, s.bytesAt a 64, [s.markAt a, s.markAt (a + 32)]⟩

/-- Install a line in the slice and in the cluster's cache, where the policy allows it (R208). -/
def State.install (s : State) (cluster : Nat) (l : Line) : State :=
  let s := s.modRow (rowOf cluster) fun r => { r with slices := (sliceOf l.pa, l) :: r.slices.filter fun x => x.2.pa != l.pa }
  s.modCluster cluster fun c => { c with lines := l :: c.lines.filter fun x => x.pa != l.pa }

/-- Drop a line from a cluster's cache and from the slices of its row. -/
def State.dropLine (s : State) (c pa : Nat) : State :=
  let s := s.modCluster c fun v => { v with lines := v.lines.filter fun l => l.pa != pa / 64 * 64 }
  s.modRow (rowOf c) fun r => { r with slices := r.slices.filter fun x => x.2.pa != pa / 64 * 64 }

/-- A load that fills a line. -/
def Op.fills (o : Op) : Bool := match o.work with | .load _ true true => true | .ragged _ _ _ _ _ true _ => true | _ => false

/-- The line that serves a ragged load's read of a read-only page without its home (R208, R215). -/
def State.raggedHeld (s : State) (o : Op) : Option Line :=
  match o.work with
  | .ragged _ _ _ _ _ true _ => s.heldLine o.cluster o.pa
  | _ => none

/-- What a line gives to the read that wanted it. -/
def State.lineGives (s : State) (k : Nat) (o : Op) (line : Line) : State :=
  match o.work with
  | .load type _ _ => s.answer k (line.read type.toNat o.pa o.origin)
  | _ => s.raggedRead k o line.word

def Op.installs (o : Op) : Bool := match o.work with | .load _ _ i => i | .ragged _ _ _ _ _ _ i => i | _ => false

/-- Apply a read-only load that misses: the home reads the line, and it is installed. -/
def State.fillAt (s : State) (k : Nat) (o : Op) (ecc : Ecc) : State :=
  let s := (s.detect o.pa ecc).countMse o.place
  let line := s.lineAt o.pa
  let s := s.modOp k fun o => { o with seen := some (s.stampAt o.pa) }
  (if o.installs then s.install o.cluster line else s).lineGives k o line

/-! Writes. -/

/-- A release leaves its stamp at the line (R297), before what it writes can end a wait that returns the stamp (R298). -/
def State.leaveRel (s : State) (o : Op) : State :=
  match o.rel with
  | some (c, scope) => (s.reach o.pa).stampLine o.pa c scope
  | none => s

/-- The operations of an engine are gone once performed; a thread's wait to retire. -/
def State.performed (s : State) (k : Nat) (o : Op) : State :=
  match o.issuer, o.work with
  | .copy _ _, _ => { s with ops := drop s.ops k }
  | _, .put _ _ => { s with ops := drop s.ops k }
  | _, _ => s.setOp k { o with stage := .performed }

/-- One write of words at their addresses, each with its bytes, or the code that marks its sector, or both: a sector that it covers with
untagged data loses its mark, one that takes a token is marked (R84); then waits see what stands there (R238). -/
def State.rowPut (s : State) (l : List (Nat × Option Nat × Option Nat)) : State :=
  let s := l.foldl (fun s (a, v, _) => match v with | some n => s.putBytes a (toBytes 4 n) | none => s) s
  let whole (k : Nat) : Bool := (List.range 8).all fun i => l.any fun (a, v, c) => a = 32 * k + 4 * i && v.isSome && c.isNone
  let s := { s with marks := keep (fun k _ => !whole k) s.marks }
  let s := l.foldl (fun s (a, _, c) => match c with | some n => s.setMark a n | none => s) s
  l.foldl (fun s (a, _, c) => match c with | none => s.touchMem a 4 | some _ => s.touchMem (a / 32 * 32) 32) s

/-- One write of words, or of tokens in their place. -/
def State.rowWrite (s : State) (l : List (Nat × Except Word Nat)) : State :=
  s.rowPut (l.map fun (a, v) => match v with | .ok n => (a, some n, none) | .error t => (a, none, some (tokCode t)))

/-- Apply a write at its place. A tagged copy element marks its sector and leaves the bytes (R84, log entry 31). -/
def State.writeAt (s : State) (k : Nat) (o : Op) : State :=
  let s := s.countMse o.place
  match o.work with
  | .store n v => ((s.leaveRel o).storeNow o.pa (toBytes n v.toNat)).performed k o
  | .element _ _ v =>
    let s := if v.tag then (s.setMark o.pa (tokCode v.val)).touchMem (o.pa / 32 * 32) 32 else s.storeBytes o.pa (toBytes 4 v.val.toNat)
    s.performed k o
  | .put _ l => (s.rowWrite (l.zipIdx.map fun (v, i) => (o.pa + 4 * i, .ok v.toNat))).performed k o
  | _ => s

/-! Atomics. -/

/-- One atomic, or the increment of a copy's completion word (R230), at its point of order. -/
def State.atomAt (s : State) (k : Nat) (ecc : Ecc) : State :=
  match find s.ops k with
  | none => s
  | some o =>
    let s := (s.detect o.pa ecc).countMse o.place
    match o.work with
    | .atomic op type x c =>
      let n := atomBytes op type.toNat
      let seen := s.stampAt o.pa
      match s.readCode o.place o.pa n ecc with
      | some code => s.atomDone k { o with seen := some seen } type.toNat (.error (token code o.origin))
      | none =>
        let (m, v, f) := atomVal op type.toNat (s.readNow o.pa n) (x.toNat % 2 ^ (8 * n)) (c.toNat % 2 ^ (8 * n)) (s.readNow (o.pa + 4) 4)
        ((s.leaveRel o).storeNow o.pa (toBytes n m)).atomDone k { o with seen := some seen } type.toNat (.ok (v, f))
    | .count e id =>
      let s := match s.readCode o.place o.pa 4 ecc with
        | some code => s.msx o.ctx msxPTGT (some code)
        | none => (s.leaveRel o).storeBytes o.pa (toBytes 4 (s.readN o.pa 4 + 1))
      ({ s with ops := drop s.ops k }).copyRetire e id
    | _ => s

/-- The operations of one instruction at one location may all be applied now (R71). -/
def State.batchReady (s : State) (o : Op) : Bool :=
  (s.batchOf o).all fun (k, x) => (x.stage = .sent || x.stage = .held) && s.mayApply k x && s.passes x

def State.atomBatch (s : State) (o : Op) (ecc : Ecc) : State := (s.batchOf o).foldl (fun s x => s.atomAt x.1 ecc) s

/-! The steps. -/

/-- The kinds of operation that the rows of the table name. -/
inductive MseKind where
  | read | watch | fill | write | atomic
deriving DecidableEq, Repr

def Op.kind (o : Op) : Option MseKind :=
  match o.work with
  | .load _ true true | .ragged _ _ _ _ _ true _ => some .fill
  | .load _ _ _ | .ragged _ _ _ _ _ _ _ => some .read
  | .watch => some .watch
  | .store _ _ | .element _ _ _ | .put _ _ => some .write
  | .atomic _ _ _ _ | .count _ _ => some .atomic
  | _ => none

/-- Apply an operation that its gate has passed, with the rest of its batch where it is atomic. -/
def State.applyKind (s : State) (k : Nat) (o : Op) (kind : MseKind) (ecc : Ecc) : Res :=
  match kind with
  | .read => .next (s.readAt k o ecc)
  | .watch => .next (s.watchRead k o)
  | .fill => .next (s.fillAt k o ecc)
  | .write => .next (s.writeAt k o)
  | .atomic => if s.batchReady o then .next (s.atomBatch o ecc) else .refused .notEnabled

/-- One arrival at a point of order: the gate first (R296). -/
def State.arriveAt (s : State) (op : Nat) (kinds : MseKind → Bool) (ecc : Ecc) : Res :=
  match find s.ops op with
  | none => .refused .notEnabled
  | some o =>
    match o.kind with
    | none => .refused .notEnabled
    | some kind =>
      if !kinds kind || o.stage != .sent then .refused .notEnabled else
      match s.raggedHeld o with
      | some line => .next ((s.keepLine o.cluster o.installs line).lineGives op o line)
      | none =>
      if !s.mayApply op o then .refused .notEnabled
      else if !s.passes o then .next (s.hold? op o)
      else if (s.movedOp o).isSome then .refused .notEnabled
      else s.applyKind op o kind ecc

def execMseRead (op : Nat) (ecc : Ecc) (s : State) : Res := s.arriveAt op (fun k => k = .read || k = .watch) ecc
def execMseWrite (op : Nat) (s : State) : Res := s.arriveAt op (fun k => k = .write) .clean
def execMseAtomic (op : Nat) (ecc : Ecc) (s : State) : Res := s.arriveAt op (fun k => k = .atomic) ecc
def execSliceFill (op : Nat) (s : State) : Res := s.arriveAt op (fun k => k = .fill) .clean

/-- GATE_RELEASE (R296): the access is applied; one whose range has moved goes on to be forwarded, a packet to be performed. -/
def execGateRelease (op : Nat) (s : State) : Res :=
  match find s.ops op with
  | none => .refused .notEnabled
  | some o =>
    if o.stage != .held || !s.mayApply op o || !s.passes o then .refused .notEnabled else
    match o.kind with
    | some kind => if (s.movedOp o).isSome then .next (s.setOp op { o with stage := .sent }) else s.applyKind op o kind .clean
    | none => .next (s.setOp op { o with stage := .sent })

/-- Send an operation again, as a new message of a unit (R313). -/
def State.sendFrom (s : State) (k : Nat) (o : Op) (unit : Nat) : State :=
  let (n, s) := s.fresh
  s.setOp k { o with stage := .sent, sentAt := s.now, hop := (unit, n) }

/-- GATE_RESEND (R296): the access's source sends it again. -/
def execGateResend (op : Nat) (s : State) : Res :=
  match find s.ops op with
  | none => .refused .notEnabled
  | some o =>
    match o.stage with
    | .refused again => if again ≤ s.now then .next (s.sendFrom op o o.hop.1) else .refused .notEnabled
    | _ => .refused .notEnabled

/-- BANK_ATOMIC (R204, R217, R220, R230): a bank's atomic unit applies the operations of one instruction at one location. -/
def execBankAtomic (op : Nat) (s : State) : Res :=
  match find s.ops op with
  | none => .refused .notEnabled
  | some o =>
    let ready := match o.place with
      | .pad g => o.stage = .sent && (s.batchOf o).all (fun (k, x) => (s.earlier k x).isEmpty && decide (x.sentAt ≤ s.now))
          && !(s.ctx o.ctx).treated.contains (6, g / 2048)
      | _ => false
    if !ready then .refused .notEnabled else
    match o.work with
    | .atomic _ _ _ _ => .next (s.bankBatch o)
    | .count e id =>
      let s := s.bankOne op
      .next (({ s with ops := drop s.ops op }).copyRetire e id)
    | _ => .refused .notEnabled

/-- STM_COPY (R212, R317): the copies for one cluster, in the order in which the sending cluster sent them. -/
def execStmCopy (op cluster : Nat) (s : State) : Res :=
  let bound (x : Op) : Bool := match x.place, x.work with
    | .pad g, .stm mask _ _ => !(stmSplit (s.ensGroups g) mask cluster).1.isEmpty
    | _, _ => false
  match find s.ops op with
  | none => .refused .notEnabled
  | some o =>
    if o.stage != .sent || !bound o || s.ops.any (fun (n, x) => decide (n < op) && x.cluster = o.cluster && x.stage = .sent && bound x)
        || (s.ctx o.ctx).treated.contains (6, cluster) then .refused .notEnabled
    else .next (s.stmWrite op o cluster)

/-- FRONTIER_UPDATE (R295): the frontier of a die, and the gates of the others; fences may have waited for it. -/
def execFrontierUpdate (die : Nat) (s : State) : Res :=
  if 4 ≤ die then .refused .notEnabled else
  let n := s.frontier die
  let views := (List.range 4).foldl (fun v f => if f = die then v else put v (f * 4 + die) (max n (get v (f * 4 + die) 0))) s.views
  .next ({ s with views := views }.wakeAll fun t => match t.waitOn with | .fence _ _ => true | _ => false)

/-- The re-check of the wait of another package or of a callboard. -/
def State.recheckFar (s : State) (n : Nat) : Res :=
  match s.pkg.waits[n]? with
  | none => .refused .notEnabled
  | some w =>
    let c := s.placed? w.pa / 2 ^ 30
    if w.monitor || s.unfilled (s.placed? w.pa) || (s.ctx w.ctx).low || decide (s.coreCycle c < w.next) then .refused .notEnabled
    else .next (s.registerFar w)

/-- MONITOR_RECHECK (R238): a wait without a monitor reads its word again, and tries to register. Waits that no thread of the package makes
are numbered from 2 ^ 32 on. -/
def execMonitorRecheck (thread : Nat) (s : State) : Res :=
  if 2 ^ 32 ≤ thread then s.recheckFar (thread - 2 ^ 32) else
  match (s.thread? thread).bind fun t => (t.waitOn.watch).map fun w => (t, w) with
  | none => .refused .notEnabled
  | some (t, w) =>
    let filled := match w.word with | .mem pa => !s.unfilled pa | .pad _ _ => true
    if !filled || (s.ctx t.ctx).low then .refused .notEnabled
    else if w.monitor || w.interval = 0 || decide (s.coreCycle (clusterOfKey thread) < w.next) then .refused .notEnabled
    else .next (s.register thread)

/-- ZERO_FILL_DONE (R383): the frame is zero, which ends waits as any write does (R238). -/
def execZeroFillDone (frame : Nat) (s : State) : Res :=
  if s.zeroPend.contains frame then .next (s.fillFrame frame) else .refused .notEnabled

/-! Forwarding (R226, R346). -/

/-- A pending register goes back to what it held: its long write is discarded. -/
def Thread.unpend (t : Thread) (op : Nat) : Thread :=
  { t with regs := mapVals (fun _ c =>
      if c.st = .pending ∧ c.owner = op then
        (match c.was with | some (st, v) => { Cell.ofTw v with st := st } | none => Cell.dead)
      else c) t.regs }

/-- Registers that an instruction killed are as it found them. -/
def Thread.revive (t : Thread) (rs : List Byte) : Thread :=
  rs.foldl (fun t r =>
    let c := t.cell (fileIndex r)
    if r.toNat < 0xC8 ∧ c.st = .dead then t.setCell (fileIndex r) { c with st := .live } else t) t

/-- The value that a load owed to a message will not come: the message goes without it, or not at all (log entry 40). -/
def State.dropHole (s : State) (cluster k key : Nat) : State :=
  let holds (m : Msg) : Bool := match m.cargo with
    | .queue _ _ l _ _ _ => l.any fun e => match e with | .hole o _ => o = k | _ => false
    | .spawn _ _ _ _ => false
    | .travel _ _ _ _ => false
  let ids := ((s.cluster cluster).outbox.filter holds).map Msg.id
  if ids.isEmpty then s else
  let strip (m : Msg) : Msg := match m.cargo with
    | .queue a p l vc o g => { m with cargo := .queue a p (l.filter fun e => match e with | .hole o _ => o != k | _ => true) vc o g }
    | .spawn _ _ _ _ => m
    | .travel _ _ _ _ => m
  let bare (m : Msg) : Bool := ids.contains m.id && (match m.cargo with | .queue _ _ [] _ _ _ => true | _ => false)
  let s := { s with ops := keep (fun _ (o : Op) => match o.work with | .message id => !(ids.contains id && o.issuer = Issuer.thread key) | _ => true) s.ops }
  (s.modCluster cluster fun c => { c with outbox := (c.outbox.map strip).filter fun m => !bare m }).closeMessages cluster

/-- A forwarded load sends its thread on: it stands at the LD again, on its way to the newest range. -/
def State.sendOn (s : State) (k : Nat) (o : Op) (key : Nat) (pa cluster : Nat) : State :=
  match s.thread? key, o.work with
  | some t, .load type _ _ =>
    let s := (s.dropLane key).setThread key (((t.unpend k).revive o.kills).enter s.now .waiting 0x1D (.depart
      { pkg := none, cluster := cluster, migr := false, pc := o.pc, resume := t.pc, hold := t.waitOn = WaitOn.hold, va := o.va, pa := pa
        type := type, dst := (match o.dst with | .reg r _ => r | .queue q _ => BitVec.ofNat 8 (0xD0 + q) | _ => 0xF0), order := o.order
        scope := o.scope, kills := o.kills }))
    { s with ops := drop s.ops k }.dropHole o.cluster k key
  | _, _ => s

/-- The thread of a load that moves on with its data (R346). -/
def State.mover (s : State) (k : Nat) (o : Op) : Option Nat :=
  match o.threadKey, o.work with
  | some key, .load _ _ _ =>
    match s.thread? key with
    | some t => if t.last = some k && t.group.isNone && t.txn.isNone && !isLaneKey key && !(s.ctx t.ctx).fetchMode then some key else none
    | none => none
  | _, _ => none

/-- Send an operation to the newer range, as a message of the old home's MSE. A release still waits for it as for a write at its first home
(R299). -/
def State.forward (s : State) (k : Nat) (o : Op) (f : Forward) : State :=
  let pa := f.dst + (o.pa - f.base)
  match s.region pa with
  | some (.home c) =>
    match s.mover k o with
    | some key => s.sendOn k o key pa c
    | none => s.sendFrom k { o with place := .home c, pa := pa, was := o.pa / 2 ^ 30 :: o.was } (2048 + o.pa / 2 ^ 30)
  | _ => s

/-- The operations that go with one: the atomics of an instruction at one location stay together (R71). -/
def State.companions (s : State) (k : Nat) (o : Op) : List (Nat × Op) :=
  if o.isAtomic then (s.batchOf o).filter fun x => x.2.stage = .sent || (match x.2.stage with | .frozen _ => true | _ => false) else [(k, o)]

/-- They go on together once each of them has come past the gate. -/
def State.togetherNow (s : State) (o : Op) : Bool :=
  !o.isAtomic || (s.batchOf o).all fun x => (x.2.stage = .sent || (match x.2.stage with | .frozen _ => true | _ => false)) && s.passes x.2

/-- The freeze takes an operation in. -/
def State.freeze (s : State) (k : Nat) (o : Op) : State :=
  let (n, s) := s.fresh
  s.setOp k { o with stage := .frozen n }

/-- FORWARDED_OPERATION: what reaches a frozen range waits; what reaches a moved one goes on. -/
def execForwardedOperation (op : Nat) (s : State) : Res :=
  match find s.ops op with
  | none => .refused .notEnabled
  | some o =>
    let waits : Option Bool := match o.stage with | .sent => some false | .frozen _ => some true | _ => none
    match waits with
    | none => .refused .notEnabled
    | some queued =>
      if !s.mayApply op o then .refused .notEnabled else
      match s.movedOp o with
      | none => if queued then .next (s.setOp op { o with stage := .sent }) else .refused .notEnabled
      | some m =>
        if !s.passes o then .next (s.hold? op o)
        else match m with
          | .frozen => if queued then .refused .notEnabled else .next ((s.companions op o).foldl (fun s (k, x) => s.freeze k x) s)
          | .to f => if s.togetherNow o then .next ((s.companions op o).foldl (fun s (k, x) => s.forward k x f) s) else .refused .notEnabled

/-! The register window (R213, R214). -/

/-- The coordinate of an access. -/
structure Coord where
  tagw : Bool
  key : Nat
  reg : Nat
  byte : Nat
  bad : Bool
deriving DecidableEq, Repr

def coordOf (a : Nat) : Coord :=
  let cluster := fld a 30 21
  let reg := fld a 9 2
  ⟨bit a 31, threadKey cluster (fld a 20 10), reg, fld a 1 0, fld a 63 32 != 0 || decide (768 ≤ cluster) || decide (0xC8 ≤ reg)⟩

/-- The thread of a coordinate, if it holds its slot and belongs to the context. -/
def State.windowThread (s : State) (ctx : Nat) (c : Coord) : Option Thread :=
  if c.bad then none else
  match s.thread? c.key with
  | some t => if t.ctx = ctx && t.cue != .departed then some t else none
  | none => none

/-- A register that the window may find: none for an extended register that is not held. -/
def Thread.windowCell (t : Thread) (reg : Nat) : Option Cell :=
  let i := fileIndex (BitVec.ofNat 8 reg)
  if t.blocks < blockOf i then none else some (t.cell i)

/-- The tag window's word of a register: its tag and its state. Bit 0 of one that is dead or pending is 0 (DESIGN CHOICE, log entry 140), that of one left
behind 1 (DEDUCED, log entry 93). -/
def tagWord (c : Option Cell) : Word :=
  match c with
  | none => 2
  | some c => match c.st with
    | .live => if c.tag then 1 else 0
    | .dead => 2
    | .pending => 4
    | .left => 1

/-- A read of the window. -/
def State.windowRead (s : State) (ctx type addr origin : Nat) : List Tw :=
  let c := coordOf addr
  let n := typeBytes type
  let wide := decide (n = 8)
  match s.windowThread ctx c with
  | none => tokOut wide (token 0x10 origin)
  | some t =>
    if c.tagw then (if type = 5 then [.data (tagWord (t.windowCell c.reg))] else tokOut wide (token 0x10 origin))
    else
      let read (r : Nat) : Tw := t.readFile (fileIndex (BitVec.ofNat 8 r)) origin
      if wide then [read c.reg, read (c.reg + 1)]
      else
        let v := read c.reg
        if v.tag then [v] else loadOut type (v.val.toNat / 2 ^ (8 * c.byte) % 2 ^ (8 * n))

/-- A write of one register through the window: false where it is discarded. The bytes that a narrow write leaves of a pending
register are free (log entry 4). -/
def State.windowPut (s : State) (c : Coord) (reg : Nat) (byte bytes v : Nat) : State × Bool :=
  match s.thread? c.key with
  | none => (s, false)
  | some t =>
    let i := fileIndex (BitVec.ofNat 8 reg)
    match t.windowCell reg with
    | none => (s, false)
    | some cell =>
      if c.tagw then
        let bits := match cell.st with | .pending => (cell.was.map fun x => x.2.val).getD cell.val | _ => cell.val
        (s.setThread c.key (t.setCell i { Cell.ofTw ⟨v % 2 = 1, bits⟩ with flags := 0 }), true)
      else if cell.st = .dead then (s, false)
      else if bytes = 4 then (s.setThread c.key (t.setCell i (Cell.ofTw (.data (BitVec.ofNat 32 v)))), true)
      else
        let (old, s) : Tw × State := match cell.st with
          | .live => (⟨cell.tag, cell.val⟩, s)
          | .left => (⟨true, token 0x32 0⟩, s)
          | _ => let (l, s) := s.freeWords 1; (.data (l.headD 0), s)
        let n := setFld old.val.toNat (8 * byte + 8 * bytes - 1) (8 * byte) v
        (s.setThread c.key (t.setCell i (Cell.ofTw ⟨old.tag, BitVec.ofNat 32 n⟩)), true)

/-- A write of the window: what is discarded sets WDROP. -/
def State.windowWrite (s : State) (ctx type addr : Nat) (v : Nat) : State :=
  let c := coordOf addr
  let n := typeBytes type
  match s.windowThread ctx c with
  | none => s.msx ctx msxWDROP
  | some _ =>
    if c.tagw && type != 5 then s.msx ctx msxWDROP else
    let (s, a) := s.windowPut c c.reg c.byte (min n 4) (v % 2 ^ 32)
    let (s, b) := if n = 8 then s.windowPut c (c.reg + 1) 0 4 (v / 2 ^ 32) else (s, true)
    if a && b then s else s.msx ctx msxWDROP

/-- REGISTER_WINDOW_ACCESS. -/
def execRegisterWindowAccess (op : Nat) (s : State) : Res :=
  match find s.ops op with
  | none => .refused .notEnabled
  | some o =>
    if o.place != .window || o.stage != .sent || !(s.earlier op o).isEmpty || (s.ctx o.ctx).down || !s.inTurn op o then .refused .notEnabled else
    match o.work with
    | .ldw type => .next (s.answer op (s.windowRead o.ctx type.toNat o.pa o.origin))
    | .stw type v => .next ((s.windowWrite o.ctx type.toNat o.pa v.toNat).setOp op { o with stage := .performed })
    | _ => .refused .notEnabled

end Sys2Proof.Machine
end

