-- ==== Sys2Proof/Machine/Packets.lean ====
section
/-! DEFINITION. Operation packets at their MSE (spec/08 R223 to R226, R454, spec/15 R346, spec/17 R368), exact merges (spec/03 R75 to
R77, spec/04 R97), and the target of a fabric transaction (spec/07 R195, spec/19 R418, R419). -/

namespace Sys2Proof.Machine

/-- What a packet's step gives: a value with flags; a failure (R224); a token that a step met; a poisoned target (R93); or the
operation as which it goes on. -/
inductive PkOut where
  | done (v : Nat) (flags : Word)
  | fail
  | tok (t : Word)
  | poison (code : Nat)
  | again (o : Op)
deriving DecidableEq, Repr

/-! Memory that a packet reaches outside its target (R454). -/

/-- A value of n bytes that a packet reads at a virtual address; `r` is what a pod peer brings, or the failure of a request to an expander (R409).
A in CXL memory is read as memory: R454 lets A lie in any package of the pod, and names the window among the destinations of a ROWMOVE alone.
DEDUCED (log entry 127). -/
def State.sourceAt (s : State) (cluster ctx va n serial : Nat) (r : Reply) : State × Except Word Nat :=
  let bad (s : State) (c : Nat) : State × Except Word Nat := (s, .error (token c serial))
  if va % n != 0 then bad s 0x12 else
  match s.resolve cluster ctx va .read with
  | .error c => bad s c.toNat
  | .ok (s', l) =>
    if l.attr = 3 then bad s' 0x10 else
    match s'.placeOf ctx l.pa with
    | .error c => bad s' c
    | .ok (.peer _) =>
      (match r with
      | .value v _ => (s', .ok (v.toNat % 2 ^ (8 * n)))
      | .fail c => bad s' c.toNat
      | .home => bad s' 0x15)
    | .ok (.fabric _) => bad s' 0x10
    | .ok p =>
      let pa := s'.cellOf l.pa
      match p, r, s'.markNow pa n with
      | .cxl _, .fail c, _ => bad s' c.toNat
      | _, _, some c => bad s' c.toNat
      | _, _, none => (s', .ok (s'.readNow pa n))

/-- Consecutive values at an address, with what peers bring for each. -/
def State.sources (s : State) (cluster ctx n serial : Nat) : Nat → Nat → List Reply → State × List (Except Word Nat)
  | 0, _, _ => (s, [])
  | m + 1, va, rs =>
    let (s, v) := s.sourceAt cluster ctx (va % 2 ^ 64) n serial (rs.headD .home)
    let (s, l) := s.sources cluster ctx n serial m (va + n) (rs.drop 1)
    (s, v :: l)

/-- A word that must translate to a writable page of the pod: its physical address. -/
def State.writable (s : State) (cluster ctx va : Nat) : Option (State × Nat) :=
  if va % 4 != 0 then none else
  match s.resolve cluster ctx va .write with
  | .error _ => none
  | .ok (s', l) =>
    if l.attr != 1 then none else
    match s'.placeOf ctx l.pa with
    | .ok (.home _) => some (s', l.pa)
    | .ok (.peer _) => some (s', l.pa)
    | _ => none

/-- The words of a row at an address, all writable. -/
def State.writables (s : State) (cluster ctx : Nat) : Nat → Nat → Option (State × List Nat)
  | 0, _ => some (s, [])
  | n + 1, va =>
    match s.writable cluster ctx (va % 2 ^ 64) with
    | none => none
    | some (s, pa) =>
      match s.writables cluster ctx n (va + 4) with
      | none => none
      | some (s, l) => some (s, pa :: l)

/-- The group over which a cluster writes to a peer for a context (R411). -/
def State.putRoute (s : State) (ctx c q a : Nat) : Option Nat := s.route ctx (.peer q) c (fld a 39 30)

/-- Words at writable addresses, in this package or in a peer, to which they go with the context's JOB (R410). -/
def State.putWords (s : State) (ctx c : Nat) (l : List (Nat × Nat)) : State :=
  let away (x : Nat × Nat) : Option (Nat × Nat × Nat) := match s.region x.1 with | some (.peer q a) => some (q, a, x.2) | _ => none
  let s := (l.filterMap away).foldl (fun s (q, a, v) =>
    s.send (.peerWrite q a (toBytes 4 v) (s.ctx ctx).job ((s.putRoute ctx c q a).getD 0))) s
  s.rowWrite ((l.filter fun x => (away x).isNone).map fun (a, v) => (s.placed? a, .ok v))

/-- Each word of a ROWGET's A that lies in a peer has a route there. -/
def State.putsFree (s : State) (c : Nat) (o : Op) (p : Packet) : Bool :=
  p.op != 10 || (match s.writables c o.ctx p.len p.a with
    | some (s', l) => l.all fun a => (match s'.region a with | some (.peer q x) => (s'.putRoute o.ctx c q x).isSome | _ => true)
    | none => true)

/-- A node of a queue at the header's MSE: aligned, writable, unmarked (R454), where it stands now (R226). -/
def State.nodeAt (s : State) (c ctx va : Nat) : Option (State × Nat) :=
  if va % 8 != 0 then none else
  match s.resolve c ctx va .write with
  | .error _ => none
  | .ok (s', l) =>
    let pa := s'.standsAt l.pa 8
    if l.attr = 1 ∧ s'.region pa = some (.home c) ∧ (s'.markNow pa 8).isNone then some (s', pa) else none

/-! Rows that cross granules and homes. -/

/-- The physical address of word i of a packet's row: what lies past the granule of its first word stands where that was translated to. -/
def Op.rowPa (o : Op) (p : Packet) (i : Nat) : Nat :=
  let n := o.va % 2 ^ 16 + 4 * i
  if n < 2 ^ 16 then o.pa + 4 * i else p.next + (n - 2 ^ 16)

/-- The addresses of a row's words, where they stand now. -/
def State.rowPas (s : State) (o : Op) (p : Packet) : List Nat :=
  (List.range p.len).map fun i => s.placed? (o.rowPa p i)

/-- A range that goes to another in one piece. -/
structure Piece where
  src : Nat
  dst : Nat
  bytes : Nat
deriving DecidableEq, Repr

/-- The pieces of a row of words that go from one place to another: each of one home, and of one home there. -/
def pieces : List (Nat × Nat) → List Piece
  | [] => []
  | (a, b) :: r =>
    match pieces r with
    | [] => [⟨a, b, 4⟩]
    | x :: q =>
      if x.src = a + 4 ∧ x.dst = b + 4 ∧ x.src / 2 ^ 30 = a / 2 ^ 30 ∧ x.dst / 2 ^ 30 = b / 2 ^ 30 then ⟨a, b, x.bytes + 4⟩ :: q
      else ⟨a, b, 4⟩ :: x :: q

/-- The pieces of an accepted ROWMOVE, from where its words stand. -/
def State.movesOf (s : State) (o : Op) (p : Packet) : List Piece :=
  pieces ((List.range p.len).map fun i =>
    let n := p.a % 2 ^ 16 + 4 * i
    (s.placed? (o.rowPa p i), if n < 2 ^ 16 then p.dst.1 + 4 * i else p.dst.2 + (n - 2 ^ 16)))

/-! Exact merges. -/

def MergeEl.init (ctx : Nat) : MergeEl := ⟨ctx, 0, false, false, false, false, false, false, none⟩

/-- The smallest token received (R97). -/
def MergeEl.poison (m : MergeEl) (t : Word) : MergeEl :=
  { m with tok := match m.tok with | some k => some (if t.toNat < k.toNat then t else k) | none => some t }

/-- Merge one value (R75, R77). -/
def MergeEl.add (m : MergeEl) (x : Num) : MergeEl :=
  let m := { m with merged := true }
  match x with
  | .nan _ _ _ => { m with nan := true }
  | .inf false => { m with pinf := true }
  | .inf true => { m with ninf := true }
  | .fin sign a e =>
    let m := { m with nonneg := m.nonneg || !(sign && a = 0) }
    let v := m.v + sm sign (a * 2 ^ (e + 149).toNat)
    if v.natAbs < 2 ^ 319 then { m with v := v } else { m with lost := true }

/-- The drain of an element (R76). -/
def MergeEl.drain (m : MergeEl) : Tw × Word :=
  match m.tok with
  | some t => (.tok t, 0)
  | none =>
    if m.nan then (.data 0x7FC00000, 0)
    else if m.pinf && m.ninf then (.data 0x7FC00000, NV)
    else if m.pinf then (.data 0x7F800000, 0)
    else if m.ninf then (.data 0xFF800000, 0)
    else if m.lost then (.data 0x7FC00000, NV)
    else if m.v = 0 then (.data (if m.merged && !m.nonneg then 0x80000000 else 0), 0)
    else
      let r := f32.finish false 0 (decide (m.v < 0)) m.v.natAbs (-149)
      (.data (BitVec.ofNat 32 r.1), r.2)

/-- The format of a MERGE's values. -/
def mergeFmt (sub : Nat) : Fmt := match sub with | 0 => f32 | 1 => f16 | _ => bf16

/-- A value widened exactly to FP32; a NaN keeps its payload. -/
def widen (sub x : Nat) : Nat :=
  match (mergeFmt sub).decode x with
  | .fin s m e => if m = 0 then f32.signBits s else (f32.finish false 0 s m e).1
  | .inf s => f32.signBits s + 0x7F800000
  | .nan s _ _ => if sub = 0 then x else if sub = 1 then f32.signBits s + 0x7F800000 + x % 2 ^ 10 * 2 ^ 13 else x * 2 ^ 16

/-- MERGE in free order (R368): an atomic add at each row word. One in a marked sector keeps what it holds, whatever the source (R93). -/
def State.mergeFree (s : State) (ctx sub : Nat) (row : List Nat) (vs : List (Except Word Nat)) : State :=
  (row.zip vs).foldl (fun s (a, v) =>
    match s.markAt a, v with
    | some c, _ => s.msx ctx msxPTGT (some c.toNat)
    | none, .error t => s.rowWrite [(a, .error t)]
    | none, .ok x =>
      let r := f32.add false 0 false (s.readN a 4) (widen sub x)
      (s.storeBytes a (toBytes 4 r.1)).msx ctx (r.2.toNat % 32)) s

/-- The element bound to a row word for a context: what another left there is not used (R381). -/
def State.mergeAt (s : State) (ctx a : Nat) : Option MergeEl :=
  (find (s.cluster (a / 2 ^ 30)).merges (a / 4)).bind fun e => if e.ctx = ctx then some e else none

/-- MERGE into the row's elements, bound on first use, or none where too few are free (R225). -/
def State.mergeBound (s : State) (ctx sub : Nat) (row : List Nat) (vs : List (Except Word Nat)) : Option State :=
  let room (c : Nat) : Bool :=
    let m := (s.cluster c).merges
    decide (m.length + (row.filter fun a => a / 2 ^ 30 = c && (find m (a / 4)).isNone).length ≤ 8192)
  if !(row.all fun a => room (a / 2 ^ 30)) then none else
  some ((row.zip vs).foldl (fun s (a, v) =>
    let e := (s.mergeAt ctx a).getD (MergeEl.init ctx)
    s.modCluster (a / 2 ^ 30) fun cl => { cl with merges := put cl.merges (a / 4) (match v with
      | .error t => e.poison t
      | .ok x => e.add ((mergeFmt sub).decode x)) }) s)

/-- DRAIN of the bound words of a row: the flags. -/
def State.drainRow (s : State) (ctx sub : Nat) (row : List Nat) : State × Word :=
  let bound := row.filterMap fun a => (s.mergeAt ctx a).map fun e =>
    (a, (if sub = 1 then e.add (f32.decode (s.readN a 4)) else e).drain)
  let s := bound.foldl (fun s (a, _) => s.modCluster (a / 2 ^ 30) fun cl => { cl with merges := drop cl.merges (a / 4) }) s
  (s.rowWrite (bound.map fun (a, v, _) => (a, if v.tag then .error v.val else .ok v.val.toNat)),
    bound.foldl (fun f (_, _, g) => f ||| g) (0 : Word))

/-! ROWMOVE (R226, R346). -/

/-- The part of a forwarded range whose newest bytes lie in [lo, hi), and the parts that do not. -/
def Forward.cut (f : Forward) (lo hi : Nat) : Option Forward × List Forward :=
  let a := max f.dst lo
  let b := min (f.dst + f.bytes) hi
  let part (x y : Nat) : Forward := { f with base := f.base + (x - f.dst), bytes := y - x, dst := x }
  if b ≤ a then (none, [f])
  else (some (part a b), (if f.dst < a then [part f.dst a] else []) ++ (if b < f.dst + f.bytes then [part b (f.dst + f.bytes)] else []))

/-- Install the entry of a piece and its mirror. What earlier moves brought into the piece is cut out of their ranges and goes on to the new
place: their entries are rewritten, their mirrors stay as onward ones, and new mirrors stand at the new home (R346). -/
def State.moveEntry (s : State) (ctx id head : Nat) (x : Piece) : State :=
  let parts (f : Forward) : Option Forward × List Forward := f.cut x.src (x.src + x.bytes)
  let toNew (f : Forward) : Forward := { f with dst := x.dst + (f.dst - x.src) }
  let chain := ((s.cluster (x.src / 2 ^ 30)).mirrors.filter fun f => !f.onward).filterMap fun f => (parts f).1.map toNew
  let own : Forward := ⟨ctx, x.src, x.bytes, x.dst, false, id, head⟩
  let s := { s with clusters := mapVals (fun _ cl => { cl with
    fwds := cl.fwds.flatMap fun f => (parts f).2 ++ ((parts f).1.map toNew).toList }) s.clusters }
  let s := s.modCluster (x.src / 2 ^ 30) fun cl => { cl with
    mirrors := cl.mirrors.flatMap fun f =>
      if f.onward then [f] else (parts f).2 ++ ((parts f).1.map fun i => { toNew i with onward := true }).toList
    fwds := cl.fwds ++ [own] }
  s.modCluster (x.dst / 2 ^ 30) fun cl => { cl with mirrors := cl.mirrors ++ own :: chain }

/-- The new homes lie in the package, at other MSEs than the row's, on no forwarded range (R223, R226), and every MSE has room for the entries
and mirrors that the move makes or cuts (R225, R346). -/
def State.moveFits (s : State) (l : List Piece) : Bool :=
  let home (a : Nat) : Nat := a / 2 ^ 30
  (l.all fun x =>
    (match s.region x.dst with | some (.home _) => true | _ => false) && !(l.any fun y => home y.src = home x.dst)
      && !((s.cluster (home x.dst)).fwds.any fun f => decide (f.base < x.dst + x.bytes ∧ x.dst < f.base + f.bytes)))
    && (l.foldl (fun s x => s.moveEntry 0 0 0 x) s).clusters.all fun (_, cl) => decide (cl.fwds.length ≤ 64 ∧ cl.mirrors.length ≤ 64)

/-- A range at the other end of a move is frozen by another one. -/
def State.moveBlocked (s : State) (l : List Piece) : Bool :=
  l.any fun x => (s.cluster (x.dst / 2 ^ 30)).frozen.any fun f => decide (f.1 < x.dst + x.bytes ∧ x.dst < f.1 + f.2)

/-- Where a row may move: its A is writable memory homed in the package; the packet that says where (R454). -/
def State.moveTo (s : State) (c : Nat) (o : Op) (p : Packet) : Option (State × Packet) :=
  match s.writables c o.ctx p.len p.a with
  | none => none
  | some (s', l) =>
    let past := (2 ^ 16 - p.a % 2 ^ 16) / 4
    let p' := { p with op := moveOn, dst := (l.headD 0, l.getD past 0) }
    if s'.moveFits (s'.movesOf o p') && !s'.moveBlocked (s'.movesOf o p') then some (s', p') else none

def State.unfreeze (s : State) (l : List Piece) : State :=
  l.foldl (fun s x => s.modCluster (x.src / 2 ^ 30) fun cl => { cl with frozen := cl.frozen.filter fun f => f != (x.src, x.bytes) }) s

/-- The stamps of a piece's lines go with it: those of its entries to each line that takes their bytes, and the floor, which is the stamp of
the lines that have none (R297, R305). -/
def State.moveStamps (s : State) (x : Piece) : State :=
  let floor := (s.cluster (x.src / 2 ^ 30)).floor
  let s := ((s.cluster (x.src / 2 ^ 30)).stamps.filter fun e => decide (e.line * 64 < x.src + x.bytes ∧ x.src < e.line * 64 + 64)).foldl (fun s e =>
    let lo := x.dst + (max (e.line * 64) x.src - x.src)
    let hi := x.dst + (min (e.line * 64 + 64) (x.src + x.bytes) - x.src) - 1
    let s := s.stampLine lo e.clock e.scope
    if lo / 64 = hi / 64 then s else s.stampLine hi e.clock e.scope) s
  s.modCluster (x.dst / 2 ^ 30) fun cl => { cl with
    floor := cl.floor.max floor
    stamps := cl.stamps.map fun e => if decide (e.line * 64 < x.dst + x.bytes ∧ x.dst < e.line * 64 + 64) then { e with clock := e.clock.max floor } else e }

/-- The waits on words that have moved watch them at their new place, registered there anew. DEDUCED (log entry 128). -/
def State.moveWaits (s : State) (words : List (Nat × Nat)) : State :=
  let goes (a : Nat) : Option Nat := (words.find? fun x => x.1 = a).map fun x => x.2
  let there (t : Thread) : Option MonWait := t.waitOn.watch.bind fun w => match w.word with
    | .mem a => (goes a).map fun b => { w with word := .mem b, monitor := false }
    | .pad _ _ => none
  let sub (t : Thread) : Thread := match there t with | some w => { t with waitOn := t.waitOn.setWatch w } | none => t
  let live (t : Thread) : Bool := !(s.ctx t.ctx).low
  let keys := (s.threads.filter fun (_, t) => live t && (there t).isSome && t.waitOn.watch.any fun w => w.monitor).map fun x => x.1
  let fars := s.pkg.waits.filter fun w => w.monitor && (goes w.pa).isSome
  let s := { s with
    threads := mapVals (fun _ t => if live t then sub t else t) s.threads
    ctxs := mapVals (fun _ c => { c with saved := c.saved.map (Saved.mapThreads sub) }) s.ctxs
    pkg := { s.pkg with waits := s.pkg.waits.filter fun w => !fars.contains w } }
  let s := (words.map fun x => x.1 / 2 ^ 30).eraseDups.foldl State.sweepMonitors s
  fars.foldl (fun s w => s.registerFar { w with monitor := false }) (keys.foldl State.register s)

/-- Copy the frozen row with its marks and stamps, install what forwards it, and release the freeze. -/
def State.moveRow (s : State) (ctx : Nat) (l : List Piece) : State :=
  let words := l.flatMap fun x => (List.range (x.bytes / 4)).map fun i => (x.src + 4 * i, x.dst + 4 * i)
  let (id, s) := s.fresh
  let head := (l.head?.map Piece.src).getD 0
  let s1 := s.rowPut (words.map fun (a, b) => (b, some (s.readN a 4), (s.markAt a).map fun c => c.toNat))
  ((l.foldl (fun s x => (s.moveStamps x).moveEntry ctx id head x) s1).unfreeze l).moveWaits words

/-- UNFWD: the entry of the row that starts at the target goes, in all its pieces, with its mirrors wherever they stand (R223, R346). -/
def State.unforward (s : State) (pa : Nat) : Option State :=
  (s.clusters.findSome? fun (x : Nat × Cluster) => x.2.fwds.find? fun f => f.head = pa).map fun f =>
    { s with clusters := mapVals (fun _ cl => { cl with
        fwds := cl.fwds.filter fun x => x.id != f.id
        mirrors := cl.mirrors.filter fun x => x.id != f.id }) s.clusters }

/-! The step of one packet (R223). -/

/-- CHASE from a pointer: the steps that this MSE serves, and where it goes on. The home of a step is that of the dword it reads, where that
stands now (R226). DEDUCED (log entry 33). -/
def State.chase (s : State) (c : Nat) (o : Op) (p : Packet) (serial : Nat) : Nat → Nat → State × PkOut
  | 0, ptr => (s, .done ptr 0)
  | n + 1, ptr =>
    if ptr = 0 then (s, .done 0 0) else
    let va := (ptr + p.b.toNat) % 2 ^ 64
    match s.resolve c o.ctx va .read with
    | .error e => (s, .tok (token e.toNat serial))
    | .ok (s', l) =>
      if va % 8 != 0 then (s', .tok (token 0x12 serial)) else
      let pa := if l.attr = 3 then l.pa else s'.standsAt l.pa 8
      match (if l.attr = 3 then none else s'.region pa) with
      | some (.home d) =>
        if d = c ∧ (s'.movedAt c pa 8).isNone ∧ !s'.unfilled pa then
          (match s'.markNow pa 8 with
          | some e => (s', .tok (token e.toNat serial))
          | none => s'.chase c o p serial n (s'.readNow pa 8))
        else (s', .again { o with work := .packet { p with op := chaseOn, sub := n + 1, a := ptr }, place := .home d, va := va, pa := pa })
      | _ => (s', .done ptr 0)

/-- A sector of the target is marked (R93). MERGE in free order looks at each word, a DRAIN there of a row that binds none changes nothing
(R368), and UNFWD reads no memory. -/
def State.targetMark (s : State) (o : Op) (p : Packet) : Option Nat :=
  let row := s.rowPas o p
  let skips := p.op = 12 || p.op = moveOn || p.op = chaseOn || p.op = getOn
    || ((s.ctx o.ctx).det && (p.op = 7 || (p.op = 8 && row.all fun a => (s.mergeAt o.ctx a).isNone)))
  if skips then none
  else if p.op ≤ 6 then (s.markNow o.pa p.bytes).map fun c => c.toNat
  else (row.findSome? fun a => s.markAt a).map fun c => c.toNat

/-- The words that a ROWGET has read go to a home outside its MSE, or to a peer: one message for each range. -/
def State.putAway (s : State) (k : Nat) (o : Op) (c : Nat) (l : List (Nat × Nat)) : State :=
  (pieces (l.map fun (a, _) => (a, a))).foldl (fun s x =>
    let place : Place := match s.region x.dst with | some (.home d) => .home d | some (.peer q _) => .peer q | _ => o.place
    let vs := (l.filter fun (a, _) => decide (x.dst ≤ a ∧ a < x.dst + x.bytes)).map fun (_, v) => BitVec.ofNat 32 v
    let (n, s) := s.fresh
    let put : Op := { o with place := place, va := x.dst, pa := x.dst, work := .put k vs, batch := n, cls := 5, dst := .none, stamp := none
                             rel := none, order := 0, stage := .sent, reply := [], seen := none, eg := none, sentAt := s.now, hop := (2048 + c, 0) }
    (s.setOp n put).depart n) s

/-- ROWGET: its own MSE's words at once; `whole` where every word is written in the step, as a commit does and the device for a peer. -/
def State.rowGet (s : State) (k c : Nat) (o : Op) (p : Packet) (whole : Bool) : State × PkOut :=
  match s.writables c o.ctx p.len p.a with
  | none => (s, .fail)
  | some (s', l) =>
    let words := (l.map s'.placed?).zip ((s'.rowPas o p).map fun a => s'.readN a 4)
    let near (x : Nat × Nat) : Bool := whole || s'.region x.1 = some (.home c)
    let far := words.filter fun x => !near x
    let s1 := (s'.putWords o.ctx c (words.filter near)).putAway k o c far
    if far.isEmpty then (s1, .done 0 0) else (s1, .again { o with work := .packet { p with op := getOn, c := 0 } })

/-- The counter of a BCNT. The spec says of C alone that it is signed; the counter is read as an unsigned number, so that one of 2^63 or more
is refused as beyond A. DESIGN CHOICE (log entry 129). -/
def bcntSum (m : Nat) (c : Dword) : Int := (m : Int) + signed 64 c.toNat

/-- One step of a packet at the MSE c. A row that it has frozen, and a chase that it has sent on to itself, it has numbered before (R81). -/
def State.packetStep (s : State) (k c : Nat) (o : Op) (p : Packet) (rs : List Reply) (whole : Bool := false) : State × PkOut :=
  if p.op = getOn then (s, if p.c = 0 then .done 0 0 else .fail) else
  let s := if p.op = moveOn || (p.op = chaseOn && o.hop.1 = 2048 + c) then s else s.countMse o.place
  let serial := (s.cluster c).mseSer
  match s.targetMark o p with
  | some code => (s, .poison code)
  | none =>
    let s := if p.op = moveOn || p.op = chaseOn then s else s.leaveRel o
    let pa := o.pa
    let row := s.rowPas o p
    let put8 (s : State) (a v : Nat) : State := s.storeNow a (toBytes 8 v)
    let put4 (s : State) (a v : Nat) : State := s.storeNow a (toBytes 4 v)
    let m := s.readNow pa 8
    match p.op with
    | 1 => (if m = p.a then put8 s pa p.c.toNat else s, .done m 0)
    | 2 =>
      if p.a = 0 then (s, .fail) else
      match s.nodeAt c o.ctx p.a with
      | none => (s, .fail)
      | some (s', node) =>
        let tail := s'.readNow (pa + 8) 8
        if tail = 0 then (put8 (put8 (put8 s' node 0) pa p.a) (pa + 8) p.a, .done 0 0)
        else match s'.nodeAt c o.ctx tail with
          | none => (s', .fail)
          | some (s'', t) => (put8 (put8 (put8 s'' node 0) t p.a) (pa + 8) p.a, .done 0 0)
    | 3 =>
      if m = 0 then (s, .done 0 0) else
      match s.nodeAt c o.ctx m with
      | none => (s, .fail)
      | some (s', node) =>
        let next := s'.readNow node 8
        let s' := put8 s' pa next
        (if next = 0 then put8 s' (pa + 8) 0 else s', .done m 0)
    | 4 => s.chase c o p serial p.sub m
    | 260 => s.chase c o p serial p.sub p.a
    | 5 =>
      let v := bcntSum m p.c
      if 0 ≤ v ∧ v ≤ (p.a : Int) then (put8 s pa v.toNat, .done m 0) else (s, .done 0x8000000000000000 0)
    | 6 =>
      let t := s.readNow pa 4
      let h := s.readNow (pa + 4) 4
      if p.sub = 0 then (if (t + 2 ^ 32 - h) % 2 ^ 32 < p.b.toNat then (put4 s pa (t + 1), .done t 0) else (s, .fail))
      else if h != t then (put4 s (pa + 4) (h + 1), .done h 0) else (s, .fail)
    | 7 =>
      let (s, vs) := s.sources c o.ctx (if p.sub = 0 then 4 else 2) serial p.len p.a rs
      if (s.ctx o.ctx).det then (s.mergeFree o.ctx p.sub row vs, .done 0 0)
      else (match s.mergeBound o.ctx p.sub row vs with | some s' => (s', .done 0 0) | none => (s, .fail))
    | 8 =>
      if !(s.ctx o.ctx).det && row.all (fun a => (s.mergeAt o.ctx a).isNone) then (s, .fail)
      else let (s, f) := s.drainRow o.ctx p.sub row; (s, .done 0 f)
    | 9 =>
      let (s, vs) := s.sources c o.ctx 4 serial p.len p.a rs
      (s.rowWrite (row.zip vs), .done 0 0)
    | 10 => s.rowGet k c o p whole
    | 11 =>
      match s.moveTo c o p with
      | none => (s, .fail)
      | some (s', p') =>
        ((s'.movesOf o p').foldl (fun s x => s.modCluster (x.src / 2 ^ 30) fun cl => { cl with frozen := cl.frozen ++ [(x.src, x.bytes)] }) s',
          .again { o with work := .packet p' })
    | 267 => if s.moveFits (s.movesOf o p) then (s.moveRow o.ctx (s.movesOf o p), .done 0 0) else (s.unfreeze (s.movesOf o p), .fail)
    | 12 => (match s.unforward o.pa with | some s' => (s', .done 0 0) | none => (s, .fail))
    | _ => (s, .fail)

/-- How a packet reports (R224). -/
def State.packetEnd (s : State) (k : Nat) (o : Op) (out : PkOut) : State :=
  let both (v : Nat) : List Tw := [.data (BitVec.ofNat 32 v), .data (BitVec.ofNat 32 (v / 2 ^ 32))]
  let ends (s : State) (vals : List Tw) (f : Word) : State :=
    s.setOp k { o with stage := .performed, reply := vals, flags := f.extractLsb' 0 5 }
  match out with
  | .again o' => if o'.place = o.place ∧ o'.pa = o.pa then s.setOp k o' else s.sendFrom k o' (2048 + o.pa / 2 ^ 30)
  | .done v f => ends (if o.returns ∨ f = 0 then s else s.msx o.ctx (f.toNat % 32)) (both v) (if o.returns then f else 0)
  | .fail => ends (if o.returns then s else s.msx o.ctx msxOFAIL) (both (2 ^ 64 - 1)) 0
  | .tok t => ends s (tokOut true t) 0
  | .poison code => ends (if o.returns then s else s.msx o.ctx msxPTGT (some code)) (tokOut true (token code o.origin)) 0

/-- The stamp that an OPK returns is that of its target's line, before the packet's own release reaches it (R298, R305). -/
def State.seenBy (s : State) (o : Op) (p : Packet) : Op := if 13 ≤ p.op then o else { o with seen := some (s.stampAt o.pa) }

/-- Runs of addresses, as ranges. -/
def rangesOf (l : List Nat) : List (Nat × Nat) := (pieces (l.map fun a => (a, a))).map fun x => (x.src, x.bytes)

/-- The words of a packet's A that lie in this package. -/
def State.rowA (s : State) (o : Op) (p : Packet) : List Nat :=
  if p.op = 7 ∨ p.op = 9 ∨ p.op = 10 ∨ p.op = 11 ∨ p.op = getOn then
    (List.range ((p.a % 4 + p.aBytes + 3) / 4)).filterMap fun i =>
      match s.walk (rowOf o.cluster) o.ctx ((p.a / 4 * 4 + 4 * i) % 2 ^ 64) false with
      | .ok l => if l.attr = 3 then none else (match s.region l.pa with | some (.home _) => some (s.placed? l.pa) | _ => none)
      | .error _ => none
  else if p.op = moveOn then (s.movesOf o p).flatMap fun x => (List.range (x.bytes / 4)).map fun i => x.dst + 4 * i
  else []

/-- What a packet reaches outside its target's frame: its A, the rest of its row, its nodes. -/
def State.reachOf (s : State) (o : Op) (p : Packet) : List (Nat × Nat) :=
  let rest := if 7 ≤ p.op ∧ p.op ≤ 11 then (s.rowPas o p).filter fun a => !(decide (o.pa ≤ a ∧ a < o.pa + o.span)) else []
  rangesOf (s.rowA o p) ++ rangesOf rest ++ ((s.nodesOf o p).filter fun a => a / 2 ^ 30 = o.pa / 2 ^ 30).map fun a => (a, 8)

/-- An earlier packet of the issuer reaches what this one reaches (R284). -/
def State.packetsMeet (s : State) (k : Nat) (o : Op) (p : Packet) : Bool :=
  let meet (x y : Nat × Nat) : Bool := decide (x.1 < y.1 + y.2 ∧ y.1 < x.1 + x.2)
  let before := s.ops.filterMap fun (n, x) => match x.work, x.place with
    | .packet q, .home _ => if n < k && x.issuer = o.issuer && x.stage != .performed && x.stage != .txn then some (x, q) else none
    | _, _ => none
  !before.isEmpty && (let mine := (o.pa, o.span) :: s.reachOf o p
    before.any fun (x, q) => ((x.pa, x.span) :: s.reachOf x q).any fun r => mine.any (meet r))

/-- An UNFWD waits while what it would uncover is frozen for a further move (R226). -/
def State.unforwardFree (s : State) (pa : Nat) : Bool :=
  s.clusters.all fun (x : Nat × Cluster) => x.2.fwds.all fun f => f.head != pa || !s.frozenAt (f.dst / 2 ^ 30) f.dst f.bytes

/-- Nothing keeps the packet from what it reaches outside its target's frame: no earlier access of its thread (R284), no freeze (R226), no
gate (R296); and the words of a ROWGET have all been written. -/
def State.rowFree (s : State) (k : Nat) (o : Op) (p : Packet) : Bool :=
  let clear (x : Nat × Nat) : Bool :=
    let c := x.1 / 2 ^ 30
    s.movedAt c x.1 x.2 != some .frozen && s.covers (dieOf c) o.clock
      && (s.earlier k { o with place := .home c, va := 0, pa := x.1, work := .put k (List.replicate (x.2 / 4) 0) }).isEmpty
  if p.op = getOn then s.ops.all fun (_, x) => match x.work with | .put n _ => n != k | _ => true
  else (s.reachOf o p).all clear && !s.packetsMeet k o p && (p.op != 12 || s.unforwardFree o.pa)

/-- OPK_PACKET. -/
def execOpkPacket (op : Nat) (replies : List Reply) (s : State) : Res :=
  match find s.ops op with
  | none => .refused .notEnabled
  | some o =>
    match o.place, o.work with
    | .home c, .packet p =>
      if o.stage != .sent || !s.mayApply op o || !s.rowFree op o p then .refused .notEnabled
      else if !s.passes o then .next (s.hold? op o)
      else if (s.movedOp o).isSome then .refused .notEnabled
      else
        let o := s.seenBy o p
        let (s', out) := s.packetStep op c o p replies
        .next (s'.packetEnd op o out)
    | _, _ => .refused .notEnabled

/-! Fabric transactions at their target (R418, R419). -/

/-- TRANSACTION_PACKET: a packet reaches its target, over its group where that is another package, which holds it or refuses it; the first one
starts the time of R196. -/
def execTransactionPacket (op : Nat) (accepted : Bool) (s : State) : Res :=
  match find s.ops op with
  | none => .refused .notEnabled
  | some o =>
    match (o.threadKey.bind s.thread?).bind Thread.txn, o.threadKey with
    | some x, some key =>
      let away := match o.place with | .peer _ | .fabric _ => true | _ => false
      if o.stage != .txn || !x.held.contains op || (away && (!o.asks || o.eg.isNone)) || (s.ctx o.ctx).low then .refused .notEnabled
      else if accepted then
        .next ((s.setOp op { o with done := if away then 1 else o.done }).modThread key fun t =>
          { t with txn := some { x with first := some (x.first.getD s.now) } })
      else if !away then .refused .notEnabled
      else .next ((s.dropLane key).failTxn key 3 0 0)
    | _, _ => .refused .notEnabled

/-- One held packet applied by its commit, wherever its range stands now. It is a leaving operation where its home lies on another die, sent
and performed in one step (R294; log entry 114). -/
def State.commitOne (s : State) (k : Nat) : State :=
  match find s.ops k with
  | none => s
  | some o =>
    match o.work with
    | .packet p =>
      let pa := if p.op = 12 then o.pa else s.standsAt o.pa o.span
      let o := s.seenBy { o with pa := pa, place := .home (pa / 2 ^ 30) } p
      let s := match o.threadKey with
        | some key => s.modThread key fun t => match s.leaveStamp t o.cluster o.place true with
          | some n => { t with vc := t.vc.set (dieOf o.cluster) n }
          | none => t
        | none => s
      let (s', out) := s.packetStep k (pa / 2 ^ 30) o p [] true
      s'.packetEnd k o out
    | _ => s

/-- Every unit that the held packets name can be frozen now: filled, not moving, with nothing of the thread before it. -/
def State.commitReady (s : State) (ks : List Nat) : Bool :=
  ks.all fun k => match find s.ops k with
    | some o => (match o.work with
      | .packet p => s.mayApply k o && s.passes o && s.rowFree k o p && s.putsFree (o.pa / 2 ^ 30) o p && (match s.movedOp o with | some .frozen => false | _ => true)
      | _ => false)
    | none => false

/-- What the target brings for one packet of a commit: its value, or what a form that returns none records (R224, R419). -/
def State.committed (s : State) (k : Nat) (r : Reply) : State :=
  match find s.ops k, r with
  | some o, .value v f => if o.returns then s.answer k (o.shape v) f else (s.answer k []).recorded o v f
  | some o, .fail c => if o.returns then s.answerCode k c.toNat 0 else (s.answer k []).writeFailed o c.toNat
  | _, _ => s.answer k []

/-- FCOMMIT_COMMIT: the target freezes the units in address order, applies the packets in issue order, and releases. The freeze and
the application are one step here. A target outside the package brings its values. -/
def execFcommitCommit (thread : Nat) (replies : List Reply) (s : State) : Res :=
  match s.thread? thread with
  | none => .refused .notEnabled
  | some t =>
    match t.waitOn, t.txn with
    | .commit _ _, some x =>
      let fresh := x.held.all fun k => match find s.ops k with | some o => o.stage = .txn | none => false
      if !fresh || (s.ctx t.ctx).low then .refused .notEnabled
      else if x.target = some .self then
        (if s.commitReady x.held then .next (x.held.foldl State.commitOne s) else .refused .notEnabled)
      else if replies.length = x.held.length && x.eg.isSome then .next ((x.held.zip replies).foldl (fun s x => s.committed x.1 x.2) s)
      else .refused .notEnabled
    | _, _ => .refused .notEnabled

/-- FCOMMIT_REPLY (R195, R419). -/
def execFcommitReply (thread : Nat) (reply : Reply) (s : State) : Res :=
  match s.thread? thread with
  | none => .refused .notEnabled
  | some t =>
    match t.waitOn, t.txn with
    | .commit dst pc, some x =>
      if (s.ctx t.ctx).low then .refused .notEnabled else
      match reply with
      | .fail c =>
        if x.target = some .self then .refused .notEnabled
        else .next (s.raise t.ctx pc [⟨0, thread, token c.toNat (originOf pc), 8⟩])
      | _ =>
        if x.held.all fun k => match find s.ops k with | some o => o.stage = .performed | none => true then
          .next (s.resume thread ({ t with txn := none }.writeReg dst (.data 0)))
        else .refused .notEnabled
    | _, _ => .refused .notEnabled

end Sys2Proof.Machine
end

