-- ==== Sys2Proof/Machine/Copies.lean ====
section
/-! DEFINITION. Copy engines and streams at work (spec/08 R227 to R233, spec/04 R94, spec/12 R316, R319 to R321, R324, spec/11 R304). -/

namespace Sys2Proof.Machine

/-! Reads by engines. -/

/-- What an engine's read of an address finds: a translation to wait for, a value or a token, or nothing yet. -/
inductive Fetch where
  | wait (s : State)
  | got (s : State) (v : Except Word Nat)
  | notYet

/-- Wait for a walk or for the host, once. -/
def State.engineWait (s : State) (cluster ctx va : Nat) (host write : Bool) (u : WalkUser) : Fetch :=
  if host then (if s.port.ats.any fun r => r.users.contains u then .notYet else .wait (s.askAts ctx va write u))
  else if (s.row (rowOf cluster)).walks.any fun w => w.users.contains u then .notYet
  else .wait (s.askWalk (rowOf cluster) ctx (granule va) u)

/-- Read n bytes of a line. -/
def Line.give (l : Line) (s : State) (pa n serial : Nat) : Fetch :=
  match l.marks.getD (pa % 64 / 32) none with
  | some c => .got s (.error (token c.toNat serial))
  | none => .got s (.ok (ofBytes ((l.bytes.drop (pa % 64)).take n)))

/-- Read n bytes in a line that is held, or that its home gives past the gate of its die (R296, R314) and counts (R81). A held line whose ECC
fails is dropped, and the read receives Token(0x21) (R315). -/
def State.lineRead (s : State) (cluster : Nat) (clock : Clock) (pa n serial : Nat) (ecc : Ecc) : Fetch :=
  match s.heldLine cluster pa with
  | some l =>
    if ecc = .uncorrectable then
      let (unit, kind) := s.lineUnit cluster pa
      .got ((s.dropLine cluster pa).reliability 2 0x21 unit kind (get s.owners (pa / 2 ^ 16) 0x40) (pa / 64 * 64)) (.error (token 0x21 serial))
    else l.give (s.keepLine cluster true l) pa n serial
  | none =>
    let c := pa / 2 ^ 30
    if s.unfilled pa || !s.covers (dieOf c) clock || s.mseDown c then .notYet else
    let s := (s.detect pa ecc).countMse (.home c)
    (s.lineAt pa).give (s.install cluster (s.lineAt pa)) pa n serial

/-- What a place outside the package brings. -/
def outsideRead (s : State) (n serial : Nat) (r : Reply) : Fetch :=
  match r with
  | .home => .notYet
  | .value v _ => .got s (.ok (v.toNat % 2 ^ (8 * n)))
  | .fail c => .got s (.error (token c.toNat serial))

/-- The unit number of the staging through which a read passes (R444). -/
def WalkUser.staging (u : WalkUser) (cluster : Nat) : Nat := match u with | .copy e _ => 0x8000 + e | _ => cluster

/-- What an engine or access processor has sent to a home and has yet to arrive there: a later read of the same unit comes after it (R313). -/
def State.unitSent (s : State) (unit c : Nat) : Bool :=
  unit != c && s.ops.any fun (_, x) => x.stage = .sent && x.hop.1 = unit && x.target = some c && decide (x.sentAt ≤ s.now)

def WalkUser.unit (u : WalkUser) (cluster : Nat) : Nat := match u with | .copy e _ => 1000 + e | _ => cluster

/-- An engine's read (R321): through the context's tables, past the gate of the home's die, with the token of a fault. The reply
.fail 0x21 to a read at a home says that the element was lost in the engine's staging (R439). -/
def State.engineRead (s : State) (u : WalkUser) (cluster ctx : Nat) (clock : Clock) (va n serial : Nat) (ecc : Ecc) (r : Reply) : Fetch :=
  if va % n != 0 then .got s (.error (token 0x12 serial)) else
  match s.lookup u cluster ctx va .read with
  | .miss => s.engineWait cluster ctx va false false u
  | .ats => s.engineWait cluster ctx va true false u
  | .fault c => .got s (.error (token c.toNat serial))
  | .host _ _ => outsideRead s n serial r
  | .hit pa attr =>
    match s.placeOf ctx pa with
    | .error c => .got s (.error (token c serial))
    | .ok (.home _) =>
      if attr = 2 then (if (s.heldLine cluster pa).isNone && s.unitSent (u.unit cluster) (pa / 2 ^ 30) then .notYet else s.lineRead cluster clock pa n serial ecc) else
      let pa := s.placed? pa
      let c := pa / 2 ^ 30
      if s.unfilled pa || !s.covers (dieOf c) clock || (s.movedAt c pa n).isSome || s.mseDown c || s.unitSent (u.unit cluster) c then .notYet else
      let s := (s.detect pa ecc).countMse (.home c)
      (match s.markIn pa n with
      | some code => .got s (.error (token code.toNat serial))
      | none => if r = .fail 0x21 then .got (s.reliability 2 0x21 (u.staging cluster) 7 ctx 0) (.error (token 0x21 serial)) else .got s (.ok (s.readN pa n)))
    | .ok (.cxl e) =>
      let at' := s.cellOf pa
      (match r, s.readCode (.cxl e) at' n ecc with
      | .fail code, _ => .got s (.error (token code.toNat serial))
      | _, some code => .got s (.error (token code serial))
      | _, none => .got s (.ok (s.readN at' n)))
    | .ok _ => outsideRead s n serial r

/-- A tagged value from what a read gives. -/
def twOf (v : Except Word Nat) : Tw := match v with | .error t => .tok t | .ok n => .data (BitVec.ofNat 32 n)

/-! Pushing (R231, R233). -/

/-- Put elements before the mark of their owner. -/
def pushMark (owner : Nat) (vs : List Tw) : List QEl → List QEl
  | [] => []
  | .mark k :: r => if k = owner then vs.map QEl.val ++ .mark k :: r else .mark k :: pushMark owner vs r
  | e :: r => e :: pushMark owner vs r

/-- All that stands before an owner's mark has its value: nothing that pushes the queue earlier holds the owner back (R231, R233, R324). -/
def markFirst (owner : Nat) : List QEl → Bool
  | [] => false
  | .mark k :: _ => k = owner
  | .hole _ _ :: _ => false
  | _ :: r => markFirst owner r

def dropMark (owner : Nat) (l : List QEl) : List QEl := l.filter fun e => e != .mark owner

/-- Change a queue or FIFO of a group; a matrix operation that waits for its FIFO takes what it needs (R246). -/
def State.onFifo (s : State) (g : Nat) (fifo : Bool) (n : Nat) (f : List QEl → List QEl) : State :=
  s.modGroup g fun gr =>
    if fifo then ({ gr with fifos := put gr.fifos n (f (get gr.fifos n [])) }.feed)
    else { gr with q := put gr.q n (f (get gr.q n [])) }

/-- The owner of a mark may push k elements: it is its turn, and there is room. -/
def State.mayPush (s : State) (g : Nat) (fifo : Bool) (n owner k : Nat) : Bool :=
  match s.group? g with
  | none => false
  | some gr =>
    let l := if fifo then get gr.fifos n [] else get gr.q n []
    markFirst owner l && decide (queueUsed l + k ≤ if fifo then 2048 else queueCap n)

/-! The elements of a command (R229). -/

def CopyCmd.perBlock (c : CopyCmd) : Nat := c.z * c.y * ((c.x + 3) / 4)

/-- Block, plane, row and byte of element i. -/
def CopyCmd.at (c : CopyCmd) (n : Nat) : Nat × Nat × Nat × Nat :=
  let w := (c.x + 3) / 4
  let i := n % c.perBlock
  (n / c.perBlock, i / (c.y * w), i / w % c.y, i % w * 4)

def CopyCmd.source (c : CopyCmd) (n : Nat) (e : Dword) : Nat :=
  let (_, z, y, x) := c.at n
  let s1 := signed 64 c.sstr1
  let s2 := signed 64 c.sstr2
  wrap 64 ((c.src : Int) + (df e 20 0 * c.x : Nat) + (df e 41 21 * c.y : Nat) * s1 + (df e 62 42 * c.z : Nat) * s2 + z * s2 + y * s1 + x)

def CopyCmd.destOf (c : CopyCmd) (n : Nat) : Nat :=
  let (k, z, y, x) := c.at n
  (c.dst + k * c.dblk + z * c.dstr2 + y * c.dstr1 + x) % 2 ^ 64

/-- Where the next element goes. -/
def CopyCmd.dest (c : CopyCmd) : Nat := c.destOf c.index

/-- The next element to read. -/
def CopyCmd.ahead (c : CopyCmd) : Nat := c.index + c.staged.length

/-- The address of the list entry of the block that is being read (R228). -/
def CopyCmd.entryAt (c : CopyCmd) : Nat := (c.blist + 8 * (c.ahead / c.perBlock)) % 2 ^ 64

def CopyCmd.left (c : CopyCmd) : Bool := decide (c.index < c.total)

def State.copyCmd? (s : State) (e id : Nat) : Option CopyCmd := (s.engine e).cmds.find? fun c => c.id = id

def State.modCopy (s : State) (e id : Nat) (f : CopyCmd → CopyCmd) : State :=
  s.setEngine e { s.engine e with cmds := (s.engine e).cmds.map fun c => if c.id = id then f c else c }

/-- The element operations of a command that its destinations have not performed. -/
def State.copyOps (s : State) (e id : Nat) : List Op := (s.ops.filter fun (_, o) => o.issuer = .copy e id).map fun (_, o) => o

/-- The element read first has been delivered or dropped. -/
def State.stepCopy (s : State) (e id : Nat) : State := s.modCopy e id fun c => { c with index := c.index + 1, staged := c.staged.drop 1 }

/-- An element has been read; a block's entry goes with its last element. -/
def State.stageCopy (s : State) (e id : Nat) (v : Tw) (at' : Option Nat := none) : State :=
  s.modCopy e id fun c => { c with
    staged := c.staged ++ [v], last := if at'.isSome then at' else c.last, entry := if c.perBlock ≠ 0 ∧ (c.ahead + 1) % c.perBlock = 0 then none else c.entry }

/-- The kept result of a walk is of a page that one of the addresses lies in. -/
def inPages (addrs : List Nat) (key : Nat) : Bool :=
  addrs.any fun a => key = granule a || key = hostKey a false || key = hostKey a true

/-- An engine keeps the translations of the pages that it is in: of the list, of the next element to read, and until a block's entry names it of
the last one read, of the next to write, of the completion word (R321, R395; log entry 116). -/
def State.keepPages (s : State) (e id : Nat) : State :=
  s.modCopy e id fun c =>
    let src := match c.entry with
      | some (x, none) => [c.source c.ahead x]
      | _ => if c.blist = 0 then [c.source c.ahead 0] else c.last.toList
    { c with walks := keep (fun k _ => inPages ([c.entryAt, c.dest, c.cw] ++ src) k) c.walks }

/-- The operation that a copy engine sends for an element, or for its completion word (R294, R304). -/
def State.copySend (s : State) (e : Nat) (c : CopyCmd) (work : Work) (p : Place) (va pa : Nat) (rel : Option (Clock × Nat)) : State :=
  let (k, s) := s.fresh
  let die := dieOf c.cluster
  let stamp := match dieOfPlace p with | some d => if d != die then some s.nc else none | none => none
  let o : Op := { ctx := c.ctx, act := c.act, issuer := .copy e c.id, cluster := c.cluster, slot := 0x7FF, born := threadKey c.cluster 0x7FF, tid := 0, batch := k, pc := c.pc
                  cls := 5, work := work, place := p, va := va, pa := pa, dst := .none, clock := c.ec, stamp := stamp, scope := c.scope
                  order := 0, rel := rel, stage := .sent, reply := [], flags := 0, seen := none, eg := none, sentAt := s.now, retired := false, hop := (1000 + e, 0) }
  let s := match stamp with
    | some n => s.modCopy e c.id fun c => { c with ec := c.ec.set die (max n (c.ec.get die)), own := max n c.own }
    | none => s
  (s.setOp k o).depart k

/-- An engine whose clock already holds this network cycle keeps a leaving operation until the next one, as a thread does (R294). -/
def State.copyHolds (s : State) (c : CopyCmd) (p : Place) : Bool :=
  match dieOfPlace p with
  | some d => d != dieOf c.cluster && decide (s.nc ≤ c.ec.get (dieOf c.cluster))
  | none => false

/-- An element for host memory is a posted write; it is on its way at once. `addr` is on the host's bus. -/
def State.hostElement (s : State) (c : CopyCmd) (addr : Nat) (raw : Bool) (v : Word) : State :=
  s.send (.hostWrite (if raw then none else some (s.ctx c.ctx).pasid) addr (toBytes 4 v.toNat))

def State.dropElement (s : State) (e : Nat) (c : CopyCmd) : State := (s.msx c.ctx msxCDROP).stepCopy e c.id

/-- Write an element to memory: where its page faults or may not be written, it is dropped (R230). A tagged element for a place
without marks, a host, carries its token's bits. A publish writes device, peer and CXL memory: what R230 says of read-only-cacheable and of
writable pages leaves out host and fabric pages, whose elements it drops. DESIGN CHOICE (log entry 130). -/
def State.memElement (s : State) (e : Nat) (c : CopyCmd) (v : Tw) : Fetch :=
  let va := c.dest
  let publish := decide (c.kind = 4)
  let step (s : State) : Fetch := .got (s.stepCopy e c.id) (.ok 0)
  match s.lookup (.copy e c.id) c.cluster c.ctx va (if publish then .read else .write) with
  | .miss => s.engineWait c.cluster c.ctx va false false (.copy e c.id)
  | .ats => if publish then .got (s.dropElement e c) (.ok 0) else s.engineWait c.cluster c.ctx va true true (.copy e c.id)
  | .fault _ => .got (s.dropElement e c) (.ok 0)
  | .host pa _ => if publish then .got (s.dropElement e c) (.ok 0) else step (s.hostElement c pa false v.val)
  | .hit pa attr =>
    if publish && !(attr = 1 || attr = 2) then .got (s.dropElement e c) (.ok 0) else
    match s.placeOf c.ctx pa with
    | .error _ => .got (s.dropElement e c) (.ok 0)
    | .ok .hostRaw => step (s.hostElement c (busAddr .hostRaw pa) true v.val)
    | .ok p =>
      if s.copyHolds c p then .notYet else
      let s := if publish then s.modCopy e c.id fun c => { c with lines := if c.lines.contains (pa / 64) then c.lines else c.lines ++ [pa / 64] } else s
      step (s.copySend e c (.element e c.id v) p va (s.cellOf pa) none)

/-- Deliver an element to the kind's destination. -/
def State.deliverElement (s : State) (e : Nat) (c : CopyCmd) (v : Tw) : Fetch :=
  match c.kind, c.group with
  | 1, some g =>
    let a := c.dest
    let scr := match s.group? g with | some gr => gr.scr | none => 0
    if scr < a + 4 then .got (s.dropElement e c) (.ok 0) else .got ((s.padWrite g (a / 4) v).stepCopy e c.id) (.ok 0)
  | 2, some g | 3, some g =>
    let fifo := decide (c.kind = 3)
    if !s.mayPush g fifo c.dst c.id 1 then .notYet else
    let s := (s.onFifo g fifo c.dst (pushMark c.id [v])).stepCopy e c.id
    .got (if c.index + 1 = c.total then s.onFifo g fifo c.dst (dropMark c.id) else s) (.ok 0)
  | 0, _ | 4, _ => s.memElement e c v
  | _, _ => .got (s.dropElement e c) (.ok 0)

/-- An engine works on its first 16 commands, and not for a context that is stopped (R319, R381, R430). -/
def State.copyRuns (s : State) (e : Nat) (c : CopyCmd) : Bool :=
  ((s.engine e).cmds.take 16).any (fun x => x.id = c.id) && !(s.ctx c.ctx).treated.contains (4, e) && !(s.ctx c.ctx).down

def Fetch.toRes : Fetch → Res
  | .wait s => .next s
  | .got s _ => .next s
  | .notYet => .refused .notEnabled

/-- Where a command's address stands in memory. -/
def State.copyPa (s : State) (c : CopyCmd) (va : Nat) : Option Nat :=
  match s.walk (rowOf c.cluster) c.ctx va true with
  | .ok l => if l.attr = 3 then none else some (s.placed? (s.cellOf l.pa))
  | .error _ => none

/-- The source of an element does not meet an earlier element that is still to be written (R229). -/
def State.sourceFree (s : State) (e : Nat) (c : CopyCmd) (va : Nat) : Bool :=
  match s.copyPa c va with
  | none => true
  | some a =>
    let off (b : Nat) : Bool := !(decide (b < a + 4 ∧ a < b + 4))
    (s.copyOps e c.id).all (fun o => off o.pa)
      && (!(c.kind = 0 || c.kind = 4) || (List.range c.staged.length).all fun i => ((s.copyPa c (c.destOf (c.index + i))).all off))

/-- The elements that an engine's staging holds for a command (R320). -/
def copyStaging : Nat := 4096

/-- The engine reads the list entry of a block, or the next element, ahead of what it writes (R228, R229, R320). -/
def State.copyRead (s : State) (engine : Nat) (c : CopyCmd) (ecc : Ecc) (reply : Reply) : Res :=
  if c.total ≤ c.ahead || copyStaging ≤ c.staged.length then .refused .notEnabled else
  let u : WalkUser := .copy engine c.id
  match (if c.blist = 0 then some ((0 : Dword), none) else c.entry) with
  | none =>
    (match s.engineRead u c.cluster c.ctx c.ec c.entryAt 8 c.serial ecc reply with
    | .got s v => .next (s.modCopy engine c.id fun c => { c with entry := some (match v with
        | .ok n => (BitVec.ofNat 64 n, none)
        | .error t => (0, some t)) })
    | x => x.toRes)
  | some (_, some t) => .next (s.stageCopy engine c.id (.tok t))
  | some (e, none) =>
    let va := c.source c.ahead e
    if !s.sourceFree engine c va then .refused .notEnabled else
    match s.engineRead u c.cluster c.ctx c.ec va 4 c.serial ecc reply with
    | .got s v => .next (s.stageCopy engine c.id (twOf v) (some va))
    | x => x.toRes

/-- COPY_ELEMENT_READ: an engine reads for a command, or with no reply delivers the oldest element it has read (R229, R320). -/
def execCopyElementRead (engine command : Nat) (ecc : Ecc) (reply : Option Reply) (s0 : State) : Res :=
  let s := s0.keepPages engine command
  match s.copyCmd? engine command with
  | none => .refused .notEnabled
  | some c =>
    if !s.copyRuns engine c then .refused .notEnabled
    else match reply, c.staged with
      | some r, _ => s.copyRead engine c ecc r
      | none, v :: _ => (s.deliverElement engine c v).toRes
      | none, [] => .refused .notEnabled

/-! Completion (R230, R304, R316). -/

/-- The caches that a publish reaches: 768 clusters, then 128 slices. -/
def cachePlaces : Nat := 768 + 128

/-- CACHE_DROP: one cache drops the lines that a publish has written, and acknowledges. -/
def execCacheDrop (engine command place : Nat) (s : State) : Res :=
  match s.copyCmd? engine command with
  | none => .refused .notEnabled
  | some c =>
    if c.kind != 4 || c.left || cachePlaces ≤ place || c.acks.contains place || !(s.copyOps engine command).isEmpty
        || !s.copyRuns engine c then .refused .notEnabled
    else
      let s := s.modCopy engine command fun c => { c with acks := place :: c.acks }
      let hit (l : Line) : Bool := c.lines.contains (l.pa / 64)
      .next (if place < 768 then s.modCluster place fun cl => { cl with lines := cl.lines.filter fun l => !hit l }
        else
          let i := place - 768
          s.modRow (i / 4) fun r => { r with slices := r.slices.filter fun x => !(x.1 = i % 4 && hit x.2) })

/-- The clock and the scope that the completion leaves at its word (R304). A release to a place outside its scope is dropped: the clock is then
that of the copy's own writes, and the issuing threads' SDROP is set (R290). -/
def State.completionRel (s : State) (c : CopyCmd) (p : Place) : State × Option (Clock × Nat) :=
  if c.order = 3 ∧ (effectiveOrder c.scope.toNat 3 c.cluster p).2 then
    (c.threads.foldl (fun s k => s.modThread k fun t => t.flag SDROP) s, some (Clock.zero.set (dieOf c.cluster) c.own, c.scope.toNat))
  else (s, some (c.ec, c.scope.toNat))

/-- The completion word's operation, or that it is not made: CDROP and retirement. In host or fabric memory the increment goes out as an
atomic (R230; log entry 34). -/
def State.completionAt (s : State) (e : Nat) (c : CopyCmd) : Fetch :=
  let give (s : State) : Fetch := .got ((s.msx c.ctx msxCDROP).copyRetire e c.id) (.ok 0)
  let sent (s : State) (p : Place) (pa : Nat) : Fetch :=
    if s.copyHolds c p then .notYet else
    let (s, rel) := s.completionRel c p
    .got ((s.modCopy e c.id fun c => { c with counted := true }).copySend e c (.count e c.id) p c.cw pa
      (match p with | .home _ => rel | _ => none)) (.ok 0)
  if c.kind = 1 then
    match c.group with
    | none => give s
    | some g =>
      let scr := match s.group? g with | some gr => gr.scr | none => 0
      if scr < c.cw + 4 then give s
      else if s.settled (dieOf c.cluster) c.ec then sent s (.pad g) c.cw else .notYet
  else
    match s.lookup (.copy e c.id) c.cluster c.ctx c.cw .write with
    | .miss => s.engineWait c.cluster c.ctx c.cw false true (.copy e c.id)
    | .ats => s.engineWait c.cluster c.ctx c.cw true true (.copy e c.id)
    | .host pa _ => sent s .host pa
    | .fault _ => give s
    | .hit pa attr =>
      if !(attr = 1 || attr = 4) then give s else
      match s.placeOf c.ctx pa with
      | .ok p => sent s p (s.cellOf pa)
      | .error _ => give s

/-- COPY_COMPLETION. -/
def execCopyCompletion (engine command : Nat) (s : State) : Res :=
  match s.copyCmd? engine command with
  | none => .refused .notEnabled
  | some c =>
    let ops := s.copyOps engine command
    let near (o : Op) : Bool := match dieOfPlace o.place with | some d => d = dieOf c.cluster | none => true
    let done := if c.cw = allOnes ∨ c.kind = 1 ∨ c.kind = 4 then ops.isEmpty else ops.all fun o => !near o
    if c.left || c.counted || !done || !s.copyRuns engine c || (c.kind = 4 && decide (c.acks.length < cachePlaces)) then .refused .notEnabled
    else if c.cw = allOnes then .next (s.copyRetire engine command)
    else (s.completionAt engine c).toRes

/-! Streams (R233, R324). -/

def State.stream? (s : State) (g id : Nat) : Option Stream := (s.streams g).find? fun x => x.id = id

def State.modStreams (s : State) (g : Nat) (f : List Stream → List Stream) : State :=
  s.modGroup g fun gr => { gr with slice := gr.slice.map fun sl => { sl with streams := f sl.streams } }

def State.modStream (s : State) (g id : Nat) (f : Stream → Stream) : State := s.modStreams g fun l => l.map fun x => if x.id = id then f x else x

/-- Push the next element of a stream, and end the stream with its last: its slot is free then (R333). -/
def State.streamPush (s : State) (g : Nat) (st : Stream) (vs : List Tw) : State :=
  let s := s.onFifo g false st.q (pushMark st.id vs)
  if st.index + 1 = st.count then (s.onFifo g false st.q (dropMark st.id)).modStreams g fun l => l.filter fun x => x.id != st.id
  else s.modStream g st.id fun x => { x with index := x.index + 1, staged := x.staged.drop 1 }

/-- The reads that a stream has in flight or waiting to be pushed (R324). -/
def streamReads : Nat := 32

def Stream.ahead (st : Stream) : Nat := st.index + st.staged.length

/-- The address of the next element to read. -/
def Stream.va (st : Stream) : Nat := wrap 64 ((st.base : Int) + st.ahead * st.stride)

/-- A stream reads its next element. -/
def State.streamRead (s : State) (g : Nat) (gr : Group) (st : Stream) (ecc : Ecc) (reply : Reply) : Res :=
  let stage (s : State) (vs : List Tw) : Res := .next (s.modStream g st.id fun x => { x with staged := x.staged ++ [vs] })
  if st.count ≤ st.ahead || streamReads ≤ st.staged.length then .refused .notEnabled else
  match st.tok with
  | some t => stage s (tokOut st.wide t)
  | none =>
    match s.engineRead (.stream g st.id) gr.cluster gr.ctx st.clock st.va (if st.wide then 8 else 4) st.serial ecc reply with
    | .got s (.error t) => stage s (tokOut st.wide t)
    | .got s (.ok v) =>
      let lo : Tw := .data (BitVec.ofNat 32 v)
      stage s (if st.wide then [lo, .data (BitVec.ofNat 32 (v / 2 ^ 32))] else [lo])
    | x => x.toRes

/-- STREAM_ELEMENT_RETURN: an element of a stream returns, or the oldest one that has is pushed, in its stream's turn (R233, R324). -/
def execStreamElementReturn (group stream : Nat) (ecc : Ecc) (reply : Option Reply) (s0 : State) : Res :=
  let s := s0.modStream group stream fun x => { x with walks := keep (fun k _ => inPages [x.va] k) x.walks }
  match s.stream? group stream, s.group? group with
  | some st, some gr =>
    if (s.ctx gr.ctx).treated.contains (2, gr.cluster) || (s.ctx gr.ctx).down then .refused .notEnabled
    else match reply, st.staged with
      | some r, _ => s.streamRead group gr st ecc r
      | none, vs :: _ => if s.mayPush group false st.q st.id vs.length then .next (s.streamPush group st vs) else .refused .notEnabled
      | none, [] => .refused .notEnabled
  | _, _ => .refused .notEnabled

end Sys2Proof.Machine
end

