-- ==== Sys2Proof/Machine/Travel.lean ====
section
/-! DEFINITION. Threads and messages between clusters and packages: q14 messages (spec/08 R235), departures and arrivals (spec/07 R180,
R207, spec/10 R270 to R275), spawns (R276, R277), the notices of guest records (R278), waiting RACQs (R185). -/

namespace Sys2Proof.Machine

/-- The core cycle of a cluster that comes n core cycles from now: each cycle lasts as its clock has it (R5, R368). -/
def State.cycles (s : State) (cluster n : Nat) : Nat := s.coreCycle cluster + n

/-- A context takes arrivals: neither stopped nor out (R380, R430); a switch-in brings its saved threads back. -/
def State.takesIn (s : State) (ctx : Nat) (saved : Bool) : Bool :=
  let c := s.ctx ctx
  c.en && !c.low && !c.swOut && (!c.out || (saved && c.swIn))

/-! Messages (R235). -/

def State.msg? (s : State) (cluster id : Nat) : Option Msg := (s.cluster cluster).outbox.find? fun m => m.id = id

def State.dropMsg (s : State) (cluster id : Nat) : State :=
  s.modCluster cluster fun c => { c with outbox := c.outbox.filter fun m => m.id != id }

/-- A refused message waits; the interval doubles up to 65,536 core cycles (R272). -/
def State.backOff (s : State) (cluster id : Nat) : State :=
  s.modMsg cluster id fun m => { m.routed none with next := s.cycles cluster m.gap, gap := min (2 * m.gap) 65536 }

/-- The elements of the q15 that a message names; none where it does not exist. -/
def State.inboxOf (s : State) (m : Msg) (actq : Bool) (port : Nat) : Option (List QEl) :=
  if actq then
    match s.act? m.ctx m.act with
    | some a => if a.roaming then some (get a.inbox m.dst []) else none
    | none => none
  else
    match s.group? (m.dst * 2048 + 32 * port) with
    | some g => if g.ctx = m.ctx then some (get g.q 15 []) else none
    | none => none

/-- The q15 of the sender's act on the cluster is saved: it takes no message until it is restored. DEDUCED (log entry 131). -/
def State.inboxSaved (s : State) (m : Msg) : Bool :=
  (s.ctx m.ctx).saved.any fun x => match x with
    | .roaming c _ t _ box => c = m.dst && t.act = m.act && box.isSome
    | .ensemble _ _ _ _ _ _ => false

def State.setInbox (s : State) (m : Msg) (actq : Bool) (port : Nat) (l : List QEl) : State :=
  if actq then s.modAct m.ctx m.act fun a => { a with inbox := put a.inbox m.dst l }
  else s.modGroup (m.dst * 2048 + 32 * port) fun g => { g with q := put g.q 15 l }

/-- A push whose message has been taken is performed in every thread that sent it. -/
def State.messageDone (s : State) (cluster id : Nat) : State :=
  { s with ops := mapVals (fun _ o => if o.work = Work.message id then { o with stage := .performed } else o) s.ops }.dropMsg cluster id

/-- MESSAGE_DELIVERY: appended whole, discarded, or refused; none of a context whose curtain is lowered (R431, R433). -/
def execMessageDelivery (cluster message : Nat) (s : State) : Res :=
  match s.msg? cluster message with
  | none => .refused .notEnabled
  | some m =>
    match m.cargo with
    | .spawn _ _ _ _ => .refused .notEnabled
    | .travel _ _ _ _ => .refused .notEnabled
    | .queue actq port values vc _ origin =>
      if m.dst = 1023 ∨ m.next != 0 ∨ s.behind cluster m ∨ (s.ctx m.ctx).low then .refused .notEnabled
      else if actq && s.inboxSaved m then .next (s.backOff cluster message) else
      match s.inboxOf m actq port with
      | none => .next ((s.msx m.ctx msxMDROP).messageDone cluster message)
      | some l =>
        if 256 < queueUsed l + 1 + values.length then .next (s.backOff cluster message)
        else
          let head := BitVec.ofNat 32 (values.length * 2 ^ 26 + cluster * 2 ^ 16 + origin)
          .next ((s.setInbox m actq port (l ++ .head (.data head) vc :: values)).messageDone cluster message)

/-- MESSAGE_RESEND. -/
def execMessageResend (cluster message : Nat) (s : State) : Res :=
  match s.msg? cluster message with
  | none => .refused .notEnabled
  | some m =>
    match m.cargo with
    | .spawn _ _ _ _ => .refused .notEnabled
    | .travel _ _ _ _ => .refused .notEnabled
    | .queue _ _ _ _ _ _ =>
      if m.next = 0 ∨ s.coreCycle cluster < m.next then .refused .notEnabled else .next (s.modMsg cluster message fun m => { m with next := 0 })

/-! Arrivals (R272, R273). -/

/-- The lowest slot, from n on, that no thread and no group holds; a roaming thread may take any (log entry 35). -/
def State.slotFrom (s : State) (cluster : Nat) : Nat → Nat → Option Nat
  | _, 0 => none
  | n, fuel + 1 =>
    if (find s.threads (threadKey cluster n)).isNone
        && s.groups.all fun (_, g) => !(g.cluster = cluster && decide (g.base ≤ n ∧ n < g.base + (g.size + 31) / 32 * 32)) then some n
    else s.slotFrom cluster (n + 1) fuel

def State.freeSlot (s : State) (cluster : Nat) : Option Nat := s.slotFrom cluster 0 2048

/-- The place in a queue that a waiting thread has reserved. -/
def rehole (old new : Nat) (l : List QEl) : List QEl :=
  l.map fun e => match e with
    | .hole o h => if o = waitHole old then .hole (waitHole new) h else e
    | _ => e

/-- Other records name a thread by its slot: they follow it to a new one. -/
def State.rekey (s : State) (old new : Nat) : State :=
  let sub (k : Nat) : Nat := if k = old then new else k
  { s with
    ops := mapVals (fun _ o => match o.issuer with
      | .thread k => if k = old then { o with issuer := .thread new, cluster := clusterOfKey new, slot := slotOfKey new } else o
      | _ => o) s.ops
    engines := mapVals (fun _ (e : Engine) => { e with cmds := e.cmds.map fun (c : CopyCmd) => { c with threads := c.threads.map sub } }) s.engines
    groups := mapVals (fun _ (g : Group) => { g with q := mapVals (fun _ l => rehole old new l) g.q, mq := g.mq.map fun (m : MxOp) => { m with threads := m.threads.map sub } }) s.groups
    threads := mapVals (fun _ t => match t.waitOn with | .follow k => { t with waitOn := .follow (sub k) } | _ => t) s.threads
    clusters := mapVals (fun _ c => { c with outbox := c.outbox.map fun m => match m.cargo with
      | .queue a p l vc o g => { m with cargo := .queue a p (rehole old new l) vc o g }
      | _ => m }) s.clusters
    port := { s.port with pages := s.port.pages.map fun r => { r with threads := r.threads.map sub } }
    pkg := { s.pkg with begins := s.pkg.begins.map fun b => { b with key := sub b.key } } }

/-- The wait of a restored thread is evaluated again (R281, R379). -/
def State.resumeWait (s : State) (key : Nat) : State :=
  match s.thread? key with
  | none => s
  | some t =>
    let go : State := s.setThread key (t.run s.now)
    match t.waitOn with
    | .page va => if (s.ctx t.ctx).needs.contains (granule va) || s.pkg.begins.any (fun b => b.key = key) then s else go
    | .host _ _ => if s.port.pages.any (fun r => r.threads.contains key) || s.pkg.begins.any (fun b => b.key = key) then s else go
    | .link va _ _ _ _ => if s.linkUp (clusterOfKey key) t.ctx va then go else s
    | .hold => s.wake key
    | .count _ _ => s.wake key
    | .fence _ _ => s.wake key
    | on =>
      match on.watch with
      | none => s
      | some w =>
        match w.word with
        | .pad _ _ => s.register key
        | .mem pa =>
          match s.region pa with
          | some (.peer q _) =>
            let (k, s) := s.fresh
            let o : Op :=
              { ctx := t.ctx, act := t.act, issuer := .thread key, cluster := clusterOfKey key, slot := slotOfKey key, born := key, tid := t.tid, batch := k
                pc := w.pc, cls := 5, work := .watch, place := .peer q, va := pa, pa := pa, dst := .none, clock := t.vc, stamp := none
                scope := w.scope, order := w.order, rel := none, stage := .sent, reply := [], flags := 0, seen := none, eg := none
                sentAt := s.now, retired := false }
            (s.setOp k o).depart k
          | _ => s.register key

/-- A register as its record holds it: the value bits of a dead one are zero (R377). -/
def Cell.recorded (c : Cell) : Cell := if c.st = .dead then { Cell.dead with tag := c.tag } else c

/-- A thread as it returns: what its record holds, its clocks zero (R308), with no recovery address (R398). -/
def Thread.restored (t : Thread) (now : Nat) : Thread :=
  { t with vc := Clock.zero, rs := Clock.zero, fc := Clock.zero, since := now, paused := 0, l0 := Cell.dead, l1 := Cell.dead
           regs := mapVals (fun _ c => c.recorded) t.regs, rec1 := none, rec2 := none, rec3 := none }

/-- The thread that an arrival becomes (R180, R264, R293). -/
def Travel.thread (a : Travel) (blocks now : Nat) : Thread :=
  match a.saved with
  | some (_, t) => { t.restored now with blocks := t.blocks + t.spilled, spilled := 0, admitted := now }
  | none =>
    { Thread.new a.ctx a.act none a.gid a.tid a.pc now with
      level := a.level, regs := a.regs, rest := a.rest, preds := a.preds, tsw := a.tsw, vc := a.vc, fscope := a.fscope
      fc := if a.fscope = 0 then Clock.zero else a.vc, trig := a.trig, blocks := blocks }

/-- Admit an arrival into a slot; it stands at its act's priority level (R352, R358). -/
def State.enterSlot (s : State) (cluster slot : Nat) (a : Travel) : State :=
  let key := threadKey cluster slot
  let t := a.thread (s.travelBlocks a) s.now
  let s := s.setThread key { t with level := match s.act? a.ctx a.act with | some x => x.level | none => t.level }
  match a.saved with
  | some (old, _) => (s.rekey old key).resumeWait key
  | none => s

/-- What a home does with an arrival: a slot, its buffer, or a refusal (`none`). -/
def State.receive (s : State) (cluster : Nat) (a : Travel) : Option State :=
  if !s.takesIn a.ctx a.saved.isSome || s.siteDown cluster then none else
  let n := s.travelBlocks a
  let direct := (s.cluster cluster).arrivals.isEmpty && (n = 0 || ((s.poolRequests cluster).isEmpty && decide (n ≤ s.blocksFree cluster)))
  match (if direct then s.freeSlot cluster else none) with
  | some k => some (s.enterSlot cluster k a)
  | none =>
    if (s.cluster cluster).arrivals.length < 256 then
      some (s.modCluster cluster fun c => { c with arrivals := c.arrivals ++ [{ a with since := s.now }] })
    else none

/-- A switch-in is over when everything saved has come back (R380). -/
def State.switchedIn (s : State) (ctx : Nat) : State :=
  let c := s.ctx ctx
  if c.swIn && c.saved.isEmpty then s.setCtx ctx { c with swIn := false, stat := setD (setD c.stat 9 9 0) 10 10 0 } else s

/-- An evicted thread that returns to a cluster: every request that stood there when it was evicted has been granted (R374). -/
def State.returner (s : State) (cluster : Nat) : Option (Nat × Saved × Travel) :=
  let waits (asked : Nat) : Bool := (s.poolRequests cluster).any fun r => decide (r.since ≤ asked)
  (s.ctxs.flatMap fun (c, v) => v.saved.map fun x => (c, x)).findSome? fun (c, x) =>
    match x with
    | .roaming home key t asked _ =>
      if home = cluster && s.takesIn c true && !waits asked then
        some (c, x, ({ ctx := t.ctx, act := t.act, gid := t.gid, tid := t.tid, pc := t.pc, regs := [], rest := .dead, preds := [], tsw := 0
                       vc := Clock.zero, fscope := 0, trig := t.trig, level := t.level, saved := some (key, t), since := s.now } : Travel))
      else none
    | .ensemble _ _ _ _ _ _ => none

/-- The head of the buffer may be admitted now: its slot. -/
def State.headSlot (s : State) (cluster : Nat) (a : Travel) : Option Nat :=
  let n := s.travelBlocks a
  let turn := match s.poolRequests cluster with | r :: _ => r.thread.isNone && r.since = a.since && r.tid = a.tid.toNat | [] => true
  if s.takesIn a.ctx a.saved.isSome && !s.siteDown cluster && (n = 0 || (turn && decide (n ≤ s.blocksFree cluster))) then s.freeSlot cluster else none

/-- A saved item leaves its save area; with it the q15 of its act on the cluster is restored (R378). -/
def State.takeSaved (s : State) (ctx : Nat) (item : Saved) : State :=
  let mate (x : Saved) : Option (Nat × Nat × List QEl) :=
    match item, x with
    | .roaming c _ t _ _, .roaming c' _ t' _ (some l) => if c' = c && t'.act = t.act then some (t.act, c, l) else none
    | _, _ => none
  let found := (s.ctx ctx).saved.findSome? mate
  let s := s.modCtx ctx fun v => { v with saved := v.saved.filter fun x => x != item }
  match found with
  | none => s
  | some (act, c, l) =>
    let bare (x : Saved) : Saved := match x with
      | .roaming c' k t asked _ => if (mate x).isSome then .roaming c' k t asked none else x
      | .ensemble k e gs ts ls cs => .ensemble k e gs ts ls cs
    (s.modCtx ctx fun v => { v with saved := v.saved.map bare }).modAct ctx act fun a => { a with inbox := put a.inbox c l }

/-- ARRIVAL_ADMISSION (R273): the head of the buffer, once a slot is free and its blocks are granted in their order; else an evicted
thread comes back as an arrival. -/
def execArrivalAdmission (cluster : Nat) (s : State) : Res :=
  match (match (s.cluster cluster).arrivals with
    | [] => none
    | a :: rest => (s.headSlot cluster a).map fun k => (a, rest, k)) with
  | some (a, rest, k) => .next ((s.modCluster cluster fun c => { c with arrivals := rest }).enterSlot cluster k a)
  | none =>
    match s.returner cluster with
    | none => .refused .notEnabled
    | some (c, item, a) =>
      match (s.takeSaved c item).receive cluster a with
      | some s' => .next (s'.switchedIn c)
      | none => .refused .notEnabled

/-! Departures (R180, R270). -/

/-- A carried value: the token of a recoverable cause changes its code. -/
def carried (v : Tw) : Tw :=
  if v.tag ∧ recoverable (tokCode v.val) then .tok (token 0x33 (tokOrigin v.val)) else v

/-- The travel context of a departing thread (R180, R271). -/
def travelOf (t : Thread) (l : Leave) (now : Nat) : Travel :=
  let reg (i : Nat) : Nat × Cell :=
    let c := t.cell i
    (i, match c.st with
      | .live => Cell.ofTw (carried ⟨c.tag, c.val⟩)
      | .left => { Cell.dead with st := .left }
      | _ => Cell.dead)
  { ctx := t.ctx, act := t.act, gid := t.gid, tid := t.tid, pc := if l.migr then l.resume else l.pc, regs := (List.range 16).map reg
    rest := .left, preds := t.preds.map fun p => if p.tag then { p with tok := (carried (.tok p.tok)).val } else p, tsw := t.tsw
    vc := t.vc, fscope := t.fscope, trig := t.trig, level := t.level, saved := none, since := now }

/-- Every outstanding-operation counter of the thread stands at zero. -/
def State.idleThread (s : State) (key : Nat) : Bool := !s.longOut key && (List.range 5).all fun c => s.outstanding key c = 0

/-- The migration message of a thread. -/
def leaveMsg (id key : Nat) (t : Thread) (l : Leave) (eg : Option Nat) (now : Nat) : Msg :=
  ⟨id, t.ctx, t.act, slotOfKey key, l.cluster, l.pc, .travel (travelOf t l now) key l.pkg eg, 0, 256, false⟩

/-- The group over which a departure to a pod peer goes; while what is on its way to that home went over another, there is none (R411). -/
def State.leaveRoute (s : State) (t : Thread) (key : Nat) (l : Leave) : Option Nat :=
  match l.pkg with
  | none => some 0
  | some q =>
    match s.route t.ctx (.peer q) (clusterOfKey key) l.cluster with
    | none => none
    | some n => if (s.ahead (clusterOfKey key) (leaveMsg s.seq key t l none s.now)).all fun x => x.over = some n then some n else none

/-- The migration message goes out over a group, with all that the thread takes along: nothing of it is read at the source again. -/
def State.sendAway (s : State) (t : Thread) (key : Nat) (l : Leave) (eg : Nat) : State :=
  let s := s.setThread key (t.enter s.now .departed 0 (.depart { l with answer := none, lost := false }))
  let (id, s) := s.fresh
  let cluster := clusterOfKey key
  let m := leaveMsg id key t l (l.pkg.map fun _ => eg) s.now
  let s := s.modCluster cluster fun c => { c with outbox := c.outbox ++ [m] }
  match l.pkg with
  | none => s
  | some q => s.send (.peerTravel q ((travelOf t l s.now).migrationFlits s.ownPkg q cluster l.cluster) (s.ctx t.ctx).job)

/-- DEPARTURE: the wait ends, RS is merged into VC, the pending states end; without a route the thread waits for one (R412). -/
def execDeparture (thread : Nat) (s : State) : Res :=
  match s.thread? thread with
  | none => .refused .notEnabled
  | some t =>
    match t.cue, t.waitOn with
    | .waiting, .depart l =>
      let ready := s.idleThread thread && (l.pkg.isNone || s.releaseReady thread (clusterOfKey thread) t.vc 9 false)
      if !ready || (s.ctx t.ctx).low then .refused .notEnabled else
      match s.leaveRoute t thread l with
      | none => if t.wait = 0x17 then .refused .notEnabled else .next (s.setThread thread { t with wait := 0x17, since := s.now, dog := 0 })
      | some eg => .next (s.sendAway ({ t with vc := t.vc.max t.rs }.settle fun _ => true) thread l eg)
    | _, _ => .refused .notEnabled

/-- A message in flight gets its answer. -/
def State.answerLeave (s : State) (key : Nat) (l : Leave) (yes : Bool) (lost : Bool := false) : State :=
  s.modThread key fun t => { t with waitOn := .depart { l with answer := some yes, lost := lost } }

/-- The migration message of a thread that is on its way. -/
def State.travelMsg (s : State) (key : Nat) : Option (Msg × Travel) :=
  (s.cluster (clusterOfKey key)).outbox.findSome? fun m => match m.cargo with
    | .travel a k _ _ => if k = key then some (m, a) else none
    | _ => none

/-- MIGRATION_MESSAGE (R272, R274): the home admits, buffers or refuses; `peer` is what a pod peer or the way to it does. -/
def execMigrationMessage (thread : Nat) (peer : Admission) (s : State) : Res :=
  match s.thread? thread, s.travelMsg thread with
  | some t, some (m, a) =>
    let cluster := clusterOfKey thread
    (match t.waitOn with
    | .depart l =>
      if s.behind cluster m || (s.ctx t.ctx).low then .refused .notEnabled else
      let s := s.dropMsg cluster m.id
      (match l.pkg, peer with
      | some _, .admitted => .next (s.answerLeave thread l true).routeHeld
      | some _, .refused => .next (s.answerLeave thread l false).routeHeld
      | some _, .failed _ => .next (s.answerLeave thread l false true).routeHeld
      | none, _ =>
        match s.receive l.cluster { a with since := s.now } with
        | some s' => .next (s'.answerLeave thread l true)
        | none => .next (s.answerLeave thread l false))
    | _ => .refused .notEnabled)
  | _, _ => .refused .notEnabled

/-- MIGRATION_ACKNOWLEDGEMENT (R270): the entry leaves the cue table. A thread that went to a peer counts for its act as one spawned there.
DEDUCED (log entry 36). -/
def execMigrationAcknowledgement (thread : Nat) (s : State) : Res :=
  match s.thread? thread with
  | none => .refused .notEnabled
  | some t =>
    match t.cue, t.waitOn with
    | .departed, .depart l =>
      if l.answer != some true then .refused .notEnabled else
      let s := { s with threads := drop s.threads thread }
      (match l.pkg with
      | none => .next s
      | some q =>
        let u := if t.trig then 0 else 1
        .next (s.modAct t.ctx t.act fun a =>
          { a with remote := bump a.remote (remoteKey false q) 1, untrig := a.untrig - u, remoteUntrig := a.remoteUntrig + u }))
    | _, _ => .refused .notEnabled

/-- A load of one thread into q14 opens a message of its own (log entry 40). -/
def State.openMessage (s : State) (cluster : Nat) (o : Op) (k : Nat) (wide : Bool) : State :=
  let (id, s) := s.fresh
  let (n, s) := s.fresh
  let holes := if wide then [QEl.hole k false, QEl.hole k true] else [QEl.hole k false]
  let m : Msg := ⟨id, o.ctx, o.act, o.slot, 1023, o.pc, .queue false 0 holes o.clock n 0x40, 0, 256, false⟩
  (s.setOp n { o with batch := id, cls := 0, work := .message id, place := .window, va := 0, pa := 0, dst := .none, stage := .sent, reply := []
                      retired := decide (o.cls = 0) }).modCluster cluster fun c => { c with outbox := c.outbox ++ [m] }

/-- The package of a departure has left the pod, or the link that it took has failed (R272). -/
def State.leaveLost (s : State) (l : Leave) : Bool := l.lost || (match l.pkg with | some q => s.pkg.gone.contains q | none => false)

/-- The LD that a refused thread would have taken along is sent as a fetch (R272), which an invalidation then waits for (R394). -/
def State.fetchInstead (s : State) (key : Nat) (t : Thread) (l : Leave) : State :=
  let cluster := clusterOfKey key
  let (k, s) := s.fresh
  let place : Place := match l.pkg with | some q => .peer q | none => .home l.cluster
  let (eff, drops) := effectiveOrder l.scope.toNat l.order.toNat cluster place
  let wide := typeBytes l.type.toNat = 8
  let cls := if l.pkg.isSome then 4 else 0
  let o : Op :=
    { ctx := t.ctx, act := t.act, issuer := .thread key, cluster := cluster, slot := slotOfKey key, born := key, tid := t.tid, batch := k, pc := l.pc
      cls := cls, work := .load l.type false false, place := place, va := l.va, pa := l.pa
      dst := if l.dst = 0xF0 then .none else if l.dst = 0xDE then .queue 14 wide else .reg l.dst wide, clock := t.vc, stamp := none, scope := l.scope
      order := BitVec.ofNat 3 eff, rel := none, stage := .sent, reply := [], flags := 0, seen := none, eg := none, sentAt := s.now
      retired := false, hop := (cluster, 0) }
  let gone := s.leaveLost l
  let o := if gone then { o with stage := .performed, reply := tokOut wide (token 0x15 (originOf l.pc)) } else o
  let t := (t.killRegs l.kills).pendDst o.dst k cls
  let t := if drops then t.flag SDROP else t
  let s := (s.setThread key { t with pc := l.resume, last := some k }).setOp k o
  let s := s.modCtx t.ctx fun c => match c.inv with
    | some (f, n) => if decide (f * 2 ^ 16 ≤ l.va ∧ l.va < (f + n) * 2 ^ 16) then { c with invOps := k :: c.invOps } else c
    | none => c
  let s := if l.dst = 0xDE then s.openMessage cluster o k wide else s
  let s := if gone then s else s.depart k
  if l.hold then s.hold key l.resume else s.modThread key fun t => t.run s.now

/-- MIGRATION_REFUSAL (R272). -/
def execMigrationRefusal (thread : Nat) (s : State) : Res :=
  match s.thread? thread with
  | none => .refused .notEnabled
  | some t =>
    match t.cue, t.waitOn with
    | .departed, .depart l =>
      if l.answer != some false || (s.ctx t.ctx).low then .refused .notEnabled
      else if !l.migr then
        (if l.dst = 0xDE && decide (16 ≤ (s.cluster (clusterOfKey thread)).unseen) then .refused .notEnabled
         else .next (s.fetchInstead thread t l))
      else if s.leaveLost l then
        .next ((s.setThread thread (t.run s.now)).raise t.ctx l.pc [⟨0, thread, token 0x15 (originOf l.pc), 5⟩])
      else
        let gap := min (2 * l.gap) 65536
        .next (s.setThread thread (t.enter s.now .waiting 0x12 (.arrival { l with gap := gap } (s.cycles (clusterOfKey thread) gap))))
    | _, _ => .refused .notEnabled

/-- MIGR_RESEND (R272); a thread that finds no route now waits for one (R412). -/
def execMigrResend (thread : Nat) (s : State) : Res :=
  match s.thread? thread with
  | none => .refused .notEnabled
  | some t =>
    match t.waitOn with
    | .arrival l next =>
      if s.coreCycle (clusterOfKey thread) < next ∨ (s.ctx t.ctx).low then .refused .notEnabled else
      match s.leaveRoute t thread l with
      | none => .next (s.setThread thread (t.enter s.now .waiting 0x17 (.depart l)))
      | some eg => .next (s.sendAway t thread l eg)
    | _ => .refused .notEnabled

/-! Spawns (R276). -/

/-- A spawn that cannot be delivered: code 0x15 (R182), or 0x10 where no context of the target serves it (R410). -/
def State.spawnFails (s : State) (cluster : Nat) (m : Msg) (code : Nat) : State :=
  ((s.dropMsg cluster m.id).modCluster cluster fun c => { c with credits := c.credits + 1 }).lateFailure m.ctx m.pc 5 code cluster m.slot

/-- SPAWN_MESSAGE: the home admits or refuses; `peer` is what another package does. -/
def execSpawnMessage (cluster message : Nat) (peer : Admission) (s : State) : Res :=
  match s.msg? cluster message with
  | none => .refused .notEnabled
  | some m =>
    match m.cargo with
    | .queue _ _ _ _ _ _ => .refused .notEnabled
    | .travel _ _ _ _ => .refused .notEnabled
    | .spawn t pkg _ eg =>
      if m.acked || m.next != 0 || s.behind cluster m || (s.ctx m.ctx).low then .refused .notEnabled else
      let ack (s : State) : State := s.modMsg cluster message fun m => { m with acked := true }
      match pkg with
      | none =>
        (match s.receive m.dst { t with since := s.now } with
        | some s' => .next (ack s')
        | none => .next (s.backOff cluster message))
      | some _ =>
        if eg.isNone then .refused .notEnabled else
        match peer with
        | .admitted => .next (ack s).routeHeld
        | .refused => .next (s.backOff cluster message).routeHeld
        | .failed code => .next (s.spawnFails cluster m (if code = 0x10 then 0x10 else 0x15)).routeHeld

/-- SPAWN_ACKNOWLEDGEMENT: the credit returns. -/
def execSpawnAcknowledgement (cluster message : Nat) (s : State) : Res :=
  match s.msg? cluster message with
  | none => .refused .notEnabled
  | some m =>
    match m.cargo with
    | .queue _ _ _ _ _ _ => .refused .notEnabled
    | .travel _ _ _ _ => .refused .notEnabled
    | .spawn _ _ _ _ =>
      if !m.acked then .refused .notEnabled
      else .next ((s.dropMsg cluster message).modCluster cluster fun c => { c with credits := c.credits + 1 })

/-- A spawn is sent again, and after it those to the same home that it held back. -/
def State.spawnAgain (s : State) (cluster : Nat) (m : Msg) : State :=
  let later (x : Msg) : Bool := x.spawns && decide (m.id ≤ x.id) && x.sameHome m
  let renew (x : Msg) : Msg := if x.id = m.id then { x with next := 0 } else x
  (s.modCluster cluster fun c => { c with outbox := c.outbox.filter (fun x => !later x) ++ (c.outbox.filter later).map renew }).sendSpawns cluster

/-- SPAWN_RESEND. -/
def execSpawnResend (cluster message : Nat) (s : State) : Res :=
  match s.msg? cluster message with
  | none => .refused .notEnabled
  | some m =>
    match m.cargo with
    | .queue _ _ _ _ _ _ => .refused .notEnabled
    | .travel _ _ _ _ => .refused .notEnabled
    | .spawn _ _ _ _ => if m.next = 0 ∨ s.coreCycle cluster < m.next then .refused .notEnabled else .next (s.spawnAgain cluster m)

/-! Notices from other packages (R278). `act` is context × 65536 + act number; `source` a package, or 256 + an endpoint. -/

/-- TRIGGER_NOTICE. -/
def execTriggerNotice (act count : Nat) (s : State) : Res :=
  match find s.acts act with
  | none => .refused .notEnabled
  | some a =>
    if count = 0 ∨ a.remoteUntrig < count then .refused .notEnabled
    else .next ((s.setAct { a with remoteUntrig := a.remoteUntrig - count }).tryFire a.ctx a.num)

/-- COMPLETION_NOTICE. -/
def execCompletionNotice (act source count : Nat) (s : State) : Res :=
  match find s.acts act with
  | none => .refused .notEnabled
  | some a =>
    let n := get a.remote source 0
    if count = 0 ∨ n < count ∨ a.live < count then .refused .notEnabled
    else .next (s.setAct { a with live := a.live - count
                                  remote := if n = count then drop a.remote source else put a.remote source (n - count) })

/-- The curtain of a sending record's context falls (R278). -/
def State.guestFailed (s : State) (ctx : Nat) : State := s.lateFailure ctx 0 5 0x15 0 0

/-- FAILURE_NOTICE. -/
def execFailureNotice (act : Nat) (s : State) : Res :=
  match find s.acts act with
  | none => .refused .notEnabled
  | some a => if a.remote.isEmpty then .refused .notEnabled else .next (s.guestFailed a.ctx)

/-! RACQ_GRANT (R185, R373). -/

/-- A request of a thread is granted whole: RACQ's dead registers, or a spilled thread's as they were saved. -/
def Thread.grantBlocks (t : Thread) : Thread :=
  match t.waitOn with
  | .pool n _ => t.grow n
  | .spill n => { t with blocks := n, spilled := 0, regs := mapVals (fun i c => if 64 ≤ i ∧ i < 192 then c.recorded else c) t.regs }
  | _ => t

def execRacqGrant (cluster : Nat) (s : State) : Res :=
  match s.poolRequests cluster with
  | [] => .refused .notEnabled
  | r :: _ =>
    match r.thread with
    | none => .refused .notEnabled
    | some key =>
      match s.thread? key with
      | none => .refused .notEnabled
      | some t =>
        if s.blocksFree cluster < r.need ∨ (s.ctx t.ctx).low then .refused .notEnabled
        else .next (s.resume key t.grantBlocks)

end Sys2Proof.Machine
end

