-- ==== Sys2Proof/Machine/Evict.lean ====
section
/-! DEFINITION. Saving threads and ensembles and bringing them back (spec/10 R279 to R281, spec/11 R308, spec/17 R373 to R379): what may
be saved, the room of a save area, spills, and the wait of a restored thread. -/

namespace Sys2Proof.Machine

/-! Room (R375, R376). -/

/-- A thread record, and the piece of an area in which a context's records stand (log entry 37). -/
def threadRecord : Nat := 1280

/-- The pieces that a record of n bytes takes, in bytes. -/
def pieceBytes (n : Nat) : Nat := (n + (threadRecord - 1)) / threadRecord * threadRecord

/-- A record of the registers of spilled blocks: their words and the nibble of each (R373; log entry 37). -/
def spillRecord (blocks : Nat) : Nat := pieceBytes (blocks * (32 * 4 + 16))

/-- Words that stand in a record, then a bit for the tag of each. -/
def itemBytes (l : List Tw) : List Byte :=
  l.flatMap (fun v => toBytes 4 v.val.toNat)
    ++ toBytes ((l.length + 31) / 32 * 4) ((l.zipIdx.filter fun x => x.1.tag).foldl (fun n x => n + 2 ^ x.2) 0)

def QEl.words : QEl → List Tw
  | .val v => [v]
  | .head v _ => [v]
  | _ => []

/-- Words of the items of a group record that have no layout: barriers, streams, the matrix queue, suspended copies (log entry 37). -/
def Group.openWords (g : Group) (copies : Nat) : Nat :=
  8 * g.bars.length + (match g.slice with | some sl => 16 * sl.streams.length | none => 0) + 32 * g.mq.length + 32 * copies

/-- A group record in the order of R378, without its lanes; the words of what has no layout are given. -/
def Group.bytes (g : Group) (opened : List Word) : List Byte :=
  let els (l : List QEl) : List Tw := l.flatMap QEl.words
  ([g.k ++ opened.map Tw.data] ++ (List.range 14).map (fun i => els (get g.q i [])) ++ (List.range g.nfifo).map (fun i => els (get g.fifos i []))
    ++ [(List.range g.nacc).map fun i => get g.acc i Tw.zero, (List.range (g.scr / 4)).map fun i => get g.pad i Tw.zero, els (get g.q 15 [])]).flatMap
    itemBytes

/-- The size of a group record: its words with their tag bits, and its slice's lanes. -/
def Group.record (g : Group) (copies : Nat) : Nat :=
  let els (m : Map (List QEl)) : Nat := m.foldl (fun n (_, l) => n + l.length) 0
  let words := 16 + g.openWords copies + g.scr / 4 + g.nacc + els g.q + els g.fifos
  pieceBytes (4 * words + (words + 31) / 32 * 4 + 4 * (18 + g.nfifo)) + (if g.slice.isSome then 32 * threadRecord else 0)

/-- The keys under which an item's records stand. -/
def Saved.keys : Saved → List Nat
  | .ensemble _ _ gs ts ls _ => (gs.map fun (k, _) => k) ++ (ts.map fun (k, _) => k) ++ ls.map fun (k, _) => k
  | .roaming _ k _ _ _ => [k]

/-- The pieces of a context's area in use: its saved items and its spills. -/
def State.areaLive (s : State) (ctx : Nat) : List (Nat × Nat) :=
  let c := s.ctx ctx
  let live := c.saved.flatMap Saved.keys ++ (s.threads.filter fun (_, t) => t.ctx = ctx && t.spilled != 0).map fun (k, _) => k
  c.area.filter fun x => live.contains x.1

def State.areaUsed (s : State) (ctx : Nat) : Nat := (s.areaLive ctx).length * threadRecord

def State.areaFits (s : State) (ctx bytes : Nat) : Bool := decide (s.areaUsed ctx + bytes ≤ fld (s.ctx ctx).save.toNat 23 0 * 65536)

def State.areaFull (s : State) (ctx : Nat) : State := s.modCtx ctx fun c => { c with stat := setD c.stat 11 11 1 }

/-! What may be saved (R308, R377). -/

/-- A long write that a save waits for: what a transaction still holds is none, as it fails (R196, R379). -/
def State.writesOut (s : State) (key : Nat) : Bool :=
  s.ops.any fun (_, o) => o.issuer = .thread key && !o.retired && o.stage != .txn && (match o.dst with | .reg _ _ => true | _ => false)

/-- Every gate covers a thread's clocks (R308). -/
def State.clocksCovered (s : State) (t : Thread) : Bool := (List.range 4).all fun d => s.covers d (t.vc.max (t.rs.max t.fc))

/-- A transaction that its commit has not begun to apply. -/
def State.txnOpen (s : State) (t : Thread) : Bool :=
  match t.txn with
  | some x => x.held.all fun k => match find s.ops k with | some o => o.stage = .txn | none => false
  | none => true

/-- Between runs, with no long write outstanding, its clocks covered by every gate. A load into k registers, the reads of a TAPE and a commit
that has begun come first. DEDUCED (log entry 38). -/
def State.threadSavable (s : State) (key : Nat) (t : Thread) : Bool :=
  t.cue != .issuing && t.cue != .departed && !s.writesOut key && s.clocksCovered t && s.txnOpen t
    && (match t.waitOn with | .kload _ => false | .tapeRead _ _ _ _ => false | _ => true)

def realHole (e : QEl) : Bool := match e with | .hole o _ => decide (o < 2 ^ 64) | _ => false

/-- A group's queues wait for no value, no operation is on its way to its scratchpad, none of a copy that is to be suspended is out, and
every gate covers its lanes' clocks (R308, R379). -/
def State.groupSavable (s : State) (g : Nat) (gr : Group) : Bool :=
  gr.q.all (fun (_, l) => !l.any realHole)
    && s.ops.all (fun (_, o) => o.place != .pad g || o.stage = .performed)
    && s.engines.all (fun (e, v) => v.cmds.all fun c => c.group != some g
        || c.kind = 0 || c.kind = 4 || s.ops.all fun (_, o) => o.issuer != .copy e c.id)
    && (List.range 32).all fun i => !s.longOut (laneKey g i) && (match s.thread? (laneKey g i) with | some t => s.clocksCovered t | none => true)

def State.ensembleThreads (s : State) (e : Ensemble) : List (Nat × Thread) :=
  s.threads.filter fun (k, t) => !isLaneKey k && (match t.group with | some g => e.groups.contains g | none => false)

def State.ensembleSavable (s : State) (e : Ensemble) : Bool :=
  (s.ensembleThreads e).all (fun (k, t) => s.threadSavable k t)
    && e.groups.all fun g => match s.group? g with | some gr => s.groupSavable g gr | none => true

def State.ensembleRecord (s : State) (e : Ensemble) : Nat :=
  let copies (g : Nat) : Nat := (s.engines.flatMap fun (_, v) => v.cmds.filter fun c => c.group = some g && c.kind != 0 && c.kind != 4).length
  e.groups.foldl (fun n g => n + (match s.group? g with | some gr => gr.record (copies g) | none => 0)) 0
    + (s.ensembleThreads e).length * threadRecord

/-! Saving. -/

/-- Numbers of saved items stand above every slot. -/
def savedKey (n : Nat) : Nat := 2 ^ 40 + n

/-- The nibble of a register in a thread record: [0] tag, [2:1] state. A register left behind reads as a token (log entry 93). -/
def Cell.nibble (c : Cell) : Nat :=
  match c.st with
  | .live => b2n c.tag
  | .dead => 2 + b2n c.tag
  | .pending => 4 + b2n c.tag
  | .left => 1

/-- The value of a register in a thread record. -/
def Cell.saved (c : Cell) : Nat :=
  match c.st with
  | .dead => 0
  | .left => (token 0x32 0).toNat
  | _ => c.val.toNat

def Cue.code : Cue → Nat
  | .runnable => 0
  | .issuing => 1
  | .parked => 2
  | .waiting => 3
  | .departed => 4

def Clock.bytes (c : Clock) : List Byte := [c.d0, c.d1, c.d2, c.d3].flatMap (toBytes 8)

/-- The thread record of R377: 1,280 bytes. The words of the wait have no layout: they are given. -/
def Thread.record (t : Thread) (wait : List Word) : List Byte :=
  let cells := (List.range 200).map t.cell
  let nibbles := (List.range 100).flatMap fun i =>
    toBytes 1 ((cells.getD (2 * i) Cell.dead).nibble + 16 * (cells.getD (2 * i + 1) Cell.dead).nibble)
  let bitsOf (f : PCell → Bool) : Nat := (t.preds.zipIdx.filter fun (p, _) => f p).foldl (fun n (_, i) => n + 2 ^ i) 0
  cells.flatMap (fun c => toBytes 4 c.saved) ++ nibbles
    ++ toBytes 4 (bitsOf (fun p => p.val) + 2 ^ 8 * bitsOf (fun p => p.tag)) ++ t.preds.flatMap (fun p => toBytes 4 p.tok.toNat)
    ++ toBytes 4 t.tsw.toNat ++ toBytes 8 t.pc.toNat ++ toBytes 8 t.region.toNat
    ++ t.vc.bytes ++ t.rs.bytes ++ t.fc.bytes
    ++ toBytes 4 (t.fscope.toNat + 2 ^ 4 * b2n t.trig + 2 ^ 5 * (t.blocks + t.spilled) + 2 ^ 8 * t.cue.code + 2 ^ 11 * b2n (t.spilled != 0)
        + 2 ^ 16 * t.wait.toNat)
    ++ toBytes 4 t.tid.toNat ++ wait.flatMap (fun w => toBytes 4 w.toNat) ++ toBytes 4 (t.act % 65536) ++ List.replicate 188 0

/-- Write a record, piece by piece, to the lowest free pieces of its context's area; one whose address fails is not written (log
entry 37). -/
def State.recordBytes (s : State) (ctx cluster key : Nat) (bytes : List Byte) : State :=
  let base := df (s.ctx ctx).save 63 24 * 65536
  (List.range ((bytes.length + (threadRecord - 1)) / threadRecord)).foldl (fun s n =>
    let area := s.areaLive ctx
    let piece := ((List.range (area.length + 1)).find? fun n => !area.any fun x => x.2 = n).getD 0
    let s := s.modCtx ctx fun c => { c with area := (key, piece) :: area }
    (List.range 5).foldl (fun s i =>
      (s.writeVirtual cluster ctx (base + piece * threadRecord + 256 * i) ((bytes.drop (threadRecord * n + 256 * i)).take 256)).1) s) s

/-- The registers of the blocks that a thread holds, with their nibbles. -/
def Thread.spillBytes (t : Thread) (blocks : Nat) : List Byte :=
  let cells := (List.range (32 * blocks)).map fun i => t.cell (64 + i)
  cells.flatMap (fun c => toBytes 4 c.saved)
    ++ (List.range (16 * blocks)).flatMap fun i => toBytes 1 ((cells.getD (2 * i) Cell.dead).nibble + 16 * (cells.getD (2 * i + 1) Cell.dead).nibble)

/-- The record of a saved thread, and of its spilled blocks. -/
def State.recordThread (s : State) (ctx cluster key : Nat) (t : Thread) : State :=
  let (wait, s) := s.freeWords 8
  let s := s.recordBytes ctx cluster key (t.record wait)
  if t.spilled = 0 then s else s.recordBytes ctx cluster key (t.spillBytes t.spilled)

/-- The record of a saved group. -/
def State.recordGroup (s : State) (ctx cluster key copies : Nat) (g : Group) : State :=
  let (ws, s) := s.freeWords (g.openWords copies)
  s.recordBytes ctx cluster key (g.bytes ws)

/-- A thread as its record holds it: its transaction fails when it next issues (R196, R379), its monitor is released. -/
def State.beforeSave (s : State) (key : Nat) : State :=
  let s := s.modThread key fun t =>
    let t := { t with txn := t.txn.map fun (x : Txn) => { x with failed := some (6, 0) } }
    let t := (match t.waitOn with | .commit _ _ => t.run s.now | _ => t)
    { t with
      waitOn := (match t.waitOn.watch with | some w => t.waitOn.setWatch { w with monitor := false, interval := 0 } | none => t.waitOn)
      since := s.now, paused := 0 }
  { s with ops := keep (fun _ o => !(o.issuer = .thread key && o.cls = 5 && (match o.work with | .watch => true | _ => false))) s.ops }

/-- Waiters on walks that go away. -/
def State.dropUsers (s : State) (p : WalkUser → Bool) : State :=
  { s with
    rows := mapVals (fun _ r => { r with walks := r.walks.map fun w => { w with users := w.users.filter fun u => !p u } }) s.rows
    port := { s.port with ats := s.port.ats.map fun a => { a with users := a.users.filter fun u => !p u } } }

/-- Records that name a group follow it to a new place. -/
def State.rekeyGroup (s : State) (old new : Nat) : State :=
  let sub (k : Nat) : Nat := if k = old then new else k
  let word (w : Watched) : Watched := match w with | .pad g n => .pad (sub g) n | x => x
  let wait (w : MonWait) : MonWait := { w with word := word w.word }
  { s with
    ops := mapVals (fun _ o => { o with
      issuer := (match o.issuer with | .slice g => .slice (sub g) | .gone k g => .gone k (g.map sub) | x => x)
      place := (match o.place with | .pad g => .pad (sub g) | x => x) }) s.ops
    engines := mapVals (fun _ (e : Engine) => { e with cmds := e.cmds.map fun (c : CopyCmd) => { c with group := c.group.map sub } }) s.engines
    threads := mapVals (fun _ t => { t with
      group := t.group.map sub
      waitOn := (match t.waitOn with | .cond w => .cond (wait w) | .tape w k ws => .tape (wait w) k ws | x => x) }) s.threads
    ensembles := mapVals (fun _ e => { e with groups := e.groups.map sub }) s.ensembles }

/-- An entry of the placement table (R265), written as a release at .act; one whose address fails is lost (log entry 39). -/
def State.placementEntry (s : State) (g : Group) (resident : Bool) : State :=
  let ptab := match s.act? g.ctx g.act with | some a => fld a.header 447 384 | none => 0
  if ptab = 0 then s else
  match s.resolveDevice g.cluster g.ctx ((ptab + 8 * g.gid) % 2 ^ 64) with
  | .error _ => s
  | .ok (s, pa) =>
    let v := if resident then 2 ^ 21 + g.base * 2 ^ 10 + g.cluster else 0
    ((s.reach pa).stampLine pa Clock.zero 6).storeBytes pa (toBytes 8 v)

/-- Move the records of some keys out of a table: new numbers first, then the records under them. -/
def takeOut {α : Type} (m : Map α) (l : List (Nat × Nat)) : List (Nat × α) :=
  l.filterMap fun (old, new) => (find m old).map fun v => (new, v)

/-- Save a whole ensemble (R279, R378); the caller has asked whether it may be. -/
def State.saveEnsemble (s : State) (key : Nat) : State :=
  match find s.ensembles key with
  | none => s
  | some e0 =>
    let ths := (s.ensembleThreads e0).map fun (k, _) => k
    let lanes := e0.groups.flatMap fun g => (List.range 32).map fun i => laneKey g i
    let lanes := lanes.filter fun k => (s.thread? k).isSome
    let s := e0.groups.foldl (fun s g => match s.group? g with | some gr => s.placementEntry gr false | none => s) s
    let s := ths.foldl State.beforeSave s
    let number (s : State) (ks : List Nat) : State × List (Nat × Nat) :=
      ks.foldl (fun (s, l) k => let (n, s) := s.fresh; (s, l ++ [(k, savedKey n)])) (s, [])
    let (s, tn) := number s ths
    let (s, ln) := number s lanes
    let (s, gn) := number s (e0.groups.filter fun g => g != noGroup)
    let s := s.dropUsers fun u => match u with
      | .slice g => e0.groups.contains g
      | .stream g _ => e0.groups.contains g
      | _ => false
    let s := (tn ++ ln).foldl (fun s (a, b) => s.rekey a b) s
    let s := gn.foldl (fun s (a, b) => s.rekeyGroup a b) s
    let gone (l : List (Nat × Nat)) (k : Nat) : Bool := l.any fun x => x.1 = k
    let mine (c : CopyCmd) : Bool := c.kind != 0 && c.kind != 4 && (match c.group with | some g => gn.any fun x => x.2 = g | none => false)
    let copies := s.engines.flatMap fun (_, v) => v.cmds.filter mine
    let saving := s.threads
    match find s.ensembles key with
    | none => s
    | some e =>
      let rest (g : Group) : Group := { g with slice := g.slice.map fun sl => { sl with streams := sl.streams.map fun x => { x with staged := [] } } }
      let gs := (takeOut s.groups gn).map fun x => (x.1, rest x.2)
      let item : Saved := .ensemble key e gs (takeOut s.threads tn) (takeOut s.threads ln)
        (copies.map fun (c : CopyCmd) => { c with walks := [], entry := none, staged := [] })
      let s := { s with
        threads := keep (fun k _ => !gone tn k && !gone ln k) s.threads
        groups := keep (fun k _ => !gone gn k) s.groups
        ensembles := drop s.ensembles key
        engines := mapVals (fun _ (v : Engine) => { v with cmds := v.cmds.filter fun c => !mine c }) s.engines }
      let s := s.modCtx e.ctx fun c => { c with saved := c.saved ++ [item] }
      let s := gs.foldl (fun s (k, g) =>
        s.recordGroup e.ctx g.cluster k (copies.filter fun (c : CopyCmd) => c.group = some k).length g) s
      let s := (takeOut saving ln).foldl (fun s (k, t) => s.recordThread e.ctx ((gs.head?.map fun x => x.2.cluster).getD 0) k t) s
      let s := (takeOut saving tn).foldl (fun s (k, t) => s.recordThread e.ctx (clusterOfKey ((tn.find? fun x => x.2 = k).elim 0 Prod.fst)) k t) s
      s.clusters.foldl (fun s (c, _) => s.sweepMonitors c) s

/-- The q15 of an act on a cluster, which goes with the act's last thread there (R378). -/
def State.lastInbox (s : State) (cluster ctx act : Nat) : Option (List QEl) :=
  if s.threads.any (fun (k, t) => t.ctx = ctx && t.act = act && t.group.isNone && clusterOfKey k = cluster && !isLaneKey k)
      || (s.cluster cluster).arrivals.any (fun a => a.ctx = ctx && a.act = act) then none
  else (s.act? ctx act).bind fun a => find a.inbox cluster

/-- The bytes of a q15 that a record takes. -/
def inboxBytes (l : List QEl) : Nat := (itemBytes (l.flatMap QEl.words)).length

/-- The room that saving a roaming thread takes. -/
def State.roamingRecord (s : State) (key : Nat) : Nat :=
  match s.thread? key with
  | none => threadRecord
  | some t =>
    threadRecord + (match State.lastInbox { s with threads := drop s.threads key } (clusterOfKey key) t.ctx t.act with
      | some l => pieceBytes (inboxBytes l)
      | none => 0)

/-- A roaming thread that stands on a cluster no more goes into its context's save area, and with the last of its act the act's q15 there. -/
def State.putRoaming (s : State) (cluster key : Nat) (t : Thread) : State :=
  let box := s.lastInbox cluster t.ctx t.act
  let s := s.modCtx t.ctx fun c => { c with saved := c.saved ++ [.roaming cluster key t s.now box] }
  let s := s.recordThread t.ctx cluster key t
  match box with
  | none => s
  | some l => (s.modAct t.ctx t.act fun a => { a with inbox := drop a.inbox cluster }).recordBytes t.ctx cluster key (itemBytes (l.flatMap QEl.words))

/-- Save a roaming thread (R374); it returns once the requests that stand at its cluster now have been granted. -/
def State.saveRoaming (s : State) (key : Nat) : State :=
  let s := s.beforeSave key
  let (n, s) := s.fresh
  let new := savedKey n
  let s := s.rekey key new
  match s.thread? key with
  | none => s
  | some t =>
    let s := { s with threads := drop s.threads key }.putRoaming (clusterOfKey key) new t
    s.clusters.foldl (fun s (c, _) => s.sweepMonitors c) s

/-- Save an item where its context's area has room (R376). -/
def State.trySave (s : State) (ctx bytes : Nat) (f : State → State) : State := if s.areaFits ctx bytes then f s else s.areaFull ctx

/-- Spill the extended blocks of a thread (R373). -/
def State.spillThread (s : State) (key : Nat) : State :=
  match s.thread? key with
  | none => s
  | some t =>
    s.trySave t.ctx (spillRecord t.blocks) fun s =>
      (s.setThread key { t with spilled := t.blocks, blocks := 0 }).recordBytes t.ctx (clusterOfKey key) key (t.spillBytes t.blocks)

/-- Something of what an eviction changes has changed: threads or ensembles that stand, or SFULL (R376). -/
def State.changed (s s' : State) : Bool :=
  s'.threads.length != s.threads.length || s'.ensembles.length != s.ensembles.length
    || (s'.threads.filter fun x => x.2.spilled != 0).length != (s.threads.filter fun x => x.2.spilled != 0).length
    || (s'.ctxs.map fun x => x.2.stat) != s.ctxs.map fun x => x.2.stat

/-! Coming back. -/

/-- Where a group is to stand. -/
structure Spot where
  cluster : Nat
  base : Nat
  row0 : Nat
deriving DecidableEq, Repr

/-- Bring a saved ensemble back to the places given for its groups, in ensemble index order (R265, R281). -/
def State.restoreEnsemble (s : State) (item : Saved) (spots : List Spot) : State :=
  match item with
  | .roaming _ _ _ _ _ => s
  | .ensemble key e gs ts ls copies =>
    let s := s.modCtx e.ctx fun c => { c with saved := c.saved.filter fun x => x != item }
    let place := gs.zip spots
    let newGroup (p : (Nat × Group) × Spot) : Nat := p.2.cluster * 2048 + p.2.base
    let groupOf (g : Option Nat) : Option ((Nat × Group) × Spot) := place.find? fun p => some p.1.1 = g
    let at' (t : Thread) : Option Nat := (groupOf t.group).map fun p => threadKey p.2.cluster (p.2.base + t.tid.toNat)
    let laneAt (t : Thread) : Option Nat := (groupOf t.group).map fun p => laneKey (newGroup p) t.tid.toNat
    let tn := ts.filterMap fun (k, t) => (at' t).map fun n => (k, n, t)
    let ln := ls.filterMap fun (k, t) => (laneAt t).map fun n => (k, n, t)
    let s := { s with ensembles := put s.ensembles key { e with placedAt := s.now } }
    let s := place.foldl (fun s p => s.setGroup (newGroup p) { p.1.2 with
      cluster := p.2.cluster, base := p.2.base, row0 := p.2.row0
      slice := p.1.2.slice.map fun sl => { sl with since := s.now, walks := [], streams := sl.streams.map fun x => { x with walks := [] } } }) s
    let s := (tn ++ ln).foldl (fun s (_, n, t) => s.setThread n (t.restored s.now)) s
    let s := copies.foldl (fun s (c : CopyCmd) =>
      match groupOf c.group with
      | some p =>
        let k := engineOf p.2.cluster
        let v := s.engine k
        s.setEngine k { v with cmds := v.cmds ++ [{ c with cluster := p.2.cluster }] }
      | none => s) s
    let s := (tn ++ ln).foldl (fun s (k, n, _) => s.rekey k n) s
    let s := place.foldl (fun s p => s.rekeyGroup p.1.1 (newGroup p)) s
    let s := place.foldl (fun s p => match s.group? (newGroup p) with | some g => s.placementEntry g true | none => s) s
    tn.foldl (fun s (_, n, _) => s.resumeWait n) s

end Sys2Proof.Machine
end

