-- ==== Sys2Proof/Machine/Schedule.lean ====
section
/-! DEFINITION. The cue table at work (spec/02 R25 to R33, R36, R52): promotion, warp formation, the end of a queue wait. -/

namespace Sys2Proof.Machine

/-- Throttling holds the thread's group, or its act on this cluster (R362). -/
def State.throttled (s : State) (key : Nat) (t : Thread) : Bool :=
  match t.group with
  | some g => (match s.group? g with | some gr => gr.memb && !gr.enabled | none => false)
  | none => (s.cluster (clusterOfKey key)).idle.contains (actKey t.ctx t.act)

/-- The thread's context lets it issue: not stopped, not switched out or being so. -/
def State.mayRun (s : State) (ctx : Nat) : Bool :=
  let c := s.ctx ctx
  !c.low && !c.out && !c.swOut

/-- The core cycles of the present window in which throttling has held a thread. -/
def State.heldCycles (s : State) (key : Nat) (t : Thread) : Nat :=
  if s.throttled key t then s.cyclesSince (clusterOfKey key) (max t.since s.pkg.windowAt) else 0

/-- Age in core cycles (R27): those in which throttling held the thread do not count (R362). -/
def State.age (s : State) (key : Nat) (t : Thread) : Nat := s.cyclesSince (clusterOfKey key) t.since - t.paused - s.heldCycles key t

/-- The Runnable entries of a cluster that slots may take: an entry of one core cycle is taken in the next at the earliest, as the
worked example of spec/02 after R33 has it. -/
def State.runnable (s : State) (cluster : Nat) : List (Nat × Thread) :=
  s.threads.filter fun (k, t) =>
    !isLaneKey k && clusterOfKey k = cluster && t.cue = .runnable && s.mayRun t.ctx && !s.throttled k t
      && s.cyclesSince cluster t.since != 0

/-- The key of R26; within class 0, the core cycle of promotion comes first. Acts of two contexts with one number are told apart by their
context. DEDUCED (log entry 29). -/
def cueKey (e : Nat × Thread) : List Nat :=
  let t := e.2
  (match t.promoted with | some at' => [0, at'] | none => [1 + (7 - t.level), 0]) ++ [t.pc.toNat, t.act, t.ctx, t.gid, t.tid.toNat, e.1]

def State.cueTable (s : State) (cluster : Nat) : List (Nat × Thread) :=
  sortBy (fun a b => lexLe (cueKey a) (cueKey b)) (s.runnable cluster)

/-- A thread whose age calls for a promotion that has not come. -/
def State.overdue (s : State) (k : Nat) (t : Thread) : Bool := t.promoted.isNone && decide (8192 ≤ s.age k t)

/-- PROMOTION (R27): in the core cycle in which the age has reached 8,192; an age that throttling holds does not advance (R362). -/
def execPromotion (thread : Nat) (s : State) : Res :=
  match s.thread? thread with
  | none => .refused .notEnabled
  | some t =>
    if t.cue = .runnable && !isLaneKey thread && s.overdue thread t then
      .next (s.setThread thread { t with promoted := some ((s.row (rowOf (clusterOfKey thread))).cycleAt t.since + t.paused + 8192) })
    else .refused .notEnabled

/-- A slot has no warp and is free to take one. -/
def State.slotFree (s : State) (k : Nat) : Bool := (s.slotLanes k).isEmpty && decide ((s.slot k).busy ≤ s.now)

/-- The head's warp (R29), in table order. -/
def gather (head : Nat × Thread) (table : List (Nat × Thread)) : List (Nat × Thread) :=
  (table.filter fun (_, t) => t.pc = head.2.pc && t.act = head.2.act && t.ctx = head.2.ctx && t.group = head.2.group).take 32

/-- Take a warp into a slot: virtual lanes in ascending tid order (R30), l0 and l1 dead (R36). -/
def State.takeWarp (s : State) (k : Nat) (warp : List (Nat × Thread)) : State :=
  let lanes := sortBy (fun (a b : Nat × Thread) => lexLe [a.2.tid.toNat, a.1] [b.2.tid.toNat, b.1]) warp
  let s := lanes.foldl (fun s (key, t) =>
    s.setThread key { t.enter s.now .issuing 0 .none with promoted := none, l0 := Cell.dead, l1 := Cell.dead }) s
  s.setSlot k { Slot.init with lanes := lanes.map fun (key, _) => some key
                               pc := (lanes.head?.map fun (_, t) => t.pc).getD 0, busy := (s.slot k).busy, issued := (s.slot k).issued }

/-- WARP_FORMATION (R28 to R30): the lowest-numbered free slot takes the head of the table; promotions that are due come first. A thread
whose transaction a save has failed goes back to its checkpoint instead of issuing (R196). -/
def execWarpFormation (cluster slot : Nat) (s : State) : Res :=
  let k := cluster * 4 + slot
  if 768 ≤ cluster ∨ 4 ≤ slot then .refused .notEnabled
  else if !s.slotFree k || (List.range slot).any (fun i => s.slotFree (cluster * 4 + i)) || s.siteDown cluster
      || (s.row (rowOf cluster)).clkUntil != 0 then .refused .notEnabled
  else
    let table := s.cueTable cluster
    if table.any fun (key, t) => s.overdue key t then .refused .notEnabled else
    match table with
    | [] => .refused .notEnabled
    | head :: _ =>
      let warp := gather head table
      let fails := warp.filter fun (_, t) => match t.txn with | some x => (x.failed.map Prod.fst) = some 6 | none => false
      if fails.isEmpty then .next (s.takeWarp k warp) else .next (fails.foldl (fun s (key, _) => s.failTxn key 6 0 0) s)

/-- QUEUE_WAIT_RESUME (R39): the slot tries its instruction again. -/
def execQueueWaitResume (cluster slot : Nat) (s : State) : Res :=
  let k := cluster * 4 + slot
  let sl := s.slot k
  if sl.wait = 2 ∨ sl.wait = 3 then .next (s.setSlot k { sl with wait := 0, again := true, was := sl.wait }) else .refused .notEnabled

end Sys2Proof.Machine
end

