-- ==== Sys2Proof/Machine/Placement.lean ====
section
/-! DEFINITION. The scheduler (spec/16 R352, R355 to R363, spec/17 R371, R372, spec/10 R269, R280): callboards, readiness, placement,
eviction, retirement, throttling. -/

namespace Sys2Proof.Machine

/-! What fits a die row (R357). -/

/-- What a group asks of a cluster. -/
structure Want where
  size : Nat
  blocks : Nat
  scr : Nat
  acc : Nat
  fifos : Nat
  asl : Bool
deriving DecidableEq, Repr

def Want.ofHeader (h : Nat) : Want :=
  let t := hdrTake h
  ⟨hdrGrp h, t.blocks, t.scratch, t.acc, t.fifos, hdrAsl h⟩

def Want.ofGroup (g : Group) (blocks : Nat) : Want := ⟨g.size, blocks, g.scr, g.nacc, g.nfifo, g.asl⟩

def Want.slots (w : Want) : Nat := (w.size + 31) / 32 * 32

/-- Half-open ranges that do not meet. -/
def apart (a n b m : Nat) : Bool := decide (a + n ≤ b ∨ b + m ≤ a) || n = 0 || m = 0

/-- The lowest base slot that is free for a number of slots. -/
def State.freeBase (s : State) (c : Nat) (put : List (Spot × Want)) (n : Nat) : Option Nat :=
  ((List.range 64).map fun i => 32 * i).find? fun b =>
    decide (b + n ≤ 2048)
      && s.groups.all (fun (_, g) => g.cluster != c || apart b n g.base ((g.size + 31) / 32 * 32))
      && put.all (fun (p, w) => p.cluster != c || apart b n p.base w.slots)
      && s.threads.all fun (k, _) => isLaneKey k || clusterOfKey k != c || decide (k % 2048 < b ∨ b + n ≤ k % 2048)

/-- The lowest run of scratchpad rows of 512 bytes that is free. -/
def State.freeRow (s : State) (c : Nat) (put : List (Spot × Want)) (rows : Nat) : Option Nat :=
  let held := ((s.groups.filter fun (_, g) => g.cluster = c).map fun (_, g) => (g.row0, g.scr / 512))
    ++ (put.filter fun (p, _) => p.cluster = c).map fun (p, w) => (p.row0, w.scr / 512)
  let total := splitBytes (s.row (rowOf c)).split / 512
  let starts := sortBy (fun a b => decide (a ≤ b)) (0 :: held.map fun (a, n) => a + n)
  starts.find? fun a => decide (a + rows ≤ total) && held.all fun (b, m) => apart a rows b m

/-- Where a group would stand on a cluster. No group is placed while threads wait in the arrival buffer (R273), nor during a repair of the
site (R444). -/
def State.spotOn (s : State) (c : Nat) (put : List (Spot × Want)) (w : Want) : Option Spot :=
  let here := (s.groups.filter fun (_, g) => g.cluster = c).map fun (_, g) => g
  let mine := (put.filter fun (p, _) => p.cluster = c).map fun (_, w) => w
  let sum (f : Group → Nat) (h : Want → Nat) : Nat := here.foldl (fun n g => n + f g) 0 + mine.foldl (fun n w => n + h w) 0
  let slices := sum (fun g => b2n g.asl) (fun w => b2n w.asl)
  let ok := (s.cluster c).arrivals.isEmpty && !s.siteDown c
    && decide (here.length + mine.length < 64 ∧ sum Group.nacc Want.acc + w.acc ≤ 65536 ∧ sum Group.nfifo Want.fifos + w.fifos ≤ 16
      ∧ slices + b2n w.asl ≤ 32 ∧ mine.foldl (fun n x => n + x.blocks) 0 + w.blocks ≤ s.blocksFree c)
  if !ok then none else
  match s.freeBase c put w.slots, s.freeRow c put (w.scr / 512) with
  | some b, some r => some ⟨c, b, r⟩
  | _, _ => none

/-- The procedure of R357 from a position of the row on. -/
def State.fitFrom (s : State) (row : Nat) : List Want → Nat → List (Spot × Want) → Option (List Spot)
  | [], _, put => some (put.map fun (p, _) => p)
  | w :: rest, pos, put =>
    match ((List.range 24).filter fun i => pos ≤ i).findSome? fun i => (s.spotOn (row * 24 + i) put w).map fun p => (i, p) with
    | none => none
    | some (i, p) => s.fitFrom row rest i (put ++ [(p, w)])

def State.fits (s : State) (row : Nat) (ws : List Want) : Option (List Spot) :=
  match s.fitFrom row ws 0 [] with
  | some ps => if (ps.map Spot.cluster).eraseDups.length ≤ 8 then some ps else none
  | none => none

/-! Placing (R264, R267, R358). -/

/-- Start the groups of ensemble n of an act at the places given. -/
def State.startEnsemble (s : State) (a : Act) (n row : Nat) (spots : List Spot) : State :=
  let h := a.header
  let m := hdrEns h
  let key := ensKey a.ctx a.num n
  let keys := spots.map fun p => p.cluster * 2048 + p.base
  let e : Ensemble := { ctx := a.ctx, act := a.num, index := n, row := row, groups := keys, bars := [], lastIssue := s.now, placedAt := s.now }
  let s := { s with ensembles := put s.ensembles key e }
  let group (p : Spot) (i : Nat) : Group :=
    { ctx := a.ctx, act := a.num, gid := n * m + i, index := i, ens := key, cluster := p.cluster, base := p.base, size := hdrGrp h
      row0 := p.row0, scr := (hdrScr h + 4095) / 4096 * 4096, mirror := hdrMirw h, swz := hdrSwz h, nacc := hdrAcc h, nfifo := hdrNfifo h
      qbind := hdrQbind h, asl := hdrAsl h, memb := hdrMemb h, k := a.k, kPrev := none, q := [], fifos := [], acc := [], pad := []
      bars := [], mq := [], mxDog := 0
      slice := if hdrAsl h then some { pc := BitVec.ofNat 64 (hdrAentry h), running := true, wait := 0, since := s.now, streams := [], walks := [] }
               else none
      lastIssue := s.now, enabled := (s.row row).allow = 0, exited := 0 }
  let s := spots.zipIdx.foldl (fun s (p, i) =>
    let g := p.cluster * 2048 + p.base
    let s := s.setGroup g (group p i)
    let thread (pc n : Nat) : Thread :=
      { Thread.new a.ctx a.num (some g) (group p i).gid (BitVec.ofNat 32 n) (BitVec.ofNat 64 pc) s.now with level := a.level }
    let s := (List.range (hdrGrp h)).foldl (fun s t =>
      s.setThread (threadKey p.cluster (p.base + t)) { thread (hdrEntry h) t with blocks := hdrBlocks h }) s
    if hdrAsl h then (List.range 32).foldl (fun s t => s.setThread (laneKey g t) (thread (hdrAentry h) t)) s else s) s
  keys.foldl (fun s g => match s.group? g with | some gr => s.placementEntry gr true | none => s) s

/-- Write STATE where it changes. -/
def State.toState (s : State) (a : Act) (st : Nat) : State :=
  if (match s.act? a.ctx a.num with | some x => x.state | none => st) = st then s else s.setActState a.ctx a.num st

/-- An act that is fully placed leaves its callboard (R355). -/
def State.fullyPlaced (s : State) (a : Act) : State :=
  let s := if a.fired then s else s.toState a 3
  s.setBoard a.board { s.board a.board with queue := (s.board a.board).queue.filter fun k => k != actKey a.ctx a.num }

/-- What waits for placement: a saved ensemble, or the next of a head. -/
inductive Waiter where
  | saved (item : Saved) (row : Nat) (ws : List Want)
  | fresh (a : Act)
deriving DecidableEq, Repr

def Waiter.wants : Waiter → List Want
  | .saved _ _ ws => ws
  | .fresh a => List.replicate (hdrEns a.header) (Want.ofHeader a.header)

/-- The rows that may take it, in the order of R358. -/
def State.waiterRows (s : State) (w : Waiter) : List Nat :=
  match w with
  | .saved _ row _ => [row]
  | .fresh a =>
    let rows := s.rowsOf a.ctx
    rows.filter (fun r => decide (a.lastRow < 32 ∧ a.lastRow < r)) ++ rows.filter fun r => !decide (a.lastRow < 32 ∧ a.lastRow < r)

def State.placeAt (s : State) (w : Waiter) (row : Nat) (spots : List Spot) : State :=
  match w with
  | .saved item _ _ =>
    (match item with
    | .ensemble _ e _ _ _ _ => (s.restoreEnsemble item spots).switchedIn e.ctx
    | .roaming _ _ _ _ _ => s)
  | .fresh a =>
    let s := (s.startEnsemble a a.placed row spots).toState a 2
    let s := s.modAct a.ctx a.num fun x => { x with placed := x.placed + 1, lastRow := row }
    if a.placed + 1 = hdrNens a.header then s.fullyPlaced a else s

/-- The actual blocks of a saved group's threads. -/
def savedWants (gs : List (Nat × Group)) (ts : List (Nat × Thread)) : List Want :=
  gs.map fun (k, g) => Want.ofGroup g ((ts.filter fun (_, t) => t.group = some k).foldl (fun n (_, t) => n + t.blocks) 0)

/-- The saved ensembles of a context that may return (R374, R380). -/
def State.savedWaiters (s : State) (ctx : Nat) : List (Nat × Ensemble × Waiter) :=
  if !s.takesIn ctx true then [] else
  (s.ctx ctx).saved.filterMap fun x =>
    match x with
    | .ensemble k e gs ts _ _ => some (k, e, .saved x e.row (savedWants gs ts))
    | .roaming _ _ _ _ _ => none

/-- The ready head of a callboard whose context may place. -/
def State.readyHead (s : State) (b : Nat) : Option Act :=
  match (s.board b).queue with
  | [] => none
  | k :: _ =>
    match find s.acts k with
    | some a => if a.ready && s.mayRun a.ctx && (s.ctx a.ctx).en then some a else none
    | none => none

/-- All that a partition may place, with the order of R358 and R374: level, callboard, age of the act, ensemble number. -/
def State.waiters (s : State) (part : Nat) : List (List Nat × Nat × Waiter) :=
  let inside (ctx : Nat) : Bool := (s.rowsOf ctx).head? = some part
  let heads := s.boards.filterMap fun (b, _) =>
    match s.readyHead b with
    | some a => if inside a.ctx && a.retryAt = 0 then some ([7 - a.level, b, a.posted, a.placed], a.level, Waiter.fresh a) else none
    | none => none
  let back := s.ctxs.flatMap fun (c, _) =>
    if !inside c then [] else (s.savedWaiters c).filterMap fun (_, e, w) =>
      match s.act? c e.act with
      | some a => some ([7 - a.level, a.board, a.posted, e.index], a.level, w)
      | none => none
  sortBy (fun (a b : List Nat × Nat × Waiter) => lexLe a.1 b.1) (heads ++ back)

/-! Eviction for a higher level (R371). -/

/-- An item that may give way: a roaming thread or an ensemble. -/
inductive Item where
  | thread (key : Nat) | ensemble (key : Nat)
deriving DecidableEq, Repr

/-- The items of a row below a level, in the order in which they go; those of a stopped context stay frozen (R433). -/
def State.below (s : State) (row level : Nat) : List Item :=
  let ths := s.threads.filter fun (k, t) =>
    !isLaneKey k && t.group.isNone && rowOf (clusterOfKey k) = row && decide (t.level < level) && !(s.ctx t.ctx).low
  let levelOf (e : Ensemble) : Nat := match s.act? e.ctx e.act with | some a => a.level | none => 0
  let ens := s.ensembles.filter fun (_, e) => e.row = row && decide (levelOf e < level) && !(s.ctx e.ctx).low
  ((sortBy (fun (a b : Nat × Thread) => decide (b.2.admitted ≤ a.2.admitted)) ths).map fun (k, _) => Item.thread k)
    ++ ((sortBy (fun (a b : Nat × Ensemble) =>
        decide (levelOf a.2 < levelOf b.2) || (levelOf a.2 = levelOf b.2 && decide (b.2.placedAt ≤ a.2.placedAt))) ens).map fun (k, _) => Item.ensemble k)

/-- The row as it would be with the items gone. -/
def State.without (s : State) (l : List Item) : State :=
  l.foldl (fun s i =>
    match i with
    | .thread k => { s with threads := drop s.threads k }
    | .ensemble k =>
      match find s.ensembles k with
      | none => s
      | some e =>
        { s with ensembles := drop s.ensembles k, groups := keep (fun g _ => !e.groups.contains g) s.groups
                 threads := keep (fun _ t => match t.group with | some g => !e.groups.contains g | none => true) s.threads }) s

/-- Save an item where it may be saved now and its area has room. -/
def State.evict (s : State) (i : Item) : State :=
  match i with
  | .thread k =>
    (match s.thread? k with
    | some t => if s.threadSavable k t then s.trySave t.ctx (s.roamingRecord k) fun s => s.saveRoaming k else s
    | none => s)
  | .ensemble k =>
    match find s.ensembles k with
    | some e => if s.ensembleSavable e then s.trySave e.ctx (s.ensembleRecord e) fun s => s.saveEnsemble k else s
    | none => s

/-- The item may be saved now. -/
def State.savable (s : State) (i : Item) : Bool :=
  match i with
  | .thread k => (match s.thread? k with | some t => s.threadSavable k t | none => true)
  | .ensemble k => match find s.ensembles k with | some e => s.ensembleSavable e | none => true

/-- Evict in order until the goal is met. One that can not be saved yet holds up those after it; one whose area is full is passed over
(R376). -/
def State.evictUntil (done : State → Bool) : List Item → State → State
  | [], s => s
  | i :: r, s => if done s || !s.savable i then s else State.evictUntil done r (s.evict i)

/-- Try to place one ensemble, with the eviction of R371 for a ready head. -/
def State.tryPlace (s : State) (w : Waiter) (level : Nat) : State × Bool :=
  let rows := s.waiterRows w
  match rows.findSome? fun r => (s.fits r w.wants).map fun p => (r, p) with
  | some (r, p) => (s.placeAt w r p, true)
  | none =>
    match (match w with
      | .fresh _ => rows.find? fun r => ((s.without (s.below r level)).fits r w.wants).isSome
      | .saved _ _ _ => none) with
    | none => (s, false)
    | some r =>
      let s := State.evictUntil (fun s => (s.fits r w.wants).isSome) (s.below r level) s
      match s.fits r w.wants with
      | some p => (s.placeAt w r p, true)
      | none => (s, false)

/-! Roaming threads (R359). -/

/-- The cluster of a launched thread. -/
def State.launchCluster (s : State) (ctx tid : Nat) : Nat :=
  let rows := s.rowsOf ctx
  rows.headD 0 * 24 + tid % (rows.length * 24)

/-- Release the next launched thread of a roaming head. -/
def State.release (s : State) (a : Act) : State :=
  let cluster := s.launchCluster a.ctx a.placed
  let t : Travel :=
    { ctx := a.ctx, act := a.num, gid := 0, tid := BitVec.ofNat 32 a.placed, pc := BitVec.ofNat 64 (hdrEntry a.header), regs := [], rest := .dead
      preds := List.replicate 7 PCell.false, tsw := 0, vc := Clock.zero, fscope := 0, trig := false, level := a.level, saved := none
      since := s.now }
  match s.receive cluster t with
  | none =>
    s.modAct a.ctx a.num fun x => { x with retryAt := s.cycles cluster x.retryGap, retryGap := min (2 * x.retryGap) 65536 }
  | some s =>
    let s := (s.toState a 2).modAct a.ctx a.num fun x => { x with placed := x.placed + 1, retryAt := 0, retryGap := 256 }
    if a.placed + 1 = hdrNthr a.header then s.fullyPlaced a else s

/-- One candidate of a cycle; `blocked` is the level at and below which nothing more is placed. -/
def State.placeOne (st : State × Bool × Option Nat) (w : List Nat × Nat × Waiter) : State × Bool × Option Nat :=
  let (s, moved, blocked) := st
  let held := match blocked with | some v => decide (w.2.1 ≤ v) | none => false
  if held then st else
  match w.2.2 with
  | .fresh a =>
    if a.roaming then
      (if hdrNthr a.header = 0 then (s.fullyPlaced a, true, blocked) else (s.release a, true, blocked))
    else if hdrNens a.header = 0 then (s.fullyPlaced a, true, blocked)
    else
      let (s', ok) := s.tryPlace w.2.2 w.2.1
      (s', moved || ok, if ok then blocked else some w.2.1)
  | .saved _ _ _ =>
    let (s', ok) := s.tryPlace w.2.2 w.2.1
    (s', moved || ok, if ok then blocked else some w.2.1)

/-- PLACEMENT (R358): one core cycle of a partition's scheduler, named by the partition's first row. -/
def execPlacement (part : Nat) (s : State) : Res :=
  let (s', moved, _) := (s.waiters part).foldl State.placeOne (s, false, none)
  if moved || s.changed s' then .next s' else .refused .notEnabled

/-- ROAMING_RELEASE_RESEND (R359). -/
def execRoamingReleaseResend (act : Nat) (s : State) : Res :=
  match find s.acts act with
  | none => .refused .notEnabled
  | some a =>
    if a.retryAt = 0 ∨ s.coreCycle (s.launchCluster a.ctx a.placed) < a.retryAt ∨ (s.readyHead a.board).map Act.num != some a.num then .refused .notEnabled
    else .next (s.release { a with retryAt := 0 })

/-! Callboards (R352, R355). -/

/-- CBPOST: a post by the owner. -/
def execCbpost (callboard : Nat) (header : Dword) (s : State) : Res :=
  if 256 ≤ callboard then .refused .notEnabled
  else .next (s.post 0 (fld (s.board callboard).ctl.toNat 5 0) callboard header.toNat)

/-- An act of a callboard takes its level from the ceiling as it stands, and its threads with it, the saved ones too (R26, R352). -/
def State.levelBoard (s : State) (board ceil : Nat) : State :=
  let mine := s.acts.filter fun (_, a) => a.board = board && a.guest.isNone && a.level != min (hdrPrio a.header) ceil
  mine.foldl (fun s (k, a) =>
    let v := min (hdrPrio a.header) ceil
    { s with acts := put s.acts k { a with level := v }
             threads := mapVals (fun _ t => if t.ctx = a.ctx && t.act = a.num then { t with level := v } else t) s.threads
             ctxs := mapVals (fun _ c => if c.saved.isEmpty then c else
               { c with saved := c.saved.map (Saved.mapThreads fun t => if t.ctx = a.ctx && t.act = a.num then { t with level := v } else t) }) s.ctxs }) s

/-- CBCTL_WRITE: a change of OWNER, or EN cleared, cancels what is queued; CEIL bounds every level. -/
def execCbctlWrite (callboard : Nat) (value : Dword) (s : State) : Res :=
  if 256 ≤ callboard then .refused .notEnabled else
  let b := s.board callboard
  let new : Dword := value &&& 0xF03F
  let owner := fld b.ctl.toNat 5 0
  let s := if owner != fld new.toNat 5 0 || (bit b.ctl.toNat 15 && !bit new.toNat 15) then s.cancelActs owner (fun x => x = callboard) else s
  .next ((s.setBoard callboard { s.board callboard with ctl := new }).levelBoard callboard (fld new.toNat 14 12))

/-- ACT_READY: the head begins to wait, and a condition monitor at its counter's home watches for WVAL (R238); with none free the word is read
again later. The word is that where it stands now (R226); one that fails translation, lies in a marked sector or is no longer in device memory
keeps the act waiting (log entry 39). -/
def execActReady (callboard : Nat) (s : State) : Res :=
  match (s.board callboard).queue with
  | [] => .refused .notEnabled
  | k :: _ =>
    match find s.acts k with
    | none => .refused .notEnabled
    | some a =>
      if a.ready || (s.ctx a.ctx).low then .refused .notEnabled else
      let waits : Res := if a.state = 0 then .next (s.setActState a.ctx a.num 1) else .refused .notEnabled
      let addr := hdrWaddr a.header
      if addr = 0 then .next (s.setAct { a with ready := true }) else
      match s.pkg.waits.find? fun w => w.who = .act k with
      | some w => if w.monitor || s.coreCycle (w.pa / 2 ^ 30) < w.next then .refused .notEnabled else .next (s.registerFar w)
      | none =>
        match s.resolve 0 a.ctx addr .read with
        | .error _ => waits
        | .ok (s', l) =>
          let pa := s'.placed? l.pa
          let home := match s'.region pa with | some (.home c) => s'.movedAt c pa 4 != some .frozen | _ => false
          if l.attr = 3 || !home then waits
          else .next (((if a.state = 0 then s'.setActState a.ctx a.num 1 else s').reach pa).registerFar
            ⟨.act k, a.ctx, pa, 6, BitVec.ofNat 32 (hdrWval a.header), false, 0, 0⟩)

/-! Retirement (R269, R278, R308). -/

/-- Everything that the threads of an act have issued has retired. -/
def State.actQuiet (s : State) (a : Act) : Bool :=
  s.ops.all (fun (_, o) => o.ctx != a.ctx || o.act != a.num)
    && s.engines.all (fun (_, e) => e.cmds.all fun c => c.ctx != a.ctx || c.act != a.num)
    && s.groups.all fun (_, g) => g.ctx != a.ctx || g.act != a.num

/-- ACT_RETIREMENT. -/
def execActRetirement (act : Nat) (s : State) : Res :=
  match find s.acts act with
  | none => .refused .notEnabled
  | some a =>
    let queued := s.boards.any fun (_, b) => b.queue.contains act
    if a.live != 0 || queued || !s.actQuiet a || (s.ctx a.ctx).low then .refused .notEnabled else
    let gone (s : State) : State := { s with acts := drop s.acts act }
    match a.guest with
    | some senders => .next (gone (senders.foldl (fun s d => s.notify 1 d d.admitted) (s.tellUntriggered a)))
    | none =>
      if a.state = 7 then .next (gone s)
      else .next (gone ((if a.signalled then s else s.actSignal a.ctx a.num).setActState a.ctx a.num 5))

/-! Eviction for register blocks (R372), swap-out (R280). -/

/-- Enough blocks are free on a cluster for the requests that stand at it. -/
def State.poolMet (s : State) (cluster need : Nat) : Bool := decide (need ≤ s.blocksFree cluster)

/-- Ensembles with a group on a cluster, the requesters' own apart, lowest level first, then most recently placed first. -/
def State.poolEnsembles (s : State) (cluster : Nat) (asking : List Nat) : List Item :=
  let levelOf (e : Ensemble) : Nat := match s.act? e.ctx e.act with | some a => a.level | none => 0
  let own (e : Ensemble) : Bool := asking.any fun k => match (s.thread? k).bind Thread.group with | some g => e.groups.contains g | none => false
  let ens := s.ensembles.filter fun (_, e) => e.groups.any (fun g => g / 2048 = cluster) && !own e && !(s.ctx e.ctx).low
  (sortBy (fun (a b : Nat × Ensemble) =>
    decide (levelOf a.2 < levelOf b.2) || (levelOf a.2 = levelOf b.2 && decide (b.2.placedAt ≤ a.2.placedAt))) ens).map fun (k, _) => .ensemble k

/-- Of the contexts that are not stopped (R433): spills, then roaming threads, then ensembles, until the requests of a cluster can be granted (R372). -/
def State.poolEvict (s : State) (cluster : Nat) : State :=
  let reqs := s.poolRequests cluster
  let need := reqs.foldl (fun n x => n + x.need) 0
  let asking := reqs.filterMap PoolReq.thread
  let here := s.threads.filter fun (k, t) => !isLaneKey k && clusterOfKey k = cluster && t.blocks != 0 && !(s.ctx t.ctx).low
  let spills := here.filter fun (k, t) => (t.cue = .waiting || t.cue = .parked) && !asking.contains k
  let spills := sortBy (fun (a b : Nat × Thread) => decide (a.2.since ≤ b.2.since)) spills
  let s1 := spills.foldl (fun s (k, _) => if s.poolMet cluster need then s else s.spillThread k) s
  let roam := here.filter fun (_, t) => t.group.isNone
  let roam := sortBy (fun (a b : Nat × Thread) => decide (b.2.admitted ≤ a.2.admitted)) roam
  let roam := roam.filter fun (k, _) => match s1.thread? k with | some t => t.blocks != 0 | none => false
  let items := (roam.map fun (k, _) => Item.thread k) ++ s1.poolEnsembles cluster asking
  State.evictUntil (fun s => s.poolMet cluster need) items s1

/-- REGISTER_POOL_EVICTION (R372): the oldest request has waited for 16,384 core cycles, and the requests cannot be granted. -/
def execRegisterPoolEviction (cluster : Nat) (s : State) : Res :=
  match s.poolRequests cluster with
  | [] => .refused .notEnabled
  | r :: rest =>
    if s.cyclesSince cluster r.since < 16384 ∨ s.poolMet cluster ((r :: rest).foldl (fun n x => n + x.need) 0) then
      .refused .notEnabled
    else if !s.changed (s.poolEvict cluster) then .refused .notEnabled
    else .next (s.poolEvict cluster)

/-- SWAP_OUT: resident ensembles of a context in a row, oldest last issue first, until the one that waits fits there. -/
def execSwapOut (ctx row : Nat) (s : State) : Res :=
  let idle := decide ((s.row row).cycleAt (get (s.row row).issued ctx 0) + 65536 ≤ (s.row row).cycleAt s.now)
  let part := (s.rowsOf ctx).headD 0
  let mine (w : List Nat × Nat × Waiter) : Bool := match w.2.2 with
    | .fresh a => a.ctx = ctx && !a.roaming && hdrNens a.header != 0
    | .saved (.ensemble _ e _ _ _ _) r _ => e.ctx = ctx && r = row
    | .saved _ _ _ => false
  match (s.waiters part).find? mine with
  | none => .refused .notEnabled
  | some w =>
    let w := w.2.2
    let own := sortBy (fun (a b : Nat × Ensemble) => decide (a.2.lastIssue ≤ b.2.lastIssue)) (s.ensembles.filter fun (_, e) => e.ctx = ctx && e.row = row)
    let items := own.map fun (k, _) => Item.ensemble k
    if !idle || !(s.waiterRows w).contains row || ((s.waiterRows w).any fun r => (s.fits r w.wants).isSome)
        || ((s.without items).fits row w.wants).isNone then .refused .notEnabled
    else
      let s' := State.evictUntil (fun s => (s.fits row w.wants).isSome) items s
      match s'.fits row w.wants with
      | some p => .next (s'.placeAt w row p)
      | none => if s.changed s' then .next s' else .refused .notEnabled

/-! Congestion and throttling (R318, R361, R362). -/

/-- Steps of the allowance: unlimited, 32, 16, 8, 4, 2, 1. -/
def allowance (step : Nat) : Option Nat := if step = 0 then none else some (2 ^ (6 - step))

/-- The strictest throttle mode among the contexts that stand in a row. -/
def State.rowThrottle (s : State) (row : Nat) : Nat :=
  (s.threads.filter fun (k, _) => rowOf (clusterOfKey k) = row).foldl (fun m (_, t) => max m (fld (s.ctx t.ctx).mode.toNat 10 9)) 0

/-- The allowance of a row after a window with these words. -/
def State.adjust (s : State) (row mseq gateq : Nat) : State :=
  let mode := s.rowThrottle row
  s.modRow row fun r =>
    if mode = 0 then { r with allow := 0, tight := 0, relax := 0 } else
    let (th, tl) := if mode = 1 then (192, 64) else (128, 32)
    let tight := if th ≤ mseq ∨ th ≤ gateq then r.tight + 1 else 0
    let relax := if mseq ≤ tl ∧ gateq ≤ tl then r.relax + 1 else 0
    if 2 ≤ tight then { r with allow := min (r.allow + 1) 6, tight := 0, relax := 0 }
    else if 4 ≤ relax then { r with allow := r.allow - 1, tight := 0, relax := 0 }
    else { r with tight := tight, relax := relax }

/-- The groups and roaming acts of a cluster that may issue in the next window. What was held in this one has not aged. -/
def State.enableWindow (s : State) (c : Nat) : State :=
  let here (k : Nat) (t : Thread) : Bool := !isLaneKey k && clusterOfKey k = c && t.cue = .runnable
  let s := { s with threads := mapVals (fun k t => if here k t then { t with paused := t.paused + s.heldCycles k t } else t) s.threads }
  let cl := s.cluster c
  let acts := (s.threads.filter fun (k, t) => !isLaneKey k && clusterOfKey k = c && t.group.isNone).filterMap fun (k, t) =>
    match s.act? t.ctx t.act with
    | some a => if hdrMemb a.header then some (actKey t.ctx t.act, k % 2048) else none
    | none => none
  let acts := acts.foldl (fun m (a, slot) => put m a (min slot (get m a 2048))) ([] : Map Nat)
  let all : List (Nat × Nat × Bool × Nat) :=
    ((s.groups.filter fun (_, g) => g.cluster = c && g.memb).map fun (k, g) => (g.lastIssue, g.base, true, k))
      ++ acts.map fun (a, slot) => (get cl.issued a 0, slot, false, a)
  let order := sortBy (fun (a b : Nat × Nat × Bool × Nat) => lexLe [a.1, a.2.1] [b.1, b.2.1]) all
  let n := match allowance (s.row (rowOf c)).allow with | some n => n | none => order.length
  let on := order.take n
  let off := order.drop n
  let s := { s with groups := mapVals (fun k g => if g.cluster = c ∧ g.memb then { g with enabled := on.any fun x => x.2.2.1 && x.2.2.2 = k } else g) s.groups }
  s.modCluster c fun cl => { cl with idle := (off.filter fun x => !x.2.2.1).map fun x => x.2.2.2 }

/-- The mean occupancy of a die's gate over a window whose sums are given, in 1/256 of its 8,192 entries (R318). -/
def gateq (sums : Map Nat) (die : Nat) : Byte := BitVec.ofNat 8 (min 255 (get sums die 0 * 256 / (8192 * windowTicks)))

/-- CONGESTION_WINDOW: a window of 4,096 network cycles has ended, whose sums `State.pass` has closed. What queues and links hold is outside the
model: a row's (MSEQ, LNKU) and a die's BNDU are inputs (log entry 5). -/
def execCongestionWindow (rows : List (Byte × Byte)) (dies : List Byte) (s : State) : Res :=
  match s.pkg.shut with
  | none => .refused .notEnabled
  | some sums =>
  let n := s.nc / 4096 % 256
  let word (p : Byte × Byte) : Dword := BitVec.ofNat 64 (p.1.toNat * 2 ^ 16 + p.2.toNat * 2 ^ 8 + n)
  let r (i : Nat) : Byte × Byte := rows.getD i (0, 0)
  let d (i : Nat) : Byte × Byte := (gateq sums i, dies.getD i 0)
  let s := { s with pkg := { s.pkg with
    rowcong := (List.range 32).map fun i => (i, word (r i))
    diecong := (List.range 4).map fun i => (i, word (d i)), shut := none } }
  let s := (List.range 32).foldl (fun s i => s.adjust i (r i).1.toNat (d (i / 8)).1.toNat) s
  let used := (s.clusters.map fun (c, _) => c) ++ s.threads.map fun (k, _) => clusterOfKey k
  let s := used.eraseDups.foldl State.enableWindow s
  .next { s with pkg := { s.pkg with windowAt := s.now } }

end Sys2Proof.Machine
end

