-- ==== Sys2Proof/Machine/Contexts.lean ====
section
/-! DEFINITION. Contexts (spec/17 R364 to R369, R380, R382, spec/18 R387, R391, R394): partitions, enabling and ending, modes and
clocks, switching, owners of frames, walks and invalidations. -/

namespace Sys2Proof.Machine

/-! Walks. -/

/-- What a walk reads from level `level` on: each entry with its level. -/
def State.trace (s : State) (row ctx : Nat) (cached : Bool) (va : Nat) : Nat → Nat → List (Nat × Nat)
  | level, t =>
    match s.entryAt row ctx cached t level va with
    | .error _ => []
    | .ok e =>
      match level with
      | 0 => []
      | l + 1 => (l + 1, e) :: (if bit e 1 then [] else s.trace row ctx cached va l (fld e 51 8 * 256))

/-- The walk cache keeps what a successful walk used, leaves of 64 KiB apart (R391). -/
def State.keepTrace (s : State) (row ctx : Nat) (cached : Bool) (va : Nat) : State :=
  let new := s.trace row ctx cached va 4 (fld (s.ctx ctx).pt.toNat 51 11 * 2 ^ 11)
  let els := new.map fun (l, e) => (⟨ctx, l, va / 2 ^ (12 + 9 * l), BitVec.ofNat 64 e⟩ : WalkEl)
  s.modRow row fun r => { r with walkCache := els ++ r.walkCache.filter fun x => !(els.any fun y => y.ctx = x.ctx && y.level = x.level && y.va = x.va) }

/-- The context and the cluster of one who waits for a walk. -/
def State.userAt (s : State) (u : WalkUser) : Option (Nat × Nat) :=
  match u with
  | .slot k => (s.slotLanes k).head?.map fun x => (x.2.2.ctx, k / 4)
  | .slice g => (s.group? g).map fun gr => (gr.ctx, gr.cluster)
  | .copy e c => (s.copyCmd? e c).map fun x => (x.ctx, x.cluster)
  | .stream g _ => (s.group? g).map fun gr => (gr.ctx, gr.cluster)
  | .op k => (find s.ops k).map fun o => (o.ctx, o.cluster)

/-- Give one who waits a result, and let it go on. -/
def State.tellUser (s : State) (u : WalkUser) (key : Nat) (w : Walked) : State :=
  match u with
  | .slot k => s.modSlot k fun sl => { sl with walks := put sl.walks key w, wait := if sl.wait = 4 then 0 else sl.wait }
  | .slice g => s.modGroup g fun gr => { gr with slice := gr.slice.map fun sl =>
      { sl with walks := put sl.walks key w, wait := if sl.wait = 4 then 0 else sl.wait } }
  | .copy e c => s.modCopy e c fun x => { x with walks := put x.walks key w }
  | .stream g i => s.modStreams g fun l => l.map fun x => if x.id = i then { x with walks := put x.walks key w } else x
  | .op k => match w with
    | .ok _ _ _ _ => s.raggedAgain k
    | .fault c => (match find s.ops k with | some o => if o.stage = .ats then s.answerCode k c.toNat o.va else s | none => s)

/-- The result of a walk: HOME's walk makes no owner check and fills no TLB. -/
def State.walkResult (s : State) (row ctx g : Nat) (cached : Bool) : State × Walked :=
  let home := decide (2 ^ 48 ≤ g)
  let va := g % 2 ^ 48 * 2 ^ 16
  match s.walk row ctx va cached with
  | .error c => (s, .fault c)
  | .ok l =>
    let s1 := s.keepTrace row ctx cached va
    if home then (s1, .ok l.pa (BitVec.ofNat 3 l.attr) l.page false) else
    match s1.ownerCheck ctx l with
    | .error c => (s, .fault c)
    | .ok s2 => (s2, .ok l.pa (BitVec.ofNat 3 l.attr) l.page false)

/-- TRANSLATION_WALK_END (R387 to R392): every merged requester receives the result, and the next that waits for a walker starts. -/
def execTranslationWalkEnd (row ctx granule : Nat) (cached : Bool) (s : State) : Res :=
  match (s.row row).walks.find? fun w => w.ctx = ctx && w.granule = granule && w.started with
  | none => .refused .notEnabled
  | some w =>
    let (s1, r) := s.walkResult row ctx granule cached
    let s2 := s1.modRow row fun v =>
      { v with walks := startWalks (v.walks.filter fun x => !(x.ctx = ctx && x.granule = granule)) }
    .next (w.users.foldl (fun s u =>
      match s.userAt u with
      | some (c, cluster) =>
        if c != ctx then s else
        let s := s.tellUser u granule r
        (match r with
        | .ok pa attr _ _ => if 2 ^ 48 ≤ granule then s else s.fillTlb cluster ⟨ctx, granule * 2 ^ 16, false, pa, attr, false, false, 2 ^ 16, none⟩
        | .fault _ => s)
      | none => s) s2)

/-! Dropping translations (R394, R395, R399). -/

/-- The results that slots, slices, engines and streams of a context keep are dropped; whoever needs one translates again. -/
def State.forgetWalks (s : State) (ctx : Nat) : State :=
  let slotOf (sl : Slot) : Bool := sl.lanes.any fun o => match o.bind (find s.threads) with | some t => t.ctx = ctx | none => false
  { s with
    slots := mapVals (fun _ sl => if slotOf sl then { sl with walks := [] } else sl) s.slots
    groups := mapVals (fun _ g => if g.ctx != ctx then g else { g with slice := g.slice.map fun sl =>
      { sl with walks := [], streams := sl.streams.map fun x => { x with walks := [] } } }) s.groups
    engines := mapVals (fun _ (e : Engine) => { e with cmds := e.cmds.map fun (c : CopyCmd) => if c.ctx = ctx then { c with walks := [] } else c }) s.engines }

/-- Two ranges of addresses meet. -/
def meets (a n b m : Nat) : Bool := decide (a < b + m ∧ b < a + n)

/-- Operations of a context in a range that are not yet performed, or have not yet delivered (R394); the element writes of engines are among
them (R395). A wait is none: its word is looked at again when it is translated again. -/
def State.inFlight (s : State) (ctx first n : Nat) : List Nat :=
  (s.ops.filter fun (_, o) => o.ctx = ctx
    && (match o.work with
      | .message _ | .watch => false
      | .packet p => meets (first * 2 ^ 16) (n * 2 ^ 16) o.va p.bytes || (p.aBytes != 0 && meets (first * 2 ^ 16) (n * 2 ^ 16) p.a p.aBytes)
      | _ => meets (first * 2 ^ 16) (n * 2 ^ 16) o.va o.span)).map fun (k, _) => k

/-- Those of a context who wait for the host's translation of a page in a range begin again with a walk (R394). -/
def State.restartAts (s : State) (ctx first n : Nat) : State :=
  let mine (r : AtsReq) (u : WalkUser) : Bool := meets (first * 2 ^ 16) (n * 2 ^ 16) (r.page * 4096) 4096 && (s.userAt u).map Prod.fst = some ctx
  let ops := s.port.ats.flatMap fun r => (r.users.filter (mine r)).filterMap fun u => match u with | .op k => some k | _ => none
  let s := { s with port := { s.port with ats := s.port.ats.map fun r => { r with users := r.users.filter fun u => !mine r u } } }
  ops.foldl State.raggedAgain s

/-- Begin an invalidation of n granules; `all` is the whole context. -/
def State.invalidate (s : State) (ctx first n : Nat) (all : Bool) : State :=
  let c := s.ctx ctx
  if bit c.invs.toNat 0 then s.setCtx ctx { c with invs := setD c.invs 1 1 1 } else
  let (first, n) := if all then (0, 2 ^ 48) else (first, n)
  let gone (e : TlbEl) : Bool := e.ctx = ctx && meets (first * 2 ^ 16) (n * 2 ^ 16) (e.base) e.bytes
  let s := { s with rows := mapVals (fun _ r => { r with
    tlb := r.tlb.filter fun e => !gone e, walkCache := r.walkCache.filter fun e => e.ctx != ctx }) s.rows }
  let s := (s.forgetWalks ctx).restartAts ctx first n
  s.modCtx ctx fun c => { c with invs := setD c.invs 0 0 1, inv := some (first, n), invOps := s.inFlight ctx first n }

/-- CTXINV with ALL clear: VPN and COUNT. -/
def execCtxinvRange (ctx : Nat) (value : Dword) (s : State) : Res :=
  if 64 ≤ ctx then .refused .notEnabled else
  let n := df value 15 0
  .next (s.invalidate ctx (df value 55 16) (if n = 0 then 65536 else n) (bit value.toNat 63))

def execCtxinvAll (ctx : Nat) (s : State) : Res := if 64 ≤ ctx then .refused .notEnabled else .next (s.invalidate ctx 0 0 true)

/-- A thread still on its way with a translation from the range (R207). -/
def State.travelling (s : State) (ctx first n : Nat) : Bool :=
  s.threads.any fun (_, t) => t.ctx = ctx && (match t.waitOn with | .depart l => !l.migr && meets (first * 2 ^ 16) (n * 2 ^ 16) l.va 1 | _ => false)

/-- INVALIDATION_COMPLETE: every access translated before has been performed, and loads have delivered. -/
def execInvalidationComplete (ctx : Nat) (s : State) : Res :=
  let c := s.ctx ctx
  match c.inv with
  | none => .refused .notEnabled
  | some (first, n) =>
    let open' (k : Nat) : Bool := match find s.ops k with
      | some o => o.isRead || o.dst != .none || o.stage != .performed
      | none => false
    if c.invOps.any open' || s.travelling ctx first n then .refused .notEnabled
    else .next (s.setCtx ctx { c with invs := setD c.invs 0 0 0, inv := none, invOps := [] })

/-! Partitions (R364, R365). -/

/-- The rows of enabled contexts. -/
def State.busyRows (s : State) : List Nat := ((s.ctxs.filter fun (_, c) => c.en).flatMap fun (k, _) => s.rowsOf k).eraseDups

/-- PARTMAP_WRITE. -/
def execPartmapWrite (value : Dword) (s : State) : Res :=
  let old := s.pkg.partmap
  let err := bit old.toNat 0 && !bit value.toNat 0
  let moves := s.busyRows.any fun r => partitionFrom value.toNat r 5 1 0 32 != s.partition r
  let v := if moves then setD old 0 0 1 else setD (value &&& 0xFFFFFFFF) 0 0 (b2n err)
  .next { s with pkg := { s.pkg with partmap := v } }

/-! Modes (R366 to R368). -/

/-- The enabled contexts of a partition. -/
def State.tenants (s : State) (part : Nat) : List (Nat × Ctx) := s.ctxs.filter fun (k, c) => c.en && (s.rowsOf k).head? = some part

/-- The lowest clock that a partition's contexts and the power cap (R453) ask for; none where it has no context. -/
def State.wantedClock (s : State) (part : Nat) : Option Nat :=
  (((s.tenants part).map fun (_, c) => fld c.mode.toNat 1 0).max?).map fun k => max k (df s.pkg.pwrctl 25 24)

def State.partRows (s : State) (part : Nat) : List Nat :=
  let (first, n) := s.partition part
  (List.range n).map fun i => first + i

/-- A clock change begins where the partition's clock is not the one asked for (R368). -/
def State.reclock (s : State) (part : Nat) : State :=
  match s.wantedClock part with
  | none => s
  | some k =>
    (s.partRows part).foldl (fun s r =>
      if (s.row r).clk = k || (s.row r).clkUntil != 0 then s else s.modRow r fun v => { v with clkUntil := s.now + 2 * ticksPerUs }) s

/-- CLOCK_CHANGE_DONE: the core cycle counters go on at the new rate. -/
def execClockChangeDone (partition : Nat) (s : State) : Res :=
  let rows := (s.partRows partition).filter fun r => (s.row r).clkUntil != 0
  if rows.isEmpty ∨ (s.partition partition).1 != partition then .refused .notEnabled else
  let s' := rows.foldl (fun s r => s.modRow r fun v =>
    let k := (s.wantedClock partition).getD v.clk
    { v with coreBase := v.cycleAt s.now, coreSince := s.now, clk := k, clkUntil := 0, clks := (v.coreSince, v.coreBase, v.clk) :: v.clks }) s
  .next s'

/-- Fields of CTXMODE that stand only while the context is disabled: SPLIT, FEC, ECC, DET. -/
def modeFixed : Nat := 0xFC

/-- A write to CTXMODE. -/
def State.writeMode (s : State) (ctx : Nat) (value : Dword) : State :=
  let c := s.ctx ctx
  let v := value.toNat % 2 ^ 12
  if fld v 10 9 = 3 ∨ fld v 7 6 = 3 ∨ fld v 5 4 = 3 ∨ fld v 1 0 = 3 then s.setCtx ctx (c.setErr 3)
  else if c.en ∧ Nat.xor v c.mode.toNat &&& modeFixed != 0 then s.setCtx ctx (c.setErr 4)
  else
    let s := s.setCtx ctx { c with mode := BitVec.ofNat 64 v }
    if c.en then s.reclock ((s.rowsOf ctx).headD 0) else s

def execCtxmodeWrite (ctx : Nat) (value : Dword) (s : State) : Res := if 64 ≤ ctx then .refused .notEnabled else .next (s.writeMode ctx value)

/-! Enabling (R366 to R368, R427). -/

/-- Every frame of a row becomes zero-pending: those that hold anything. -/
def State.pendRow (s : State) (row : Nat) : State :=
  let inRow (f : Nat) : Bool := f / 2 ^ 14 / 24 = row
  let mons : List Monitor := s.clusters.flatMap fun (x : Nat × Cluster) => x.2.mons
  let watched : List Nat := mons.filterMap fun m => match m.word with | .mem pa => some (pa / 2 ^ 16) | .pad _ _ => none
  let stamped : List Nat := s.clusters.flatMap fun (x : Nat × Cluster) => x.2.stamps.map fun e => e.line / 2 ^ 10
  let frames := ((s.mem.map fun (x : Host.Cell) => x.1 / 2 ^ 16) ++ (s.marks.map fun (x : Nat × Byte) => x.1 / 2 ^ 11) ++ watched ++ stamped).eraseDups
  { s with zeroPend := (frames.filter inRow ++ s.zeroPend).eraseDups }

/-- The code that refuses EN := 1 (R367). -/
def State.enableRefused (s : State) (ctx : Nat) (value : Dword) : Option Nat :=
  let c := s.ctx ctx
  let part := df value 57 53
  if (s.partition part).1 != part then some 1
  else if (s.tenants part).any fun (_, x) => Nat.xor (fld x.mode.toNat 7 6 * 2 + fld x.mode.toNat 3 3) (fld c.mode.toNat 7 6 * 2 + fld c.mode.toNat 3 3) != 0 then some 2
  else if fld c.save.toNat 23 0 = 0 then some 5
  else none

def ctlMask : Dword := 0x83E00000000FFFFF

/-- The curtain is up, the ring and the context's bookkeeping are empty. -/
def Ctx.opened (c : Ctx) (ctl : Dword) : Ctx :=
  { c with ctl := ctl, frp := 0, cur := c.cur &&& 0x00000000FFFF0000, needs := [], lowAt := none, skid := none, treated := [], work := [], saved := []
           swOut := false, swIn := false, stat := setD (setD c.stat 9 9 0) 10 10 0 }

/-- EN := 1 on a disabled context. -/
def State.enable (s : State) (ctx : Nat) (value : Dword) : State :=
  let c := s.ctx ctx
  match s.enableRefused ctx value with
  | some e => s.setCtx ctx (c.setErr e)
  | none =>
    let part := df value 57 53
    let first := (s.tenants part).isEmpty
    let s := s.setCtx ctx (c.opened (value &&& ctlMask))
    let ecc := bit c.mode.toNat 3
    let split := fld c.mode.toNat 7 6
    let s := if !first then s else (s.partRows part).foldl (fun s r =>
      if (s.row r).ecc = ecc && (s.row r).split = split then s
      else (s.pendRow r).modRow r fun v => { v with ecc := ecc, split := split }) s
    s.reclock part

/-! Ending (R369). -/

/-- Drop the work of a context that has ended. -/
def State.dropContext (s : State) (ctx : Nat) : State :=
  let mine (k : Nat) : Bool := match find s.threads k with | some t => t.ctx = ctx | none => false
  let moving := s.ops.filterMap fun (_, o) => match o.work with
    | .packet p => if o.ctx = ctx && p.op = moveOn then some ((s.movesOf o p).map fun x => (x.src, x.bytes)) else none
    | _ => none
  let box (m : Msg) : Bool := m.ctx = ctx
  let s := ((s.leavePages mine).dropBegins ctx).dropFar fun w => w.ctx = ctx
  let owed (c : Cluster) : Nat := (c.outbox.filter fun m => box m && (match m.cargo with | .spawn _ _ _ _ => true | _ => false)).length
  let s := { s with
    slots := mapVals (fun _ sl => if sl.lanes.any fun o => match o with | some k => mine k | none => false
                                  then { Slot.init with busy := sl.busy, issued := sl.issued } else sl) s.slots
    ops := keep (fun _ o => o.ctx != ctx) s.ops
    engines := mapVals (fun _ (e : Engine) => { e with cmds := e.cmds.filter fun (c : CopyCmd) => c.ctx != ctx }) s.engines
    clusters := mapVals (fun _ c => { c with
      arrivals := c.arrivals.filter fun a => a.ctx != ctx
      credits := c.credits + owed c
      outbox := c.outbox.filter fun m => !box m
      merges := keep (fun _ m => m.ctx != ctx) c.merges
      fwds := c.fwds.filter fun f => f.ctx != ctx
      mirrors := c.mirrors.filter fun f => f.ctx != ctx
      frozen := c.frozen.filter fun f => !(moving.any fun l => l.contains f)
      mons := c.mons.filter fun m => m.ctx != ctx }) s.clusters
    rows := mapVals (fun _ r => { r with walks := startWalks (r.walks.filter fun w => w.ctx != ctx), issued := drop r.issued ctx }) s.rows
    acts := keep (fun _ a => a.ctx != ctx) s.acts
    groups := keep (fun _ g => g.ctx != ctx) s.groups
    ensembles := keep (fun _ e => e.ctx != ctx) s.ensembles }
  { s with threads := keep (fun _ t => t.ctx != ctx) s.threads }

/-- EN := 0 on an enabled context: a Stop Marker follows its last Page Request (R398). -/
def State.disable (s : State) (ctx : Nat) (value : Dword) : State :=
  let part := (s.rowsOf ctx).headD 0
  let pasid := (s.ctx ctx).pasid
  let s := ((s.cancelActs ctx fun _ => true).endGuests ctx).dropContext ctx
  let s := s.dropUsers fun u => match u with
    | .slot k => (s.slotLanes k).isEmpty
    | .slice g => (s.group? g).isNone
    | .copy e c => (s.copyCmd? e c).isNone
    | .stream g _ => (s.group? g).isNone
    | .op k => (find s.ops k).isNone
  let s := s.modCtx ctx fun c => { c with
    ctl := setD (value &&& ctlMask) 63 63 0, saved := [], needs := [], lowAt := none, skid := none, treated := [], work := [], swOut := false, swIn := false
    stat := setD (setD c.stat 9 9 0) 10 10 0, inv := none, invOps := [], invs := setD c.invs 0 0 0, failNext := [] }
  ((s.send (.stopMarker pasid)).reclock part).startRepairs

/-- A write to CTXCTL. -/
def State.writeCtl (s : State) (ctx : Nat) (value : Dword) : State :=
  let c := s.ctx ctx
  let on := bit value.toNat 63
  if c.en then
    if df value 57 53 != c.part then s.setCtx ctx (c.setErr 4)
    else if on then s.setCtx ctx { c with ctl := value &&& ctlMask } else s.disable ctx value
  else if on then s.enable ctx value
  else s.setCtx ctx { c with ctl := value &&& ctlMask }

/-- CONTEXT_ENABLE: a write to CTXCTL with EN = 1. -/
def execContextEnable (ctx : Nat) (value : Dword) (s : State) : Res :=
  if 64 ≤ ctx ∨ !bit value.toNat 63 then .refused .notEnabled else .next (s.writeCtl ctx value)

/-- CONTEXT_END: a write to CTXCTL with EN = 0. -/
def execContextEnd (ctx : Nat) (value : Dword) (s : State) : Res :=
  if 64 ≤ ctx ∨ bit value.toNat 63 then .refused .notEnabled else .next (s.writeCtl ctx value)

/-! Switching (R380). -/

/-- What a context holds in the package that a switch-out saves: its ensembles, its roaming threads, its arrivals. -/
def State.residents (s : State) (ctx : Nat) : List Item :=
  ((s.ensembles.filter fun (_, e) => e.ctx = ctx).map fun (k, _) => Item.ensemble k)
    ++ (s.threads.filter fun (k, t) => !isLaneKey k && t.ctx = ctx && t.group.isNone).map fun (k, _) => Item.thread k

def State.residentBytes (s : State) (ctx : Nat) : Nat :=
  (s.residents ctx).foldl (fun n i =>
    n + (match i with
      | .thread _ => threadRecord
      | .ensemble k => match find s.ensembles k with | some e => s.ensembleRecord e | none => 0)) 0
    + (s.clusters.flatMap fun (_, c) => c.arrivals.filter fun a => a.ctx = ctx).length * threadRecord
    + ((s.acts.filter fun (_, a) => a.ctx = ctx).flatMap fun (_, a) => a.inbox.filter fun (c, _) =>
        s.threads.any (fun (k, t) => t.ctx = ctx && t.act = a.num && t.group.isNone && clusterOfKey k = c)
          || (s.cluster c).arrivals.any fun t => t.ctx = ctx && t.act = a.num).foldl (fun n (_, l) => n + pieceBytes (inboxBytes l)) 0

/-- The threads of a context in arrival buffers are saved as what they would have become, once every gate covers their clocks (R308). -/
def State.saveArrivals (s : State) (ctx : Nat) : State :=
  s.clusters.foldl (fun s (c, v) =>
    let gone (a : Travel) : Bool := a.ctx = ctx && (a.saved.isSome || (List.range 4).all fun d => s.covers d a.vc)
    let mine := v.arrivals.filter gone
    if mine.isEmpty then s else
    let s := s.modCluster c fun v => { v with arrivals := v.arrivals.filter fun a => !gone a }
    mine.foldl (fun s (a : Travel) =>
      let (n, s) := s.fresh
      let key := match a.saved with | some (k, _) => k | none => savedKey n
      let t := match a.saved with | some (_, t) => t | none => a.thread (s.travelBlocks a) s.now
      s.putRoaming c key t) s) s

/-- Save what can be saved now; the context is out when nothing of it stands anywhere. -/
def State.switchOutGo (s : State) (ctx : Nat) : State :=
  let s := (s.residents ctx).foldl State.evict (s.saveArrivals ctx)
  let waiting := s.clusters.any fun x => x.2.arrivals.any fun a => a.ctx = ctx
  if (s.residents ctx).isEmpty && !waiting then s.modCtx ctx fun c => { c with swOut := false, stat := setD (setD c.stat 9 9 1) 10 10 0 } else s

/-- A command in CTXCMD (R367, R376, R380). -/
def State.switchCmd (s : State) (ctx cmd : Nat) : State :=
  let c := s.ctx ctx
  if cmd = 0 then s
  else if cmd = 3 || c.busy || (cmd = 2 && !c.out) || (cmd = 1 && c.out) then s.setCtx ctx (c.setErr 6)
  else
    let s := s.setCtx ctx { c with stat := setD c.stat 10 10 1, swOut := cmd = 1, swIn := cmd = 2 }
    if cmd = 2 then s.switchedIn ctx
    else if s.areaFits ctx (s.residentBytes ctx) then s.switchOutGo ctx
    else (s.areaFull ctx).modCtx ctx fun c => { c with swOut := false, stat := setD c.stat 10 10 0 }

/-- SWITCH_OUT: the command. A switch-out goes on at the end of every step until all has been saved (`State.goSwitches`). -/
def execSwitchOut (ctx : Nat) (s : State) : Res := if 64 ≤ ctx then .refused .notEnabled else .next (s.switchCmd ctx 1)

/-- Switch-outs in progress save what can be saved by now. -/
def State.goSwitches (s : State) : State :=
  s.ctxs.foldl (fun s (x : Nat × Ctx) => if x.2.swOut then s.switchOutGo x.1 else s) s

/-- SWITCH_IN: the command; PLACEMENT and ARRIVAL_ADMISSION bring the saved items back. -/
def execSwitchIn (ctx : Nat) (s : State) : Res := if 64 ≤ ctx then .refused .notEnabled else .next (s.switchCmd ctx 2)

/-! Owners of frames (R382, R389). -/

/-- An access translated for a frame has not been performed: an operation at it, or a thread on its way to a load there (R207, R389). -/
def State.frameBusy (s : State) (f : Nat) : Bool :=
  let at' (pa n : Nat) : Bool := meets (f * 2 ^ 16) (2 ^ 16) pa n
  s.ops.any (fun (_, o) => o.stage != .performed && (match o.place with | .home _ => true | _ => false)
      && (match o.work with | .packet p => at' o.pa p.bytes || at' p.next p.bytes | _ => at' o.pa o.span))
    || s.threads.any fun (_, t) => match t.waitOn with | .depart l => !l.migr && l.pkg.isNone && at' l.pa 1 | _ => false

/-- FRAMEOWN_WRITE: a change takes effect once every access translated for the frame has been performed. -/
def execFrameownWrite (value : Dword) (s : State) : Res :=
  let f := df value 39 16
  let owner := df value 6 0
  if 768 * 2 ^ 14 ≤ f ∨ 0x40 < owner ∨ get s.owners f 0x40 = owner then .next s
  else if s.frameBusy f then .refused .notEnabled
  else
    let off (l : Line) : Bool := l.pa / 2 ^ 16 != f
    let s := { s with
      owners := if owner = 0x40 then drop s.owners f else put s.owners f owner
      zeroPend := if s.zeroPend.contains f then s.zeroPend else f :: s.zeroPend
      rows := mapVals (fun _ r => { r with tlb := r.tlb.filter fun e => e.host || e.pa / 2 ^ 16 != f, slices := r.slices.filter fun (_, l) => off l }) s.rows
      clusters := mapVals (fun _ c => { c with lines := c.lines.filter off }) s.clusters }
    .next ((List.range 64).foldl State.forgetWalks s)

end Sys2Proof.Machine
end

