-- ==== Sys2Proof/Machine/HostPort.lean ====
section
/-! DEFINITION. The host port (spec/18 R396 to R399): answers to translation and page requests, invalidations, accesses through BAR2. -/

namespace Sys2Proof.Machine

def State.atsReq? (s : State) (id : Nat) : Option AtsReq := s.port.ats.find? fun r => r.id = id

def State.dropAts (s : State) (id : Nat) : State := { s with port := { s.port with ats := s.port.ats.filter fun r => r.id != id } }

/-- A failure of a translation request: every access merged onto it receives the code (R391). -/
def State.atsFails (s : State) (r : AtsReq) (code : Byte) : State :=
  r.users.foldl (fun s u => s.tellUser u (hostKey (r.page * 4096) r.write) (.fault code)) (s.dropAts r.id)

/-- The contexts of a PASID. -/
def State.ofPasid (s : State) (pasid : Nat) : List Nat := (s.ctxs.filter fun (_, c) => c.en && c.pasid = pasid).map fun (k, _) => k

/-- A completion without the permission: code 0x02, or 0x14 once after a page request that failed (R398). -/
def State.atsRefused (s : State) (r : AtsReq) : State :=
  let mine := s.ofPasid r.pasid
  if mine.any fun c => (s.ctx c).failNext.contains r.page then
    let s := mine.foldl (fun s c => s.modCtx c fun v => { v with failNext := v.failNext.filter fun p => p != r.page }) s
    s.atsFails r 0x14
  else s.atsFails r 0x02

/-- The range that a completion states. -/
def AtsReq.span (r : AtsReq) (answer : AtsAnswer) : Nat × Nat :=
  match answer with
  | .granted _ _ _ log _ => let size := 2 ^ (max 12 (min log 30)); (r.page * 4096 / size * size, size)
  | .unsupported | .abort => (r.page * 4096, 4096)

/-- An Invalidate Request that came after the request was sent covers a part of the range (R397). -/
def AtsReq.covered (r : AtsReq) (span : Nat × Nat) : Bool := r.stale.any fun x => meets x.1 x.2 span.1 span.2

/-- ATS_COMPLETION (R397): one whose range has been invalidated is discarded, and the request is sent again. -/
def execAtsCompletion (request : Nat) (answer : AtsAnswer) (s : State) : Res :=
  match s.atsReq? request with
  | none => .refused .notEnabled
  | some r =>
    if r.covered (r.span answer) then
      .next ({ s with port := { s.port with ats := s.port.ats.map fun (x : AtsReq) => if x.id = r.id then { x with stale := [], sentAt := s.now } else x } }.send
        (.atsRequest r.id r.pasid r.page (!r.write)))
    else
      match answer with
      | .unsupported => .next (s.atsFails r 0x14)
      | .abort => .next (s.atsFails r 0x14)
      | .granted rd wr page log u =>
        if !rd || (r.write && !wr) then .next (s.atsRefused r) else
        let size := 2 ^ (max 12 (min log 30))
        let base := r.page * 4096 / size * size
        let s := s.dropAts r.id
        .next (r.users.foldl (fun s x =>
          match s.userAt x with
          | some (ctx, cluster) =>
            (s.fillTlb cluster ⟨ctx, base, true, if u then base else page * 4096 / size * size, 3, wr, u, size, none⟩).tellUser x
              (hostKey (r.page * 4096) r.write) (.ok 0 3 size true)
          | none => s) s)

/-- ATS_TIMEOUT (R397): no completion within 50 ms. -/
def execAtsTimeout (request : Nat) (s : State) : Res :=
  match s.atsReq? request with
  | none => .refused .notEnabled
  | some r => if s.now < r.sentAt + 50000 * ticksPerUs then .refused .notEnabled else .next (s.atsFails r 0x14)

/-- ATS_INVALIDATE_REQUEST (R399): a range of pages of a PASID, or of every PASID; entries of contexts that are not enabled go with the others. An atomic that has been translated and waits for its turn
(R218) counts as one that was sent. -/
def execAtsInvalidateRequest (tag pasid page pages : Nat) (all : Bool) (s : State) : Res :=
  if 32 ≤ s.port.invs.length || s.port.invs.any fun x => x.1 = tag then .refused .notEnabled else
  let hit (c : Nat) : Bool := all || (s.ctx c).pasid = pasid
  let ctxs := (s.ctxs.filter fun (k, c) => c.en && hit k).map fun (k, _) => k
  let meets' (a n : Nat) : Bool := meets (page * 4096) (pages * 4096) a n
  let s := { s with rows := mapVals (fun _ r => { r with tlb := r.tlb.filter fun e => !(e.host && hit e.ctx && meets' e.base e.bytes) }) s.rows }
  if ctxs.isEmpty then .next (s.send (.invalidateDone tag)) else
  let ops := (s.ops.filter fun (_, o) => ctxs.contains o.ctx && o.place = .host && (o.stage = .sent || o.stage = .route) && meets' o.va o.span
    && (match o.work with | .store _ _ => false | _ => true)).map fun (k, _) => k
  let s := { s with
    port := { s.port with
      ats := s.port.ats.map fun (r : AtsReq) => if all || r.pasid = pasid then { r with stale := r.stale ++ [(page * 4096, pages * 4096)] } else r
      invs := s.port.invs ++ [(tag, ops)] } }
  .next (ctxs.foldl State.forgetWalks s)

/-- INVALIDATE_COMPLETION (R399): reads have delivered and atomics completed; posted writes went ahead. -/
def execInvalidateCompletion (tag : Nat) (s : State) : Res :=
  match s.port.invs.find? fun x => x.1 = tag with
  | none => .refused .notEnabled
  | some (_, ops) =>
    let open' (k : Nat) : Bool := match find s.ops k with
      | some o => o.isRead || o.dst != .none || o.stage != .performed
      | none => false
    if ops.any open' then .refused .notEnabled
    else .next ({ s with port := { s.port with invs := s.port.invs.filter fun x => x.1 != tag } }.send (.invalidateDone tag))

/-- Page requests that waited for the host's allocation are sent as it allows. -/
def State.sendPages (s : State) : State :=
  s.port.pages.foldl (fun s r =>
    if r.sent ∨ s.port.alloc ≤ (s.port.pages.filter fun x => x.sent).length then s
    else { s with port := { s.port with pages := s.port.pages.map fun (x : PageReq) => if x.id = r.id then { x with sent := true } else x } }.send
      (.pageRequest r.id r.pasid r.page r.write)) s

/-- PRG_RESPONSE (R398): the threads that waited for the page replay. -/
def execPrgResponse (request : Nat) (code : PrgCode) (s : State) : Res :=
  match s.port.pages.find? fun r => r.id = request && r.sent with
  | none => .refused .notEnabled
  | some r =>
    let s := { s with port := { s.port with pages := s.port.pages.filter fun x => x.id != request } }
    let s := if code = .success then s else ((s.ofPasid r.pasid).filter fun c => !(s.ctx c).low).foldl (fun s c =>
      s.modCtx c fun v => { v with failNext := r.page :: v.failNext }) s
    let go (t : Thread) : Bool := match t.waitOn with | .host _ _ => !(s.ctx t.ctx).low | _ => false
    .next (r.threads.foldl (fun s k => s.modThread k fun t => if go t then t.run s.now else t) s).sendPages

/-! BAR2 (R396). -/

/-- Bytes of device memory under the fill of R383; what has moved is found where it stands now (R226). The check-symbol range of a home in
strong ECC is read, and written below, as any other (log entry 111). -/
def State.barRead (s : State) (addr : Nat) : Nat → State × List Byte
  | 0 => (s, [])
  | n + 1 =>
    let pa := s.placed? addr
    let s := s.reach pa
    let (s', l) := s.barRead (addr + 1) n
    (s', readByte s.mem pa :: l)

/-- A byte of a range that is moving now. -/
def State.moving (s : State) (addr n : Nat) : Bool :=
  (List.range n).any fun i => match s.movedAt ((addr + i) / 2 ^ 30) (addr + i) 1 with | some .frozen => true | _ => false

def execBar2Read (address bytes : Nat) (s : State) : Res :=
  if 2 ^ 40 < address + bytes then .refused .notEnabled
  else if 768 * 2 ^ 30 < address + bytes then .next (s.send (.hostData address (List.replicate bytes 0xFF)))
  else if s.moving address bytes then .refused .notEnabled
  else
    let (s', l) := s.barRead address bytes
    .next (s'.send (.hostData address l))

/-- A write, where its bytes stand now, in runs that stand as one; a sector written whole loses its mark (R84). -/
def State.barWrite (s : State) (addr : Nat) (data : List Byte) : State :=
  (s.runsAt addr data).foldl (fun s (a, l) => s.storeBytes a l) s

/-- A posted write; at most 512 bytes go in one. -/
def execBar2Write (address : Nat) (data : List Byte) (s : State) : Res :=
  if 2 ^ 40 < address + data.length ∨ 512 < data.length ∨ data.isEmpty then .refused .notEnabled
  else if 768 * 2 ^ 30 < address + data.length then .next s
  else if s.moving address data.length then .refused .notEnabled
  else .next (s.barWrite address data)

end Sys2Proof.Machine
end

