-- ==== Sys2Proof/Machine/Edges.lean ====
section
/-! DEFINITION. Edge port groups (spec/19 R404 to R420): switches of personality, fences, loss of light, links and routes that return or do
not, the pod, and the requests that arrive from other packages. -/

namespace Sys2Proof.Machine

/-! Fences (R415, R416). -/

/-- The requests that have left over a group and are not answered. -/
def State.overGroup (s : State) (n : Nat) : List (Nat × Op) :=
  s.ops.filter fun (_, o) => (match o.stage with
      | .sent => true | .held => true | .refused _ => true | .frozen _ => true
      | .route | .ats | .txn | .performed => false)
    && (match o.place with | .cxl g => g = n | .peer _ => o.eg = some n | .fabric _ => o.eg = some n | _ => false)

/-- An operation whose location holds its new value although its reply is lost. -/
def State.landed (s : State) (k : Nat) (o : Op) : State :=
  match o.place, o.kind with
  | .cxl _, some .write => s.writeAt k o
  | .cxl _, some .atomic => s.atomAt k .clean
  | _, _ => s

/-- The packets of open transactions that have left over a group and whose target has not answered (R418). -/
def State.asksOver (s : State) (n : Nat) : List (Nat × Op) := s.ops.filter fun (_, o) => o.asks && o.eg = some n

/-- The threads whose FCOMMIT has left over a group and waits for its reply. -/
def State.commitsOver (s : State) (n : Nat) : List Nat :=
  (s.threads.filter fun (_, t) => match t.waitOn, t.txn with | .commit _ _, some x => x.eg = some n | _, _ => false).map fun (k, _) => k

/-- The migrations and spawns that have left over a group and are not answered. -/
def State.messagesOver (s : State) (n : Nat) : List (Nat × Msg) :=
  s.clusters.flatMap fun (x : Nat × Cluster) => (x.2.outbox.filter fun m => !m.acked && m.over = some n && (match m.cargo with
    | .travel _ key _ _ => (match (s.thread? key).map Thread.waitOn with | some (.depart l) => l.answer.isNone | _ => false)
    | _ => true)).map fun m => (x.1, m)

/-- Nothing that has left over a group waits for an answer (R414). -/
def State.drained (s : State) (n : Nat) : Bool :=
  (s.overGroup n).isEmpty && (s.asksOver n).isEmpty && (s.commitsOver n).isEmpty && (s.messagesOver n).isEmpty

/-- End one request at a fence: `read` is the code of a read, `applied` the operations whose new value stands. -/
def State.fenceOp (s : State) (n read : Nat) (applied : List Nat) (k : Nat) (o : Op) : State :=
  let reads := match o.work with | .load _ _ _ => true | .ragged _ _ _ _ _ _ _ => true | .watch => true | _ => false
  let s := if reads then s else s.wfail n
  let s := if applied.contains k then s.landed k o else s
  if (find s.ops k).isNone then s
  else if o.watches then s.watchReply k o (.tok (token read o.origin))
  else
    let s := s.endSent k o read 0x13
    match o.work with
    | .packet _ => if o.returns then s else s.msx o.ctx msxOFAIL
    | _ => s

/-- A packet of an open transaction whose target's answer can not come any more: FCOMMIT finds its token (R102, R195). DEDUCED (log entry 137). -/
def State.packetLost (s : State) (k : Nat) (o : Op) (code : Nat) : State :=
  match o.work with
  | .packet p => s.setOp k { o with work := .packet { p with tok := some (p.tok.getD (token code o.origin)) }, done := 1 }
  | _ => s

/-- An FCOMMIT whose reply can not come any more receives a token and raises it (R419). -/
def State.commitLost (s : State) (key code : Nat) : State :=
  match s.thread? key with
  | none => s
  | some t =>
    match t.waitOn with
    | .commit _ pc => if (s.ctx t.ctx).low then s else s.raise t.ctx pc [⟨0, key, token code (originOf pc), 8⟩]
    | _ => s

/-- The migrations that have left over the groups that p names are refused; `lost` where their link has failed or their package has left the pod,
and not at the fence of a switch (R272, R415). -/
def State.loseTravels (s : State) (lost : Bool) (p : Option Nat → Option Nat → Bool) : State :=
  let gone : List (Nat × Msg × Nat) := s.clusters.flatMap fun (x : Nat × Cluster) => x.2.outbox.filterMap fun m =>
    match m.cargo with | .travel _ key pkg eg => if p pkg eg then some (x.1, m, key) else none | _ => none
  gone.foldl (fun s (c, m, key) =>
    match (s.thread? key).map Thread.waitOn with
    | some (.depart l) => (s.dropMsg c m.id).answerLeave key l false lost
    | _ => s) s

/-- The fence: what is in flight ends, and the group's window is withdrawn. Migrations and spawns are refused (R272, R276). -/
def State.fence (s : State) (n cxlRead : Nat) (applied : List Nat) (lost : Bool) : State :=
  let spawns := (s.messagesOver n).filter fun x => x.2.spawns
  let s := (s.overGroup n).foldl (fun s (k, o) => s.fenceOp n (match o.place with | .cxl _ => cxlRead | _ => 0x03) applied k o) s
  let s := (s.asksOver n).foldl (fun s (k, o) => (s.wfail n).packetLost k o 0x13) s
  let s := (s.commitsOver n).foldl (fun s key => s.commitLost key 0x13) s
  spawns.foldl (fun s (c, m) => s.backOff c m.id) (s.loseTravels lost fun _ eg => eg = some n)

/-! Routes that a group serves (R411, R412). -/

/-- The group's bit leaves every PODRT; a package that no group reaches is unreachable from now on. -/
def State.clearRoutes (s : State) (n : Nat) : State :=
  s.pkg.podrt.foldl (fun s (q, m) =>
    if !bit m n then s else
    let m' := setFld m n n 0
    { s with pkg := { s.pkg with
      podrt := if m' = 0 then drop s.pkg.podrt q else put s.pkg.podrt q m'
      unreach := if m' = 0 then put s.pkg.unreach q s.now else s.pkg.unreach } }) s

/-- A peer is reached. -/
def State.addRoute (s : State) (n q : Nat) : State :=
  { s with pkg := { s.pkg with
    podrt := put s.pkg.podrt q (setFld (get s.pkg.podrt q 0) n n 1)
    gone := s.pkg.gone.filter fun x => x != q
    unreach := drop s.pkg.unreach q } }

/-- A waiting message of a package that has left the pod ends. -/
def State.endRouted (s : State) (k : Nat) (o : Op) : State :=
  match o.work with
  | .watch => s.watchReply k o (.tok (token 0x15 o.origin))
  | _ =>
    let s' := s.endSent k o 0x15 0x15
    if o.returns then s' else s'.writeFailed o 0x15

/-- A package or an endpoint has left: what waits for a way to it, or for its answer, ends (R412, R413, R419), and so do the acts that have spawned
there (R278). -/
def State.leaveTarget (s : State) (g : Target) : State :=
  match g, g.place with
  | _, none => s
  | g, some p =>
    let bound (m : Msg) : Bool := !m.acked && (match m.cargo, g with
      | .spawn _ x fab _, .peer q => x = some q && !fab
      | .spawn _ x fab _, .fabric e => x = some e && fab
      | _, _ => false)
    let s := (s.ops.filter fun (_, o) => o.stage = .route && o.place = p).foldl (fun s (k, o) => s.endRouted k o) s
    let s := (s.ops.filter fun (_, o) => o.asks && o.place = p).foldl (fun s (k, o) => s.packetLost k o 0x15) s
    let waiting := (s.threads.filter fun (_, t) => match t.waitOn, t.txn with | .commit _ _, some x => x.target = some g | _, _ => false).map fun (k, _) => k
    let s := waiting.foldl (fun s key => s.commitLost key 0x15) s
    let lost : List (Nat × Msg) := s.clusters.flatMap fun (x : Nat × Cluster) => (x.2.outbox.filter bound).map fun m => (x.1, m)
    let s := lost.foldl (fun s (c, m) => s.spawnFails c m 0x15) s
    let key := match g with | .fabric e => remoteKey true e | .peer q => remoteKey false q | .self => 2 ^ 16
    let owing : List Nat := (s.acts.filter fun (_, a) => (find a.remote key).isSome).map fun (_, a) => a.ctx
    owing.eraseDups.foldl (fun s c => s.guestFailed c) s

/-- A package leaves the pod (R278, R412). -/
def State.leavePod (s : State) (q : Nat) : State :=
  let s := { s with pkg := { s.pkg with gone := if s.pkg.gone.contains q then s.pkg.gone else q :: s.pkg.gone } }
  let refused (t : Thread) : Thread :=
    match t.waitOn with
    | .depart l => if l.pkg = some q && t.wait = 0x17 then t.enter s.now .departed 0 (.depart { l with answer := some false }) else t
    | .arrival l _ => if l.pkg = some q then t.enter s.now .departed 0 (.depart { l with answer := some false }) else t
    | _ => t
  ({ s with threads := mapVals (fun _ t => if (s.ctx t.ctx).low then t else refused t) s.threads }.loseTravels true fun pkg _ => pkg = some q).leaveTarget
    (.peer q)

/-- PEER_LEFT_POD: unreachable for 10 ms without a break. -/
def execPeerLeftPod (package : Nat) (s : State) : Res :=
  if 256 ≤ package ∨ package = s.ownPkg ∨ get s.pkg.podrt package 0 != 0
      ∨ s.now < get s.pkg.unreach package 0 + 10000 * ticksPerUs then .refused .notEnabled
  else .next (s.leavePod package)

/-! Switches (R405, R406, R414). -/

/-- The end of a switch: a personality is in force and held messages are routed. -/
def State.inForce (s : State) (n pers : Nat) : State :=
  (s.modEg n fun g => { g with pers := pers, step := 0, quiet := false }).routeHeld

/-- The bound of a step that ends by itself: 10 µs, 20 µs, 100 µs and 10 µs for steps 1, 3, 6 and 7 (R414). -/
def switchBound (step : Nat) : Nat := (if step = 3 then 20 else if step = 6 then 100 else 10) * ticksPerUs

/-- How long such a step takes, within its bound (log entry 132). -/
def switchTicks (n step now : Nat) : Nat := 1 + Config.duration (16 + step) (16 * now + n) % (switchBound step - 1)

/-- A step that ends by itself begins. -/
def State.enterStep (s : State) (n step since : Nat) : State :=
  s.modEg n fun g => { g with step := step, stepSince := since, ends := since + switchTicks n step since }

/-- A step that ends by itself is over, and the next begins: after quiesce the drain, after the fence training, or step 7 where the group is to be
idle, after install resume, and after that the switch is over (R414). -/
def State.stepEdge (s : State) (n : Nat) : State :=
  let g := s.eg n
  if s.now < g.ends then s else
  match g.step with
  | 1 => s.modEg n fun g => { g with step := 2, stepSince := g.ends }
  | 3 => if g.goal = 0 then s.enterStep n 7 g.ends else s.modEg n fun g => { g with step := 4, stepSince := g.ends }
  | 6 => s.enterStep n 7 g.ends
  | 7 => s.inForce n g.goal
  | _ => s

/-- The steps of switches that are over by now. -/
def State.stepEdges (s : State) : State :=
  if s.egs.all fun (_, g) => g.step = 0 then s else
  (List.range 2).foldl (fun s _ => s.egs.foldl (fun s (n, _) => s.stepEdge n) s) s

/-- A failure of steps 4 to 6 leaves the group idle at step 7 (R405). -/
def State.switchFails (s : State) (n code : Nat) : State :=
  (s.modEg n fun g => { g with err := BitVec.ofNat 8 code, goal := 0 }).enterStep n 7 s.now

/-- Step 3: the window is gone. -/
def State.fenceStep (s : State) (n : Nat) : State := (s.modEg n fun g => { g with installed := [] }).enterStep n 3 s.now

/-- GO: step 1; no new request enters, and the partner is told. From idle, and from a group that has failed, steps 1 to 3 are over at once (R414,
R416). The personality of the switch is NEWPERS as it stands now. DEDUCED (log entry 49). -/
def State.startSwitch (s : State) (n : Nat) : State :=
  let idle := (s.eg n).pers = 0 || (s.eg n).pers = 7
  let s := (s.modEg n fun g => { g with goal := g.newpers }).clearRoutes n
  if !idle then (s.enterStep n 1 s.now).send (.quiesce n)
  else
    let s := s.modEg n fun g => { g with installed := [], step := 4, stepSince := s.now }
    if (s.eg n).goal = 0 then s.enterStep n 7 s.now else s

/-- A write to EGCTL. A value that is refused sets ERR 0x01 also where STEP is not 0, and GO starts nothing then. DEDUCED (log entry 136). -/
def State.writeEgctl (s : State) (n : Nat) (value : Dword) : State :=
  let want := df value 2 0
  let g := s.eg n
  if 4 ≤ want then s.setEg n { g with err := 1 }
  else if bit value.toNat 7 then
    (if g.step != 0 ∨ (2 ≤ want ∧ !bit s.pkg.podctl.toNat 24) then s.setEg n { g with err := 2 }
     else (s.setEg n { g with newpers := want }).startSwitch n)
  else s.setEg n { g with newpers := want }

/-- PERSONALITY_SWITCH: GO. -/
def execPersonalitySwitch (group : Nat) (value : Dword) (s : State) : Res :=
  if 16 ≤ group ∨ !bit value.toNat 7 then .refused .notEnabled else .next (s.writeEgctl group value)

/-- QUIESCE_NOTICE: no new request goes to the partner until the next switch resumes. -/
def execQuiesceNotice (group : Nat) (s : State) : Res :=
  if 16 ≤ group ∨ (s.eg group).step != 0 then .refused .notEnabled else .next (s.modEg group fun g => { g with quiet := true })

/-- SWITCH_DRAIN_END. -/
def execSwitchDrainEnd (group : Nat) (s : State) : Res :=
  if (s.eg group).step != 2 ∨ !s.drained group then .refused .notEnabled else .next (s.fenceStep group)

/-- SWITCH_DRAIN_BOUND: 1 ms with traffic outstanding. -/
def execSwitchDrainBound (group : Nat) (applied : List Nat) (s : State) : Res :=
  let g := s.eg group
  if g.step != 2 ∨ s.drained group ∨ s.now < g.stepSince + 1000 * ticksPerUs then .refused .notEnabled
  else .next (((s.modEg group fun g => { g with err := 6 }).fence group 0x13 applied false).fenceStep group)

/-- LOSS_OF_LIGHT: a group in service fails at once. Its ranges stay, so that new accesses find that it was lost. -/
def execLossOfLight (group : Nat) (applied : List Nat) (s : State) : Res :=
  let g := s.eg group
  if g.step != 0 ∨ g.pers = 0 ∨ 3 < g.pers then .refused .notEnabled
  else .next (((s.modEg group fun g => { g with los := true, was := g.pers, pers := 7 }).clearRoutes group).fence group 0x03 applied true)

/-- The FEC code that a context's mode asks for, by strength (R406): light, standard, strong. -/
def fecStrength (code : Nat) : Nat := match code with | 2 => 0 | 0 => 1 | _ => 2
def fecCode (strength : Nat) : Nat := match strength with | 0 => 2 | 1 => 0 | _ => 1

/-- The FEC for which a group trains: the strongest that its enabled contexts ask for. -/
def State.trainedFec (s : State) (n : Nat) : Nat :=
  match ((s.ctxs.filter fun (c, v) => v.en && s.mayUse c n).map fun (_, v) => fecStrength (fld v.mode.toNat 5 4)).max? with
  | some k => fecCode k
  | none => 0

/-- SWITCH_RETRAIN_DONE. No group leaves idle before the root has written EGPOL (R420). -/
def execSwitchRetrainDone (group : Nat) (trained : Bool) (s : State) : Res :=
  if (s.eg group).step != 4 ∨ !s.root.policy then .refused .notEnabled
  else if trained then .next (s.modEg group fun g => { g with fec := s.trainedFec group, step := 5, stepSince := s.now })
  else .next (s.switchFails group 4)

/-- The valid range registers of a group. -/
def EdgeGroup.valid (g : EdgeGroup) : List Dword := (g.ranges.map fun (_, v) => v).filter fun v => bit v.toNat 63

/-- R405, R408: no two ranges overlap, and each lies within its expander. -/
def rangesOk (l : List Dword) (expanders : List Nat) : Bool :=
  let base (v : Dword) : Nat := df v 47 32
  let size (v : Dword) : Nat := df v 31 16
  l.all (fun v => match expanders[df v 15 12]? with | some cap => decide (size v ≤ cap) | none => false)
    && l.zipIdx.all fun (v, i) => l.zipIdx.all fun (w, j) => i = j || decide (base v + size v ≤ base w ∨ base w + size w ≤ base v)

/-- SWITCH_EXCHANGE_DONE (R408, R411, R412): step 6 installs ranges or routes. `expanders` gives each expander's capacity in units of
256 MiB. -/
def execSwitchExchangeDone (group : Nat) (result : Exchange) (s : State) : Res :=
  let g := s.eg group
  if g.step != 5 then .refused .notEnabled else
  match result with
  | .mismatch => .next (s.switchFails group 3)
  | .badRanges => if g.goal = 1 then .next (s.switchFails group 5) else .refused .notEnabled
  | .ok peers pods expanders =>
    let s := if bit s.pkg.egpol.toNat group then s.modEg group fun g => { g with keys := g.keys + 1 } else s
    match g.goal with
    | 1 =>
      if rangesOk g.valid expanders then .next ((s.modEg group fun g => { g with installed := g.valid }).enterStep group 6 s.now)
      else .next (s.switchFails group 5)
    | 2 =>
      let reached := (peers.zip pods).filter fun x => x.1 < 256 && x.1 != s.ownPkg
      let other := reached.filter fun x => x.2 != fld s.pkg.podctl.toNat 23 8
      let s := other.foldl (fun s x => s.leavePod x.1) s
      if other.isEmpty then .next ((reached.foldl (fun s x => s.addRoute group x.1) s).enterStep group 6 s.now)
      else .next (s.switchFails group 3)
    | _ => .next (s.enterStep group 6 s.now)

/-- KEY_ROTATION (R420). -/
def execKeyRotation (group : Nat) (s : State) : Res :=
  if 16 ≤ group ∨ !bit s.pkg.egpol.toNat group ∨ (s.eg group).pers = 0 ∨ 3 < (s.eg group).pers then .refused .notEnabled
  else .next (s.modEg group fun g => { g with keys := g.keys + 1 })

/-! Recovery of code 0x03 (R417), links (R313, R439). -/

/-- LINK_RECOVERY_RESOLVED: the target is reachable, and the thread replays. -/
def execLinkRecoveryResolved (thread : Nat) (s : State) : Res :=
  match s.thread? thread with
  | none => .refused .notEnabled
  | some t =>
    match t.waitOn with
    | .link va _ _ _ _ =>
      if s.linkUp (clusterOfKey thread) t.ctx va && !(s.ctx t.ctx).low then .next (s.setThread thread (t.run s.now)) else .refused .notEnabled
    | _ => .refused .notEnabled

/-- LINK_RECOVERY_TIMEOUT: after 10 ms without a route to the target the raise is taken again as code 0x15, with a late record (R103). -/
def execLinkRecoveryTimeout (thread : Nat) (s : State) : Res :=
  match s.thread? thread with
  | none => .refused .notEnabled
  | some t =>
    match t.waitOn with
    | .link va since pc cons born =>
      if s.now < since + 10000 * ticksPerUs || s.linkUp (clusterOfKey thread) t.ctx va then .refused .notEnabled
      else .next (s.lateFailure t.ctx pc cons 0x15 (clusterOfKey born) (slotOfKey born))
    | _ => .refused .notEnabled

/-- LINK_FLIT_ERROR: a flit is sent again, which a corrected event records; beyond the retry budget the lane or wavelength is
repaired. Links are numbered as R444 numbers them, fibre f of the edge port groups as 2,080 + f; its spare wavelength, 8, carries no
traffic before a repair has brought it into service (R21). -/
def execLinkFlitError (link lane : Nat) (exhausted : Bool) (s : State) : Res :=
  let spare := decide (2080 ≤ link) && lane = 8
  if 2080 + 64 ≤ link ∨ 65536 ≤ lane ∨ (2080 ≤ link ∧ 8 < lane) ∨ (spare ∧ get s.pkg.used (5000 + (link - 2080)) 0 = 0) then
    .refused .notEnabled
  else
  let (kind, unit) := if link < 2080 then (5, link) else (6, link - 2080)
  if exhausted then .next ((s.reliability 6 0 unit kind 0x40 lane).askRepair kind unit lane)
  else .next (s.reliability 1 0 unit kind 0x40 lane)

/-- A group in service in Ultra Ethernet reaches the endpoint (R413). -/
def State.endpointServed (s : State) (e : Nat) : Bool :=
  let f := get s.pkg.fabep e 0
  bit f.toNat 63 && (List.range 16).any fun n => bit f.toNat n && (s.eg n).pers = 3 && (s.eg n).step = 0

/-- From when on an endpoint is unreachable stands beside the packages' times, under 256 + e; that of one which is not configured begins at reset. -/
def State.noteEndpoints (s : State) : State :=
  s.pkg.fabep.foldl (fun s (e, _) =>
    let at' := find s.pkg.unreach (256 + e)
    if s.endpointServed e then (if at'.isSome then { s with pkg := { s.pkg with unreach := drop s.pkg.unreach (256 + e) } } else s)
    else if at'.isNone then { s with pkg := { s.pkg with unreach := put s.pkg.unreach (256 + e) s.now } } else s) s

/-- An endpoint has been unreachable for 10 ms without a break (R412, R413). -/
def State.endpointGone (s : State) (e : Nat) : Bool :=
  decide (e < 256) && !s.endpointServed e && decide (get s.pkg.unreach (256 + e) 0 + 10000 * ticksPerUs ≤ s.now)

/-- The endpoints that an act has to do with: it has spawned there, or something of it waits for a way there or for an answer. -/
def State.endpointsOf (s : State) (a : Act) : List Nat :=
  let mine (ctx act : Nat) : Bool := ctx = a.ctx && act = a.num
  (a.remote.filterMap fun (k, _) => if 256 ≤ k then some (k - 256) else none)
    ++ (s.ops.filterMap fun (_, o) => match o.place with
      | .fabric e => if mine o.ctx o.act && (o.stage = .route || o.asks) then some e else none
      | _ => none)
    ++ (s.threads.filterMap fun (_, t) => match t.waitOn, t.txn.bind Txn.target with
      | .commit _ _, some (.fabric e) => if mine t.ctx t.act then some e else none
      | _, _ => none)
    ++ s.clusters.flatMap fun (_, c) => c.outbox.filterMap fun m => match m.cargo with
      | .spawn _ (some e) true _ => if mine m.ctx m.act && !m.acked then some e else none
      | _ => none

/-- FABRIC_UNREACHABLE_TIMEOUT (R278, R413): an endpoint that the act has to do with has been unreachable for 10 ms. Its
work there ends, and the act fails where threads of it are there. -/
def execFabricUnreachableTimeout (act : Nat) (s : State) : Res :=
  match find s.acts act with
  | none => .refused .notEnabled
  | some a =>
    let gone := ((s.endpointsOf a).filter s.endpointGone).eraseDups
    let s' := gone.foldl (fun s e => s.leaveTarget (.fabric e)) s
    if gone.isEmpty then .refused .notEnabled else .next (if a.remote.any fun x => decide (256 ≤ x.1) && s.endpointGone (x.1 - 256) then s'.guestFailed a.ctx else s')

/-! Requests from other packages (R278, R410, R418, R419). `src` is a package of the pod, or 256 + an endpoint. -/

/-- The context that serves a request: the lowest enabled one with PEN and the same JOB. -/
def State.serving (s : State) (job : BitVec 16) : Option Nat :=
  (s.ctxs.find? fun (_, c) => c.en && bit c.pod.toNat 16 && c.job = job).map fun (k, _) => k

/-- The code that refuses a request for n bytes at a device address. -/
def State.peerRefused (s : State) (ctx : Option Nat) (pa n : Nat) : Option Nat :=
  match ctx with
  | none => some 0x10
  | some c =>
    if (s.ctx c).low then some 0x15
    else if 768 * 2 ^ 30 < pa + n ∨ s.checkSymbol pa ∨ s.checkSymbol (pa + n - 1) then some 0x10
    else if get s.owners (pa / 2 ^ 16) 0x40 = c ∧ get s.owners ((pa + n - 1) / 2 ^ 16) 0x40 = c then none
    else some 0x10

/-- The atomic operations by number, in the order of R217 and R219 (log entry 5). -/
def atomOfNum (n : Nat) : AtomOp :=
  match n with
  | 0 => .add | 1 => .min | 2 => .max | 3 => .and | 4 => .or | 5 => .xor | 6 => .xchg | 7 => .cas | 8 => .fadd
  | 9 => .binc | 10 => .winc | 11 => .cdec | _ => .ladd

def reply64 (v : Nat) : List Tw := [.data (BitVec.ofNat 32 v), .data (BitVec.ofNat 32 (v / 2 ^ 32))]

/-- A packet of another package as an operation of the serving context at its home. -/
def peerPacket (ctx pa : Nat) (p : Packet) : Op :=
  { ctx := ctx, act := 0xFFFF, issuer := .gone 0 none, cluster := pa / 2 ^ 30, slot := 0, tid := 0, batch := 0, pc := 0, cls := 4
    work := .packet p, place := .home (pa / 2 ^ 30), va := pa, pa := pa, dst := .k 0, clock := Clock.zero, stamp := none, scope := 0
    order := 0, rel := none, stage := .sent, reply := [], flags := 0, seen := none, eg := none, sentAt := 0, retired := false }

/-- Where n bytes of a home range stand now, filled, or nothing while they are frozen, or their MSE is down or copies their frame: the request
waits (R226, R346, R444). -/
def State.peerAt (s : State) (pa n : Nat) : Option (State × Nat) :=
  let at' := s.standsAt pa n
  let words := (wordsIn pa n).map s.placed?
  if words.any (fun a => s.mseDown (a / 2 ^ 30) || s.copied a) || s.movedAt (at' / 2 ^ 30) at' n = some .frozen then none
  else some (words.foldl State.reach s, at')

/-- A packet's steps, to their end: what it gives; none where it meets a range that is frozen, or where the words that it would send to a peer find
no way. -/
def State.peerSteps (s : State) (o : Op) (p : Packet) : Nat → Option (State × PkOut)
  | 0 => none
  | n + 1 =>
    match (if p.op = moveOn ∨ p.op = getOn then some (s, o.pa) else (s.peerAt o.pa p.bytes).map fun x => (x.1, if p.op = 12 then o.pa else x.2)) with
    | none => none
    | some (s, pa) =>
      let o := { o with pa := pa, place := .home (pa / 2 ^ 30) }
      if !s.rowFree 0 o p || !s.putsFree (pa / 2 ^ 30) o p then none else
      match s.packetStep 0 (pa / 2 ^ 30) (s.seenBy o p) p [] true with
      | (s', .again o') => (match o'.work with | .packet p' => s'.peerSteps o' p' n | _ => none)
      | r => some r

/-- The reply of a packet (R224): values, flags, a code. -/
def PkOut.reply : PkOut → List Tw × BitVec 5 × Option Byte
  | .done v f => (reply64 v, f.extractLsb' 0 5, Option.none)
  | .fail => (reply64 (2 ^ 64 - 1), 0, Option.none)
  | .tok t => ([.tok t, .tok t], 0, Option.none)
  | .poison c => ([], 0, some (BitVec.ofNat 8 c))
  | .again _ => ([], 0, Option.none)

/-! Guest records (R278). -/

def State.guestOf (s : State) (ctx : Nat) (d : Sender) : Option Act :=
  (s.acts.find? fun (_, a) => a.ctx = ctx && (match a.guest with
    | some l => l.any fun x => x.fab = d.fab && x.pkg = d.pkg && x.ctx = d.ctx && x.act = d.act
    | none => false)).map fun (_, a) => a

/-- The record of a sender, created where none stands. -/
def State.guestFor (s : State) (ctx prio : Nat) (d : Sender) : Option Act :=
  match s.guestOf ctx d with
  | some a => some a
  | none => (s.freeAct ctx).map fun n =>
      { actOf ctx n 256 7 0 s.seq with roaming := true, state := 3, level := prio, k := List.replicate 16 Tw.zero, live := 0, untrig := 0, ctr := 0
                                       guest := some [d] }

/-- Admit a thread of another package as a guest (R272, R278). -/
def State.admitGuest (s : State) (ctx cluster prio : Nat) (d : Sender) (t : Travel) : Option State :=
  match s.guestFor ctx prio d with
  | none => none
  | some a =>
    let u := if t.trig then 0 else 1
    let a := { a with live := a.live + 1, untrig := a.untrig + u
                      guest := a.guest.map fun l => l.map fun x => { x with admitted := x.admitted + 1, untriggered := x.untriggered + u } }
    if 768 ≤ cluster then none else (s.setAct a).receive cluster { t with ctx := ctx, act := a.num, level := a.level }

/-! Transactions of other packages (R418, R419). -/

/-- The OPKs that this package holds: those of other packages, and its own threads' for itself. -/
def State.heldOwn (s : State) : List Txn :=
  s.threads.filterMap fun (_, t) => match t.txn with
    | some x => if x.target = some .self && !x.held.isEmpty then some x else none
    | none => none

def State.heldPackets (s : State) : Nat :=
  s.pkg.held.foldl (fun n h => n + h.packets.length) 0 + s.heldOwn.foldl (fun n x => n + x.held.length) 0

/-- A packet that the target refuses (R418): its A is no address of this package where it is a host leaf's or in no home range. -/
def State.refusesPacket (s : State) (ctx : Option Nat) (fresh : Bool) (p : Packet) : Bool :=
  let outside := match ctx with
    | none => false
    | some c => match s.walk 0 c p.a false with
      | .ok l => l.attr = 3 || (match s.region l.pa with | some (.home _) => false | _ => true)
      | .error _ => false
  (fresh && decide (2048 ≤ s.pkg.held.length + s.heldOwn.length)) || decide (32768 ≤ s.heldPackets)
    || p.op = 4 || p.op = 11 || p.op = 12 || ((p.op = 7 || p.op = 9 || p.op = 10) && outside)

def State.modHeld (s : State) (src txn : Nat) (f : HeldTxn → HeldTxn) : State :=
  { s with pkg := { s.pkg with held := s.pkg.held.map fun (h : HeldTxn) => if h.src = src && h.txn = txn then f h else h } }

/-- TXPACKET at this package: held, held with the token of a failed check, or refused. -/
def State.holdPacket (s : State) (src txn pa : Nat) (ctx : Option Nat) (p : Packet) : State :=
  let fresh := !(s.pkg.held.any fun (h : HeldTxn) => h.src = src && h.txn = txn)
  if s.refusesPacket ctx fresh p then s.send (.peerAnswer src .refused) else
  let p := match s.peerRefused ctx pa p.bytes with
    | some c => { p with tok := some (p.tok.getD (token c 0)) }
    | none => p
  let s := if fresh then { s with pkg := { s.pkg with held := s.pkg.held ++ [⟨src, txn, ctx, s.now, []⟩] } } else s
  (s.modHeld src txn fun h => { h with packets := h.packets ++ [(pa, p)] }).send (.peerAnswer src .admitted)

/-- The reply of a commit goes out, and stays until it is acknowledged (R419). -/
def State.replyCommit (s : State) (r : CommitReply) : State := { s with pkg := { s.pkg with commits := s.pkg.commits ++ [r] } }.send (.commitReply r)

/-- The commit of a transaction of another package: the first raise, else every packet in issue order, each with its own reply; none where a unit can
not be frozen now. A context whose curtain is low serves nothing (R430). -/
def State.commitHeld (s : State) (h : HeldTxn) : Option State :=
  let s := { s with pkg := { s.pkg with held := s.pkg.held.filter fun (x : HeldTxn) => !(x.src = h.src && x.txn = h.txn) } }
  let fails (code : Nat) : Option State := some (s.replyCommit ⟨h.src, h.txn, [], some (BitVec.ofNat 8 code)⟩)
  match h.packets.findSome? fun x => x.2.tok with
  | some t => fails (tokCode t)
  | none =>
    if h.ctx.any fun c => (s.ctx c).low then fails 0x15 else
    let run (x : Option (State × List (List Tw × BitVec 5 × Option Byte))) (y : Nat × Packet) : Option (State × List (List Tw × BitVec 5 × Option Byte)) :=
      x.bind fun (s, l) => (s.peerSteps (peerPacket (h.ctx.getD 0) y.1 y.2) y.2 65536).map fun (s', r) => (s', l ++ [r.reply])
    (h.packets.foldl run (some (s, []))).map fun (s, out) => s.replyCommit ⟨h.src, h.txn, out, none⟩

/-! PEER_REQUEST. -/

/-- An access to n bytes that a peer may make here now: the state with its bytes filled, and the bytes' own address; a refusal has its code. -/
def State.peerAccess (s : State) (ctx : Option Nat) (pa n : Nat) : Option (Except Nat State) :=
  match s.peerRefused ctx pa n with
  | some e => some (.error e)
  | none => (s.peerAt pa n).map fun x => .ok (x.1.countMse (.home (x.2 / 2 ^ 30)))

/-- One atomic of another package, with its reply (R217 to R219, R410); none while it has to wait. -/
def State.peerAtomic (s : State) (src : Nat) (ctx : Option Nat) (a : PeerAtomic) : Option State :=
  let op := atomOfNum a.op
  let n := atomBytes op a.type
  let span := if op = .ladd then 8 else n
  if a.pa % span != 0 ∨ n = 0 then none else
  (s.peerAccess ctx a.pa span).map fun r => match r with
    | .error e => s.send (.peerReply src [] 0 (some (BitVec.ofNat 8 e)))
    | .ok s =>
      match s.markNow a.pa span with
      | some m => s.send (.peerReply src [] 0 (some m))
      | none =>
        let (m, old, f) := atomVal op a.type (s.readNow a.pa n) (a.x.toNat % 2 ^ (8 * n)) (a.c.toNat % 2 ^ (8 * n)) (s.readNow (a.pa + 4) 4)
        (s.storeNow a.pa (toBytes n m)).send (.peerReply src (reply64 old) (f.extractLsb' 0 5) none)

def State.servePeer (s : State) (r : PeerReq) : Res :=
  let ctx := s.serving r.job
  let c := ctx.getD 0
  let fail (s : State) (code : Nat) : Res := .next (s.send (.peerReply r.src [] 0 (some (BitVec.ofNat 8 code))))
  let ok (s : State) (l : List Tw) (f : BitVec 5) : Res := .next (s.send (.peerReply r.src l f none))
  let sender (ctx act : Nat) : Sender := ⟨decide (256 ≤ r.src), r.src % 256, ctx, act, 0, 0⟩
  let answer (s : State) (a : Admission) : Res := .next (s.send (.peerAnswer r.src a))
  let atomics (l : List PeerAtomic) : Res :=
    match l.foldl (fun s a => s.bind fun s => s.peerAtomic r.src ctx a) (some s) with | some s' => .next s' | none => .refused .notEnabled
  match r.op with
  | .load pa n =>
    if pa % n != 0 ∨ 8 < n ∨ n = 0 then .refused .notEnabled else
    (match s.peerAccess ctx pa n with
    | none => .refused .notEnabled
    | some (.error e) => fail s e
    | some (.ok s) =>
      match s.markNow pa n with
      | some m => .next (s.send (.peerReply r.src [] 0 (some m)))
      | none => ok s (reply64 (s.readNow pa n)) 0)
  | .store pa n v =>
    if pa % n != 0 ∨ 8 < n ∨ n = 0 then .refused .notEnabled else
    (match s.peerAccess ctx pa n with
    | none => .refused .notEnabled
    | some (.error e) => fail s e
    | some (.ok s) => ok (s.storeNow pa (toBytes n v.toNat)) [] 0)
  | .atomic num type pa x v => atomics [⟨num, type, pa, x, v⟩]
  | .batch l => if l.isEmpty then .refused .notEnabled else atomics l
  | .wait id pa cond cmp =>
    if pa % 4 != 0 then .refused .notEnabled else
    (match s.peerRefused ctx pa 4 with
    | some e => fail s e
    | none => match s.peerAt pa 4 with
      | none => .refused .notEnabled
      | some (s', _) => .next (s'.registerFar ⟨.peer r.src id, c, pa, cond, cmp, false, 0, 0⟩))
  | .waitEnd id => .next (s.dropFar fun w => w.who = .peer r.src id)
  | .packet op sub len pa a cc b =>
    let p : Packet := { op := op, sub := sub, len := len, b := b, a := a.toNat, c := cc, tok := none }
    if pa % packetUnit op != 0 then .refused .notEnabled else
    (match s.peerRefused ctx pa p.bytes with
    | some e => fail s e
    | none =>
      match s.peerSteps (peerPacket c pa p) p 65536 with
      | none => .refused .notEnabled
      | some (s', out) =>
        let (l, f, code) := out.reply
        .next (s'.send (.peerReply r.src l f code)))
  | .spawn pc cluster tid args trig prio act from' =>
    (match ctx with
    | none => answer s (.failed 0x10)
    | some c =>
      if (s.ctx c).low then answer s (.failed 0x15) else
      let t : Travel :=
        { ctx := c, act := 0, gid := 0, tid := tid, pc := pc, regs := args.zipIdx.map fun ((g, v), i) => (i, Cell.ofTw ⟨g, v⟩)
          rest := .dead, preds := List.replicate 7 PCell.false, tsw := 0, vc := Clock.zero, fscope := 0, trig := trig, level := prio
          saved := none, since := s.now }
      match s.admitGuest c cluster prio (sender from' act) t with
      | some s' => answer s' .admitted
      | none => answer s .refused)
  | .migrate pc cluster act from' tid fscope regs dead preds tsw trig =>
    (match ctx with
    | none => answer s .refused
    | some c =>
      if (s.ctx c).low then answer s .refused else
      let cell (i : Nat) : Nat × Cell :=
        (i, if dead.getLsbD i then Cell.dead else match find regs i with | some (g, v) => Cell.ofTw ⟨g, v⟩ | none => Cell.ofTw Tw.zero)
      let t : Travel :=
        { ctx := c, act := 0, gid := 0, tid := tid, pc := pc, regs := (List.range 16).map cell, rest := .left
          preds := (preds ++ List.replicate 7 (false, false, 0)).take 7 |>.map fun (v, g, k) => ⟨v, g, k, false⟩
          tsw := tsw, vc := Clock.zero, fscope := fscope, trig := trig, level := 0, saved := none, since := s.now }
      match s.admitGuest c cluster 0 (sender from' act) t with
      | some s' => answer s' .admitted
      | none => answer s .refused)
  | .txPacket txn op sub len pa a cc b tok => .next (s.holdPacket r.src txn pa ctx { op := op, sub := sub, len := len, b := b, a := a.toNat, c := cc, tok := tok })
  | .txCommit txn =>
    (match s.pkg.held.find? fun (h : HeldTxn) => h.src = r.src && h.txn = txn with
    | none => .refused .notEnabled
    | some h => match s.commitHeld h with | some s' => .next s' | none => .refused .notEnabled)
  | .txAbort txn =>
    .next { s with pkg := { s.pkg with held := s.pkg.held.filter fun (x : HeldTxn) => !(x.src = r.src && x.txn = txn) } }
  | .txAck txn =>
    .next { s with pkg := { s.pkg with commits := s.pkg.commits.filter fun (x : CommitReply) => !(x.src = r.src && x.txn = txn) } }
  | .txAgain txn =>
    (match s.pkg.commits.find? fun (x : CommitReply) => x.src = r.src && x.txn = txn with
    | some x => .next (s.send (.commitReply x))
    | none => .refused .notEnabled)
  | .ack n => if (find s.pkg.notices n).isNone then .refused .notEnabled else .next { s with pkg := { s.pkg with notices := drop s.pkg.notices n } }
  | .again n => match find s.pkg.notices n with | some x => .next (s.send (.notice n x)) | none => .refused .notEnabled

/-- A request enters over a group that is in service in its sender's personality. From the quiesce notice on, and from step 1 to step 7 of a switch,
none does: it is refused at link level, and the sender routes it again (R415). -/
def State.linkOpen (s : State) (r : PeerReq) : Bool :=
  let g := s.eg r.eg
  decide (r.eg < 16) && g.step = 0 && !g.quiet && g.pers = (if r.src < 256 then 2 else 3)

/-- What this package itself does when its time for an acknowledgement is over: no message arrives. -/
def PeerOp.own (o : PeerOp) : Bool := match o with | .again _ | .txAgain _ => true | _ => false

/-- PEER_REQUEST. -/
def execPeerRequest (request : PeerReq) (s : State) : Res :=
  if 512 ≤ request.src ∨ (!PeerOp.own request.op && !s.linkOpen request) then .refused .notEnabled else s.servePeer request

end Sys2Proof.Machine
end

