-- ==== Sys2Proof/Machine/Stops.lean ====
section
/-! DEFINITION. Stopping a context (spec/20 R429 to R433), the watchdogs (R435 to R437), page needs and the debug path (R426, R438). -/

namespace Sys2Proof.Machine

/-! Discarding (R430, R431). -/

/-- Discard an operation; a register that waited for it takes Token(0x50), with the place of its instruction. -/
def State.discard (s : State) (k : Nat) (o : Op) : State :=
  let s := { s with ops := drop s.ops k }
  let v : Tw := .tok (token 0x50 o.origin)
  match o.threadKey, o.dst with
  | some key, .reg r wide => s.modThread key fun t =>
      let t := t.arrive r k v 0
      if wide then t.arrive (nextReg r 1) k v 0 else t
  | _, _ => s

def Op.pendingOf (o : Op) (ctx : Nat) : Bool := o.ctx = ctx && o.stage != .performed

/-- The operations of a context that p accepts and that are not performed. -/
def State.abandoned (s : State) (ctx : Nat) (p : Op → Bool) : List (Nat × Op) :=
  s.ops.filter fun (_, o) => o.pendingOf ctx && p o

def State.discardAll (s : State) (l : List (Nat × Op)) : State := l.foldl (fun s x => s.discard x.1 x.2) s

/-- An operation is applied where its words stand now; none where it can not be (R430). -/
def State.applyNow (s : State) (k : Nat) (o : Op) : Option State :=
  match o.place, o.kind with
  | .cxl _, some .write => some (s.writeAt k o)
  | .home _, some kind =>
    (s.peerAt o.pa o.span).bind fun (s, pa) =>
      let o := { o with pa := pa, place := .home (pa / 2 ^ 30) }
      match (s.setOp k o).applyKind k o kind .clean with | .next s' => some s' | _ => none
  | _, _ => none

/-- An operation that its engine performs when it treats a context: an access held at a gate that covers it, an element write that a copy engine has
sent, and what stands before such a one (R284, R430, R431). -/
def State.performsFirst (s : State) (l : List (Nat × Op)) (k : Nat) (o : Op) : Bool :=
  let must (x : Op) : Bool := s.passes x && (x.stage = .held || (match x.work with | .element _ _ _ => true | _ => false))
  must o || l.any fun (n, x) => decide (k < n) && x.issuer = o.issuer && x.meets o && must x

/-- Each operation is performed whole or discarded whole, in the order of issue: none after one of its issuer's that met it and was discarded (R431). What
has been discarded, beside the state. -/
def State.settleOps (s : State) (l : List (Nat × Op)) : State × List Op :=
  l.foldl (fun (x : State × List Op) (k, o) =>
    match find x.1.ops k with
    | none => x
    | some _ =>
      let blocked := x.2.any fun y => y.issuer = o.issuer && y.meets o
      match (if !blocked && s.performsFirst l k o then x.1.applyNow k o else none) with
      | some s' => (s', x.2)
      | none => (x.1.discard k o, x.2 ++ [o])) (s, [])

/-- The monitors of a context in a unit, memory's or scratchpad's, are released; how many there were. Waits of other packages there are answered with
the code of a failure (R430). -/
def State.releaseMonitors (s : State) (ctx cluster : Nat) (pads : Bool) : State × Nat :=
  let mine (m : Monitor) : Bool := m.ctx = ctx && (match m.word with | .mem _ => !pads | .pad _ _ => pads)
  let far (w : FarWait) : Bool := !pads && w.ctx = ctx && decide (w.pa / 2 ^ 30 = cluster)
  let n := ((s.cluster cluster).mons.filter mine).length
  let s := (s.pkg.waits.filter far).foldl (fun s w => match w.who with | .peer src _ => s.send (.peerReply src [] 0 (some 0x15)) | .act _ => s) s
  let s := { s with pkg := { s.pkg with waits := s.pkg.waits.filter fun w => !far w } }
  (s.modCluster cluster fun c => { c with mons := c.mons.filter fun m => !mine m }, n)

/-! Stop records (R432). -/

/-- What an engine reports: the counts, and the serial of the oldest operation that it abandoned. -/
structure Report where
  cntA : Nat
  cntB : Nat
  abandoned : Bool
  serial : Option Nat
deriving DecidableEq, Repr

/-- The record of an engine. A serial that the spec gives the engine no count for is free (log entry 4). -/
def State.stopRecord (s : State) (ctx kind unit : Nat) (r : Report) : State :=
  let base := df (s.ctx ctx).stop 63 24 * 65536
  if base = 0 then s else
  let (ws, s) : List Word × State := match r.abandoned, r.serial with | true, none => s.freeWords 2 | _, _ => ([], s)
  let fser := match r.abandoned, r.serial with
    | false, _ => 2 ^ 64 - 1
    | true, some n => n
    | true, none => (ws.getD 0 0).toNat * 2 ^ 32 + (ws.getD 1 0).toNat
  let v := s.nc % 2 ^ 64 * 2 ^ 448 + fser % 2 ^ 64 * 2 ^ 384 + r.cntA % 2 ^ 32 * 2 ^ 352 + r.cntB % 2 ^ 32 * 2 ^ 320
    + kind % 256 * 2 ^ 56 + unit % 65536 * 2 ^ 32 + b2n r.abandoned * 2 ^ 24 + ctx % 64
  let n := df (s.ctx ctx).cur 47 32
  match s.writeVirtual 0 ctx (base + 64 * n) (toBytes 64 v) with
  | (s', true) => s'.modCtx ctx fun c => { c with cur := setD c.cur 47 32 (n + 1) }
  | (_, false) => s

/-- An engine has finished: its record, where it held work or state of the context. -/
def State.engineDone (s : State) (ctx kind unit : Nat) (held : Bool) (r : Report) : State :=
  let s := if held then s.stopRecord ctx kind unit r else s
  s.modCtx ctx fun c => { c with treated := if c.treated.contains (kind, unit) then c.treated else c.treated ++ [(kind, unit)] }

/-- It held something at the lowering, or does so now. -/
def State.heldBy (s : State) (ctx kind unit : Nat) : Bool :=
  (s.ctx ctx).work.contains (kind, unit) || (s.holders ctx).contains (kind, unit)

def leastOf (l : List Nat) : Option Nat := l.min?

/-! The other engines. -/

/-- The open transactions of a context whose packets have left over a group. -/
def State.openTxns (s : State) (ctx : Nat) (n : Nat) : List Nat :=
  (s.threads.filter fun (_, t) => t.ctx = ctx && (s.txnGroups t).contains n).map fun (k, _) => k

/-- An open transaction is dropped; registers that waited for its packets take Token(0x50). -/
def State.abandonTxn (s : State) (key : Nat) : State :=
  match (s.thread? key).bind Thread.txn with
  | none => s
  | some x => (x.held.foldl (fun s k => match find s.ops k with | some o => s.discard k o | none => s) s).dropTxn key

/-- The elements of a command that are not read any more: scratchpad, queue and FIFO take Token(0x50, serial), a queue or FIFO as far
as it has room. -/
def State.abandonCopy (s : State) (e id : Nat) : Nat → State
  | 0 => s
  | n + 1 =>
    match s.copyCmd? e id with
    | none => s
    | some c =>
      if !c.left || !(c.kind = 1 || c.kind = 2 || c.kind = 3) then s else
      match s.deliverElement e c (.tok (token 0x50 c.serial)) with
      | .got s' _ => s'.abandonCopy e id n
      | _ => s

def State.treatCopy (s : State) (ctx e : Nat) : State :=
  let held := s.heldBy ctx 4 e
  let cmds := (s.engine e).cmds.filter fun c => c.ctx = ctx
  let left := cmds.foldl (fun n c => n + (c.total - c.index)) 0
  let s := cmds.foldl (fun s c => s.abandonCopy e c.id (c.total - c.index)) s
  let s := s.discardAll (s.abandoned ctx fun o => match o.work with | .count x _ => x = e | _ => false)
  let s := s.setEngine e { s.engine e with cmds := (s.engine e).cmds.filter fun c => c.ctx != ctx }
  s.engineDone ctx 4 e held ⟨cmds.length, left, !cmds.isEmpty, leastOf (cmds.map fun c => c.serial)⟩

/-! The gates: what their clocks do not cover is discarded, at all four of them before anything else of the context goes, so that no
held write passes because one before it was discarded (R296, R431); and copy engines stop with them, so that none comes after. -/

def State.treatGates (s : State) (ctx : Nat) : State :=
  if (s.ctx ctx).treated.contains (7, 0) then s else
  let copying := (s.engines.filter fun (e, v) => (v.cmds.any fun c => c.ctx = ctx) && !(s.ctx ctx).treated.contains (4, e)).map fun (e, _) => e
  let s := copying.foldl (fun s e => s.treatCopy ctx e) s
  let late := s.abandoned ctx fun o => (dieOfPlace o.place).isSome && o.stage != .txn && !s.passes o
  let count (d : Nat) : Nat := (late.filter fun x => dieOfPlace x.2.place = some d).length
  let held (d : Nat) : Bool := s.heldBy ctx 7 d
  let counts := (List.range 4).map fun d => (d, count d, held d)
  counts.foldl (fun s (d, n, h) => s.engineDone ctx 7 d (h || n != 0) ⟨n, 0, n != 0, none⟩) (s.discardAll late)

def State.treatMse (s : State) (ctx c : Nat) : State :=
  let s := s.treatGates ctx
  let held := s.heldBy ctx 5 c
  let serial := (s.cluster c).mseSer + 1
  let (s, lost) := s.settleOps (s.abandoned ctx fun o => o.place = .home c)
  let lost := (lost.filter fun o => match o.work with | .element _ _ _ => false | _ => true).length
  let (s, mons) := s.releaseMonitors ctx c false
  s.engineDone ctx 5 c held ⟨lost, mons, lost != 0, some serial⟩

def State.treatBanks (s : State) (ctx c : Nat) : State :=
  let held := s.heldBy ctx 6 c
  let l := s.abandoned ctx fun o => match o.place with | .pad g => g / 2048 = c | _ => false
  let (s, mons) := (s.discardAll l).releaseMonitors ctx c true
  s.engineDone ctx 6 c held ⟨l.length, mons, !l.isEmpty, none⟩

def State.treatHost (s : State) (ctx : Nat) : State :=
  let held := s.heldBy ctx 8 0
  let posted (o : Op) : Bool := match o.work with | .store _ _ => true | _ => false
  let l := s.abandoned ctx fun o => o.place = .host || o.place = .hostRaw
  let n := (l.filter fun x => !posted x.2).length + s.hostAsks ctx
  let s := s.discardAll l
  let s := s.leavePages fun k => (s.thread? k).any fun t => t.ctx = ctx
  s.engineDone ctx 8 0 held ⟨n, 0, n != 0, none⟩

def State.treatEdge (s : State) (ctx n : Nat) : State :=
  let held := s.heldBy ctx 9 n
  let l := s.abandoned ctx fun o => match o.place with | .cxl g => g = n | .peer _ => o.eg = some n | .fabric _ => o.eg = some n | _ => false
  let txns := s.openTxns ctx n
  let s := txns.foldl State.abandonTxn (s.settleOps l).1
  s.engineDone ctx 9 n (held || !txns.isEmpty) ⟨l.length, txns.length, !l.isEmpty || !txns.isEmpty, none⟩

/-- The engines that end a context's work at once; slots, access processors and matrix arrays finish at the deadline. -/
def State.treat (s : State) (ctx kind unit : Nat) : State :=
  match kind with
  | 4 => s.treatCopy ctx unit
  | 5 => s.treatMse ctx unit
  | 6 => s.treatBanks ctx unit
  | 7 => s.treatGates ctx
  | 8 => s.treatHost ctx
  | 9 => s.treatEdge ctx unit
  | _ => s.modCtx ctx fun c => { c with treated := c.treated ++ [(kind, unit)] }

def kindNum (k : EngineKind) : Nat :=
  match k with
  | .slots => 1 | .access => 2 | .matrix => 3 | .copy => 4 | .mse => 5 | .banks => 6 | .gate => 7 | .host => 8 | .edge => 9

def kindUnits (k : EngineKind) : Nat :=
  match k with
  | .slots => 768 | .access => 768 | .matrix => 768 | .copy => 128 | .mse => 768 | .banks => 768 | .gate => 4 | .host => 1 | .edge => 16

/-- A context whose curtain is Lowering. -/
def Ctx.lowering (c : Ctx) : Bool := c.low && !c.down && c.skid.isNone

/-- What an engine holds of a context that is stopping, it has held, whatever becomes of it before the signal (R432). -/
def State.noteHolders (s : State) : State :=
  let stopping := (s.ctxs.filter fun (_, c) => c.lowering).map fun (c, _) => c
  stopping.foldl (fun s c => s.modCtx c fun v => { v with work := (v.work ++ s.holders c).eraseDups }) s

/-- CURTAIN_SIGNAL: the signal reaches an engine. -/
def execCurtainSignal (ctx : Nat) (engine : EngineKind) (unit : Nat) (s : State) : Res :=
  let c := s.ctx ctx
  if !c.lowering || kindUnits engine ≤ unit || c.treated.contains (kindNum engine, unit) then .refused .notEnabled
  else .next (s.treat ctx (kindNum engine) unit)

/-! The deadline. -/

/-- A register or predicate that is still pending takes Token(0x50). -/
def Thread.skid (t : Thread) (s : State) : Thread :=
  let org (k : Nat) : Nat := match find s.ops k with | some o => o.origin | none => originOf t.pc
  let t := t.settle fun _ => true
  { t with
    regs := mapVals (fun _ c => if c.st = .pending then Cell.ofTw (.tok (token 0x50 (org c.owner))) else c) t.regs
    preds := t.preds.map fun p => if p.pending then ⟨p.val, true, token 0x50 (originOf t.pc), false⟩ else p }

/-- The registers to which Token(0x50) goes. -/
def Thread.skidCount (t : Thread) : Nat :=
  (t.regs.filter fun (_, c) => c.st = .pending && (!c.arrived || (c.tag && tokCode c.val = 0x50))).length + (t.preds.filter fun p => p.pending).length

/-- The issue slots of a cluster finish. -/
def State.finishSlots (s : State) (ctx c : Nat) : State :=
  let mine := s.threads.filter fun (k, t) => t.ctx = ctx && !isLaneKey k && clusterOfKey k = c
  let regs := mine.foldl (fun n (_, t) => n + t.skidCount) 0
  let s' := mine.foldl (fun s (k, t) => s.setThread k (t.skid s)) s
  s'.engineDone ctx 1 c (s.heldBy ctx 1 c) ⟨mine.length, regs, regs != 0, none⟩

/-- The elements of a group's streams that have returned are pushed, each in its stream's turn, while there is room. -/
def State.pushStaged (s : State) (g : Nat) : Nat → State
  | 0 => s
  | n + 1 =>
    match (s.streams g).find? fun st => match st.staged with | vs :: _ => s.mayPush g false st.q st.id vs.length | [] => false with
    | some st => (s.streamPush g st (st.staged.headD [])).pushStaged g n
    | none => s

/-- The access processor of a cluster finishes: what has returned is pushed while its queue has room, the rest discarded. -/
def State.finishAccess (s : State) (ctx c : Nat) : State :=
  let mine := s.groups.filter fun (_, g) => g.ctx = ctx && g.cluster = c
  let held := s.heldBy ctx 2 c
  let s := mine.foldl (fun s (k, _) => s.pushStaged k (8 * streamReads)) s
  let streams := mine.flatMap fun (k, _) => s.streams k
  let left := streams.foldl (fun n x => n + (x.count - x.index)) 0
  let s := mine.foldl (fun s (k, _) => s.modGroup k fun g => { g with slice := g.slice.map fun sl => { sl with streams := [] } }) s
  s.engineDone ctx 2 c held ⟨streams.length, left, !streams.isEmpty, leastOf (streams.map fun x => x.serial)⟩

/-- The entries and words that an operation which is not complete still owes (R260). -/
def MxOp.owes (o : MxOp) (gr : Group) : List Nat × List Nat :=
  match o.kind with
  | .mma | .mmab =>
    let x := MxPar.ofWords o.words
    ((tileOf x.m x.n).map (fun (i, j) => x.cBase + i * x.cStr + j), [])
  | .mzero => ([], [])
  | .macc => ([], (maccWrites gr o).map fun (k, _) => k)
  | .selc => ([], (selcWrites gr o).map fun (k, _) => k)

/-- The matrix array and the selection unit of a cluster finish. -/
def State.finishMatrix (s : State) (ctx c : Nat) : State :=
  let mine := s.groups.filter fun (_, g) => g.ctx = ctx && g.cluster = c
  let held := s.heldBy ctx 3 c
  let one (st : State × Nat × List Nat) (x : Nat × Group) : State × Nat × List Nat :=
    let owed := x.2.mq.map fun (o : MxOp) => (o.serial, o.owes x.2)
    let s := owed.foldl (fun s (n, accs, words) =>
      let v : Tw := .tok (token 0x50 n)
      let s := s.modGroup x.1 fun gr => { gr with acc := accs.foldl (fun m k => putTw m k v) gr.acc }
      words.foldl (fun s w => s.padWrite x.1 w v) s) st.1
    (s.modGroup x.1 fun gr => { gr with mq := [] },
      st.2.1 + owed.foldl (fun n (_, a, w) => n + a.length + w.length) 0, st.2.2 ++ owed.map fun (n, _) => n)
  let (s, n, serials) := mine.foldl one (s, 0, [])
  s.engineDone ctx 3 c held ⟨serials.length, n, !serials.isEmpty, leastOf serials⟩

/-- CURTAIN_SKID_DEADLINE: at 8 µs the gates, then every engine that still holds something, finish; what then remains in flight is
gone. -/
def State.skidAll (s : State) (ctx : Nat) : State :=
  let s := s.treatGates ctx
  let all := ((s.ctx ctx).work ++ s.holders ctx).eraseDups
  let rest := all.filter fun (k, u) => 4 ≤ k && k != 7 && !(s.ctx ctx).treated.contains (k, u)
  let s := rest.foldl (fun s (k, u) => s.treat ctx k u) s
  let s := ((s.threads.filter fun (_, t) => t.ctx = ctx && t.txn.isSome).map fun (k, _) => k).foldl State.abandonTxn s
  let last := (all ++ s.holders ctx).eraseDups
  let s := last.foldl (fun s (k, u) =>
    match k with
    | 1 => s.finishSlots ctx u
    | 2 => s.finishAccess ctx u
    | 3 => s.finishMatrix ctx u
    | _ => s) s
  let s := (s.settleOps (s.abandoned ctx fun o => match o.work with | .element _ _ _ => true | _ => false)).1
  { s with ops := keep (fun _ o => o.ctx != ctx) s.ops }.modCtx ctx fun c => { c with skid := some s.now }

def execCurtainSkidDeadline (ctx : Nat) (s : State) : Res :=
  let c := s.ctx ctx
  if !c.lowering || decide (s.now < c.lowAt.getD 0 + 8 * ticksPerUs) then .refused .notEnabled else .next (s.skidAll ctx)

/-- CURTAIN_DONE (R429): DONE, CVEC; repairs that waited for it begin (R446). -/
def execCurtainDone (ctx : Nat) (s : State) : Res :=
  let c := s.ctx ctx
  if !c.low || c.down || c.skid.isNone then .refused .notEnabled
  else .next (((s.setCtx ctx { c with cur := setD c.cur 62 62 1 }).msix (df c.vec 31 16)).startRepairs)

/-! Watchdogs (R435 to R437). -/

/-- A thread, or one that is saved, waits for a page, the host or a link; or a group is not resident, saved or on a site under repair (R444). -/
def State.stuck (s : State) (ctx : Nat) : Bool :=
  let parked (t : Thread) : Bool := t.ctx = ctx && (t.wait = 0x18 || t.wait = 0x19 || t.wait = 0x1A)
  s.threads.any (fun (_, t) => parked t) || s.groups.any (fun (_, g) => g.ctx = ctx && s.siteDown g.cluster) || (s.ctx ctx).saved.any fun x =>
    match x with
    | .ensemble _ _ _ _ _ _ => true
    | .roaming _ _ t _ _ => parked t

/-- Some group of the ensemble of a group is on a site under repair (R437, R444). -/
def State.ensDown (s : State) (g : Group) : Bool :=
  s.siteDown g.cluster || (match find s.ensembles g.ens with | some e => e.groups.any fun x => s.siteDown (x / 2048) | none => false)

/-- A thread is not resident, or a group of its ensemble is not. -/
def State.threadDown (s : State) (key : Nat) (t : Thread) : Bool :=
  s.siteDown (clusterOfKey key) || ((t.group.bind s.group?).any fun g => s.ensDown g)

/-- The targets in other packages that a thread's wait is for. -/
def State.waitsFor (s : State) (key : Nat) (t : Thread) : List Target :=
  let txn := (t.txn.bind Txn.target).toList
  let held := s.ops.filterMap fun (_, o) => if o.stage = .route && o.threadKey = some key then
    (match o.place with | .peer q => some (.peer q) | .fabric e => some (.fabric e) | _ => none) else none
  match t.waitOn with
  | .depart l | .arrival l _ => (l.pkg.map Target.peer).toList
  | .commit _ _ => txn
  | _ => held

/-- A package or an endpoint is unreachable and has not yet left. -/
def State.cutOff (s : State) (g : Target) : Bool :=
  match g with
  | .self => false
  | .peer q => get s.pkg.podrt q 0 = 0 && !s.pkg.gone.contains q
  | .fabric e => !s.endpointServed e && !s.endpointGone e

/-- The watchdog of a wait does not advance. -/
def State.frozenWait (s : State) (stuck : List Nat) (ctx : Nat) (reason : Nat) (targets : List Target) : Bool :=
  if reason = 0 ∨ (0x18 ≤ reason ∧ reason ≤ 0x1B) ∨ (s.ctx ctx).out then true
  else if reason = 2 ∨ reason = 3 ∨ (7 ≤ reason ∧ reason ≤ 0xA) ∨ reason = 0xD then stuck.contains ctx
  else if reason = 0x11 ∨ reason = 0x12 ∨ reason = 0x13 ∨ reason = 0x17 ∨ reason = 0x1D then
    s.egs.any (fun (_, g) => g.step != 0) || targets.any s.cutOff
  else false

/-- The head of a matrix queue waits for its FIFOs. -/
def Group.mxWaits (g : Group) : Bool := match g.mq with | o :: _ => o.started && !o.fed | [] => false

/-- The gates' occupancy adds up; where windows end meanwhile, the sums of the last of them are closed (R318). -/
def State.passGates (s : State) (dt : Nat) : Pkg :=
  let held (die : Nat) : Nat := (s.ops.filter fun (_, o) => o.stage = .held && dieOfPlace o.place = some die).length
  let add (m : Map Nat) (n : Nat) : Map Nat := (List.range 4).foldl (fun m d => if held d * n = 0 then m else put m d (get m d 0 + held d * n)) m
  let first := s.now / windowTicks
  let last := (s.now + dt) / windowTicks
  if first = last then { s.pkg with gate := add s.pkg.gate dt }
  else { s.pkg with
    gate := add [] (s.now + dt - last * windowTicks)
    shut := some (if first + 1 = last then add s.pkg.gate (last * windowTicks - s.now) else add [] windowTicks) }

/-- The watchdogs of the waits that count advance. -/
def State.passDogs (s : State) (dt : Nat) : State :=
  let stuck := (s.ctxs.filter fun (c, _) => s.stuck c).map fun (c, _) => c
  let lanesOf (sl : Slot) : List (Nat × Thread) := sl.lanes.filterMap fun o => o.bind fun k => (find s.threads k).map fun t => (k, t)
  let onSlot (sl : Slot) : Slot :=
    match lanesOf sl with
    | (k, t) :: r =>
      let targets := if sl.wait = 0x13 then sl.toward else ((k, t) :: r).flatMap fun x => (x.2.txn.bind Txn.target).toList
      if ((k, t) :: r).any (fun x => s.threadDown x.1 x.2) || s.frozenWait stuck t.ctx sl.wait.toNat targets then sl else { sl with dog := sl.dog + dt }
    | [] => sl
  let onGroup (g : Group) : Group :=
    if s.ensDown g then g else
    { g with
      slice := g.slice.map fun sl => if s.frozenWait stuck g.ctx sl.wait.toNat [] then sl else { sl with dog := sl.dog + dt }
      mxDog := if g.mxWaits && !(s.ctx g.ctx).out then g.mxDog + dt else g.mxDog }
  let onThread (k : Nat) (t : Thread) : Thread :=
    if t.wait = 0 || s.threadDown k t || s.frozenWait stuck t.ctx t.wait.toNat (s.waitsFor k t) then t else { t with dog := t.dog + dt }
  { s with threads := mapVals onThread s.threads, slots := mapVals (fun _ sl => onSlot sl) s.slots, groups := mapVals (fun _ g => onGroup g) s.groups }

/-- Time passes: the watchdogs and the gates' occupancy (R318) advance, resolutions whose core cycle is over begin (R422), and so do the steps of
switches that follow those that end by themselves (R414). -/
def State.pass (s : State) (dt : Nat) : State :=
  ({ s.passDogs dt with pkg := s.passGates dt, now := s.now + dt }.beginDue).stepEdges

/-- A count that has reached the context's limit. -/
def State.bites (s : State) (ctx dog : Nat) : Bool :=
  let limit := df (s.ctx ctx).wd 31 0
  limit != 0 && decide (limit ≤ dog / ticksPerUs)

/-- The slot in which a thread issues. -/
def State.slotHolding (s : State) (key : Nat) : Option Slot :=
  (s.slots.find? fun (_, sl) => sl.lanes.contains (some key)).map fun (_, sl) => sl

def State.dogCurtain (s : State) (ctx cluster slot pc reason : Nat) : Res :=
  if (s.ctx ctx).low then .refused .notEnabled else .next (s.curtain ctx cluster ⟨pc, 0x0D, 0, reason, cluster, slot, 1⟩)

/-- WATCHDOG_EXPIRY (R436). -/
def execWatchdogExpiry (owner : WatchOwner) (s : State) : Res :=
  match owner with
  | .thread key =>
    (match s.thread? key with
    | none => .refused .notEnabled
    | some t =>
      let (reason, dog) : Nat × Nat := match (if t.cue = .issuing then s.slotHolding key else none) with
        | some sl => (sl.wait.toNat, sl.dog)
        | none => (t.wait.toNat, t.dog)
      if isLaneKey key || reason = 0 || !s.bites t.ctx dog then .refused .notEnabled
      else s.dogCurtain t.ctx (clusterOfKey key) (slotOfKey key) t.pc.toNat reason)
  | .slice g =>
    (match s.group? g with
    | none => .refused .notEnabled
    | some gr =>
      match gr.slice with
      | none => .refused .notEnabled
      | some sl =>
        if sl.wait = 0 || !s.bites gr.ctx sl.dog then .refused .notEnabled
        else s.dogCurtain gr.ctx gr.cluster 0x7FF sl.pc.toNat sl.wait.toNat)
  | .matrix g =>
    match s.group? g with
    | none => .refused .notEnabled
    | some gr =>
      if !gr.mxWaits || !s.bites gr.ctx gr.mxDog then .refused .notEnabled
      else s.dogCurtain gr.ctx gr.cluster gr.base (match gr.mq with | o :: _ => o.pc.toNat | [] => 0) 0x16

/-! Page needs (R426). -/

/-- The threads that wait for a page that p accepts replay. -/
def State.pagesDone (s : State) (ctx : Nat) (p : Nat → Bool) : State :=
  let s := s.modCtx ctx fun c => { c with needs := c.needs.filter fun g => !p g }
  let go (t : Thread) : Bool := t.ctx = ctx && !(s.ctx ctx).low && (match t.waitOn with | .page va => p (Machine.granule va) | _ => false)
  { s with threads := mapVals (fun _ t => if go t then t.run s.now else t) s.threads }

def execCtxpgdoneGranule (ctx granule : Nat) (s : State) : Res :=
  if 64 ≤ ctx ∨ 2 ^ 40 ≤ granule then .refused .notEnabled else .next (s.pagesDone ctx fun g => g = granule)

def execCtxpgdoneAll (ctx : Nat) (s : State) : Res :=
  if 64 ≤ ctx then .refused .notEnabled else .next (s.pagesDone ctx fun _ => true)

/-! The debug path (R438). -/

/-- RD. No instruction reads, so the origin of a token is free (log entry 4). -/
def State.debugRead (s : State) (ctx : Nat) (coord : Word) : State :=
  let (ws, s) := s.freeWords 1
  let v := (s.windowRead ctx 5 coord.toNat ((ws.headD 0).toNat % 2 ^ 24)).headD Tw.zero
  s.modCtx ctx fun c => { c with dbg := zx coord, dbgd := zx v.val }

def State.atBreak (s : State) (ctx : Nat) (coord : Word) : Bool :=
  match s.windowThread ctx (coordOf coord.toNat) with
  | some t => t.cue = .waiting && t.waitOn = WaitOn.brk
  | none => false

/-- WR: discarded but at a breakpoint or behind a curtain that is down. -/
def State.debugWrite (s : State) (ctx : Nat) (coord : Word) : State :=
  let s := s.modCtx ctx fun c => { c with dbg := zx coord }
  if s.atBreak ctx coord || (s.ctx ctx).down then s.windowWrite ctx 5 coord.toNat (df (s.ctx ctx).dbgd 31 0) else s

/-- RES. -/
def State.debugResume (s : State) (ctx : Nat) (coord : Word) : State :=
  let s := s.modCtx ctx fun c => { c with dbg := zx coord }
  let key := (coordOf coord.toNat).key
  match s.atBreak ctx coord, s.thread? key with
  | true, some t => s.resume key { t with brk := none }
  | _, _ => s

/-- A write to CTXDBG: RD, WR, RES in this order. -/
def State.writeDbg (s : State) (ctx : Nat) (value : Dword) : State :=
  let coord := lo32 value
  let s := s.modCtx ctx fun c => { c with dbg := zx coord }
  let s := if bit value.toNat 62 then s.debugRead ctx coord else s
  let s := if bit value.toNat 61 then s.debugWrite ctx coord else s
  if bit value.toNat 63 then s.debugResume ctx coord else s

def execCtxdbgRd (ctx : Nat) (coord : Word) (s : State) : Res := if 64 ≤ ctx then .refused .notEnabled else .next (s.debugRead ctx coord)
def execCtxdbgWr (ctx : Nat) (coord : Word) (s : State) : Res := if 64 ≤ ctx then .refused .notEnabled else .next (s.debugWrite ctx coord)
def execCtxdbgRes (ctx : Nat) (coord : Word) (s : State) : Res := if 64 ≤ ctx then .refused .notEnabled else .next (s.debugResume ctx coord)

/-- CTXFRP_READ (R427): the value goes to software, and LOST is clear. -/
def execCtxfrpRead (ctx : Nat) (s : State) : Res :=
  if 64 ≤ ctx then .refused .notEnabled
  else .next ((s.send (.register (s.ctx ctx).frp)).modCtx ctx fun c => { c with frp := setD c.frp 62 48 0 })

end Sys2Proof.Machine
end

