-- ==== Sys2Proof/Machine/Trust.lean ====
section
/-! DEFINITION. Over hours (spec/21): scrubbing and repair (R440 to R446), boot, firmware and attestation (R447 to R451), power (R452,
R453); and what a read or a write of a management register does (spec/01 R6). -/

namespace Sys2Proof.Machine

/-! Reads that clear (R405, R442). -/

/-- EGSTAT as software reads it. ENC is the boot policy's bit (R420). -/
def State.egstat (s : State) (n : Nat) : Dword :=
  let g := s.eg n
  BitVec.ofNat 64 (g.wfail * 2 ^ 48 + g.err.toNat * 2 ^ 32 + g.fec * 2 ^ 11 + b2n (bit s.pkg.egpol.toNat n) * 2 ^ 10 + g.step * 2 ^ 7
    + b2n g.los * 8 + g.pers)

/-- CBSTAT as software reads it (R352). -/
def Board.stat (b : Board) : Dword := BitVec.ofNat 64 (b.lasterr.toNat * 2 ^ 24 + b2n b.ovf * 2 ^ 7 + b.queue.length)

/-- What the 64-bit management registers read as; those that only take commands read as zero. -/
def State.reg64 (s : State) (reg : MgmtReg) (i : Nat) : Dword :=
  let c := s.ctx i
  match reg with
  | .cbctl => (s.board i).ctl
  | .cbstat => (s.board i).stat
  | .ctxctl => c.ctl
  | .ctxmode => c.mode
  | .ctxstat => c.stat
  | .ctxmsx => c.msx
  | .ctxsave => c.save
  | .ctxpt => c.pt
  | .ctxinvs => c.invs
  | .ctxpod => c.pod
  | .ctxfr => c.fr
  | .ctxfrp => c.frp
  | .ctxvec => c.vec
  | .ctxcur => c.cur
  | .ctxstop => c.stop
  | .ctxwd => c.wd
  | .ctxdbg => c.dbg
  | .ctxdbgd => c.dbgd
  | .rowcong => get s.pkg.rowcong i 0
  | .diecong => get s.pkg.diecong i 0
  | .egctl => BitVec.ofNat 64 (s.eg i).newpers
  | .egstat => s.egstat i
  | .eguse => (s.eg i).use
  | .egcxlr => get (s.eg (i / 16)).ranges (i % 16) 0
  | .egpol => s.pkg.egpol.zeroExtend 64
  | .podctl => s.pkg.podctl
  | .podrt => BitVec.ofNat 64 (get s.pkg.podrt i 0)
  | .fabep => get s.pkg.fabep i 0
  | .relr => s.pkg.relr
  | .relrp => s.pkg.relrp
  | .relvec => s.pkg.relvec
  | .repctl => s.pkg.repctl
  | .attnonce => get s.pkg.nonce i 0
  | .attcmd => s.pkg.attcmd
  | .partmap => s.pkg.partmap
  | .pwrctl => s.pkg.pwrctl
  | .recovery => get s.root.window i 0
  | .prgAlloc => BitVec.ofNat 64 s.port.alloc
  | .cbpost | .ctxcmd | .ctxinv | .frameown | .ctxpgdone | .repcmd | .fabaddr | .reserved => 0

/-- What software reads in a register: the value of its fields, zero for those that are write-only (R6). A read that clears is a step of its
own; any other changes nothing. -/
def State.regValue (s : State) (reg : MgmtReg) (i : Nat) : BitVec 128 :=
  if reg = .fabaddr then get s.pkg.fabaddr i 0 else (s.reg64 reg i).zeroExtend 128

/-- RELRP_READ (R442): the value goes to software, and LOST is clear. -/
def execRelrpRead (s : State) : Res :=
  .next { s.send (.register ((s.regValue .relrp 0).extractLsb' 0 64)) with pkg := { s.pkg with relrp := setD s.pkg.relrp 62 48 0 } }

/-- EGSTAT_READ (R405): WFAIL is clear. -/
def execEgstatRead (group : Nat) (s : State) : Res :=
  if 16 ≤ group then .refused .notEnabled
  else .next ((s.send (.register ((s.regValue .egstat group).extractLsb' 0 64))).modEg group fun g => { g with wfail := 0 })

/-! Scrubbing (R440). -/

/-- SCRUB of one sector of a home range. -/
def execScrub (cluster sector : Nat) (ecc : Ecc) (s : State) : Res :=
  if 768 ≤ cluster ∨ 2 ^ 25 ≤ sector ∨ s.mseDown cluster then .refused .notEnabled else
  let pa := cluster * 2 ^ 30 + sector * 32
  if s.unfilled pa || s.checkSymbol pa then .next s else .next (s.detect pa ecc)

/-! Repairs (R444 to R446). -/

/-- The lane or wavelength of a link or fibre with the highest wear count; the lowest of them where several have it. -/
def State.wornLane (s : State) (kind unit : Nat) : Nat :=
  let lanes := (s.pkg.wear.filter fun (k, _) => k / 65536 = kind * 65536 + unit).map fun (k, n) => (k % 65536, n)
  (lanes.foldl (fun (best : Nat × Nat) x => if best.2 < x.2 then x else best) (0, 0)).1

/-- REPCMD_REPAIR: GO. A kind or a unit that does not exist is no repair. -/
def execRepcmdRepair (value : Dword) (s : State) : Res :=
  let kind := df value 23 16
  let unit := df value 15 0
  if !bit value.toNat 63 ∨ unitCount kind ≤ unit then .next s
  else .next (s.askRepair kind unit (if kind = 5 ∨ kind = 6 then s.wornLane kind unit else 0))

/-- What stands on a cluster may be saved now (R444). -/
def State.siteSavable (s : State) (c : Nat) : Bool :=
  (List.range 4).all (fun i => (s.slot (c * 4 + i)).lanes.all fun o => o.isNone)
    && s.threads.all (fun (k, t) => clusterOfKey k != c || isLaneKey k || s.threadSavable k t)
    && s.groups.all fun (k, g) => g.cluster != c || s.groupSavable k g

/-- The items of a cluster are saved and restored on the spare site: their transactions have failed, their monitors are gone, their
clocks are zero, and their waits are evaluated again (R308, R379). -/
def State.moveSite (s : State) (c : Nat) : State :=
  let keys := (s.threads.filter fun (k, _) => clusterOfKey k = c && !isLaneKey k).map fun (k, _) => k
  let s := keys.foldl State.beforeSave s
  let s := s.dropUsers fun u => match u with | .slice g => g / 2048 = c | .stream g _ => g / 2048 = c | _ => false
  let again (sl : Slice) : Slice := { sl with since := s.now, walks := [], streams := sl.streams.map fun (x : Stream) => { x with walks := [] } }
  let s := { s with
    threads := mapVals (fun k t => if clusterOfKey k = c then t.restored s.now else t) s.threads
    groups := mapVals (fun _ (g : Group) => if g.cluster != c then g else { g with slice := g.slice.map again }) s.groups }
  keys.foldl State.resumeWait (s.sweepMonitors c)

/-- What a repair does to running work at its end. -/
def State.repaired (s : State) (r : Repair) : State :=
  match r.kind with
  | 1 => s.moveSite r.unit
  | 2 => s.modRow (r.unit / 4) fun v => { v with slices := v.slices.filter fun x => x.1 != r.unit % 4 }
  | _ => s

/-- REPAIR_DONE: the spare is used up, and a CLASS 4 record is written. -/
def execRepairDone (kind unit : Nat) (s : State) : Res :=
  match s.pkg.repairs.find? fun r => r.started && r.kind = kind && r.unit = unit with
  | none => .refused .notEnabled
  | some r =>
    if (kind = 1 && !s.siteSavable unit) || (kind = 4 && decide (r.frame 0 s.now < 2 ^ 14)) then .refused .notEnabled else
    let (pool, _) := sparePool kind unit r.lane
    let s := s.repaired r
    let s := { s with pkg := { s.pkg with
      repairs := s.pkg.repairs.filter fun x => x != r
      used := put s.pkg.used pool (get s.pkg.used pool 0 + 1)
      done := s.pkg.done + 1 } }
    .next ((s.putReliability 4 0 unit kind 0x40 (if kind = 5 ∨ kind = 6 then r.lane else 0) (get s.pkg.wear (wearKey kind unit r.lane) 0)).startRepairs)

/-! Boot and firmware (R447, R448). -/

/-- A measurement register extended with x. -/
def extend (mr x : List Byte) : List Byte := shake256 (mr ++ shake256 x 32) 32

/-- A reset of the package: what is not volatile stays (R445, R447 to R449), and NC goes on (R292); the agenda and what has gone out are the
world's. -/
def State.packageReset (s : State) : State :=
  let r := State.reset
  let image := s.root.staged.getD s.root.flash
  let version := match s.root.staged with | some i => i.version | none => s.root.version
  { r with
    now := s.now, agenda := s.agenda, turn := s.turn, free := s.free, sent := s.sent, seq := s.seq
    pkg := { r.pkg with wear := s.pkg.wear, bad := s.pkg.bad, used := s.pkg.used }
    root := { r.root with version := version, minVersion := s.root.minVersion, index := s.root.index, flash := image } }

/-- The steps of boot on a package that has just been reset: it measures the sections of the image in flash and the spare map, and releases the
service cores. -/
def State.bootSteps (s : State) (b : BootIn) : State :=
  let root := s.root
  if !b.rootOk then { s with root := { root with recovery := true } } else
  let root := { root with mr0 := extend root.mr0 root.flash.root, mr2 := extend root.mr2 (toBytes 2 b.egpol.toNat), policy := true }
  let s := { s with pkg := { s.pkg with egpol := b.egpol } }
  if !b.serviceOk then { s with root := { root with recovery := true } }
  else { s with root := { root with
    mr1 := extend root.mr1 root.flash.service, mr3 := extend root.mr3 (Config.spareMap s.pkg.used), released := true } }

/-- BOOT: a reset and the measured boot. -/
def execBoot (found : BootIn) (s : State) : Res := .next (s.packageReset.bootSteps found)

/-- The root accepts an image: its signature verifies, and its version is at least the minimum. -/
def State.accepts (s : State) (i : Image) : Bool := i.good && decide (s.root.minVersion ≤ i.version)

/-- FIRMWARE_UPDATE: an accepted image takes effect at the next reset. -/
def execFirmwareUpdate (image : Image) (s : State) : Res :=
  .next (if s.accepts image then { s with root := { s.root with staged := some image } } else s)

/-- The image that system software has written into the recovery window (R448). -/
def State.windowImage (s : State) (good : Bool) : Image :=
  let (version, root, service, signature) := Config.imageOf s.root.window
  ⟨version, good, root, service, signature⟩

/-- RECOVERY_LOAD: the recovery command for the image that stands in the window; an accepted one is stored, and the package is reset. -/
def execRecoveryLoad (image : Image) (s : State) : Res :=
  if image != s.windowImage image.good then .refused .notEnabled else
  .next (if s.accepts image then { s with root := { s.root with staged := some image } }.packageReset else s)

/-! Attestation (R449 to R451). -/

/-- A write to ATTCMD. -/
def State.writeAttcmd (s : State) (value : Dword) : State :=
  let err (n : Nat) : State := { s with pkg := { s.pkg with attcmd := setD s.pkg.attcmd 55 48 n } }
  if !bit value.toNat 63 then s
  else if bit s.pkg.attcmd.toNat 62 then err 3
  else if 2 ^ 40 ≤ s.root.index then err 1
  else { s with pkg := { s.pkg with attcmd := setD s.pkg.attcmd 62 62 1 } }

/-- ATTESTATION_REQUEST. -/
def execAttestationRequest (value : Dword) (s : State) : Res := .next (s.writeAttcmd value)

/-- A big-endian number, as the standard of the signature scheme writes it. -/
def bigEndian (n v : Nat) : List Byte := (toBytes n v).reverse

/-- The OID of XMSSMT-SHAKE256_40/4_256 (R447; PRESUMED, log entry 134). -/
def identityOid : List Byte := bigEndian 4 0x2C

/-- A signature in the format of the standard: the index, in five bytes for a height of 40, and what follows it (R451; PRESUMED, log entry 134). -/
def signatureOf (index : Nat) (body : List Byte) : List Byte := bigEndian 5 index ++ Config.signature index body

/-- Exactly n bytes. -/
def fit (n : Nat) (l : List Byte) : List Byte := (l ++ List.replicate n 0).take n

/-- Bytes 0x000 to 0x0FF of the report. -/
def State.reportBody (s : State) : List Byte :=
  toBytes 4 1 ++ toBytes 4 10149 ++ toBytes 8 s.root.version
    ++ ((List.range 4).flatMap fun i => toBytes 8 (get s.pkg.nonce i 0).toNat)
    ++ fit 32 s.root.mr0 ++ fit 32 s.root.mr1 ++ fit 32 s.root.mr2 ++ fit 32 s.root.mr3
    ++ toBytes 2 s.pkg.egpol.toNat ++ toBytes 2 0 ++ toBytes 4 s.pkg.done ++ identityOid ++ fit 64 Config.identityKey ++ toBytes 4 0

/-- ATTESTATION_REPORT_DONE: the next index is stored before the signature goes out; `stored` is whether it reads back. -/
def execAttestationReportDone (stored : Bool) (s : State) : Res :=
  if !bit s.pkg.attcmd.toNat 62 then .refused .notEnabled else
  let cmd := setD s.pkg.attcmd 62 62 0
  if !stored then .next { s with pkg := { s.pkg with attcmd := setD cmd 55 48 2 } } else
  let body := s.reportBody
  .next { s with
    pkg := { s.pkg with attcmd := cmd }
    root := { s.root with index := s.root.index + 1, report := body ++ fit 9893 (signatureOf s.root.index body) } }

/-! Power (R452, R453). -/

/-- Every partition follows the cap. -/
def State.reclockAll (s : State) : State := (List.range 32).foldl (fun s r => if (s.partition r).1 = r then s.reclock r else s) s

/-- STEP after a window: `hot` is a cold plate above its limit. -/
def stepAfter (step limit meas low hotLeft : Nat) (hot : Bool) : Nat × Nat × Nat :=
  let left := if hot then 10 else hotLeft - 1
  let cool := if meas * 10 < limit * 9 then min (low + 1) 10 else 0
  if left != 0 then (2, cool, left)
  else if limit < meas ∧ step < 2 then (step + 1, cool, 0)
  else if cool = 10 ∧ step != 0 then (step - 1, 0, 0)
  else (step, cool, 0)

/-- POWER_WINDOW. -/
def execPowerWindow (measured : Half) (hot : Bool) (s : State) : Res :=
  let v := s.pkg.pwrctl
  let (step, low, left) := stepAfter (df v 25 24) (df v 15 0) measured.toNat s.pkg.low s.pkg.hot hot
  .next { s with pkg := { s.pkg with pwrctl := setD (setD v 47 32 measured.toNat) 25 24 step, low := low, hot := left } }.reclockAll

/-- PWRCTL_WRITE. -/
def execPwrctlWrite (value : Dword) (s : State) : Res :=
  let v := if bit value.toNat 63 then setD s.pkg.pwrctl 63 63 0 else s.pkg.pwrctl
  let n := df value 15 0
  .next { s with pkg := { s.pkg with pwrctl := if 1200 ≤ n ∧ n ≤ 4800 then setD v 15 0 n else setD v 63 63 1 } }

/-- POWER_LOSS (R449): all volatile state ends. -/
def execPowerLoss (s : State) : Res :=
  let r := s.packageReset
  .next { r with now := 0, pkg := { r.pkg with powered := false }, root := { r.root with version := s.root.version, staged := s.root.staged, flash := s.root.flash } }

/-! REGISTER_WRITE (R6). -/

/-- The bits of mask take those of the value. -/
def mix (old value mask : Dword) : Dword := (old &&& ~~~mask) ||| (value &&& mask)

/-- A field that only a disabled context takes. -/
def State.writeIdle (s : State) (ctx : Nat) (f : Ctx → Ctx) : State :=
  let c := s.ctx ctx
  s.setCtx ctx (if c.en then c.setErr 4 else f c)

/-- CTXMSX: a 1 clears its bit; PCODE is zero while PTGT is clear (R221). -/
def msxWrite (old value : Dword) : Dword :=
  let v := old &&& ~~~(value &&& 0x3F1F)
  if bit v.toNat 8 then v else setD v 39 32 0

/-- The write of PODCTL (R410). -/
def State.writePodctl (s : State) (value : Dword) : State :=
  let busy := s.egs.any fun (_, g) => g.pers = 2 || g.pers = 3 || g.step != 0
  let v := if bit value.toNat 63 then setD s.pkg.podctl 63 63 0 else s.pkg.podctl
  { s with pkg := { s.pkg with podctl := if busy then setD v 63 63 1 else mix v value 0x01FFFFFF } }

/-- The write of EGCXLR (R408); index is group × 16 + range. -/
def State.writeRange (s : State) (index : Nat) (value : Dword) : State :=
  let n := index / 16
  let g := s.eg n
  if g.pers = 1 ∨ g.step != 0 ∨ (bit value.toNat 63 ∧ df value 31 16 = 0) then s.setEg n { g with err := 1 }
  else s.setEg n { g with ranges := put g.ranges (index % 16) (value &&& 0x8000FFFFFFFFF000) }

/-- What a write to a register does; reserved fields and read-only fields ignore it. The registers of the last arm have steps of their
own. -/
def State.writeReg (s : State) (reg : MgmtReg) (i : Nat) (wide : BitVec 128) : State :=
  let v : Dword := wide.extractLsb' 0 64
  let pkg (f : Pkg → Pkg) : State := { s with pkg := f s.pkg }
  match reg with
  | .cbstat => if bit v.toNat 7 then s.setBoard i { s.board i with ovf := false } else s
  | .ctxctl => s.writeCtl i v
  | .ctxstat => s.modCtx i fun c => { c with stat := c.stat &&& ~~~(v &&& 0x800) }
  | .ctxmsx => s.modCtx i fun c => { c with msx := msxWrite c.msx v }
  | .ctxsave => s.writeIdle i fun c => { c with save := v }
  | .ctxpt => s.writeIdle i fun c => { c with pt := v &&& 0x000FFFFFFFFFF800 }
  | .ctxinvs => s.modCtx i fun c => { c with invs := c.invs &&& ~~~(v &&& 2) }
  | .ctxpod => s.writeIdle i fun c => { c with pod := v &&& 0x1FFFF }
  | .ctxfr => s.writeIdle i fun c => { c with fr := v &&& 0xFFFFFFFFFFF0001F }
  | .ctxfrp => s.modCtx i fun c => { c with frp := mix (if bit v.toNat 63 then setD c.frp 63 63 0 else c.frp) v 0x000000FFFFF00000 }
  | .ctxvec => s.modCtx i fun c => { c with vec := v &&& 0xFFFFFFFF }
  | .ctxcur => s
  | .ctxstop => s.writeIdle i fun c => { c with stop := v &&& 0xFFFFFFFFFF000000 }
  | .ctxwd => s.modCtx i fun c => { c with wd := v &&& 0xFFFFFFFF }
  | .ctxdbg => s.writeDbg i v
  | .ctxdbgd => s.modCtx i fun c => { c with dbgd := v }
  | .rowcong => s
  | .diecong => s
  | .egctl => s.writeEgctl i v
  | .egstat => if bit v.toNat 3 then s.modEg i fun g => { g with los := false } else s
  | .eguse => (s.modEg i fun g => { g with use := v }).routeHeld
  | .egcxlr => s.writeRange i v
  | .egpol => s
  | .podctl => s.writePodctl v
  | .podrt => s
  | .fabep => (pkg fun p => { p with fabep := put p.fabep i (v &&& 0x800000000000FFFF) }).routeHeld
  | .fabaddr => pkg fun p => { p with fabaddr := put p.fabaddr i wide }
  | .relr => pkg fun p => { p with relr := v &&& 0xFFFFFFFFFFFF001F }
  | .relrp => pkg fun p => { p with relrp := mix (if bit v.toNat 63 then setD p.relrp 63 63 0 else p.relrp) v 0x000000FFFFF00000 }
  | .relvec => pkg fun p => { p with relvec := v &&& 0xFFFF }
  | .repctl => pkg fun p => { p with repctl := v &&& 0x80000000FFFFFFFF }
  | .attnonce => pkg fun p => { p with nonce := put p.nonce i v }
  | .attcmd => s.writeAttcmd v
  | .ctxcmd => s.switchCmd i (df v 1 0)
  | .reserved => s
  | .recovery => { s with root := { s.root with window := if v = 0 then drop s.root.window i else put s.root.window i v } }
  | .prgAlloc => { s with port := { s.port with alloc := min 512 v.toNat } }.sendPages
  | .cbctl | .cbpost | .partmap | .ctxmode | .ctxinv | .frameown | .ctxpgdone | .repcmd | .pwrctl => s

/-- How many registers of a name there are. -/
def regCount (reg : MgmtReg) : Nat :=
  match reg with
  | .cbstat | .cbctl | .cbpost => 256
  | .ctxmode | .ctxcmd | .ctxinv | .ctxpgdone | .ctxctl | .ctxstat | .ctxmsx | .ctxsave | .ctxpt | .ctxinvs | .ctxpod | .ctxfr | .ctxfrp | .ctxvec | .ctxcur | .ctxstop | .ctxwd
  | .ctxdbg | .ctxdbgd => 64
  | .rowcong => 32
  | .diecong => 4
  | .egctl | .egstat | .eguse => 16
  | .egcxlr => 256
  | .podrt | .fabep | .fabaddr => 256
  | .attnonce => 4
  | .reserved => 48 * 2 ^ 17
  | .recovery => 64 * 2 ^ 17
  | .prgAlloc => 1
  | .egpol | .podctl | .relr | .relrp | .relvec | .repctl | .attcmd | .partmap | .frameown | .repcmd | .pwrctl => 1

/-- REGISTER_WRITE. -/
def execRegisterWrite (reg : MgmtReg) (index : Nat) (value : BitVec 128) (s : State) : Res :=
  let v : Dword := value.extractLsb' 0 64
  if regCount reg ≤ index then .refused .notEnabled else
  match reg with
  | .cbctl => execCbctlWrite index v s
  | .cbpost => execCbpost index v s
  | .partmap => execPartmapWrite v s
  | .ctxmode => execCtxmodeWrite index v s
  | .ctxinv => if bit v.toNat 63 then execCtxinvAll index s else execCtxinvRange index v s
  | .frameown => execFrameownWrite v s
  | .ctxpgdone => if bit v.toNat 63 then execCtxpgdoneAll index s else execCtxpgdoneGranule index (df v 55 16) s
  | .repcmd => execRepcmdRepair v s
  | .pwrctl => execPwrctlWrite v s
  | _ => .next (s.writeReg reg index value)

end Sys2Proof.Machine
end

