-- ==== Sys2Proof/Machine/Dispatch.lean ====
section
/-! DEFINITION. One arm for each constructor of Instr: one call of its meaning. -/

namespace Sys2Proof.Machine

def exec (i : Instr) (s : State) : Host.Outcome State Fault Refusal :=
  match i with
  | .movH f => Sys2Proof.Machine.execMovH f s
  | .iaddH f => Sys2Proof.Machine.execIaddH f s
  | .isubH f => Sys2Proof.Machine.execIsubH f s
  | .imulH f => Sys2Proof.Machine.execImulH f s
  | .andH f => Sys2Proof.Machine.execAndH f s
  | .orH f => Sys2Proof.Machine.execOrH f s
  | .xorH f => Sys2Proof.Machine.execXorH f s
  | .shlH f => Sys2Proof.Machine.execShlH f s
  | .shrH f => Sys2Proof.Machine.execShrH f s
  | .sarH f => Sys2Proof.Machine.execSarH f s
  | .iminH f => Sys2Proof.Machine.execIminH f s
  | .imaxH f => Sys2Proof.Machine.execImaxH f s
  | .faddH f => Sys2Proof.Machine.execFaddH f s
  | .fmulH f => Sys2Proof.Machine.execFmulH f s
  | .fmaxH f => Sys2Proof.Machine.execFmaxH f s
  | .ffmaH f => Sys2Proof.Machine.execFfmaH f s
  | .movW f => Sys2Proof.Machine.execMovW f s
  | .iaddW f => Sys2Proof.Machine.execIaddW f s
  | .isubW f => Sys2Proof.Machine.execIsubW f s
  | .imulW f => Sys2Proof.Machine.execImulW f s
  | .imulhW f => Sys2Proof.Machine.execImulhW f s
  | .iminW f => Sys2Proof.Machine.execIminW f s
  | .imaxW f => Sys2Proof.Machine.execImaxW f s
  | .andW f => Sys2Proof.Machine.execAndW f s
  | .orW f => Sys2Proof.Machine.execOrW f s
  | .xorW f => Sys2Proof.Machine.execXorW f s
  | .andnW f => Sys2Proof.Machine.execAndnW f s
  | .notW f => Sys2Proof.Machine.execNotW f s
  | .shlW f => Sys2Proof.Machine.execShlW f s
  | .shrW f => Sys2Proof.Machine.execShrW f s
  | .sarW f => Sys2Proof.Machine.execSarW f s
  | .rotW f => Sys2Proof.Machine.execRotW f s
  | .popcW f => Sys2Proof.Machine.execPopcW f s
  | .clzW f => Sys2Proof.Machine.execClzW f s
  | .ctzW f => Sys2Proof.Machine.execCtzW f s
  | .brevW f => Sys2Proof.Machine.execBrevW f s
  | .inegW f => Sys2Proof.Machine.execInegW f s
  | .iabsW f => Sys2Proof.Machine.execIabsW f s
  | .faddW f => Sys2Proof.Machine.execFaddW f s
  | .fsubW f => Sys2Proof.Machine.execFsubW f s
  | .fmulW f => Sys2Proof.Machine.execFmulW f s
  | .fminW f => Sys2Proof.Machine.execFminW f s
  | .fmaxW f => Sys2Proof.Machine.execFmaxW f s
  | .frcpW f => Sys2Proof.Machine.execFrcpW f s
  | .frsqW f => Sys2Proof.Machine.execFrsqW f s
  | .fsqrtW f => Sys2Proof.Machine.execFsqrtW f s
  | .fexp2W f => Sys2Proof.Machine.execFexp2W f s
  | .flog2W f => Sys2Proof.Machine.execFlog2W f s
  | .fsinW f => Sys2Proof.Machine.execFsinW f s
  | .fcosW f => Sys2Proof.Machine.execFcosW f s
  | .ftanhW f => Sys2Proof.Machine.execFtanhW f s
  | .hpaddW f => Sys2Proof.Machine.execHpaddW f s
  | .hpmulW f => Sys2Proof.Machine.execHpmulW f s
  | .hpmaxW f => Sys2Proof.Machine.execHpmaxW f s
  | .iaddWimm f => Sys2Proof.Machine.execIaddWimm f s
  | .imulWimm f => Sys2Proof.Machine.execImulWimm f s
  | .andWimm f => Sys2Proof.Machine.execAndWimm f s
  | .orWimm f => Sys2Proof.Machine.execOrWimm f s
  | .xorWimm f => Sys2Proof.Machine.execXorWimm f s
  | .shlWimm f => Sys2Proof.Machine.execShlWimm f s
  | .shrWimm f => Sys2Proof.Machine.execShrWimm f s
  | .sarWimm f => Sys2Proof.Machine.execSarWimm f s
  | .rotWimm f => Sys2Proof.Machine.execRotWimm f s
  | .iminWimm f => Sys2Proof.Machine.execIminWimm f s
  | .imaxWimm f => Sys2Proof.Machine.execImaxWimm f s
  | .moviWi f => Sys2Proof.Machine.execMoviWi f s
  | .iaddWi f => Sys2Proof.Machine.execIaddWi f s
  | .imulWi f => Sys2Proof.Machine.execImulWi f s
  | .andWi f => Sys2Proof.Machine.execAndWi f s
  | .orWi f => Sys2Proof.Machine.execOrWi f s
  | .xorWi f => Sys2Proof.Machine.execXorWi f s
  | .iminWi f => Sys2Proof.Machine.execIminWi f s
  | .imaxWi f => Sys2Proof.Machine.execImaxWi f s
  | .braWi f => Sys2Proof.Machine.execBraWi f s
  | .checkW f => Sys2Proof.Machine.execCheckW f s
  | .nopW f => Sys2Proof.Machine.execNopW f s
  | .exitW f => Sys2Proof.Machine.execExitW f s
  | .holdW f => Sys2Proof.Machine.execHoldW f s
  | .yieldW f => Sys2Proof.Machine.execYieldW f s
  | .retW f => Sys2Proof.Machine.execRetW f s
  | .movD f => Sys2Proof.Machine.execMovD f s
  | .iaddD f => Sys2Proof.Machine.execIaddD f s
  | .iaddxD f => Sys2Proof.Machine.execIaddxD f s
  | .isubD f => Sys2Proof.Machine.execIsubD f s
  | .imulD f => Sys2Proof.Machine.execImulD f s
  | .imulhD f => Sys2Proof.Machine.execImulhD f s
  | .imadD f => Sys2Proof.Machine.execImadD f s
  | .iabsD f => Sys2Proof.Machine.execIabsD f s
  | .inegD f => Sys2Proof.Machine.execInegD f s
  | .iminD f => Sys2Proof.Machine.execIminD f s
  | .imaxD f => Sys2Proof.Machine.execImaxD f s
  | .icmpD f => Sys2Proof.Machine.execIcmpD f s
  | .selD f => Sys2Proof.Machine.execSelD f s
  | .andD f => Sys2Proof.Machine.execAndD f s
  | .orD f => Sys2Proof.Machine.execOrD f s
  | .xorD f => Sys2Proof.Machine.execXorD f s
  | .notD f => Sys2Proof.Machine.execNotD f s
  | .andnD f => Sys2Proof.Machine.execAndnD f s
  | .tbl3D f => Sys2Proof.Machine.execTbl3D f s
  | .shlD f => Sys2Proof.Machine.execShlD f s
  | .shrD f => Sys2Proof.Machine.execShrD f s
  | .sarD f => Sys2Proof.Machine.execSarD f s
  | .rotD f => Sys2Proof.Machine.execRotD f s
  | .funnelD f => Sys2Proof.Machine.execFunnelD f s
  | .bfxD f => Sys2Proof.Machine.execBfxD f s
  | .bfiD f => Sys2Proof.Machine.execBfiD f s
  | .popcD f => Sys2Proof.Machine.execPopcD f s
  | .clzD f => Sys2Proof.Machine.execClzD f s
  | .ctzD f => Sys2Proof.Machine.execCtzD f s
  | .brevD f => Sys2Proof.Machine.execBrevD f s
  | .leaD f => Sys2Proof.Machine.execLeaD f s
  | .dp4D f => Sys2Proof.Machine.execDp4D f s
  | .dp8D f => Sys2Proof.Machine.execDp8D f s
  | .faddD f => Sys2Proof.Machine.execFaddD f s
  | .fsubD f => Sys2Proof.Machine.execFsubD f s
  | .fmulD f => Sys2Proof.Machine.execFmulD f s
  | .ffmaD f => Sys2Proof.Machine.execFfmaD f s
  | .fminD f => Sys2Proof.Machine.execFminD f s
  | .fmaxD f => Sys2Proof.Machine.execFmaxD f s
  | .fcmpD f => Sys2Proof.Machine.execFcmpD f s
  | .fclassD f => Sys2Proof.Machine.execFclassD f s
  | .frcpD f => Sys2Proof.Machine.execFrcpD f s
  | .frsqD f => Sys2Proof.Machine.execFrsqD f s
  | .fsqrtD f => Sys2Proof.Machine.execFsqrtD f s
  | .fexp2D f => Sys2Proof.Machine.execFexp2D f s
  | .flog2D f => Sys2Proof.Machine.execFlog2D f s
  | .fsinD f => Sys2Proof.Machine.execFsinD f s
  | .fcosD f => Sys2Proof.Machine.execFcosD f s
  | .ftanhD f => Sys2Proof.Machine.execFtanhD f s
  | .fscaleD f => Sys2Proof.Machine.execFscaleD f s
  | .frndD f => Sys2Proof.Machine.execFrndD f s
  | .fdivfixD f => Sys2Proof.Machine.execFdivfixD f s
  | .daddD f => Sys2Proof.Machine.execDaddD f s
  | .dmulD f => Sys2Proof.Machine.execDmulD f s
  | .dfmaD f => Sys2Proof.Machine.execDfmaD f s
  | .dcmpD f => Sys2Proof.Machine.execDcmpD f s
  | .hpaddD f => Sys2Proof.Machine.execHpaddD f s
  | .hpmulD f => Sys2Proof.Machine.execHpmulD f s
  | .hpfmaD f => Sys2Proof.Machine.execHpfmaD f s
  | .hpmaxD f => Sys2Proof.Machine.execHpmaxD f s
  | .packD f => Sys2Proof.Machine.execPackD f s
  | .unpackD f => Sys2Proof.Machine.execUnpackD f s
  | .cvtD dt f => Sys2Proof.Machine.execCvtD dt f s
  | .cvtsD dt f => Sys2Proof.Machine.execCvtsD dt f s
  | .shflD f => Sys2Proof.Machine.execShflD f s
  | .ballotD f => Sys2Proof.Machine.execBallotD f s
  | .agreeD f => Sys2Proof.Machine.execAgreeD f s
  | .vpfxD f => Sys2Proof.Machine.execVpfxD f s
  | .vredD f => Sys2Proof.Machine.execVredD f s
  | .matchD f => Sys2Proof.Machine.execMatchD f s
  | .xsectD f => Sys2Proof.Machine.execXsectD f s
  | .conflD f => Sys2Proof.Machine.execConflD f s
  | .ptblD f => Sys2Proof.Machine.execPtblD f s
  | .pmovD f => Sys2Proof.Machine.execPmovD f s
  | .checkD f => Sys2Proof.Machine.execCheckD f s
  | .ispoiD f => Sys2Proof.Machine.execIspoiD f s
  | .pclrD f => Sys2Proof.Machine.execPclrD f s
  | .movDp f => Sys2Proof.Machine.execMovDp f s
  | .iaddDp f => Sys2Proof.Machine.execIaddDp f s
  | .isubDp f => Sys2Proof.Machine.execIsubDp f s
  | .imulDp f => Sys2Proof.Machine.execImulDp f s
  | .iminDp f => Sys2Proof.Machine.execIminDp f s
  | .imaxDp f => Sys2Proof.Machine.execImaxDp f s
  | .andDp f => Sys2Proof.Machine.execAndDp f s
  | .orDp f => Sys2Proof.Machine.execOrDp f s
  | .xorDp f => Sys2Proof.Machine.execXorDp f s
  | .shlDp f => Sys2Proof.Machine.execShlDp f s
  | .shrDp f => Sys2Proof.Machine.execShrDp f s
  | .faddDp f => Sys2Proof.Machine.execFaddDp f s
  | .fsubDp f => Sys2Proof.Machine.execFsubDp f s
  | .fmulDp f => Sys2Proof.Machine.execFmulDp f s
  | .fminDp f => Sys2Proof.Machine.execFminDp f s
  | .fmaxDp f => Sys2Proof.Machine.execFmaxDp f s
  | .braDi f => Sys2Proof.Machine.execBraDi f s
  | .brxD f => Sys2Proof.Machine.execBrxD f s
  | .callDi f => Sys2Proof.Machine.execCallDi f s
  | .callxD f => Sys2Proof.Machine.execCallxD f s
  | .retD f => Sys2Proof.Machine.execRetD f s
  | .exitD f => Sys2Proof.Machine.execExitD f s
  | .nopD f => Sys2Proof.Machine.execNopD f s
  | .holdD f => Sys2Proof.Machine.execHoldD f s
  | .yieldD f => Sys2Proof.Machine.execYieldD f s
  | .regionD f => Sys2Proof.Machine.execRegionD f s
  | .spawnD f => Sys2Proof.Machine.execSpawnD f s
  | .migrD f => Sys2Proof.Machine.execMigrD f s
  | .homeD f => Sys2Proof.Machine.execHomeD f s
  | .racqD f => Sys2Proof.Machine.execRacqD f s
  | .rrelD f => Sys2Proof.Machine.execRrelD f s
  | .statD f => Sys2Proof.Machine.execStatD f s
  | .moviDi f => Sys2Proof.Machine.execMoviDi f s
  | .kmovDi f => Sys2Proof.Machine.execKmovDi f s
  | .kaddDi f => Sys2Proof.Machine.execKaddDi f s
  | .tapeD f => Sys2Proof.Machine.execTapeD f s
  | .trapDi f => Sys2Proof.Machine.execTrapDi f s
  | .brkDi f => Sys2Proof.Machine.execBrkDi f s
  | .fbeginD f => Sys2Proof.Machine.execFbeginD f s
  | .fcommitD f => Sys2Proof.Machine.execFcommitD f s
  | .fabortD f => Sys2Proof.Machine.execFabortD f s
  | .launchD f => Sys2Proof.Machine.execLaunchD f s
  | .trigD f => Sys2Proof.Machine.execTrigD f s
  | .ldDm f => Sys2Proof.Machine.execLdDm f s
  | .stDm f => Sys2Proof.Machine.execStDm f s
  | .ldfDm f => Sys2Proof.Machine.execLdfDm f s
  | .ldsDm f => Sys2Proof.Machine.execLdsDm f s
  | .stsDm f => Sys2Proof.Machine.execStsDm f s
  | .stmDm f => Sys2Proof.Machine.execStmDm f s
  | .ldwDm f => Sys2Proof.Machine.execLdwDm f s
  | .stwDm f => Sys2Proof.Machine.execStwDm f s
  | .ldgDm f => Sys2Proof.Machine.execLdgDm f s
  | .pmaxDm f => Sys2Proof.Machine.execPmaxDm f s
  | .agatDm f => Sys2Proof.Machine.execAgatDm f s
  | .asctDm f => Sys2Proof.Machine.execAsctDm f s
  | .kldDm f => Sys2Proof.Machine.execKldDm f s
  | .atomAdd f => Sys2Proof.Machine.execAtomAdd f s
  | .atomMin f => Sys2Proof.Machine.execAtomMin f s
  | .atomMax f => Sys2Proof.Machine.execAtomMax f s
  | .atomAnd f => Sys2Proof.Machine.execAtomAnd f s
  | .atomOr f => Sys2Proof.Machine.execAtomOr f s
  | .atomXor f => Sys2Proof.Machine.execAtomXor f s
  | .atomXchg f => Sys2Proof.Machine.execAtomXchg f s
  | .atomCas f => Sys2Proof.Machine.execAtomCas f s
  | .atomFadd f => Sys2Proof.Machine.execAtomFadd f s
  | .atomqBinc f => Sys2Proof.Machine.execAtomqBinc f s
  | .atomqWinc f => Sys2Proof.Machine.execAtomqWinc f s
  | .atomqCdec f => Sys2Proof.Machine.execAtomqCdec f s
  | .atomqLadd f => Sys2Proof.Machine.execAtomqLadd f s
  | .atomsAdd f => Sys2Proof.Machine.execAtomsAdd f s
  | .atomsMin f => Sys2Proof.Machine.execAtomsMin f s
  | .atomsMax f => Sys2Proof.Machine.execAtomsMax f s
  | .atomsAnd f => Sys2Proof.Machine.execAtomsAnd f s
  | .atomsOr f => Sys2Proof.Machine.execAtomsOr f s
  | .atomsXor f => Sys2Proof.Machine.execAtomsXor f s
  | .atomsXchg f => Sys2Proof.Machine.execAtomsXchg f s
  | .atomsCas f => Sys2Proof.Machine.execAtomsCas f s
  | .atomsFadd f => Sys2Proof.Machine.execAtomsFadd f s
  | .redAdd f => Sys2Proof.Machine.execRedAdd f s
  | .redMin f => Sys2Proof.Machine.execRedMin f s
  | .redMax f => Sys2Proof.Machine.execRedMax f s
  | .redAnd f => Sys2Proof.Machine.execRedAnd f s
  | .redOr f => Sys2Proof.Machine.execRedOr f s
  | .redXor f => Sys2Proof.Machine.execRedXor f s
  | .redFadd f => Sys2Proof.Machine.execRedFadd f s
  | .cpyD f => Sys2Proof.Machine.execCpyD f s
  | .cpytD f => Sys2Proof.Machine.execCpytD f s
  | .opkD f => Sys2Proof.Machine.execOpkD f s
  | .mwaitD f => Sys2Proof.Machine.execMwaitD f s
  | .waitaD f => Sys2Proof.Machine.execWaitaD f s
  | .waitcD f => Sys2Proof.Machine.execWaitcD f s
  | .fenceD f => Sys2Proof.Machine.execFenceD f s
  | .barD f => Sys2Proof.Machine.execBarD f s
  | .ebarD f => Sys2Proof.Machine.execEbarD f s
  | .astrD f => Sys2Proof.Machine.execAstrD f s
  | .mmaD f => Sys2Proof.Machine.execMmaD f s
  | .mmabD f => Sys2Proof.Machine.execMmabD f s
  | .mzeroD f => Sys2Proof.Machine.execMzeroD f s
  | .maccD f => Sys2Proof.Machine.execMaccD f s
  | .selcD f => Sys2Proof.Machine.execSelcD f s
  | .warpFormation cluster slot => Sys2Proof.Machine.execWarpFormation cluster slot s
  | .promotion thread => Sys2Proof.Machine.execPromotion thread s
  | .longWriteReturn op reply => Sys2Proof.Machine.execLongWriteReturn op reply s
  | .storeAcknowledgement op reply => Sys2Proof.Machine.execStoreAcknowledgement op reply s
  | .queueWaitResume cluster slot => Sys2Proof.Machine.execQueueWaitResume cluster slot s
  | .translationWalkEnd row ctx granule cached => Sys2Proof.Machine.execTranslationWalkEnd row ctx granule cached s
  | .mseRead op ecc => Sys2Proof.Machine.execMseRead op ecc s
  | .mseWrite op => Sys2Proof.Machine.execMseWrite op s
  | .mseAtomic op ecc => Sys2Proof.Machine.execMseAtomic op ecc s
  | .bankAtomic op => Sys2Proof.Machine.execBankAtomic op s
  | .opkPacket op replies => Sys2Proof.Machine.execOpkPacket op replies s
  | .forwardedOperation op => Sys2Proof.Machine.execForwardedOperation op s
  | .stmCopy op cluster => Sys2Proof.Machine.execStmCopy op cluster s
  | .registerWindowAccess op => Sys2Proof.Machine.execRegisterWindowAccess op s
  | .monitorRecheck thread => Sys2Proof.Machine.execMonitorRecheck thread s
  | .gateRelease op => Sys2Proof.Machine.execGateRelease op s
  | .frontierUpdate die => Sys2Proof.Machine.execFrontierUpdate die s
  | .gateResend op => Sys2Proof.Machine.execGateResend op s
  | .copyElementRead engine command ecc reply => Sys2Proof.Machine.execCopyElementRead engine command ecc reply s
  | .copyCompletion engine command => Sys2Proof.Machine.execCopyCompletion engine command s
  | .cacheDrop engine command place => Sys2Proof.Machine.execCacheDrop engine command place s
  | .sliceFill op => Sys2Proof.Machine.execSliceFill op s
  | .accessIssue group => Sys2Proof.Machine.execAccessIssue group s
  | .streamElementReturn group stream ecc reply => Sys2Proof.Machine.execStreamElementReturn group stream ecc reply s
  | .matrixOperationStart group => Sys2Proof.Machine.execMatrixOperationStart group s
  | .matrixOperationComplete group upset => Sys2Proof.Machine.execMatrixOperationComplete group upset s
  | .messageDelivery cluster message => Sys2Proof.Machine.execMessageDelivery cluster message s
  | .messageResend cluster message => Sys2Proof.Machine.execMessageResend cluster message s
  | .departure thread => Sys2Proof.Machine.execDeparture thread s
  | .migrationMessage thread peer => Sys2Proof.Machine.execMigrationMessage thread peer s
  | .migrationAcknowledgement thread => Sys2Proof.Machine.execMigrationAcknowledgement thread s
  | .migrationRefusal thread => Sys2Proof.Machine.execMigrationRefusal thread s
  | .migrResend thread => Sys2Proof.Machine.execMigrResend thread s
  | .arrivalAdmission cluster => Sys2Proof.Machine.execArrivalAdmission cluster s
  | .spawnMessage cluster message peer => Sys2Proof.Machine.execSpawnMessage cluster message peer s
  | .spawnResend cluster message => Sys2Proof.Machine.execSpawnResend cluster message s
  | .triggerNotice act count => Sys2Proof.Machine.execTriggerNotice act count s
  | .completionNotice act source count => Sys2Proof.Machine.execCompletionNotice act source count s
  | .failureNotice act => Sys2Proof.Machine.execFailureNotice act s
  | .racqGrant cluster => Sys2Proof.Machine.execRacqGrant cluster s
  | .registerPoolEviction cluster => Sys2Proof.Machine.execRegisterPoolEviction cluster s
  | .swapOut ctx row => Sys2Proof.Machine.execSwapOut ctx row s
  | .kldReply op reply => Sys2Proof.Machine.execKldReply op reply s
  | .transactionPacket op accepted => Sys2Proof.Machine.execTransactionPacket op accepted s
  | .fcommitCommit thread replies => Sys2Proof.Machine.execFcommitCommit thread replies s
  | .fcommitReply thread reply => Sys2Proof.Machine.execFcommitReply thread reply s
  | .actRetirement act => Sys2Proof.Machine.execActRetirement act s
  | .cbpost callboard header => Sys2Proof.Machine.execCbpost callboard header s
  | .cbctlWrite callboard value => Sys2Proof.Machine.execCbctlWrite callboard value s
  | .actReady callboard => Sys2Proof.Machine.execActReady callboard s
  | .placement partition => Sys2Proof.Machine.execPlacement partition s
  | .roamingReleaseResend act => Sys2Proof.Machine.execRoamingReleaseResend act s
  | .congestionWindow rows dies => Sys2Proof.Machine.execCongestionWindow rows dies s
  | .partmapWrite value => Sys2Proof.Machine.execPartmapWrite value s
  | .contextEnable ctx value => Sys2Proof.Machine.execContextEnable ctx value s
  | .contextEnd ctx value => Sys2Proof.Machine.execContextEnd ctx value s
  | .ctxmodeWrite ctx value => Sys2Proof.Machine.execCtxmodeWrite ctx value s
  | .clockChangeDone partition => Sys2Proof.Machine.execClockChangeDone partition s
  | .switchOut ctx => Sys2Proof.Machine.execSwitchOut ctx s
  | .switchIn ctx => Sys2Proof.Machine.execSwitchIn ctx s
  | .frameownWrite value => Sys2Proof.Machine.execFrameownWrite value s
  | .zeroFillDone frame => Sys2Proof.Machine.execZeroFillDone frame s
  | .ctxinvRange ctx value => Sys2Proof.Machine.execCtxinvRange ctx value s
  | .ctxinvAll ctx => Sys2Proof.Machine.execCtxinvAll ctx s
  | .invalidationComplete ctx => Sys2Proof.Machine.execInvalidationComplete ctx s
  | .atsCompletion request answer => Sys2Proof.Machine.execAtsCompletion request answer s
  | .atsTimeout request => Sys2Proof.Machine.execAtsTimeout request s
  | .atsInvalidateRequest tag pasid page pages all => Sys2Proof.Machine.execAtsInvalidateRequest tag pasid page pages all s
  | .invalidateCompletion tag => Sys2Proof.Machine.execInvalidateCompletion tag s
  | .prgResponse request code => Sys2Proof.Machine.execPrgResponse request code s
  | .bar2Read address bytes => Sys2Proof.Machine.execBar2Read address bytes s
  | .bar2Write address data => Sys2Proof.Machine.execBar2Write address data s
  | .personalitySwitch group value => Sys2Proof.Machine.execPersonalitySwitch group value s
  | .quiesceNotice group => Sys2Proof.Machine.execQuiesceNotice group s
  | .switchDrainEnd group => Sys2Proof.Machine.execSwitchDrainEnd group s
  | .switchDrainBound group applied => Sys2Proof.Machine.execSwitchDrainBound group applied s
  | .switchRetrainDone group trained => Sys2Proof.Machine.execSwitchRetrainDone group trained s
  | .switchExchangeDone group result => Sys2Proof.Machine.execSwitchExchangeDone group result s
  | .lossOfLight group applied => Sys2Proof.Machine.execLossOfLight group applied s
  | .peerLeftPod package => Sys2Proof.Machine.execPeerLeftPod package s
  | .peerRequest request => Sys2Proof.Machine.execPeerRequest request s
  | .cxlTimeout op => Sys2Proof.Machine.execCxlTimeout op s
  | .fabricAckTimeout op => Sys2Proof.Machine.execFabricAckTimeout op s
  | .keyRotation group => Sys2Proof.Machine.execKeyRotation group s
  | .linkRecoveryResolved thread => Sys2Proof.Machine.execLinkRecoveryResolved thread s
  | .linkRecoveryTimeout thread => Sys2Proof.Machine.execLinkRecoveryTimeout thread s
  | .linkFlitError link lane exhausted => Sys2Proof.Machine.execLinkFlitError link lane exhausted s
  | .curtainSignal ctx engine unit => Sys2Proof.Machine.execCurtainSignal ctx engine unit s
  | .curtainSkidDeadline ctx => Sys2Proof.Machine.execCurtainSkidDeadline ctx s
  | .curtainDone ctx => Sys2Proof.Machine.execCurtainDone ctx s
  | .watchdogExpiry owner => Sys2Proof.Machine.execWatchdogExpiry owner s
  | .ctxpgdoneGranule ctx granule => Sys2Proof.Machine.execCtxpgdoneGranule ctx granule s
  | .ctxpgdoneAll ctx => Sys2Proof.Machine.execCtxpgdoneAll ctx s
  | .ctxdbgRd ctx coord => Sys2Proof.Machine.execCtxdbgRd ctx coord s
  | .ctxdbgWr ctx coord => Sys2Proof.Machine.execCtxdbgWr ctx coord s
  | .ctxdbgRes ctx coord => Sys2Proof.Machine.execCtxdbgRes ctx coord s
  | .ctxfrpRead ctx => Sys2Proof.Machine.execCtxfrpRead ctx s
  | .relrpRead => Sys2Proof.Machine.execRelrpRead s
  | .egstatRead group => Sys2Proof.Machine.execEgstatRead group s
  | .scrub cluster sector ecc => Sys2Proof.Machine.execScrub cluster sector ecc s
  | .repcmdRepair value => Sys2Proof.Machine.execRepcmdRepair value s
  | .repairDone kind unit => Sys2Proof.Machine.execRepairDone kind unit s
  | .boot found => Sys2Proof.Machine.execBoot found s
  | .firmwareUpdate image => Sys2Proof.Machine.execFirmwareUpdate image s
  | .recoveryLoad image => Sys2Proof.Machine.execRecoveryLoad image s
  | .attestationRequest value => Sys2Proof.Machine.execAttestationRequest value s
  | .attestationReportDone stored => Sys2Proof.Machine.execAttestationReportDone stored s
  | .powerWindow measured hot => Sys2Proof.Machine.execPowerWindow measured hot s
  | .pwrctlWrite value => Sys2Proof.Machine.execPwrctlWrite value s
  | .registerWrite reg index value => Sys2Proof.Machine.execRegisterWrite reg index value s
  | .instructionFault cluster slot => Sys2Proof.Machine.execInstructionFault cluster slot s
  | .spawnAcknowledgement cluster message => Sys2Proof.Machine.execSpawnAcknowledgement cluster message s
  | .hostCompletionTimeout op => Sys2Proof.Machine.execHostCompletionTimeout op s
  | .fabricUnreachableTimeout act => Sys2Proof.Machine.execFabricUnreachableTimeout act s
  | .powerLoss => Sys2Proof.Machine.execPowerLoss s

end Sys2Proof.Machine
end

