-- ==== Sys2Proof/Machine/Storage.lean ====
section
/-! DEFINITION. Errors in storage other than HBM (spec/21 R439, R441, spec/12 R315, spec/04 R85): what SECDED finds in a storage element,
as an input from outside (log entry 102). -/

namespace Sys2Proof.Machine

/-- Change the i-th of a list. -/
def changeAt {α : Type} (l : List α) (i : Nat) (f : α → α) : List α := l.zipIdx.map fun (x, n) => if n = i then f x else x

def dropAt {α : Type} (l : List α) (i : Nat) : List α := (l.zipIdx.filter fun (_, n) => n != i).map fun (x, _) => x

/-- A queue element that is lost is the token; room and places keep what they are. -/
def QEl.lose (tok : Word) : QEl → QEl
  | .val _ => .val (.tok tok)
  | .head _ vc => .head (.tok tok) vc
  | e => e

def Cell.lose (c : Cell) (tok : Word) : Cell := { c with tag := true, val := tok }

def Thread.loseReg (t : Thread) (n : Nat) (tok : Word) : Thread :=
  if n = 200 then { t with l0 := t.l0.lose tok }
  else if n = 201 then { t with l1 := t.l1.lose tok }
  else t.setCell n ((t.cell n).lose tok)

/-- An operation whose value has come to an I/O die, at the host port or an edge port group, and has not been given back. -/
def State.ioReader (s : State) (k : Nat) : Option Op :=
  (find s.ops k).bind fun o => if o.abroad && o.stage = .performed && !o.retired && !o.reply.isEmpty then some o else none

/-- Where an element stands: its unit and kind of R444 or 7, its owner. None where there is no such element. -/
def State.storageUnit (s : State) (e : Storage) : Option (Nat × Nat × Nat) :=
  let groupUnit (g : Nat) (p : Group → Bool) := (s.group? g).bind fun gr => if p gr then some (gr.cluster, 7, gr.ctx) else none
  match e with
  | .reg k n => (s.thread? k).bind fun t => if n ≤ 201 then some (clusterOfKey k, 7, t.ctx) else none
  | .pred k p => (s.thread? k).bind fun t => if p < t.preds.length then some (clusterOfKey k, 7, t.ctx) else none
  | .kreg g n => groupUnit g fun gr => decide (n < gr.k.length)
  | .pad g n => groupUnit g fun gr => decide (4 * n < gr.scr)
  | .acc g n => groupUnit g fun gr => decide (n < gr.nacc)
  | .queue g q i => groupUnit g fun gr => decide (i < (get gr.q q []).length)
  | .fifo g n i => groupUnit g fun gr => decide (i < (get gr.fifos n []).length)
  | .inbox c a cl i => (s.act? c a).bind fun x => if i < (get x.inbox cl []).length then some (cl, 7, c) else none
  | .merge c w => (find (s.cluster c).merges w).map fun m => (c, 3, m.ctx)
  | .stamp c i => if i < (s.cluster c).stamps.length then some (c, 3, 0x40) else none
  | .tlb r i => ((s.row r).tlb[i]?).map fun x => (0x9000 + r, 7, x.ctx)
  | .line c pa _ => (s.heldLine c pa).map fun _ => ((s.lineUnit c pa).1, (s.lineUnit c pa).2, get s.owners (pa / 2 ^ 16) 0x40)
  | .walk r i => ((s.row r).walkCache[i]?).map fun x => (0x9000 + r, 7, x.ctx)
  | .staged e c i => (s.copyCmd? e c).bind fun x => if i < x.staged.length then some (0x8000 + e, 7, x.ctx) else none
  | .streamed g n i => (s.group? g).bind fun gr => (gr.slice.bind fun sl => sl.streams.find? fun x => x.id = n).bind fun x =>
      if i < x.staged.length then some (gr.cluster, 7, gr.ctx) else none
  | .io k => (s.ioReader k).map fun o => (0xFFFF, 7, o.ctx)
  | .sector pa => match s.region pa with
    | some (.home c) => if s.unfilled pa || s.checkSymbol pa then none else some (c, 4, get s.owners (pa / 2 ^ 16) 0x40)
    | _ => none

/-- An operation that has read a line and has not given its value back. -/
def State.lineReader (s : State) (c pa : Nat) (k : Nat) : Option Op :=
  (find s.ops k).bind fun o =>
    match o.work with
    | .load _ true _ | .ragged _ _ _ _ _ true _ => if o.cluster = c && o.pa / 64 = pa / 64 && o.stage = .performed && !o.retired then some o else none
    | _ => none

/-- A clock that nothing is known of (log entry 4): what is left of a lost stamp, which has no token to hold. -/
def State.freeClock (s : State) : Clock × State :=
  let (ws, s) := s.freeWords 8
  let n (i : Nat) : Nat := (ws.getD i 0).toNat * 2 ^ 32 + (ws.getD (i + 1) 0).toNat
  (⟨n 0, n 2, n 4, n 6⟩, s)

/-- What an uncorrectable error does to its element: Token(0x21); an entry of a TLB or of a walk cache is dropped and walked again; a line is
dropped, and the read that found it receives the token (R315); a stamp is a value that nothing is known of. -/
def State.lose (s : State) (e : Storage) (tok : Word) : State :=
  match e with
  | .reg k n => s.modThread k fun t => t.loseReg n tok
  | .pred k p => s.modThread k fun t => { t with preds := changeAt t.preds p fun x => { x with tag := true, tok := tok } }
  | .kreg g n => s.modGroup g fun gr => { gr with k := changeAt gr.k n fun _ => .tok tok }
  | .pad g n => s.modGroup g fun gr => { gr with pad := put gr.pad n (.tok tok) }
  | .acc g n => s.modGroup g fun gr => { gr with acc := put gr.acc n (.tok tok) }
  | .queue g q i => s.modGroup g fun gr => { gr with q := put gr.q q (changeAt (get gr.q q []) i (QEl.lose tok)) }
  | .fifo g n i => s.modGroup g fun gr => { gr with fifos := put gr.fifos n (changeAt (get gr.fifos n []) i (QEl.lose tok)) }
  | .inbox c a cl i => s.modAct c a fun x => { x with inbox := put x.inbox cl (changeAt (get x.inbox cl []) i (QEl.lose tok)) }
  | .merge c w => s.modCluster c fun v => { v with merges := mapVals (fun k m => if k = w then m.poison tok else m) v.merges }
  | .stamp c i =>
    let (v, s) := s.freeClock
    s.modCluster c fun x => { x with stamps := changeAt x.stamps i fun e => { e with clock := v } }
  | .tlb r i => s.modRow r fun v => { v with tlb := dropAt v.tlb i }
  | .walk r i => s.modRow r fun v => { v with walkCache := dropAt v.walkCache i }
  | .staged e c i => s.modCopy e c fun x => { x with staged := changeAt x.staged i fun _ => .tok tok }
  | .streamed g n i => s.modGroup g fun gr => { gr with slice := gr.slice.map fun sl => { sl with streams := sl.streams.map fun x =>
      if x.id = n then { x with staged := changeAt x.staged i fun l => l.map fun _ => .tok tok } else x } }
  | .io k => s.modOp k fun o => { o with reply := tokOut o.wide (token 0x21 o.origin) }
  | .sector _ => s
  | .line c pa reader =>
    let s := s.dropLine c pa
    match reader.bind fun k => (s.lineReader c pa k).map fun o => (k, o) with
    | some (k, o) => s.modOp k fun o' => { o' with reply := tokOut o.wide (token 0x21 o.origin) }
    | none => s

/-- The origin of the token that an element takes: in the accumulator store the serial of R260, in an engine's staging that of its command or
stream (R81), elsewhere free (log entry 4). -/
def State.lostOrigin (s : State) (e : Storage) : Nat × State :=
  match e with
  | .acc g _ => ((s.cluster ((s.group? g).elim 0 Group.cluster)).matSer % 2 ^ 24, s)
  | .staged e c _ => ((s.copyCmd? e c).elim 0 CopyCmd.serial % 2 ^ 24, s)
  | .streamed g n _ =>
    ((((s.group? g).bind Group.slice).bind fun sl => sl.streams.find? fun x => x.id = n).elim 0 Stream.serial % 2 ^ 24, s)
  | _ => let (ws, s') := s.freeWords 1; ((ws.headD 0).toNat % 2 ^ 24, s')

/-- The address that a record names: that of a line. -/
def Storage.addr (e : Storage) : Nat := match e with | .line _ pa _ => pa / 64 * 64 | _ => 0

/-- An error in a storage element: corrected, it changes no value and is counted; else the element is lost and the event is recorded
(R439, R441). -/
def State.decay (s : State) (e : Storage) (lost : Bool) : Res :=
  match s.storageUnit e with
  | none => .refused .notEnabled
  | some (unit, kind, ctx) =>
    match e with
    | .sector pa => .next (s.detect pa (if lost then .uncorrectable else .corrected))
    | _ =>
    if !lost then .next (s.reliability 1 0 unit kind ctx e.addr) else
    let (origin, s) := s.lostOrigin e
    .next ((s.lose e (token 0x21 origin)).reliability 2 0x21 unit kind ctx e.addr)

end Sys2Proof.Machine
end

