-- ==== Sys2Proof/Machine/Issue.lean ====
section
/-! DEFINITION. One issue of a slot or of an access slice: fetch, decode, and the meaning (spec/02 R24, R30, R31, spec/05 R105 to
R107). -/

namespace Sys2Proof.Machine

/-- The meanings of the instructions that the decoder carries apart (`Laws.execLate_eq`). -/
def execLate (l : Late) (s : State) : Res :=
  match l with
  | .opkD f => execOpkD f s
  | .mwaitD f => execMwaitD f s
  | .waitaD f => execWaitaD f s
  | .waitcD f => execWaitcD f s
  | .fenceD f => execFenceD f s
  | .barD f => execBarD f s
  | .ebarD f => execEbarD f s
  | .astrD f => execAstrD f s
  | .mmaD f => execMmaD f s
  | .mmabD f => execMmabD f s
  | .mzeroD f => execMzeroD f s
  | .maccD f => execMaccD f s
  | .selcD f => execSelcD f s

def execDecoded (d : Decoded) (s : State) : Res :=
  match d with
  | .early i => exec i s
  | .late l => execLate l s

/-- The reason for which a warp waits while a remote target has not answered a packet of its open transactions: reason 0x03 takes effect
at the OPK (R196, R418). DEDUCED (log entry 73). -/
def State.answerWait (s : State) (f : Front) : Option Nat :=
  let asked := (f.keys.flatMap fun k => match s.thread? k with
    | some t => (match t.txn with | some x => x.held.filterMap (find s.ops) | none => [])
    | none => []).filter Op.asks
  if asked.isEmpty then none else if asked.any fun o => o.eg.isNone then some 0x17 else some 0x11

/-- Fetch at a front and do what is found there. -/
def State.issueAt (s : State) (f : Front) : Res :=
  match s.fetched f with
  | .ok d _ => execDecoded d s
  | .fault cause code va => .next (s.takeInstrFault f cause code va)
  | .miss va => .next (s.stallFor (rowOf f.cluster) f.ctx (granule va) f.user)

/-- What the warp of slot k at `State.cur` does: it waits for a transaction's target, or it issues. -/
def State.issueNow (s : State) (k : Nat) : Res :=
  match s.front with
  | none => .refused .notEnabled
  | some f => match s.answerWait f with | some r => .next (s.slotWait k r) | none => s.issueAt f

/-- A slot's issue begins: not before its last instruction has left the slot, and not in a core cycle in which a higher slot of the cluster
has issued, so that the slots of one core cycle issue in ascending order (R40, R187, R204, R231, R241, R244, R277). The slot is busy for a
core cycle (R24). -/
def State.beginIssue (s : State) (k : Nat) (upset : List Nat) : State :=
  let busy := (s.slot k).busy
  let s := if s.now < busy then s.pass (busy - s.now) else s
  let row := rowOf (k / 4)
  let late := (List.range 4).any fun j => decide (k % 4 < j) && (s.slot (k / 4 * 4 + j)).issued = s.coreCycle (k / 4) + 1
  let s := if late then s.pass (s.toNextCycle row) else s
  { s with cur := .slot k, upset := upset }.modSlot k fun sl =>
    { sl with busy := s.now + cycleOf (s.row row).clk, issued := s.coreCycle (k / 4) + 1 }

/-- The time of an issue, as throttling and the choice of an ensemble to swap out read it (R280, R362, R372). -/
def State.noteIssue (s : State) (cluster : Nat) (t : Thread) : State :=
  match t.group with
  | some g =>
    let s := s.modGroup g fun gr => { gr with lastIssue := s.now }
    let s := match s.group? g with
      | some gr => (match find s.ensembles gr.ens with
        | some e => { s with ensembles := put s.ensembles gr.ens { e with lastIssue := s.now } }
        | none => s)
      | none => s
    s.modRow (rowOf cluster) fun r => { r with issued := put r.issued t.ctx s.now }
  | none => s.modCluster cluster fun c => { c with issued := put c.issued (actKey t.ctx t.act) s.now }

/-- One issue of a slot. While a clock change lasts, its clusters issue nothing (R368). -/
def State.issueSlot (s : State) (k : Nat) (upset : List Nat) : Res :=
  if (s.row (rowOf (k / 4))).clkUntil != 0 then .refused .notEnabled
  else
    let s := s.beginIssue k upset
    let first := (s.slotLanes k).head?.map fun x => x.2.2
    match s.issueNow k, first with
    | .next s', some t => .next (if (s'.slot k).wait = 0 then s'.noteIssue (k / 4) t else s')
    | r, _ => r

/-- What has been performed in a step gets the number of its reply (R313). -/
def State.numberReplies (s : State) : State :=
  let new (o : Op) : Bool := o.stage = .performed && o.done = 0
  if s.ops.any fun (_, o) => new o then
    s.ops.foldl (fun s (k, o) => if new o then (let (n, s) := s.fresh; s.setOp k { o with done := n + 2 }) else s) s
  else s

/-- What follows every step: what the device has written takes effect (R238), replies leave, and switch-outs go on (R380). -/
def State.settleEnd (s : State) : State := s.afterWrites.numberReplies.goSwitches.noteEndpoints.noteHolders

def settleStep (r : Res) : Res := match r with | .next s => .next s.settleEnd | r => r

/-- After a failed verification the package waits for a recovery load: writes to its window, the command, a boot (R447, R448). DEDUCED (log
entry 135). -/
def Instr.inRecovery (i : Instr) : Bool :=
  match i with
  | .boot _ | .recoveryLoad _ | .powerLoss | .registerWrite .recovery _ _ => true
  | _ => false

/-- What the agenda says moves next. Without power only a boot does (R447, R449). -/
def State.move (s : State) (m : Move) : Res :=
  settleStep <| match m with
  | .issue k upset => if !s.pkg.powered then .fault .powerOff else if s.root.recovery then .refused .notEnabled else s.issueSlot k upset
  | .event (.boot found) => exec (.boot found) { s with upset := [] }
  | .access g upset => if !s.pkg.powered then .fault .powerOff else if s.root.recovery then .refused .notEnabled else execAccessIssue g { s with upset := upset }
  | .event i =>
    if !s.pkg.powered then .fault .powerOff else if s.root.recovery && !Instr.inRecovery i then .refused .notEnabled else exec i { s with upset := [] }
  | .decay e lost => if s.pkg.powered then s.decay e lost else .fault .powerOff
  | .idle => if s.pkg.powered then .next s else .fault .powerOff

end Sys2Proof.Machine
end

