-- ==== Sys2Proof/Machine/Policy.lean ====
section
/-! DEFINITION. What moves where the agenda is empty (log entry 1), and the placing of an instruction for `State.withFetchWord`. -/

namespace Sys2Proof.Machine

/-- The address at which `State.withFetchWord` places its instruction, physical and virtual. -/
def codeAt : Nat := 0x10000

def State.placed (s : State) (bytes : List Byte) : State :=
  let t : Thread := { Thread.new 0 0 none 0 0 (BitVec.ofNat 64 codeAt) s.now with cue := .issuing }
  let e : TlbEl := ⟨0, codeAt, false, codeAt, 2, false, false, 2 ^ 16, none⟩
  let c := s.ctx 0
  let r := s.row 0
  { s with
    agenda := ⟨0, .issue 0 []⟩ :: s.agenda
    mem := writeBytes s.mem codeAt bytes
    threads := put s.threads 0 t
    slots := put s.slots 0 { Slot.init with lanes := [some 0], pc := BitVec.ofNat 64 codeAt }
    rows := put s.rows 0 { r with tlb := e :: r.tlb }
    ctxs := put s.ctxs 0 { c with ctl := setD c.ctl 63 63 1 } }

/-- The same for the three instructions that the access slice alone has: a group on cluster 0 whose slice is about to issue. (The compiler
has no code for a constructor past the 243rd of a type, as ACCESS_ISSUE is; the kernel evaluates it.) -/
noncomputable def State.placedSlice (s0 : State) (bytes : List Byte) : State :=
  let s := s0.placed bytes
  let g : Group := { ctx := 0, act := 0, gid := 0, index := 0, ens := 0, cluster := 0, base := 0, size := 1, row0 := 0, scr := 0, mirror := 0
                     swz := 0, nacc := 0, nfifo := 0, qbind := 0, asl := true, memb := false, k := List.replicate 16 Tw.zero, kPrev := none
                     q := [], fifos := [], acc := [], pad := [], bars := [], mq := [], mxDog := 0
                     slice := some ⟨BitVec.ofNat 64 codeAt, true, 0, s.now, [], [], 0⟩, lastIssue := s.now, enabled := true, exited := 0 }
  { s with
    agenda := ⟨0, .event (.accessIssue 0)⟩ :: s.agenda.drop 1
    slots := s0.slots
    groups := put s.groups 0 g
    threads := (List.range 32).foldl (fun m l =>
      put m (laneKey 0 l) (Thread.new 0 0 (some 0) 0 (BitVec.ofNat 32 l) (BitVec.ofNat 64 codeAt) s.now)) s0.threads }

/-! The model's own order (log entry 1): the steps that other agents can take come before the next issue, time passes where nothing
can move, and the steps of the scheduler are tried every sixteenth turn. -/

/-- The steps of one operation in flight. -/
def opSteps (k : Nat) : List (State → Res) :=
  [execMseRead k .clean, execMseWrite k, execMseAtomic k .clean, execSliceFill k, execBankAtomic k, execOpkPacket k [], execGateRelease k,
   execGateResend k, execForwardedOperation k, execRegisterWindowAccess k, execLongWriteReturn k .home, execKldReply k .home,
   execStoreAcknowledgement k .home]

/-- The steps of one thread. -/
def threadSteps (k : Nat) : List (State → Res) :=
  [execPromotion k, execMonitorRecheck k, execFcommitCommit k [], execFcommitReply k .home, execDeparture k, execMigrationMessage k .refused,
   execMigrationAcknowledgement k, execMigrationRefusal k, execMigrResend k, execLinkRecoveryResolved k, execLinkRecoveryTimeout k,
   execWatchdogExpiry (.thread k)]

/-- The steps of one group. -/
def groupSteps (g : Nat) (gr : Group) : List (State → Res) :=
  [execMatrixOperationStart g, execMatrixOperationComplete g [], execWatchdogExpiry (.slice g), execWatchdogExpiry (.matrix g)]
    ++ (match gr.slice with
      | some sl => sl.streams.flatMap fun x => [none, some .home].map fun r => execStreamElementReturn g x.id .clean r
      | none => [])

/-- The steps of a copy command. -/
def copySteps (e : Nat) (c : CopyCmd) : List (State → Res) :=
  [execCopyElementRead e c.id .clean none, execCopyElementRead e c.id .clean (some .home), execCopyCompletion e c.id]
    ++ (if c.kind = 4 ∧ !c.left then (List.range cachePlaces).map fun p => execCacheDrop e c.id p else [])

/-- The steps of a cluster's slots and messages. -/
def clusterSteps (s : State) (c : Nat) : List (State → Res) :=
  (List.range 4).flatMap (fun i => [execWarpFormation c i, execQueueWaitResume c i])
    ++ ((s.cluster c).outbox.flatMap fun m => [execMessageDelivery c m.id, execMessageResend c m.id, execSpawnMessage c m.id .refused,
      execSpawnAcknowledgement c m.id, execSpawnResend c m.id])
    ++ [execArrivalAdmission c, execRacqGrant c]

/-- The clusters on which something stands. -/
def State.liveClusters (s : State) : List Nat :=
  ((s.threads.map fun (x : Nat × Thread) => clusterOfKey x.1) ++ s.clusters.map fun (x : Nat × Cluster) => x.1).eraseDups

/-- The steps of the agents that work whenever they can. -/
def State.ready (s : State) : List (State → Res) :=
  (s.ops.flatMap fun (x : Nat × Op) => opSteps x.1 ++ match x.2.work with | .stm _ _ _ => (List.range 768).map (execStmCopy x.1) | _ => [])
    ++ (s.threads.flatMap fun (x : Nat × Thread) => threadSteps x.1)
    ++ (s.groups.flatMap fun (x : Nat × Group) => groupSteps x.1 x.2)
    ++ (s.engines.flatMap fun (x : Nat × Engine) => x.2.cmds.flatMap fun c => copySteps x.1 c)
    ++ (s.rows.flatMap fun (x : Nat × Row) => x.2.walks.map fun w => execTranslationWalkEnd x.1 w.ctx w.granule true)
    ++ (s.liveClusters.flatMap fun c => clusterSteps s c)
    ++ (s.acts.map fun (x : Nat × Act) => execActRetirement x.1)
    ++ (s.zeroPend.map fun f => execZeroFillDone f)
    ++ (s.ctxs.flatMap fun (x : Nat × Ctx) => [execInvalidationComplete x.1, execCurtainSkidDeadline x.1, execCurtainDone x.1])
    ++ (s.port.invs.map fun x => execInvalidateCompletion x.1)

/-- The steps tried every sixteenth turn: the scheduler's, and those of the access slices. -/
def State.periodic (s : State) : List (State → Res) :=
  (List.range 4).map execFrontierUpdate
    ++ (s.groups.map fun (x : Nat × Group) => execAccessIssue x.1)
    ++ ((List.range 32).flatMap fun r => [execClockChangeDone r, execPlacement r])
    ++ (s.boards.map fun (x : Nat × Board) => execActReady x.1)
    ++ (s.acts.map fun (x : Nat × Act) => execRoamingReleaseResend x.1)
    ++ (s.liveClusters.map fun c => execRegisterPoolEviction c)

def firstNext (s : State) : List (State → Res) → Option State
  | [] => none
  | f :: r => match f s with | .next s' => some s'.settleEnd | _ => firstNext s r

def tryAll (s : State) (l : List (State → Res)) : State := l.foldl (fun s f => match f s with | .next s' => s'.settleEnd | _ => s) s

/-- The slots that hold a warp, in the order in which they may issue next; of those at one time the lowest first. -/
def State.warps (s : State) : List Nat :=
  let l := (s.slots.filter fun (x : Nat × Slot) => !(s.slotLanes x.1).isEmpty).map fun (x : Nat × Slot) => x.1
  sortBy (fun a b => lexLe [max s.now (s.slot a).busy, a] [max s.now (s.slot b).busy, b]) l

/-- One step where the agenda is empty. -/
def State.auto (s : State) : Res :=
  if !s.pkg.powered then .fault .powerOff else
  let s := { s with turn := s.turn + 1, upset := [] }
  if s.turn % 16 = 0 then .next (tryAll (s.pass 20) s.periodic) else
  match firstNext s s.ready with
  | some s' => .next s'
  | none =>
    match firstNext s (s.warps.map fun k s => s.issueSlot k []) with
    | some s' => .next s'
    | none => .next (s.pass 20)

end Sys2Proof.Machine
end

