-- ==== Sys2Proof/Machine/Step.lean ====
section
/-! DEFINITION. One step of the package, and where a test places an instruction. -/

namespace Sys2Proof.Machine

/-- One step: the head of the agenda, or what the model's own order picks where the agenda is empty (log entry 1). -/
def step (s : State) : Host.Outcome State Fault Refusal :=
  match s.agenda with
  | a :: r => ({ s with agenda := r }.pass a.wait).move a.move
  | [] => s.auto

/-- s with an instruction where the next step issues (log entry 13): context 0 enabled, its code page in the TLB of row 0, one
roaming thread Issuing in slot 0 of cluster 0, and the issue of that slot at the head of the agenda. ASTR, AGAT and ASCT exist in the
access slice alone (R201): for them a group's slice stands there, and its ACCESS_ISSUE. -/
noncomputable def State.withFetchWord (s : State) (nbits w : Nat) : State :=
  let bytes := toBytes 8 (w % 2 ^ nbits)
  if accessOnly (w % 2 ^ nbits) then s.placedSlice bytes else s.placed bytes

end Sys2Proof.Machine
end

