-- ==== Sys2Proof/Safety/Accesses.lean ====
section
/-! DEFINITION. The memory instructions as the statements speak of them: what each reads, where it goes and what it does there
(spec/08 R199 to R221). -/

namespace Sys2Proof.Safety

open Sys2Proof.Machine

/-- The access that a memory instruction makes. -/
def memRule : Instr → Option (DMForm × MemDo)
  | .ldDm f => some (f, { loadDo f false true with mirrors := true })
  | .ldfDm f => some (f, { loadDo f false false with mirrors := true })
  | .ldsDm f => some (f, loadDo f true false)
  | .stDm f => some (f, storeDo f false)
  | .stsDm f => some (f, storeDo f true)
  | .stmDm f => some (f, { storeDo f true with addr := stmOffset f, work := fun vs => .stm (stmMask vs) (dmSize f) (valAt vs 2).bits, special := some (stmAim f) })
  | .ldwDm f => some (f, { loadDo f false false with work := fun _ => .ldw f.type, cached := false, special := some (windowAim f) })
  | .stwDm f => some (f, { storeDo f false with work := fun vs => .stw f.type (valAt vs 2).bits, special := some (windowAim f) })
  | .ldgDm f => some (f, { loadDo f false false with srcs := [dmBase f, .pair f.index false], align := 32, addr := ldgAddr, work := fun vs => .ragged f.type (lo32 (valAt vs 1).bits) (hi32 (valAt vs 1).bits) f.offset.toInt [] false (f.cache != 1) })
  | .atomAdd f => some (f, atomDo f .add false false (dmSize f))
  | .atomMin f => some (f, atomDo f .min false false (dmSize f))
  | .atomMax f => some (f, atomDo f .max false false (dmSize f))
  | .atomAnd f => some (f, atomDo f .and false false (dmSize f))
  | .atomOr f => some (f, atomDo f .or false false (dmSize f))
  | .atomXor f => some (f, atomDo f .xor false false (dmSize f))
  | .atomXchg f => some (f, atomDo f .xchg false false (dmSize f))
  | .atomCas f => some (f, atomDo f .cas false false (dmSize f))
  | .atomFadd f => some (f, atomDo f .fadd false false (dmSize f))
  | .atomqBinc f => some (f, atomDo f .binc false true 4)
  | .atomqWinc f => some (f, atomDo f .winc false true 4)
  | .atomqCdec f => some (f, atomDo f .cdec false true 4)
  | .atomqLadd f => some (f, atomDo f .ladd false true 8)
  | .atomsAdd f => some (f, atomDo f .add true false (dmSize f))
  | .atomsMin f => some (f, atomDo f .min true false (dmSize f))
  | .atomsMax f => some (f, atomDo f .max true false (dmSize f))
  | .atomsAnd f => some (f, atomDo f .and true false (dmSize f))
  | .atomsOr f => some (f, atomDo f .or true false (dmSize f))
  | .atomsXor f => some (f, atomDo f .xor true false (dmSize f))
  | .atomsXchg f => some (f, atomDo f .xchg true false (dmSize f))
  | .atomsCas f => some (f, atomDo f .cas true false (dmSize f))
  | .atomsFadd f => some (f, atomDo f .fadd true false (dmSize f))
  | .redAdd f => some (f, atomDo f .add false false (dmSize f))
  | .redMin f => some (f, atomDo f .min false false (dmSize f))
  | .redMax f => some (f, atomDo f .max false false (dmSize f))
  | .redAnd f => some (f, atomDo f .and false false (dmSize f))
  | .redOr f => some (f, atomDo f .or false false (dmSize f))
  | .redXor f => some (f, atomDo f .xor false false (dmSize f))
  | .redFadd f => some (f, atomDo f .fadd false false (dmSize f))
  | .pmaxDm f => some (f, atomDo f .pmax true false 8)
  | _ => none

end Sys2Proof.Safety
end

