-- ==== Sys2Proof/Safety/Flow.lean ====
section
/-! DEFINITION. Branches and the instructions that act in each thread by itself, as the statements speak of them (spec/07). -/

namespace Sys2Proof.Safety

open Sys2Proof.Machine

/-- A branch, call or return: its operands, its link register, and its target (R172 to R174). -/
structure BranchRule where
  head : Head
  srcs : List Src
  dst : Dst
  link : Option Byte
  target : Dword → List Val → Dword

/-- PC + 2 × offset. -/
def near (off : Int) (pc : Dword) (_ : List Val) : Dword := pc + BitVec.ofInt 64 (2 * off)
/-- The pair s1 with bit 0 cleared. -/
def far (_ : Dword) (vs : List Val) : Dword := (vs.headD (.dat 0)).bits &&& ~~~1

def branchRule : Instr → Option BranchRule
  | .braWi f => some ⟨wiHead f, [], .none, none, near f.imm.toInt⟩
  | .braDi f => some ⟨diHead f, [], .none, none, near f.imm.toInt⟩
  | .brxD f => some ⟨dHead f, [.pair f.s1 (f.s1lk.getLsbD 1)], .none, none, far⟩
  | .callDi f => some ⟨diHead f, [], .reg f.d true, some f.d, near f.imm.toInt⟩
  | .callxD f => some ⟨dHead f, [.pair f.s1 (f.s1lk.getLsbD 1)], .reg f.d true, some f.d, far⟩
  | .retD f => some ⟨dHead f, [.pair f.s1 (f.s1lk.getLsbD 1)], .none, none, far⟩
  | .retW f => some ⟨wHead f, [.pair (reg6 f.s1) false], .none, none, far⟩
  | _ => none

/-- An instruction without operands that acts in each thread whose guard holds: whether it ends the run, what makes it an instruction
fault, and what it does to a thread. -/
structure ThreadRule where
  head : Head
  ends : Bool
  fault : Warp → Bool
  act : Warp → State → Lane → State

/-- A register block request (R185): with .try the answer goes to a predicate. -/
def racqTry (f : DForm) : Option Nat := if f.mod.getLsbD 3 then some (f.d.toNat % 8) else none

def threadRule : Instr → Option ThreadRule
  | .nopW f => some ⟨wHead f, false, fun _ => false, fun _ s _ => s⟩
  | .nopD f => some ⟨dHead f, false, fun _ => false, fun _ s _ => s⟩
  | .holdW f => some ⟨unheld (wHead f), true, fun _ => false, fun w s l => s.hold l.key (w.pc + 4)⟩
  | .holdD f => some ⟨unheld (dHead f), true, fun _ => false, fun w s l => s.hold l.key (w.pc + 8)⟩
  | .yieldW f => some ⟨unheld (wHead f), true, fun _ => false, fun w s l => if (wHead f).holds then s.hold l.key (w.pc + 4) else s⟩
  | .yieldD f => some ⟨unheld (dHead f), true, fun _ => false, fun w s l => if (dHead f).holds then s.hold l.key (w.pc + 8) else s⟩
  | .exitW f => some ⟨wHead f, false, fun _ => false, fun w s l => s.exitLane w l⟩
  | .exitD f => some ⟨dHead f, false, fun _ => false, fun w s l => s.exitLane w l⟩
  | .regionD f => some ⟨dHead f, false, Warp.someTxn, fun w s l => s.modThread l.key fun t => { t with region := w.pc }⟩
  | .trigD f => some ⟨dHead f, false, fun _ => false, fun _ s l => s.trigger l.key⟩
  | .racqD f => some ⟨dHead f, true, Warp.someTxn, fun w s l => s.racqOne w (dHead f) l (WellFormed.mSub f).toNat (racqTry f)⟩
  | .rrelD f => some ⟨dHead f, false, Warp.someTxn, fun _ s l => s.modThread l.key fun t =>
      if t.blocks ≤ (WellFormed.mSub f).toNat then t
      else { t with blocks := (WellFormed.mSub f).toNat
                    regs := keep (fun i _ => decide (blockOf i ≤ (WellFormed.mSub f).toNat)) t.regs }⟩
  | .waitcD f => some ⟨dHead f, true, fun _ => false, fun w s l =>
      (s.block l.key (w.pc + 8) 6 (.count (f.mod.extractLsb' 1 3).toNat (f.mod.extractLsb' 4 6).toNat) (dHead f).holds).endCount l.key
        (f.mod.extractLsb' 1 3).toNat (f.mod.extractLsb' 4 6).toNat⟩
  | .fenceD f => some ⟨dHead f, true, fun _ => false, fun w s l =>
      (s.block l.key (w.pc + 8) 14 (.fence (WellFormed.mScope f) (WellFormed.mOrder f)) (dHead f).holds).endFence l.key (WellFormed.mScope f)
        (WellFormed.mOrder f).toNat⟩
  | _ => none

/-- The warp with one lane alone, for an instruction that the elected lane performs (R169). -/
def only (w : Warp) (l : Lane) : Warp := { w with lanes := [l] }

end Sys2Proof.Safety
end

