-- ==== Sys2Proof/Safety/Lanes.lean ====
section
/-! DEFINITION. The lane instructions as the statements speak of them: for each, its head, its sources and destination in the
operand forms of spec/05, whether a residue check guards it (spec/06 R142), and the results of the executing threads. -/

namespace Sys2Proof.Safety

open Sys2Proof.Machine

structure LaneRule where
  head : Head
  srcs : List Src
  dst : Dst
  checked : Bool
  results : List LaneIn → List LaneOut

def ruleH (float checked : Bool) (g : Fn) (f : HForm) : LaneRule :=
  ⟨hHead f, [.reg (aReg f) false 0 0, hSrc float f.b], .reg (aReg f) false, checked, perLane fun i => g i.ftz⟩
def ruleW1 (checked : Bool) (g : Fn) (f : WForm) : LaneRule :=
  ⟨wHead f, [src6 f.s1], .reg (reg6 f.d) false, checked, perLane fun i => g i.ftz⟩
def ruleW2 (checked : Bool) (g : Fn) (f : WForm) : LaneRule :=
  ⟨wHead f, [src6 f.s1, src6 f.s2], .reg (reg6 f.d) false, checked, perLane fun i => g i.ftz⟩
def ruleWimm (checked : Bool) (g : Fn) (f : WImmForm) : LaneRule :=
  ⟨wimmHead f, [src6 f.s1, .const (f.imm.signExtend 32)], .reg (reg6 f.d) false, checked, perLane fun i => g i.ftz⟩
def ruleWi (checked : Bool) (g : Fn) (f : WIForm) : LaneRule :=
  ⟨wiHead f, [src6 f.d, .const (f.imm.signExtend 32)], .reg (reg6 f.d) false, checked, perLane fun i => g i.ftz⟩
def ruleD (srcs : List Src) (d : Dst) (checked : Bool) (g : Fn) (f : DForm) : LaneRule :=
  ⟨dHead f, srcs, d, checked, perLane fun i => g i.ftz⟩
def ruleDT (n : Nat) (t : BitVec 4) (checked : Bool) (g : Fn) (f : DForm) : LaneRule :=
  ruleD (([srcOf t f.s1 f.s1lk, srcOf t f.s2 f.s2lk, srcOf t f.s3 f.s3lk]).take n) (dstOf t f.d) checked g f
def ruleDp1 (checked : Bool) (g : Fn) (f : DPForm) : LaneRule :=
  ⟨dpHead f, [dpSrc1 f], .reg f.d false, checked, perLane fun i => g i.ftz⟩
def ruleDp2 (checked : Bool) (g : Fn) (f : DPForm) : LaneRule :=
  ⟨dpHead f, [dpSrc1 f, dpSrc2 f], .reg f.d false, checked, perLane fun i => g i.ftz⟩

/-- The lane instructions, but for HOME and the four of FP64. -/
def laneRule : Instr → Option LaneRule
  | .movH f => some ⟨hHead f, [hSrc false f.b], .reg (aReg f) false, false, perLane fun i => fnMov 4 i.ftz⟩
  | .iaddH f => some (ruleH false false (fnAdd 4 false) f)
  | .isubH f => some (ruleH false false (fnSub 4 false) f)
  | .imulH f => some (ruleH false true (fnMul 4 false) f)
  | .andH f => some (ruleH false false (fnAnd 4) f)
  | .orH f => some (ruleH false false (fnOr 4) f)
  | .xorH f => some (ruleH false false (fnXor 4) f)
  | .shlH f => some (ruleH false false (fnShl 4) f)
  | .shrH f => some (ruleH false false (fnShr 4) f)
  | .sarH f => some (ruleH false false (fnSar 4) f)
  | .iminH f => some (ruleH false false (fnMin 4) f)
  | .imaxH f => some (ruleH false false (fnMax 4) f)
  | .movW f => some (ruleW1 false (fnMov 4) f)
  | .iaddW f => some (ruleW2 false (fnAdd 4 false) f)
  | .isubW f => some (ruleW2 false (fnSub 4 false) f)
  | .imulW f => some (ruleW2 true (fnMul 4 false) f)
  | .imulhW f => some (ruleW2 true (fnMulh 4) f)
  | .iminW f => some (ruleW2 false (fnMin 4) f)
  | .imaxW f => some (ruleW2 false (fnMax 4) f)
  | .andW f => some (ruleW2 false (fnAnd 4) f)
  | .orW f => some (ruleW2 false (fnOr 4) f)
  | .xorW f => some (ruleW2 false (fnXor 4) f)
  | .andnW f => some (ruleW2 false (fnAndn 4) f)
  | .notW f => some (ruleW1 false (fnNot 4) f)
  | .shlW f => some (ruleW2 false (fnShl 4) f)
  | .shrW f => some (ruleW2 false (fnShr 4) f)
  | .sarW f => some (ruleW2 false (fnSar 4) f)
  | .rotW f => some (ruleW2 false (fnRot 4) f)
  | .popcW f => some (ruleW1 false (fnPopc 4) f)
  | .clzW f => some (ruleW1 false (fnClz 4) f)
  | .ctzW f => some (ruleW1 false (fnCtz 4) f)
  | .brevW f => some (ruleW1 false (fnBrev 4) f)
  | .inegW f => some (ruleW1 false (fnNeg 4 false) f)
  | .iabsW f => some (ruleW1 false (fnAbs 4 false) f)
  | .iaddWimm f => some (ruleWimm false (fnAdd 4 false) f)
  | .imulWimm f => some (ruleWimm true (fnMul 4 false) f)
  | .andWimm f => some (ruleWimm false (fnAnd 4) f)
  | .orWimm f => some (ruleWimm false (fnOr 4) f)
  | .xorWimm f => some (ruleWimm false (fnXor 4) f)
  | .shlWimm f => some (ruleWimm false (fnShl 4) f)
  | .shrWimm f => some (ruleWimm false (fnShr 4) f)
  | .sarWimm f => some (ruleWimm false (fnSar 4) f)
  | .rotWimm f => some (ruleWimm false (fnRot 4) f)
  | .iminWimm f => some (ruleWimm false (fnMin 4) f)
  | .imaxWimm f => some (ruleWimm false (fnMax 4) f)
  | .moviWi f => some ⟨wiHead f, [.const (f.imm.signExtend 32)], .reg (reg6 f.d) false, false, perLane fun i => fnMov 4 i.ftz⟩
  | .iaddWi f => some (ruleWi false (fnAdd 4 false) f)
  | .imulWi f => some (ruleWi true (fnMul 4 false) f)
  | .andWi f => some (ruleWi false (fnAnd 4) f)
  | .orWi f => some (ruleWi false (fnOr 4) f)
  | .xorWi f => some (ruleWi false (fnXor 4) f)
  | .iminWi f => some (ruleWi false (fnMin 4) f)
  | .imaxWi f => some (ruleWi false (fnMax 4) f)
  | .movD f => some (if WellFormed.is64 (mTy f) then ⟨dHead f, [.many f.s1 2 false (f.s1lk.getLsbD 1)], .reg f.d true, false, movPair⟩
      else ruleDT 1 (mTy f) false (fnMov (mTyN f)) f)
  | .iaddD f => some (ruleDT 2 (mTy f) false (fnAdd (mTyN f) (WellFormed.mSat f)) f)
  | .iaddxD f => some (ruleDT 3 (mTy f) false (fnAddx (mTyN f) (WellFormed.mSat f)) f)
  | .isubD f => some (ruleDT 2 (mTy f) false (fnSub (mTyN f) (WellFormed.mSat f)) f)
  | .imulD f => some (ruleDT 2 (mTy f) true (fnMul (mTyN f) (WellFormed.mSat f)) f)
  | .imulhD f => some (ruleDT 2 (mTy f) true (fnMulh (mTyN f)) f)
  | .imadD f => some (ruleDT 3 (mTy f) true (fnMad (mTyN f) (WellFormed.mSat f)) f)
  | .iabsD f => some (ruleDT 1 (mTy f) false (fnAbs (mTyN f) (WellFormed.mSat f)) f)
  | .inegD f => some (ruleDT 1 (mTy f) false (fnNeg (mTyN f) (WellFormed.mSat f)) f)
  | .iminD f => some (ruleDT 2 (mTy f) false (fnMin (mTyN f)) f)
  | .imaxD f => some (ruleDT 2 (mTy f) false (fnMax (mTyN f)) f)
  | .andD f => some (ruleDT 2 (mTy f) false (fnAnd (mTyN f)) f)
  | .orD f => some (ruleDT 2 (mTy f) false (fnOr (mTyN f)) f)
  | .xorD f => some (ruleDT 2 (mTy f) false (fnXor (mTyN f)) f)
  | .notD f => some (ruleDT 1 (mTy f) false (fnNot (mTyN f)) f)
  | .andnD f => some (ruleDT 2 (mTy f) false (fnAndn (mTyN f)) f)
  | .brevD f => some (ruleDT 1 (mTy f) false (fnBrev (mTyN f)) f)
  | .shlD f => some (ruleD [s1of f, s2w f] (dstOf (mTy f) f.d) false (fnShl (mTyN f)) f)
  | .shrD f => some (ruleD [s1of f, s2w f] (dstOf (mTy f) f.d) false (fnShr (mTyN f)) f)
  | .sarD f => some (ruleD [s1of f, s2w f] (dstOf (mTy f) f.d) false (fnSar (mTyN f)) f)
  | .rotD f => some (ruleD [s1of f, s2w f] (dstOf (mTy f) f.d) false (fnRot (mTyN f)) f)
  | .bfxD f => some (ruleD [s1of f, s2w f] (dstOf (mTy f) f.d) false (fnBfx (mTyN f)) f)
  | .funnelD f => some (ruleD [s1of f, s2of f, s3w f] (dstOf (mTy f) f.d) false (fnFunnel (mTyN f)) f)
  | .bfiD f => some (ruleD [s1of f, s2of f, s3w f] (dstOf (mTy f) f.d) false (fnBfi (mTyN f)) f)
  | .leaD f => some (ruleD [s1of f, s2w f, s3w f] (dstOf (mTy f) f.d) false (fnLea (mTyN f)) f)
  | .popcD f => some (ruleD [s1of f] (.reg f.d false) false (fnPopc (mTyN f)) f)
  | .clzD f => some (ruleD [s1of f] (.reg f.d false) false (fnClz (mTyN f)) f)
  | .ctzD f => some (ruleD [s1of f] (.reg f.d false) false (fnCtz (mTyN f)) f)
  | .tbl3D f => some (ruleD [src8 f.s1 f.s1lk, s2w f, s3w f] (.reg f.d false) false (fnTbl3 (dTable f)) f)
  | .dp4D f => some (ruleD [src8 f.s1 f.s1lk, s2w f, s3w f] (.reg f.d false) true (fnDot 4 8 (f.mod.getLsbD 9) (f.mod.getLsbD 8) (f.mod.getLsbD 7)) f)
  | .dp8D f => some (ruleD [src8 f.s1 f.s1lk, s2w f, s3w f] (.reg f.d false) true (fnDot 8 4 (f.mod.getLsbD 9) (f.mod.getLsbD 8) (f.mod.getLsbD 7)) f)
  | .icmpD f => some (ruleD [s1of f, s2of f] (.pred (predNo f.d)) false (fnIcmp (mTyN f) (WellFormed.mCond f).toNat) f)
  | .selD f => some ⟨dHead f, [s1of f, s2of f, .pred (predNo f.s3)], dstOf (mTy f) f.d, false, selLane (mTyN f)⟩
  | .ptblD f => some (ruleD [.pred (predNo f.s1), .pred (predNo f.s2), .pred (predNo f.s3)] (.pred (predNo f.d)) false (fnPtbl (dTable f)) f)
  | .pmovD f => some (ruleD [src8 f.s1 f.s1lk] (.pred (predNo f.d)) false fnPmov f)
  | .movDp f => some (ruleDp1 false (fnMov 4) f)
  | .iaddDp f => some (ruleDp2 false (fnAdd 4 (dpSat f)) f)
  | .isubDp f => some (ruleDp2 false (fnSub 4 (dpSat f)) f)
  | .imulDp f => some (ruleDp2 true (fnMul 4 (dpSat f)) f)
  | .iminDp f => some (ruleDp2 false (fnMin (dpTy f)) f)
  | .imaxDp f => some (ruleDp2 false (fnMax (dpTy f)) f)
  | .andDp f => some (ruleDp2 false (fnAnd 4) f)
  | .orDp f => some (ruleDp2 false (fnOr 4) f)
  | .xorDp f => some (ruleDp2 false (fnXor 4) f)
  | .shlDp f => some (ruleDp2 false (fnShl 4) f)
  | .shrDp f => some (ruleDp2 false (fnShr 4) f)
  | .moviDi f => some ⟨diHead f, [.const f.imm], .reg f.d false, false, perLane fun i => fnMov 4 i.ftz⟩
  | .ffmaH f => some ⟨hHead f, [.reg (aReg f) false 0 0, hSrc true f.b, .reg 0xC8 false 0 0], .reg (aReg f) false, true, perLane fun i xs => fltOut (execFfmaH.fmaH i.ftz (farg xs 0) (farg xs 1) (farg xs 2))⟩
  | .faddH f => some (ruleH true true (fnFadd f32 0) f)
  | .fmulH f => some (ruleH true true (fnFmul f32 0) f)
  | .fmaxH f => some (ruleH true true (fnFmax f32) f)
  | .faddW f => some (ruleW2 true (fnFadd f32 0) f)
  | .fsubW f => some (ruleW2 true (fnFsub f32 0) f)
  | .fmulW f => some (ruleW2 true (fnFmul f32 0) f)
  | .fminW f => some (ruleW2 true (fnFmin f32) f)
  | .fmaxW f => some (ruleW2 true (fnFmax f32) f)
  | .frcpW f => some (ruleW1 true (fnFun .rcp f32 0) f)
  | .frsqW f => some (ruleW1 true (fnFun .rsq f32 0) f)
  | .fsqrtW f => some (ruleW1 true (fnFun .sqrt f32 0) f)
  | .fexp2W f => some (ruleW1 true (fnFun .exp2 f32 0) f)
  | .flog2W f => some (ruleW1 true (fnFun .log2 f32 0) f)
  | .fsinW f => some (ruleW1 true (fnFun .sin f32 0) f)
  | .fcosW f => some (ruleW1 true (fnFun .cos f32 0) f)
  | .ftanhW f => some (ruleW1 true (fnFun .tanh f32 0) f)
  | .hpaddW f => some (ruleW2 true (fnPair (fnFadd f16 0)) f)
  | .hpmulW f => some (ruleW2 true (fnPair (fnFmul f16 0)) f)
  | .hpmaxW f => some (ruleW2 true (fnPair (fnFmax f16)) f)
  | .faddD f => some (ruleD [s1f f, s2w f] (.reg f.d false) true (fnFadd (dFmt f) (dRnd f)) f)
  | .fsubD f => some (ruleD [s1f f, s2w f] (.reg f.d false) true (fnFsub (dFmt f) (dRnd f)) f)
  | .fmulD f => some (ruleD [s1f f, s2w f] (.reg f.d false) true (fnFmul (dFmt f) (dRnd f)) f)
  | .fminD f => some (ruleD [s1f f, s2w f] (.reg f.d false) true (fnFmin (dFmt f)) f)
  | .fmaxD f => some (ruleD [s1f f, s2w f] (.reg f.d false) true (fnFmax (dFmt f)) f)
  | .fscaleD f => some (ruleD [s1f f, s2w f] (.reg f.d false) true (fnFscale (dFmt f) (dRnd f)) f)
  | .fdivfixD f => some (ruleD [s1f f, s2w f] (.reg f.d false) true (fnFdiv (dFmt f) (dRnd f)) f)
  | .hpaddD f => some (ruleD [s1f f, s2w f] (.reg f.d false) true (fnPair (fnFadd (dFmt f) (dRnd f))) f)
  | .hpmulD f => some (ruleD [s1f f, s2w f] (.reg f.d false) true (fnPair (fnFmul (dFmt f) (dRnd f))) f)
  | .hpmaxD f => some (ruleD [s1f f, s2w f] (.reg f.d false) true (fnPair (fnFmax (dFmt f))) f)
  | .ffmaD f => some (ruleD [s1f f, s2w f, s3w f] (.reg f.d false) true (fnFma (dFmt f) (dRnd f)) f)
  | .hpfmaD f => some (ruleD [s1f f, s2w f, s3w f] (.reg f.d false) true (fnPair (fnFma (dFmt f) (dRnd f))) f)
  | .frcpD f => some (ruleD [s1f f] (.reg f.d false) true (fnFun .rcp (dFmt f) (dRnd f)) f)
  | .frsqD f => some (ruleD [s1f f] (.reg f.d false) true (fnFun .rsq (dFmt f) (dRnd f)) f)
  | .fsqrtD f => some (ruleD [s1f f] (.reg f.d false) true (fnFun .sqrt (dFmt f) (dRnd f)) f)
  | .fexp2D f => some (ruleD [s1f f] (.reg f.d false) true (fnFun .exp2 (dFmt f) (dRnd f)) f)
  | .flog2D f => some (ruleD [s1f f] (.reg f.d false) true (fnFun .log2 (dFmt f) (dRnd f)) f)
  | .fsinD f => some (ruleD [s1f f] (.reg f.d false) true (fnFun .sin (dFmt f) (dRnd f)) f)
  | .fcosD f => some (ruleD [s1f f] (.reg f.d false) true (fnFun .cos (dFmt f) (dRnd f)) f)
  | .ftanhD f => some (ruleD [s1f f] (.reg f.d false) true (fnFun .tanh (dFmt f) (dRnd f)) f)
  | .frndD f => some (ruleD [s1f f] (.reg f.d false) true (fnFrnd (dFmt f) (dRnd f)) f)
  | .fclassD f => some (ruleD [s1f f] (.reg f.d false) true (fnFclass (dFmt f)) f)
  | .fcmpD f => some (ruleD [s1f f, s2w f] (.pred (predNo f.d)) true (fnFcmp (dFmt f) (WellFormed.mCond f).toNat) f)
  | .faddDp f => some (ruleDp2 true (fnFadd f32 (dpRnd f)) f)
  | .fsubDp f => some (ruleDp2 true (fnFsub f32 (dpRnd f)) f)
  | .fmulDp f => some (ruleDp2 true (fnFmul f32 (dpRnd f)) f)
  | .fminDp f => some (ruleDp2 true (fnFmin f32) f)
  | .fmaxDp f => some (ruleDp2 true (fnFmax f32) f)
  | .cvtD dt f => some ⟨dHead f, [convSrc f (mTyN f)], dstOf dt f.d, true, cvtLane f dt.toNat (mTyN f)⟩
  | .cvtsD dt f => some ⟨dHead f, [convSrc f (mTyN f), src8 f.s2 0, s3w f], dstOf dt f.d, true, cvtsLane f dt.toNat (mTyN f)⟩
  | .packD f => some ⟨dHead f, [convSrc f (if mTyN f < 8 then 4 else 0xA)], .reg f.d false, true, packLane f (mTyN f) (if mTyN f < 8 then 4 else 0xA)⟩
  | .unpackD f => some ⟨dHead f, [s1f f, s2w f], if (WellFormed.mCount f) = 1 then .reg f.d false else .many f.d (WellFormed.mCount f), true, unpackLane (mTyN f) (WellFormed.mCount f)⟩
  | .shflD f => some ⟨dHead f, [s1of f, s2w f, s3of f], dstOf (mTy f) f.d, false, shflLane (f.mod.getLsbD 0)⟩
  | .ballotD f => some ⟨dHead f, [.pred (predNo f.s1)], .reg f.d false, false, ballotLane⟩
  | .agreeD f => some ⟨dHead f, [.pred (predNo f.s1)], .pred (predNo f.d), false, agreeLane (WellFormed.mSub f).toNat⟩
  | .vredD f => some ⟨dHead f, [s1of f], dstOf (mTy f) f.d, true, vredLane (mTyN f) (WellFormed.mSub f).toNat (dRnd f)⟩
  | .vpfxD f => some ⟨dHead f, [s1of f], dstOf (mTy f) f.d, true, vpfxLane (mTyN f) (WellFormed.mSub f).toNat (dRnd f)⟩
  | .matchD f => some ⟨dHead f, [s1of f], .reg f.d false, false, matchLane⟩
  | .conflD f => some ⟨dHead f, [s1of f], .reg f.d false, false, conflLane⟩
  | .xsectD f => some ⟨dHead f, [s1of f, s2of f], .reg f.d false, false, xsectLane (mTyN f)⟩
  | .ispoiD f => some ⟨dHead f, [s1f f], .pred (predNo f.d), false, ispoiLane⟩
  | .pclrD f => some ⟨dHead f, [s1f f, s2w f], .reg f.d false, false, pclrLane⟩
  | .statD f => some ⟨dHead f, if (f.mod.extractLsb' 0 2).toNat = 0 then [] else [src8 f.s1 f.s1lk], .reg f.d false, false, statLane (f.mod.extractLsb' 0 2).toNat⟩
  | _ => none

/-- The FP64 instructions, which occupy their slot for 4 core cycles (spec/02 R24). -/
def laneRule64 : Instr → Option LaneRule
  | .daddD f => some (ruleDT 2 (mTy f) true (fnFadd f64 (dRnd f)) f)
  | .dmulD f => some (ruleDT 2 (mTy f) true (fnFmul f64 (dRnd f)) f)
  | .dfmaD f => some (ruleDT 3 (mTy f) true (fnFma f64 (dRnd f)) f)
  | .dcmpD f => some (ruleD [s1of f, s2of f] (.pred (predNo f.d)) true (fnFcmp f64 (WellFormed.mCond f).toNat) f)
  | _ => none

/-- The lane instructions that compute thread by thread under R88 (STAT too, R90). SEL, ISPOI and PCLR and the MOV of a pair, whose registers are
copied each by itself, depart from it (R82, R89), and the cross-lane instructions follow R91. -/
def byThread : Instr → Bool
  | .selD _ | .ispoiD _ | .pclrD _ | .shflD _ | .ballotD _ | .agreeD _ | .vredD _ | .vpfxD _ | .matchD _ | .conflD _ | .xsectD _ => false
  | .movD f => !WellFormed.is64 (mTy f)
  | _ => true

/-- Where a result o of a lane instruction stands (R35, R37, R83), for a thread that was t and is u: in the named g or o register, or the pair, or
the consecutive registers, with l0 and l1; or in the predicate, which leaves l0 and l1. (An l0 or l1 that is pending on a long write whose value has
come dies with a hold, R35, R50.) -/
def Stands (d : Dst) (t u : Thread) (o : LaneOut) : Prop :=
  let v := o.outs.headD (.dat 0)
  match d with
  | .reg r wide =>
    (wide = false → r.toNat < 0xC8 → u.cell (fileIndex r) = Cell.ofTw v.lo)
    ∧ (wide = true → r.toNat < 0xC8 → u.cell (fileIndex r) = Cell.ofTw v.lo ∧ u.cell (fileIndex r + 1) = Cell.ofTw o.hi)
    ∧ u.l0 = Cell.ofTw v.lo
    ∧ (t.l0.arrived = false → t.l1.arrived = false → u.l1 = (if wide = true then Cell.ofTw o.hi else if r = 0xC8 then t.l1 else t.l0))
  | .many r n =>
    (r.toNat < 0xC8 → ∀ k, k < n → u.cell (fileIndex r + k) = Cell.ofTw (o.outs.getD k (.dat 0)).lo)
    ∧ (2 ≤ n → u.l0 = Cell.ofTw v.lo ∧ u.l1 = Cell.ofTw (o.outs.getD 1 (.dat 0)).lo)
  | .pred p =>
    (p ≠ 7 → p < t.preds.length →
      u.pred p = (match v with | .tok k => ⟨false, true, k, false⟩ | .dat b => ⟨b != 0, false, 0, false⟩))
    ∧ (t.l0.arrived = false → t.l1.arrived = false → u.l0 = t.l0 ∧ u.l1 = t.l1)
  | .none => True

end Sys2Proof.Safety
end

