-- ==== Sys2Proof/Safety/Numbers.lean ====
section
/-! DEFINITION. The numbers that the arithmetic instructions compute with, as the statements speak of them: exact integers and rational
values, and what it is to round one (spec/03 R53 to R63). -/

namespace Sys2Proof.Safety

open Sys2Proof.Machine

/-- The exact value of the integer arithmetic of R144: its type, whether it saturates, and the function. -/
def exactInt : Instr → Option (Nat × Bool × (List Int → Int))
  | .iaddD f => some (mTyN f, WellFormed.mSat f, fun xs => xs.getD 0 0 + xs.getD 1 0)
  | .isubD f => some (mTyN f, WellFormed.mSat f, fun xs => xs.getD 0 0 - xs.getD 1 0)
  | .imulD f => some (mTyN f, WellFormed.mSat f, fun xs => xs.getD 0 0 * xs.getD 1 0)
  | .imadD f => some (mTyN f, WellFormed.mSat f, fun xs => xs.getD 0 0 * xs.getD 1 0 + xs.getD 2 0)
  | .iaddxD f => some (mTyN f, WellFormed.mSat f, fun xs => xs.getD 0 0 + xs.getD 1 0 + xs.getD 2 0)
  | .iabsD f => some (mTyN f, WellFormed.mSat f, fun xs => |xs.getD 0 0|)
  | .inegD f => some (mTyN f, WellFormed.mSat f, fun xs => -xs.getD 0 0)
  | .iminD f => some (mTyN f, false, fun xs => min (xs.getD 0 0) (xs.getD 1 0))
  | .imaxD f => some (mTyN f, false, fun xs => max (xs.getD 0 0) (xs.getD 1 0))
  | .iaddDp f => some (4, dpSat f, fun xs => xs.getD 0 0 + xs.getD 1 0)
  | .isubDp f => some (4, dpSat f, fun xs => xs.getD 0 0 - xs.getD 1 0)
  | .imulDp f => some (4, dpSat f, fun xs => xs.getD 0 0 * xs.getD 1 0)
  | .iminDp f => some (dpTy f, false, fun xs => min (xs.getD 0 0) (xs.getD 1 0))
  | .imaxDp f => some (dpTy f, false, fun xs => max (xs.getD 0 0) (xs.getD 1 0))
  | _ => none

/-- The arithmetic of 32-bit words. -/
def un (g : Word → Word) (xs : List Word) : Word := g (xs.getD 0 0)
def bin (g : Word → Word → Word) (xs : List Word) : Word := g (xs.getD 0 0) (xs.getD 1 0)
def shiftL (x n : Word) : Word := if n.toNat < 32 then x <<< n.toNat else 0
def shiftR (x n : Word) : Word := if n.toNat < 32 then x >>> n.toNat else 0
def shiftS (x n : Word) : Word := x.sshiftRight (min n.toNat 31)
def minS (x y : Word) : Word := if x.slt y then x else y
def maxS (x y : Word) : Word := if y.slt x then x else y
def onesOf (x : Word) : Word := BitVec.ofNat 32 (((List.range 32).filter fun n => x.getLsbD n).length)
def rotL (x n : Word) : Word := x.rotateLeft (n.toNat % 32)
/-- The zeros above the highest set bit, and those below the lowest; 32 of the word 0. -/
def zerosAbove (x : Word) : Word := BitVec.ofNat 32 (if x = 0 then 32 else 31 - Nat.log2 x.toNat)
def zerosBelow (x : Word) : Word := BitVec.ofNat 32 (((List.range 32).takeWhile fun n => !x.getLsbD n).length)

/-- What the integer operations of the 16-bit, 32-bit and DP forms make of their sources (R144 to R146). -/
def wordOp : Instr → Option (List Word → Word)
  | .movH _ | .movW _ | .moviWi _ | .movDp _ => some (un id)
  | .iaddH _ | .iaddW _ | .iaddWimm _ | .iaddWi _ => some (bin (· + ·))
  | .isubH _ | .isubW _ => some (bin (· - ·))
  | .imulH _ | .imulW _ | .imulWimm _ | .imulWi _ => some (bin (· * ·))
  | .imulhW _ => some (bin fun x y => (x.signExtend 64 * y.signExtend 64).extractLsb' 32 32)
  | .andH _ | .andW _ | .andWimm _ | .andWi _ | .andDp _ => some (bin (· &&& ·))
  | .orH _ | .orW _ | .orWimm _ | .orWi _ | .orDp _ => some (bin (· ||| ·))
  | .xorH _ | .xorW _ | .xorWimm _ | .xorWi _ | .xorDp _ => some (bin (· ^^^ ·))
  | .andnW _ => some (bin fun x y => x &&& ~~~y)
  | .notW _ => some (un fun x => ~~~x)
  | .shlH _ | .shlW _ | .shlWimm _ | .shlDp _ => some (bin shiftL)
  | .shrH _ | .shrW _ | .shrWimm _ | .shrDp _ => some (bin shiftR)
  | .sarH _ | .sarW _ | .sarWimm _ => some (bin shiftS)
  | .rotW _ | .rotWimm _ => some (bin rotL)
  | .iminH _ | .iminW _ | .iminWimm _ | .iminWi _ => some (bin minS)
  | .imaxH _ | .imaxW _ | .imaxWimm _ | .imaxWi _ => some (bin maxS)
  | .popcW _ => some (un onesOf)
  | .clzW _ => some (un zerosAbove)
  | .ctzW _ => some (un zerosBelow)
  | .brevW _ => some (un BitVec.reverse)
  | .inegW _ => some (un fun x => -x)
  | .iabsW _ => some (un fun x => if x.msb then -x else x)
  | _ => none

/-! Floating-point values. -/

/-- The value of a finite number: (−1)^s × m × 2^e. -/
def exactValue : Machine.Num → Option ℚ
  | .fin s m e => some ((if s then -1 else 1) * (m : ℚ) * (2 : ℚ) ^ e)
  | _ => none

/-- The bits b stand for the finite value x in the format f (R56, R57). -/
def HasValue (f : Fmt) (b : Nat) (x : ℚ) : Prop := exactValue (f.decode b) = some x

/-- The bits b are Round(x, mode) in the format f, for an x within the format's finite range (R61, R62): ties to even, toward zero, up,
down, and ties away. -/
def RoundsTo (f : Fmt) (mode : Nat) (x : ℚ) (b : Nat) : Prop :=
  b < 2 ^ f.w ∧ ∃ v, HasValue f b v ∧ ∀ c y, HasValue f c y →
    match mode with
    | 0 => |v - x| ≤ |y - x| ∧ (|v - x| = |y - x| → y = v ∨ b % 2 = 0)
    | 1 => |v| ≤ |x| ∧ 0 ≤ v * x ∧ (|y| ≤ |x| → |y| ≤ |v|)
    | 2 => x ≤ v ∧ (x ≤ y → v ≤ y)
    | 3 => v ≤ x ∧ (y ≤ x → y ≤ v)
    | _ => |v - x| ≤ |y - x| ∧ (|v - x| = |y - x| → |y| ≤ |v|)

/-- x does not go beyond the greatest finite value of the format. -/
def InRange (f : Fmt) (x : ℚ) : Prop := ∃ b y, HasValue f b y ∧ |x| ≤ |y|

/-- What the floating-point arithmetic instructions round: the format, the rounding code and the exact value (R149, R150). -/
def exactFlt : Instr → Option (Fmt × Nat × (List ℚ → ℚ))
  | .faddH _ | .faddW _ => some (f32, 0, fun xs => xs.getD 0 0 + xs.getD 1 0)
  | .fsubW _ => some (f32, 0, fun xs => xs.getD 0 0 - xs.getD 1 0)
  | .fmulH _ | .fmulW _ => some (f32, 0, fun xs => xs.getD 0 0 * xs.getD 1 0)
  | .ffmaH _ => some (f32, 0, fun xs => xs.getD 0 0 + xs.getD 1 0 * xs.getD 2 0)
  | .fminW _ | .fminDp _ => some (f32, 0, fun xs => min (xs.getD 0 0) (xs.getD 1 0))
  | .fmaxH _ | .fmaxW _ | .fmaxDp _ => some (f32, 0, fun xs => max (xs.getD 0 0) (xs.getD 1 0))
  | .faddD f => some (dFmt f, dRnd f, fun xs => xs.getD 0 0 + xs.getD 1 0)
  | .fsubD f => some (dFmt f, dRnd f, fun xs => xs.getD 0 0 - xs.getD 1 0)
  | .fmulD f => some (dFmt f, dRnd f, fun xs => xs.getD 0 0 * xs.getD 1 0)
  | .ffmaD f => some (dFmt f, dRnd f, fun xs => xs.getD 0 0 * xs.getD 1 0 + xs.getD 2 0)
  | .fminD f => some (dFmt f, 0, fun xs => min (xs.getD 0 0) (xs.getD 1 0))
  | .fmaxD f => some (dFmt f, 0, fun xs => max (xs.getD 0 0) (xs.getD 1 0))
  | .faddDp f => some (f32, dpRnd f, fun xs => xs.getD 0 0 + xs.getD 1 0)
  | .fsubDp f => some (f32, dpRnd f, fun xs => xs.getD 0 0 - xs.getD 1 0)
  | .fmulDp f => some (f32, dpRnd f, fun xs => xs.getD 0 0 * xs.getD 1 0)
  | .daddD f => some (f64, dRnd f, fun xs => xs.getD 0 0 + xs.getD 1 0)
  | .dmulD f => some (f64, dRnd f, fun xs => xs.getD 0 0 * xs.getD 1 0)
  | .dfmaD f => some (f64, dRnd f, fun xs => xs.getD 0 0 * xs.getD 1 0 + xs.getD 2 0)
  | _ => none

/-- The comparisons of floating-point values: format and condition (R153). -/
def exactCmp : Instr → Option (Fmt × Nat)
  | .fcmpD f => some (dFmt f, (WellFormed.mCond f).toNat)
  | .dcmpD f => some (f64, (WellFormed.mCond f).toNat)
  | _ => none

/-- A condition of R126 on two finite values. -/
def condOf (cond : Nat) (x y : ℚ) : Bool :=
  match cond with
  | 0 => decide (x = y)
  | 1 => decide (x ≠ y)
  | 2 => decide (x < y)
  | 3 => decide (x ≤ y)
  | 4 => decide (y < x)
  | 5 => decide (y ≤ x)
  | 6 => false
  | _ => true

end Sys2Proof.Safety
end

