-- ==== Sys2Proof/Safety.lean ====
section
/-! DEFINITION. What a safe state is, and the conditions on a state under which an instruction runs, in the terms that the statements
use. -/

namespace Sys2Proof.Safety

open Sys2Proof.Machine

/-- Memory is in its canonical form: addresses strictly rising, no listed byte zero. -/
def MemoryOk (s : State) : Prop := Memory.wf s.mem = true

/-- An instruction starts where every queue it names exists (spec/02 R41), every executing thread holds the extended blocks of its
destination (R42), and every queue it pops has the elements (R39). -/
def Starts (s : State) (w : Warp) (srcs : List Src) (d : Dst) : Prop :=
  (∀ q ∈ w.queues srcs d, s.queueExists w q = true)
  ∧ (∀ l ∈ w.executing, ∀ r ∈ d.regs, r.toNat < 0xC0 → blockOf r.toNat ≤ l.t.blocks)
  ∧ (s.takePops w srcs).2.2.2 = true

/-- A queue destination has room (R39); a message also waits for its release (spec/11 R303), for its outbox (spec/08 R235) and for a counter
that is not full (R203). -/
def HasRoom (s : State) (w : Warp) (srcs : List Src) (d : Dst) : Prop :=
  ∀ q wide, d.push w.slice = some (q, wide) →
    (q ≠ 14 → queueUsed ((s.takePops w srcs).1.queue w q) + w.acting.length * (if wide then 2 else 1) ≤ queueCap q)
    ∧ (q = 14 → (w.acting = [] ∨ ((s.takePops w srcs).1.cluster w.cluster).unseen < 16)
      ∧ (∀ l ∈ w.acting, s.outstanding l.key 3 < 255) ∧ ∀ l ∈ w.acting, s.releaseReady l.key w.cluster l.t.vc 7 false = true)

/-- No other lane of the warp names this lane's thread: a warp numbers its threads (R30). -/
def Lone (w : Warp) (l : Lane) : Prop := ∀ x ∈ w.lanes, x.key = l.key → x = l

/-- No lane that the instruction checks has a residue that does not match (spec/06 R142). -/
def Sound (s : State) (w : Warp) (checked : Bool) : Prop := checked = true → ∀ l ∈ w.executing, l.v ∉ s.upset

/-- Every guard of the warp is untagged. -/
def Guarded (w : Warp) : Prop := ∀ l ∈ w.lanes, l.badTok = none

/-- An access starts: its queues, its blocks, its pops (R39, R41, R42); a group for scratchpad (spec/08 R210); no acquire before it is
open (spec/11 R300); its addresses are translated (R200); the releases before it are performed and its own may go (R299, R301); its
classes have room (R203); its queue destination has room. -/
structure AccessStarts (s : State) (w : Warp) (m : MemDo) : Prop where
  group : m.pad = true → w.group.isSome = true
  starts : Starts s w m.srcs m.dst
  acquired : ∀ l ∈ w.acting, s.acquirePending l.key = false
  walked : ∀ a ∈ s.memAsks w m, a.lane.acts = true → (∀ va, a.aim ≠ .miss va) ∧ (∀ va, a.aim ≠ .ats va)
  ordered : ∀ a ∈ s.memSends w m, 2 ≤ a.eff.1 → s.releasePending a.lane.key = false
  released : ∀ a ∈ s.memSends w m, a.eff.1 = 3 ∨ a.eff.1 = 4 →
    s.releaseReady a.lane.key w.cluster a.lane.t.vc m.scope m.pad = true
  counted : ∀ a ∈ s.memSends w m, s.outstanding a.lane.key (a.cls m) < 255
  room : ∀ q wide, m.dst.push w.slice = some (q, wide) →
    (s.memSends w m = [] ∨ (s.takePops w m.srcs).1.roomFor w q ((s.memSends w m).length * (if wide then 2 else 1)) = true)
    ∧ (q = 14 → ∀ l ∈ w.acting, s.releaseReady l.key w.cluster l.t.vc 7 false = true)

/-- No message waits for the values that its queue destination is to return (R39, log entry 4): what a wait's end puts into an outbox then
closes no message, and so raises none. -/
def NoOpenMessage (s : State) : Prop := ∀ x ∈ s.clusters, ∀ m ∈ x.2.outbox, m.dst ≠ 1023

/-- A byte of memory as every read finds it: one of a frame that waits for its zero-fill is zero (spec/17 R383). -/
def byteAt (s : State) (a : Nat) : Byte := (s.bytesAt a 1).headD 0

/-- None of n bytes has moved: each stands at its own address (R226). -/
def Unmoved (s : State) (a n : Nat) : Prop := ∀ i, i < n → s.placed? (a + i) = a + i

/-- The instructions that have an opcode: CVTS has one for six destination types (spec/05 R128). -/
def hasOpcode : Instr → Bool
  | .cvtsD dt _ => dt = 0x8 || dt = 0x9 || dt = 0xA || dt = 0xC || dt = 0xD || dt = 0xE
  | _ => true

end Sys2Proof.Safety
end

