-- ==== Sys2Proof/Certificates/Slice0/Obligations.lean ====
section
/-! DEFINITION. The statements for the provers. -/

open Sys2Proof Sys2Proof.Machine Sys2Proof.Safety

/-! Encoding and decoding. -/

/-- Words written out from the encoding tables of spec/05 decode to the instructions that they stand for. -/
def Obligations.WordsDecode : Prop :=
  decode false [0x00, 0x00] = .ok (.early (.movH ⟨0, 0, false⟩), 2)
  -- iadd.i32 g1, g1, g2 in the H form: b = 2, a = 1, hop 1
  ∧ decode false [0x44, 0x10] = .ok (.early (.iaddH ⟨2, 1, false⟩), 2)
  -- W form, wop 0x01, s2 = g3, s1 = g2, d = g1, no predicate
  ∧ decode false [0xF1, 0x40, 0x20, 0x0C] = .ok (.early (.iaddW ⟨3, 2, 1, 7, 0⟩), 4)
  -- exit: wop 0x52, its fields zero registers
  ∧ decode false [0x71, 0xA9, 0xAE, 0xEB] = .ok (.early (.exitW ⟨58, 58, 58, 7, 0⟩), 4)
  -- iadd.i32 g1, g2, g3 in the D form: dop 0x01, type .i32
  ∧ decode false [0x73, 0x01, 0x01, 0x02, 0x0C, 0x00, 0x0F, 0x40] = .ok (.early (.iaddD ⟨0x100, 0, 0xF0, 0, 3, 0, 2, 1, false, 7, 0⟩), 8)
  -- cue 11
  ∧ decode false [0xFD, 0x40, 0x20, 0x0C] = .error .cue

/-- R105: the length stands in bits [1:0] of the halfword at the PC, and every value is assigned: 16 bits for the H form, 32 for the W and
WI forms, 64 for the D, DP, DI and DM forms. The bytes from the PC on are the bits [7:0], [15:8] and so on of what is decoded: each
halfword little-endian, the first in bits [15:0]. -/
def Obligations.LengthFromTheFirstHalfword : Prop :=
  (∀ sl (b : Byte) r,
    let n := match (b.extractLsb' 0 2).toNat with | 0 => 2 | 1 => 4 | 2 => 2 | _ => 8
    (n ≤ (b :: r).length → decode sl (b :: r) = (decodeRaw sl (split n (ofBytes ((b :: r).take n)))).map fun d => (d, n))
    ∧ ((b :: r).length < n → decode sl (b :: r) = .error .fetch))
  ∧ (∀ (l : List Byte) i, i < l.length → ofBytes l / 2 ^ (8 * i) % 256 = (l.getD i 0).toNat)
  ∧ ∀ v, (∃ op f, split 2 v = .h op f)
    ∧ ((∃ op f, split 4 v = .w op f) ∨ (∃ op f, split 4 v = .wimm op f) ∨ ∃ op f, split 4 v = .wi op f)
    ∧ ((∃ op f, split 8 v = .d op f) ∨ (∃ op f, split 8 v = .dp op f) ∨ (∃ op f, split 8 v = .di op f) ∨ ∃ op f, split 8 v = .dm op f)

/-- R107: the conditions are checked in their order: cue 11 before the opcode, the opcode before the fields, and only an instruction
that breaks no condition is delivered. -/
def Obligations.DecodeChecksInOrder : Prop :=
  ∀ (sl : Bool) (r : Raw),
    (r.cue = 3 → decodeRaw sl r = .error .cue)
    ∧ (r.cue ≠ 3 → r.decoded = none → decodeRaw sl r = .error .opcode)
    ∧ (∀ d, r.cue ≠ 3 → r.decoded = some d → d.allowed sl = false → decodeRaw sl r = .error .opcode)
    ∧ (∀ d, decodeRaw sl r = .ok d → r.cue ≠ 3 ∧ r.decoded = some d ∧ d.check sl = none ∧ d.allowed sl = true)

/-- Decoding an encoded instruction gives it back: every instruction of the table that breaks no condition of R107, with every operand
that its form admits, whatever bytes follow it; in an issue slot but for the three instructions that exist in the access slice alone
(R201), and in an access slice for the instructions of its subset (R232). -/
def Obligations.EncodeDecode : Prop :=
  ∀ (sl : Bool) (i : Instr) (rest : List Byte), i.raw.isSome = true → i.allowed sl = true → i.check sl = none →
    hasOpcode i = true → ∃ d, decode sl (encode i ++ rest) = .ok (d, i.length) ∧ d.instr = i

/-! A step. -/

/-- A step runs the instruction that it decodes. An issue of a slot at the head of the agenda, after its wait: the slot is busy until its
last instruction has left it, then it fetches at its warp's PC, and the state after the issue is exec of what the decoder delivers, with
the time of the issue noted where the instruction did not stay in the slot (log entry 1); or, while the remote target of a transaction of
the warp has not answered a packet, the slot waits (log entry 73). What the device wrote in the step then takes effect, and switch-outs go
on (log entry 16). -/
def Obligations.StepRunsTheDecodedInstruction : Prop :=
  ∀ (s : State) (k : Nat) (upset : List Nat) (wait : Nat) (r : List Agendum) (f : Front) (d : Decoded) (n : Nat),
    s.agenda = ⟨wait, .issue k upset⟩ :: r →
    (({ s with agenda := r } : State).pass wait).pkg.powered = true →
    (({ s with agenda := r } : State).pass wait).root.recovery = false →
    ((({ s with agenda := r } : State).pass wait).row (rowOf (k / 4))).clkUntil = 0 →
    let s1 := (({ s with agenda := r } : State).pass wait).beginIssue k upset
    s1.front = some f → s1.fetched f = .ok d n →
    (s1.answerWait f = none →
      step s = settleStep (match exec d.instr s1, (s1.slotLanes k).head? with
        | .next s2, some x => .next (if (s2.slot k).wait = 0 then s2.noteIssue (k / 4) x.2.2 else s2)
        | o, _ => o))
    ∧ (∀ reason, s1.answerWait f = some reason → step s = settleStep (.next (s1.slotWait k reason)))

/-- A step of another agent at the head of the agenda is exec of its row, after its wait, where the package has power and its boot has not
failed; a boot needs neither, and after a failed boot a recovery load, a write to its window and a loss of power run too (log entry 135). Then what
the device wrote takes effect, and switch-outs go on (log entry 16). -/
def Obligations.StepRunsTheEvent : Prop :=
  ∀ (s : State) (i : Instr) (wait : Nat) (r : List Agendum),
    s.agenda = ⟨wait, .event i⟩ :: r →
    let s1 := ({ s with agenda := r } : State).pass wait
    (∃ found, i = .boot found) ∨ s1.pkg.powered = true ∧ (s1.root.recovery = false ∨ Instr.inRecovery i = true) →
    step s = settleStep (exec i { s1 with upset := [] })

/-- Every step keeps the memory in its canonical form, from every state. -/
def Obligations.StepKeepsMemoryCanonical : Prop :=
  ∀ s t : State, MemoryOk s → step s = .next t → MemoryOk t

/-- The state after reset: memory that reads as zero, in its canonical form; no mark, no owner, no thread; and every register at the value
that its table of the spec gives for reset. -/
def Obligations.ResetState : Prop :=
  let s := State.reset
  MemoryOk s ∧ (∀ a, readByte s.mem a = 0) ∧ s.marks = [] ∧ (∀ f, get s.owners f 0x40 = 0x40) ∧ s.zeroPend = [] ∧ s.threads = []
    ∧ s.nc = 0
    ∧ (∀ c, (s.ctx c).ctl = 0 ∧ (s.ctx c).mode = 0x200 ∧ (s.ctx c).stat = 0 ∧ (s.ctx c).msx = 0 ∧ (s.ctx c).save = 0 ∧ (s.ctx c).pt = 0
      ∧ (s.ctx c).invs = 0 ∧ (s.ctx c).pod = 0 ∧ (s.ctx c).fr = 0 ∧ (s.ctx c).frp = 0 ∧ (s.ctx c).vec = 0xFFFFFFFF ∧ (s.ctx c).cur = 0
      ∧ (s.ctx c).stop = 0 ∧ (s.ctx c).wd = 0xF4240 ∧ (s.ctx c).dbg = 0 ∧ (s.ctx c).dbgd = 0)
    ∧ (∀ b, (s.board b).ctl = 0 ∧ (s.board b).lasterr = 0 ∧ (s.board b).ovf = false ∧ (s.board b).queue = [])
    ∧ (∀ n, (s.eg n).newpers = 0 ∧ (s.eg n).pers = 0 ∧ (s.eg n).step = 0 ∧ (s.eg n).err = 0 ∧ (s.eg n).wfail = 0 ∧ (s.eg n).fec = 0
      ∧ (s.eg n).los = false ∧ (s.eg n).use = 0 ∧ (s.eg n).ranges = [])
    ∧ s.pkg.partmap = 0 ∧ s.pkg.podctl = 0 ∧ s.pkg.podrt = [] ∧ s.pkg.relr = 0 ∧ s.pkg.relrp = 0 ∧ s.pkg.relvec = 0xFFFF
    ∧ s.pkg.repctl = 0x8000000000001000 ∧ s.pkg.attcmd = 0 ∧ s.pkg.pwrctl = 4800
    ∧ s.root.mr0 = List.replicate 32 0 ∧ s.root.mr1 = List.replicate 32 0 ∧ s.root.mr2 = List.replicate 32 0
    ∧ s.root.mr3 = List.replicate 32 0

/-! Lane instructions. -/

/-- Each of the 163 lane instructions other than HOME and those of FP64 completes: where it starts (R39, R41, R42) and its destination
has room, the next state holds its results: the pops, the kills of its sources (R44), the value of each executing thread in its
destination and in l0 and l1 (R35), and the PCs after it. DADD, DMUL, DFMA and DCMP complete in the same way, and occupy their slot for 4
core cycles (R24). -/
def Obligations.LaneInstructionsComplete : Prop :=
  ∀ (i : Instr) (L : LaneRule) (s : State) (w : Warp), s.warp L.head = some w → Starts s w L.srcs L.dst → HasRoom s w L.srcs L.dst →
    let t := s.laneDone w L.head L.srcs L.dst L.checked L.results
    (laneRule i = some L → exec i s = .next t)
    ∧ (∀ k, laneRule64 i = some L → s.cur = .slot k → (t.slot k).wait = 0 →
      exec i s = .next (t.modSlot k fun sl => { sl with busy := s.now + 4 * cycleOf (s.row (rowOf (k / 4))).clk }))

/-- R35, R37, R82, R83: where each executing thread finds its result, of every lane instruction but HOME: in the named g or o register, or register
pair, or UNPACK's consecutive registers, and in l0 and l1; or in the predicate of ICMP, FCMP, DCMP, PTBL, PMOV, AGREE and ISPOI, which leaves l0 and
l1. A destination of zero is discarded, and l0 and l1 are still updated; a destination of l0 leaves l1 (`Stands`). -/
def Obligations.LaneResults : Prop :=
  ∀ (i : Instr) (L : LaneRule) (s : State) (w : Warp), laneRule i = some L ∨ laneRule64 i = some L → s.warp L.head = some w →
    L.dst.push w.slice = none → Starts s w L.srcs L.dst → Sound s w L.checked →
    ∃ t, exec i s = .next t ∧ ∀ l o, (l, o) ∈ w.executing.zip (L.results (s.laneIns w L.srcs)) → Lone w l →
      ∃ u, t.thread? l.key = some u ∧ Stands L.dst l.t u o

/-- The frame of a lane instruction whose operands are no queues: no byte of memory, no mark, no group, act, context or operation
changes; the registers of its warp's threads other than the destination and the killed sources keep their values (a register that has
arrived may stop being pending at a hold, R50), and so do the predicates other than the destination; the flags of the status word
stand, but for STAT and PCLR; and the threads of other warps are untouched. -/
def Obligations.LaneFrame : Prop :=
  ∀ (i : Instr) (L : LaneRule) (s : State) (w : Warp), laneRule i = some L → s.warp L.head = some w → w.slice = false →
    w.queues L.srcs L.dst = [] → Starts s w L.srcs L.dst → Sound s w L.checked →
    ∃ t, exec i s = .next t
      ∧ (∀ a, readByte t.mem a = readByte s.mem a) ∧ t.marks = s.marks ∧ t.groups = s.groups ∧ t.acts = s.acts ∧ t.ctxs = s.ctxs
      ∧ t.ops = s.ops ∧ t.ensembles = s.ensembles ∧ t.pkg = s.pkg
      ∧ (∀ k, (∀ l ∈ w.lanes, l.key ≠ k) → t.thread? k = s.thread? k)
      ∧ (∀ l ∈ w.lanes, Lone w l → ∃ u, t.thread? l.key = some u
          ∧ (∀ n, n ∉ (L.dst.regs ++ L.srcs.flatMap Src.kills).map fileIndex → (l.t.cell n).arrived = false → u.cell n = l.t.cell n)
          ∧ (∀ p, L.dst ≠ .pred p → u.pred p = l.t.pred p)
          ∧ ((∀ f, i ≠ .statD f) → (∀ f, i ≠ .pclrD f) → l.t.tsw &&& u.tsw = l.t.tsw)
          ∧ u.blocks = l.t.blocks ∧ u.region = l.t.region ∧ u.vc = l.t.vc ∧ u.txn = l.t.txn)

/-- The destination pushes a queue (R39): one element for each thread whose guard holds, in ascending virtual lane, with its tag. -/
def Obligations.QueuePush : Prop :=
  ∀ (i : Instr) (L : LaneRule) (s : State) (w : Warp) (q : Nat) (g : Nat) (gr : Group), laneRule i = some L → s.warp L.head = some w →
    w.slice = false → L.dst.push w.slice = some (q, false) → q ≠ 14 → w.group = some g → s.group? g = some gr →
    L.srcs.filterMap (Src.pops w.slice) = [] → Guarded w → Starts s w L.srcs L.dst → HasRoom s w L.srcs L.dst → Sound s w L.checked →
    ∃ t gr', exec i s = .next t ∧ t.group? g = some gr'
      ∧ get gr'.q q [] = get gr.q q [] ++ (w.acting.zip (L.results (s.laneIns w L.srcs))).map fun x => QEl.val (x.2.outs.headD (.dat 0)).lo

/-- R38: a thread whose predicate is false does not execute a lane instruction: its registers, predicates and status stay. -/
def Obligations.FalseGuardChangesNothing : Prop :=
  ∀ (i : Instr) (L : LaneRule) (s : State) (w : Warp), laneRule i = some L → s.warp L.head = some w → w.slice = false →
    L.head.cue ≠ 2 → Starts s w L.srcs L.dst → HasRoom s w L.srcs L.dst → L.dst.push w.slice = none → Sound s w L.checked →
    ∃ t, exec i s = .next t ∧ ∀ l ∈ w.lanes, l.guard = .off → Lone w l → ∃ u, t.thread? l.key = some u
      ∧ u.regs = l.t.regs ∧ u.l0 = l.t.l0 ∧ u.l1 = l.t.l1 ∧ u.preds = l.t.preds ∧ u.tsw = l.t.tsw

/-- R88: of each lane instruction that computes thread by thread, in each executing thread, the first token in the order guard, s1, s2, s3 (a, b and
l0 in the H form) goes to every destination, register or predicate, and to l0 and l1 under R35; the operation is not performed, and the status word
stands (unless a long write that has arrived ends its wait with the run, R50). -/
def Obligations.FirstTokenIsTheResult : Prop :=
  ∀ (i : Instr) (L : LaneRule) (s : State) (w : Warp), laneRule i = some L ∨ laneRule64 i = some L → byThread i = true →
    s.warp L.head = some w → L.dst.push w.slice = none → Starts s w L.srcs L.dst → Sound s w L.checked →
    ∃ t, exec i s = .next t ∧ ∀ l ∈ w.executing, Lone w l → ∀ k : Word,
      (l.badTok = some k ∨ (l.badTok = none ∧ ∃ before after, s.sourceVals w L.srcs l = before ++ Val.tok k :: after ∧ ∀ v ∈ before, v.tok? = none)) →
      ∃ u, t.thread? l.key = some u
        ∧ (∀ r wide, L.dst = .reg r wide → u.l0 = Cell.ofTw (.tok k) ∧ (wide = true → u.l1 = Cell.ofTw (.tok k))
          ∧ (r.toNat < 0xC8 → u.cell (fileIndex r) = Cell.ofTw (.tok k)
            ∧ (wide = true → u.cell (fileIndex r + 1) = Cell.ofTw (.tok k))))
        ∧ (∀ r n, L.dst = .many r n → u.l0 = Cell.ofTw (.tok k) ∧ u.l1 = Cell.ofTw (.tok k)
          ∧ (r.toNat < 0xC8 → ∀ j, j < n → u.cell (fileIndex r + j) = Cell.ofTw (.tok k)))
        ∧ (∀ p, L.dst = .pred p → p ≠ 7 → p < l.t.preds.length → u.pred p = ⟨false, true, k, false⟩)
        ∧ ((∀ x ∈ l.t.regs, x.2.arrived = false) → l.t.l0.arrived = false → l.t.l1.arrived = false → u.tsw = l.t.tsw)

/-- R54: an integer value outside its type's range wraps modulo 2^w and raises no flag, or with .sat is the nearest end of the range
and raises SAT; inside the range it is the same with and without .sat. And each thread whose guard holds receives, with untagged sources,
what this makes of the exact value of IADD, ISUB, IMUL, IMAD, IADDX, IABS, INEG, IMIN and IMAX under their type in the D form, and of IADD, ISUB,
IMUL, IMIN and IMAX in the DP form (R144); its status takes no other flag (unless a long write that has arrived ends its wait with the run, R50). -/
def Obligations.TypedArithmetic : Prop :=
  (∀ (t : Nat) (sat : Bool) (v : Int), t < 8 →
    let r := fitInt t sat v
    (intMin t ≤ v ∧ v ≤ intMax t → intRead t r.1.toNat = v ∧ r.2 = 0 ∧ r = fitInt t (!sat) v)
    ∧ (sat = true → intMax t < v → intRead t r.1.toNat = intMax t ∧ r.2 = SAT)
    ∧ (sat = true → v < intMin t → intRead t r.1.toNat = intMin t ∧ r.2 = SAT)
    ∧ (sat = false → (v - intRead t r.1.toNat) % 2 ^ intWidth t = 0 ∧ intMin t ≤ intRead t r.1.toNat ∧ intRead t r.1.toNat ≤ intMax t
      ∧ r.2 = 0))
  ∧ ∀ (i : Instr) (L : LaneRule) (ty : Nat) (sat : Bool) (g : List Int → Int) (rd : Byte) (wide : Bool) (s : State) (w : Warp),
    exactInt i = some (ty, sat, g) → laneRule i = some L → L.dst = .reg rd wide →
    s.warp L.head = some w → L.dst.push w.slice = none → Starts s w L.srcs L.dst → Sound s w L.checked →
    ∃ t, exec i s = .next t ∧ ∀ l ∈ w.acting, Lone w l → ∀ xs : List Dword, s.sourceVals w L.srcs l = xs.map Val.dat →
      let r := fitInt ty sat (g (xs.map fun x => intRead ty x.toNat))
      ∃ u, t.thread? l.key = some u ∧ u.l0 = Cell.ofTw (.data (lo32 r.1))
        ∧ (wide = true → u.l1 = Cell.ofTw (.data (hi32 r.1)))
        ∧ (rd.toNat < 0xC8 → u.cell (fileIndex rd) = Cell.ofTw (.data (lo32 r.1))
          ∧ (wide = true → u.cell (fileIndex rd + 1) = Cell.ofTw (.data (hi32 r.1))))
        ∧ u.tsw &&& r.2 = r.2
        ∧ ((∀ x ∈ l.t.regs, x.2.arrived = false) → l.t.l0.arrived = false → l.t.l1.arrived = false → u.tsw = l.t.tsw ||| r.2)

/-- What the 32-bit integer operations of the H, W, WI and DP forms compute, in the arithmetic of 32-bit words (R144 to R146); none of
them raises a flag. And what the floating-point arithmetic and comparisons make of finite values, outside flush-to-zero: FADD, FSUB, FMUL, FFMA,
DADD, DMUL and DFMA give the exact value rounded once by their code (R62, R149), with NX where it is inexact and UF beside it where the result is below
the least normal number; FMIN and FMAX the lesser and the greater (R150); FCMP and DCMP compare values (R153). -/
def Obligations.WordArithmetic : Prop :=
  (∀ (i : Instr) (L : LaneRule) (g : List Word → Word) (r : Byte) (s : State) (w : Warp), wordOp i = some g → laneRule i = some L →
    s.warp L.head = some w → L.dst = .reg r false → L.dst.push w.slice = none → Starts s w L.srcs L.dst → Sound s w L.checked →
    ∃ t, exec i s = .next t ∧ ∀ l ∈ w.acting, Lone w l → ∀ xs : List Word, s.sourceVals w L.srcs l = xs.map (fun x => Val.dat (zx x)) →
      ∃ u, t.thread? l.key = some u ∧ u.l0 = Cell.ofTw (.data (g xs))
        ∧ (r.toNat < 0xC8 → u.cell (fileIndex r) = Cell.ofTw (.data (g xs)))
        ∧ ((∀ x ∈ l.t.regs, x.2.arrived = false) → l.t.l0.arrived = false → l.t.l1.arrived = false → u.tsw = l.t.tsw))
  ∧ (∀ (i : Instr) (L : LaneRule) (f : Fmt) (mode : Nat) (g : List ℚ → ℚ) (r : Byte) (wide : Bool) (s : State) (w : Warp),
    exactFlt i = some (f, mode, g) → laneRule i = some L ∨ laneRule64 i = some L → s.warp L.head = some w → L.dst = .reg r wide →
    L.dst.push w.slice = none → Starts s w L.srcs L.dst → Sound s w L.checked → s.headerBit w.ctx w.act 2 = false ∨ f.flushes = false →
    ∃ t, exec i s = .next t ∧ ∀ l ∈ w.acting, Lone w l → ∀ (xs : List Dword) (vs : List ℚ), s.sourceVals w L.srcs l = xs.map Val.dat →
      xs.map (fun x => exactValue (f.decode x.toNat)) = vs.map some → InRange f (g vs) →
      ∃ u b, t.thread? l.key = some u ∧ RoundsTo f mode (g vs) b ∧ u.l0 = Cell.ofTw (.data (lo32 (BitVec.ofNat 64 b)))
        ∧ (wide = true → u.l1 = Cell.ofTw (.data (hi32 (BitVec.ofNat 64 b))))
        ∧ (r.toNat < 0xC8 → u.cell (fileIndex r) = Cell.ofTw (.data (lo32 (BitVec.ofNat 64 b)))
          ∧ (wide = true → u.cell (fileIndex r + 1) = Cell.ofTw (.data (hi32 (BitVec.ofNat 64 b)))))
        ∧ ((∀ x ∈ l.t.regs, x.2.arrived = false) → l.t.l0.arrived = false → l.t.l1.arrived = false →
          (HasValue f b (g vs) → u.tsw = l.t.tsw)
          ∧ (¬HasValue f b (g vs) → u.tsw = l.t.tsw ||| NX ||| (if b % 2 ^ (f.w - 1) < 2 ^ f.mbits then UF else 0))))
  ∧ ∀ (i : Instr) (L : LaneRule) (f : Fmt) (cond p : Nat) (s : State) (w : Warp), exactCmp i = some (f, cond) →
    laneRule i = some L ∨ laneRule64 i = some L → s.warp L.head = some w → L.dst = .pred p → Starts s w L.srcs L.dst → Sound s w L.checked →
    s.headerBit w.ctx w.act 2 = false ∨ f.flushes = false →
    ∃ t, exec i s = .next t ∧ ∀ l ∈ w.acting, Lone w l → p ≠ 7 → p < l.t.preds.length → ∀ (x y : Dword) (vx vy : ℚ),
      s.sourceVals w L.srcs l = [.dat x, .dat y] → HasValue f x.toNat vx → HasValue f y.toNat vy →
      ∃ u, t.thread? l.key = some u ∧ u.pred p = ⟨condOf cond vx vy, false, 0, false⟩

/-! Registers. -/

/-- R42, R51: what a read of a g or o register delivers: its value while it is live; the token of a dead, a pending or a left register,
with bits [24:1] of the reader's address; the dead register's where the thread does not hold its block. And R34, R37: the special
operands; zero reads as 0, p7 reads true and discards writes. And R48: a register that a long-latency instruction names is pending on its
operation, and every other register of the thread stands. -/
def Obligations.RegisterReads : Prop :=
  (∀ (t : Thread) (i origin : Nat),
    (t.blocks < blockOf i → t.readFile i origin = .tok (token 0x30 origin))
    ∧ (blockOf i ≤ t.blocks → t.readFile i origin = (match (t.cell i).st with
        | .live => ⟨(t.cell i).tag, (t.cell i).val⟩
        | .dead => .tok (token 0x30 origin)
        | .pending => .tok (token 0x31 origin)
        | .left => .tok (token 0x32 origin))))
  ∧ (∀ (t : Thread) (r : Byte) (op cls o : Nat), r.toNat < 0xC0 → blockOf r.toNat ≤ t.blocks →
    (t.pend r op cls).readFile (fileIndex r) o = .tok (token 0x31 o)
    ∧ ((t.pend r op cls).cell (fileIndex r)).owner = op
    ∧ ∀ n, n ≠ fileIndex r → (t.pend r op cls).cell n = t.cell n)
  ∧ ∀ (s : State) (w : Warp) (v : Nat) (t : Thread) (o : Nat) (c : PCell),
    s.readReg w v t 0xF0 = .data 0 ∧ s.readReg w v t 0xF1 = .data (BitVec.ofNat 32 v)
    ∧ (w.slice = false → s.readReg w v t 0xF2 = .data t.tid) ∧ s.readReg w v t 0xF3 = .data (BitVec.ofNat 32 t.gid)
    ∧ s.readReg w v t 0xF4 = .data (BitVec.ofNat 32 w.cluster)
    ∧ t.readPred 7 o = .ok true ∧ t.setPred 7 c = t

/-! Memory instructions. -/

/-- Each of the 39 memory instructions of spec/08 (loads, stores, the register window, atomics) completes at issue: where it starts and
no thread raises, its operations are sent and the warp moves past it. -/
def Obligations.MemoryInstructionsComplete : Prop :=
  ∀ (i : Instr) (f : DMForm) (m : MemDo) (s : State) (w : Warp), memRule i = some (f, m) → s.warp (dmHead f) = some w →
    AccessStarts s w m → s.memRaises w m = [] → exec i s = .next (s.memDone w (dmHead f) m)

/-- What a memory instruction of the device's memory leaves in flight (R199, R203, R48): for each thread that performs it, an operation
with its address, its place, its work, its class (4 in another package) and the address of the instruction; a g or o destination is
pending on that operation. -/
def Obligations.MemoryOperationsSent : Prop :=
  ∀ (i : Instr) (f : DMForm) (m : MemDo) (s : State) (w : Warp), memRule i = some (f, m) → m.pad = false → m.special.isNone = true →
    s.warp (dmHead f) = some w → w.slice = false → AccessStarts s w m → s.memRaises w m = [] →
    ∃ t, exec i s = .next t ∧ ∀ a ∈ s.memSends w m, a.lane.guard = .on → Lone w a.lane → ∀ p va pa attr, a.aim = .at p va pa attr →
      ∃ k o, find t.ops k = some o ∧ o.issuer = .thread a.lane.key ∧ o.place = p ∧ o.va = va ∧ o.pa = pa ∧ o.pc = w.pc
        ∧ o.cls = a.cls m ∧ (m.loads = false → o.work = m.work a.vals)
        ∧ (∀ r wide, m.dst = .reg r wide → r.toNat < 0xC0 → ∃ u, t.thread? a.lane.key = some u
            ∧ (u.cell (fileIndex r)).st = .pending ∧ (u.cell (fileIndex r)).owner = k)

/-- The frame of a memory instruction at issue: it stores to no byte of memory and marks no sector (its stores are performed at their
home, MSE_WRITE and MSE_ATOMIC), and, where it does not go to scratchpad, whose words other threads may wait for, the threads of other
warps keep their registers, predicates and status. -/
def Obligations.MemoryIssueFrame : Prop :=
  ∀ (i : Instr) (f : DMForm) (m : MemDo) (s : State) (w : Warp), memRule i = some (f, m) → s.warp (dmHead f) = some w →
    AccessStarts s w m → s.memRaises w m = [] → NoOpenMessage s →
    ∃ t, exec i s = .next t ∧ (∀ a, readByte t.mem a = readByte s.mem a) ∧ t.marks = s.marks
      ∧ (m.pad = false → ∀ k, (∀ l ∈ w.lanes, l.key ≠ k) → ∀ u, s.thread? k = some u →
        ∃ u', t.thread? k = some u' ∧ u'.regs = u.regs ∧ u'.preds = u.preds ∧ u'.tsw = u.tsw)

/-- R199, R200: an address that is no multiple of the access's size is code 0x12, before any translation (log entry 20); and a store's
poisoned address is raised with consumer code 0x03, before its data (R94, R99). -/
def Obligations.AddressFailures : Prop :=
  (∀ (s : State) (w : Warp) (align : Nat) (acc : Access) (a : Dword), a.toNat % align ≠ 0 → s.aim w align acc (.dat a) = .code 0x12)
  ∧ ∀ (s : State) (w : Warp) (f : DMForm) (a : Ask) (k : Word), a ∈ s.memAsks w (storeDo f false) → a.lane.badTok = none → a.aim = .tok k →
    (a.lane, k, 3) ∈ s.memRaises w (storeDo f false) ∧ ∀ k' c, (a.lane, k', c) ∈ s.memRaises w (storeDo f false) → k' = k ∧ c = 3

/-! Memory at the points of order. -/

/-- A read of a byte after a write: the byte written inside the written range, what was there outside it. And a 32-bit word of a group's
scratchpad (R210): read back after its store, the other words as they were. -/
def Obligations.ReadAfterWrite : Prop :=
  (∀ (m : List Host.Cell) (a : Nat) (bytes : List Byte), Memory.wf m = true →
    (∀ n, n < bytes.length → readByte (writeBytes m a bytes) (a + n) = bytes.getD n 0)
    ∧ (∀ b, (b < a ∨ a + bytes.length ≤ b) → readByte (writeBytes m a bytes) b = readByte m b)
    ∧ Memory.wf (writeBytes m a bytes) = true)
  ∧ ∀ (s : State) (g a : Nat) (v : Dword) (gr : Group), s.group? g = some gr → a % 4 = 0 →
    ∃ gr', (s.padStore g 4 a v).group? g = some gr' ∧ gr'.padLoad 5 a = [.data (lo32 v)]
      ∧ ∀ b, b / 4 ≠ a / 4 → get gr'.pad (b / 4) Tw.zero = get gr.pad (b / 4) Tw.zero

/-- MSE_READ, MSE_WRITE, MSE_ATOMIC and SLICE_FILL complete: an operation of their kind that has reached its home, whose earlier accesses
to the location are performed, whose gate covers its clock (R296) and whose range has not moved, is applied there. -/
def Obligations.MseSteps : Prop :=
  ∀ (s : State) (op : Nat) (o : Op) (ecc : Ecc), find s.ops op = some o → o.stage = .sent → s.mayApply op o = true → s.passes o = true →
    s.movedOp o = none →
    (o.kind = some .read → exec (.mseRead op ecc) s = .next (s.readAt op o ecc))
    ∧ (o.kind = some .watch → exec (.mseRead op ecc) s = .next (s.watchRead op o))
    ∧ (o.kind = some .write → exec (.mseWrite op) s = .next (s.writeAt op o))
    ∧ (o.kind = some .atomic → s.batchReady o = true → exec (.mseAtomic op ecc) s = .next (s.atomBatch o ecc))
    ∧ (o.kind = some .fill → s.raggedHeld o = none → exec (.sliceFill op) s = .next (s.fillAt op o .clean))

/-- What MSE_READ leaves of a load: the operation is performed, and holds the value of the bytes at its address as they stand now (R226), or
the token of a sector marked there (R84, R206): those at the address itself where none of them has moved. No byte of memory changes. -/
def Obligations.LoadAtHome : Prop :=
  ∀ (s : State) (op : Nat) (o : Op) (type : BitVec 4) (c i : Bool), find s.ops op = some o → o.work = .load type c i →
    o.kind = some .read → o.stage = .sent → s.mayApply op o = true → s.passes o = true → s.movedOp o = none →
    (∃ h, o.place = .home h) →
    ∃ t o', exec (.mseRead op .clean) s = .next t ∧ find t.ops op = some o' ∧ o'.stage = .performed
      ∧ (s.markNow o.pa o.span = none → o'.reply = loadOut type.toNat (s.readNow o.pa o.span))
      ∧ (∀ m, s.markNow o.pa o.span = some m → o'.reply = o.tokens m.toNat)
      ∧ (0 < o.span → Unmoved s o.pa o.span →
        (s.markIn o.pa o.span = none → o'.reply = loadOut type.toNat (s.readN o.pa o.span))
        ∧ ∀ m, s.markIn o.pa o.span = some m → o'.reply = o.tokens m.toNat)
      ∧ ∀ a, readByte t.mem a = readByte s.mem a

/-- The frame of a store at its home: MSE_WRITE leaves its bytes, little-endian, where the operation's address stands now (R226; the address
itself where the range has not moved), and every byte outside them as it was. -/
def Obligations.StoreAtHome : Prop :=
  ∀ (s : State) (op : Nat) (o : Op) (n : Nat) (v : Dword), find s.ops op = some o → o.work = .store n v →
    o.stage = .sent → s.mayApply op o = true → s.passes o = true → s.movedOp o = none → s.split o.pa n = false →
    s.placed? o.pa % 2 ^ 16 + n ≤ 2 ^ 16 → NoOpenMessage s →
    ∃ t, exec (.mseWrite op) s = .next t
      ∧ (∀ k, k < n → byteAt t (s.placed? o.pa + k) = BitVec.ofNat 8 (v.toNat / 256 ^ k))
      ∧ (∀ a, (a < s.placed? o.pa ∨ s.placed? o.pa + n ≤ a) → byteAt t a = byteAt s a)

/-- What each atomic operation leaves at its target, of its width w, and returns. R217: the sum modulo 2^w, the bitwise operations, the exchange, the
compare and exchange, the lesser and the greater; FADD the rounded sum of finite values (R72). R219: BINC, WINC, CDEC and LADD. R220: PMAX, by the key of
the scores, and of equal scores the lower index. Each returns the value from before it, but for a LADD that does not fit. -/
def Obligations.AtomicResults : Prop :=
  (∀ (t m x c l : Nat), (t = 4 ∨ t = 5 ∨ t = 6 ∨ t = 7) → m < 2 ^ typeWidth t → x < 2 ^ typeWidth t →
    (atomVal .add t m x c l).1 = (m + x) % 2 ^ typeWidth t
    ∧ (atomVal .and t m x c l).1 = m &&& x ∧ (atomVal .or t m x c l).1 = m ||| x ∧ (atomVal .xor t m x c l).1 = m ^^^ x
    ∧ (atomVal .xchg t m x c l).1 = x ∧ (atomVal .cas t m x c l).1 = (if m = c then x else m)
    ∧ intRead t (atomVal .min t m x c l).1 = min (intRead t m) (intRead t x)
    ∧ intRead t (atomVal .max t m x c l).1 = max (intRead t m) (intRead t x)
    ∧ ∀ op, op ≠ .ladd → (atomVal op t m x c l).2.1 = m)
  ∧ (∀ (t m x c l : Nat) (vm vx : ℚ), (t = 8 ∨ t = 9 ∨ t = 0xA ∨ t = 0xB) → HasValue (fmtOf t) m vm → HasValue (fmtOf t) x vx →
    InRange (fmtOf t) (vm + vx) → RoundsTo (fmtOf t) 0 (vm + vx) (atomVal .fadd t m x c l).1 ∧ (atomVal .fadd t m x c l).2.1 = m)
  ∧ (∀ (m x c l : Nat), m < 2 ^ 32 → x < 2 ^ 32 →
    (atomVal .binc 5 m x c l).1 = (if m < x then m + 1 else m)
    ∧ (atomVal .winc 5 m x c l).1 = (if m ≥ x then 0 else m + 1)
    ∧ (atomVal .cdec 5 m x c l).1 = (if m > 0 then m - 1 else m)
    ∧ (m + x ≤ l → (atomVal .ladd 5 m x c l).1 = m + x ∧ (atomVal .ladd 5 m x c l).2.1 = m)
    ∧ (l < m + x → (atomVal .ladd 5 m x c l).1 = m ∧ (atomVal .ladd 5 m x c l).2.1 = 0xFFFFFFFF))
  ∧ ∀ (m x c l : Nat), m < 2 ^ 64 → x < 2 ^ 64 →
    let score (v : Nat) : Word := BitVec.ofNat 32 (v / 2 ^ 32)
    let key (v : Word) : Nat := (if v.msb then v ^^^ 0xFFFFFFFF else v + 0x80000000).toNat
    (atomVal .pmax 7 m x c l).1
      = (if key (score m) < key (score x) ∨ (score x = score m ∧ x % 2 ^ 32 < m % 2 ^ 32) then x else m)
    ∧ (atomVal .pmax 7 m x c l).2.1 = m

/-! Control flow. -/

/-- BRA, BRX, CALL, CALLX and RET complete: with untagged guards and targets, each thread whose guard holds goes on at the target, the
others at the next instruction, and a call leaves the address of the next instruction in its pair (R172 to R174). In the access slice
all its lanes must go to one place, and it does. The frame: memory and its marks, contexts, acts, operations, the threads of other warps,
and the thread's own registers but for the pair and the killed sources stand. -/
def Obligations.BranchesComplete : Prop :=
  ∀ (i : Instr) (B : BranchRule) (s : State) (w : Warp), branchRule i = some B → s.warp B.head = some w → Guarded w →
    Starts s w B.srcs B.dst → (∀ l ∈ w.acting, ∀ v ∈ s.sourceVals w B.srcs l, v.tok? = none) →
    (∀ a ∈ w.lanes, ∀ b ∈ w.lanes, a.v = b.v → a = b) →
    let next (l : Lane) : Dword := if l.acts then B.target w.pc (s.sourceVals w B.srcs l) else w.after B.head
    (w.slice = true → ∀ a ∈ w.lanes, ∀ b ∈ w.lanes, next a = next b) →
    ∃ t, exec i s = .next t
      ∧ t.mem = s.mem ∧ t.marks = s.marks ∧ t.ctxs = s.ctxs ∧ t.acts = s.acts ∧ t.ops = s.ops
      ∧ (w.slice = false → ∀ k, (∀ l ∈ w.lanes, l.key ≠ k) → t.thread? k = s.thread? k)
      ∧ (w.slice = false → ∀ l ∈ w.lanes, Lone w l → l.t.cue = .issuing → ∃ u, t.thread? l.key = some u ∧ u.pc = next l
          ∧ u.preds.map PCell.val = l.t.preds.map PCell.val ∧ u.blocks = l.t.blocks ∧ u.region = l.t.region ∧ u.vc = l.t.vc
          ∧ (∀ n, n ∉ (B.dst.regs ++ B.srcs.flatMap Src.kills).map fileIndex → (l.t.cell n).arrived = false → u.cell n = l.t.cell n)
          ∧ (∀ r, B.link = some r → l.acts = true → r.toNat < 0xC0 → r.toNat % 2 = 0 →
            u.cell (fileIndex r) = Cell.ofTw (.data (lo32 (w.after B.head)))
            ∧ u.cell (fileIndex r + 1) = Cell.ofTw (.data (hi32 (w.after B.head)))))
      ∧ (w.slice = true → ∀ l, w.lanes.head? = some l →
          ((t.group? w.unit).bind Group.slice).map Slice.pc = some (next l))

/-- NOP, HOLD, YIELD, EXIT, REGION, TRIG, RACQ, RREL, WAITC and FENCE complete with untagged guards: in each thread whose guard holds they
do what `threadRule` says, and the warp moves past them. R236: what WAITC leaves is over where the thread's class has no more outstanding
operations than it allows, and the thread is Runnable, or under a hold cue parked while a long write is out (R50); else it goes on
waiting. -/
def Obligations.ThreadInstructionsComplete : Prop :=
  (∀ (i : Instr) (R : ThreadRule) (s : State) (w : Warp), threadRule i = some R → s.warp R.head = some w → Guarded w →
    R.fault w = false →
    exec i s = .next ((w.acting.foldl (R.act w) (s.started w [] w.acting)).step1 w R.head R.ends))
  ∧ ∀ (s : State) (key cls n : Nat) (t : Thread), s.thread? key = some t → t.spilled = 0 →
    (s.outstanding key cls ≤ n → t.held = false → ∃ u, (s.endCount key cls n).thread? key = some u ∧ u.cue = .runnable ∧ u.wait = 0)
    ∧ (s.outstanding key cls ≤ n → t.held = true → s.longOut key = true →
      ∃ u, (s.endCount key cls n).thread? key = some u ∧ u.cue = .parked ∧ u.wait = 1)
    ∧ (n < s.outstanding key cls → s.endCount key cls n = s)

/-- R178: REGION makes the instruction's own address the region entry of each thread whose guard holds, and of no other; outside a
transaction alone: inside, it is an instruction fault (R171). -/
def Obligations.RegionEntry : Prop :=
  ∀ (f : DForm) (s : State) (w : Warp), s.warp (dHead f) = some w → w.slice = false → Guarded w →
    (w.someTxn = false → ∃ t, exec (.regionD f) s = .next t ∧ ∀ l ∈ w.lanes, Lone w l →
      ∃ u, t.thread? l.key = some u ∧ u.region = (if l.acts then w.pc else l.t.region))
    ∧ (w.someTxn = true → exec (.regionD f) s = .next (s.issueFault w))

/-- CHECK lets untagged operands pass (R164); HOME completes once its addresses are translated: each thread's result is the home word of its
address (R183, R390). -/
def Obligations.CheckAndHomeComplete : Prop :=
  ∀ (s : State) (w : Warp),
    (∀ f : WForm, s.warp (wHead f) = some w → Starts s w [src6 f.s1] .none → s.checkRaises w (src6 f.s1) = [] →
      exec (.checkW f) s = .next ((s.started w [src6 f.s1] w.acting).step1 w (wHead f)))
    ∧ (∀ f : DForm, s.warp (dHead f) = some w → Starts s w [src8 f.s1 f.s1lk] .none → s.checkRaises w (src8 f.s1 f.s1lk) = [] →
      exec (.checkD f) s = .next ((s.started w [src8 f.s1 f.s1lk] w.acting).step1 w (dHead f)))
    ∧ (∀ f : DForm, s.warp (dHead f) = some w → Starts s w [pairS1 f] (.reg f.d false) → HasRoom s w [pairS1 f] (.reg f.d false) →
      (∀ l ∈ w.acting, ∀ v, s.readPair w l f.s1 = .dat v → s.homeLook w.user w.cluster w.ctx v.toNat ≠ .miss) →
      exec (.homeD f) s = .next (s.laneDone w (dHead f) [pairS1 f] (.reg f.d false) false fun ls => ls.map fun i =>
        match i.poison with
        | some k => .one (.tok k)
        | none => .one (s.homeOf w (i.ins.getD 0 (.dat 0)).bits)))

/-- TRAP (R192): where a thread executes it with its guard, the curtain is lowered with consumer code 0x0B and the immediate's code. BRK
(R193): with debug enabled each thread whose guard holds stops at the next instruction with reason 0x1B and the immediate; with debug
disabled BRK does nothing. -/
def Obligations.TrapAndBreakpoint : Prop :=
  ∀ (f : DIForm) (s : State) (w : Warp), s.warp (diHead f) = some w → Guarded w →
    (w.acting ≠ [] → ∃ t, exec (.trapDi f) s = .next t ∧ (t.ctx w.ctx).low = true
      ∧ ((s.ctx w.ctx).low = false → df (t.ctx w.ctx).cur 31 24 = 0x0B ∧ df (t.ctx w.ctx).cur 23 16 = tokCode f.imm))
    ∧ ((s.ctx w.ctx).debug = false → exec (.brkDi f) s = .next ((s.started w [] w.acting).step1 w (diHead f)))
    ∧ ((s.ctx w.ctx).debug = true → w.slice = false → ∃ t, exec (.brkDi f) s = .next t ∧ ∀ l ∈ w.acting, Lone w l →
        ∃ u, t.thread? l.key = some u ∧ u.cue = .waiting ∧ u.wait = 0x1B ∧ u.waitOn = .brk ∧ u.brk = some f.imm ∧ u.pc = w.pc + 8)

/-- KMOV and KADD (R187): the elected lane's s1 + imm32 is written to, or added to, the group's k register, modulo 2^32. KLD and TAPE (R188
to R190): the elected lane's reads go out, and every thread of the warp waits, with reason 12 or 13; their killed sources are dead in
every thread that executes them (R44). -/
def Obligations.GroupRegisters : Prop :=
  (∀ (f : DIForm) (s : State) (w : Warp) (l : Lane) (g : Nat) (gr : Group) (v : Word), s.warp (diHead f) = some w →
    w.elected = some l → w.group = some g → s.group? g = some gr → l.badTok = none → w.slice = false →
    Starts s (only w l) [.reg f.s1 false 0 0] .none → Src.pops w.slice (.reg f.s1 false 0 0) = none →
    s.sourceVals (only w l) [.reg f.s1 false 0 0] l = [.dat (zx v)] →
    f.d.toNat - 0xE0 < gr.k.length →
    (∃ t gr', exec (.kmovDi f) s = .next t ∧ t.mem = s.mem ∧ t.marks = s.marks ∧ t.group? g = some gr' ∧ gr'.k = gr.k.set (f.d.toNat - 0xE0) (.data (v + f.imm)))
    ∧ (∀ old, gr.k[f.d.toNat - 0xE0]? = some old → old.tag = false →
      ∃ t gr', exec (.kaddDi f) s = .next t ∧ t.mem = s.mem ∧ t.marks = s.marks ∧ t.group? g = some gr'
        ∧ gr'.k = gr.k.set (f.d.toNat - 0xE0) (.data (old.val + (v + f.imm)))))
  ∧ ∀ (s : State) (w : Warp) (l : Lane) (p : Place) (va pa : Nat) (attr : BitVec 3), w.elected = some l → w.group.isSome = true →
    l.badTok = none → s.acquirePending l.key = false →
    (∀ f : DMForm, s.warp (dmHead f) = some w → Starts s (only w l) [dmBase f, dmIndex f] .none →
      s.aim w 4 .read (dmAddr f (s.sourceVals (only w l) [dmBase f, dmIndex f] l)) = .at p va pa attr →
      let s1 := s.elect w l [dmBase f, dmIndex f] w.acting
      let r := s1.readFor w l p va pa attr 5 (.k (f.d.toNat - 0xE0))
      exec (.kldDm f) s = .next ((r.1.blockAll w (dmHead f) 12 fun _ => .kload r.2).step1 w (dmHead f) true))
    ∧ (∀ f : DForm, s.warp (dHead f) = some w → w.someTxn = false → s.releasePending l.key = false →
      Starts s (only w l) [pairS1 f, .pair f.s2 (f.s2lk.getLsbD 1)] .none →
      let vals := s.sourceVals (only w l) [pairS1 f, .pair f.s2 (f.s2lk.getLsbD 1)] l
      (valAt vals 1).tok? = none → s.aim w 16 .read (valAt vals 0) = .at p va pa attr →
      let s1 := s.elect w l [pairS1 f, .pair f.s2 (f.s2lk.getLsbD 1)] w.acting
      let s2 := (s1.blockAll w (dHead f) 13 fun _ => .follow l.key).block l.key (w.pc + 8) 13
        (.tapeRead (f.d.toNat - 0xE0) (if f.s2 = 0xF0 then none else some (valAt vals 1).bits.toNat) w.pc []) (dHead f).holds
      exec (.tapeD f) s = .next ((((s2.readFor w l p va pa attr 7 (.tape 0)).1).readFor w l p (va + 8) (pa + 8) attr 7 (.tape 2)).1.step1
        w (dHead f) true))

/-- FBEGIN, FCOMMIT and FABORT complete (R194 to R196) in each thread whose guard holds. FBEGIN opens a transaction: its checkpoint is the
next address, the predicates and g0 to g31, and d = 0. FCOMMIT of a transaction that has not failed, within 1 ms of its first packet's
arrival: with no packet held it ends with d = 0; with packets and none of them poisoned the thread waits with reason 17 for its target. FCOMMIT
of one that has failed, and FABORT with its user code and reason 2, restore the checkpoint, and leave the status word in the destination
of FBEGIN. -/
def Obligations.Transactions : Prop :=
  ∀ (f : DForm) (s : State) (w : Warp), s.warp (dHead f) = some w → Guarded w → w.slice = false →
    (Starts s w [] (.reg f.d false) → w.someTxn = false → ∃ t, exec (.fbeginD f) s = .next t ∧ ∀ l ∈ w.acting, Lone w l →
      ∃ u x, t.thread? l.key = some u ∧ u.txn = some x ∧ x.next = w.pc + 8 ∧ x.dst = f.d ∧ x.held = [] ∧ x.preds = l.t.preds
        ∧ x.regs = (List.range 32).map (fun i => (i, l.t.cell i)) ∧ x.target = none ∧ x.first = none ∧ x.failed = none
        ∧ (f.d.toNat < 0xC8 → u.cell (fileIndex f.d) = Cell.ofTw (.data 0)))
    ∧ (Starts s w [] (.reg f.d false) → w.someNoTxn = false → ∃ t, exec (.fcommitD f) s = .next t ∧ ∀ l ∈ w.acting, Lone w l →
      ∀ x, l.t.txn = some x →
        (x.held = [] → x.failed = none → x.expired s.now = false → ∃ u, t.thread? l.key = some u ∧ u.txn = none ∧ u.pc = w.pc + 8
          ∧ (f.d.toNat < 0xC8 → u.cell (fileIndex f.d) = Cell.ofTw (.data 0)))
        ∧ (x.held ≠ [] → x.failed = none → x.expired s.now = false → s.markedPacket x = none → ∃ u, t.thread? l.key = some u
          ∧ u.txn = some x ∧ u.pc = w.pc + 8 ∧ u.cue = .waiting ∧ u.wait = 17 ∧ u.waitOn = .commit f.d w.pc)
        ∧ (∀ r c, (if x.expired s.now then some (4, 0) else x.failed) = some (r, c) → (x.failed = none → s.markedPacket x = none) →
          ∃ u, t.thread? l.key = some u ∧ u.txn = none ∧ u.pc = x.next ∧ u.preds = x.preds
          ∧ (x.dst.toNat < 0xC8 → u.cell (fileIndex x.dst) = Cell.ofTw (.data (txnStatus r.toNat c.toNat 0)))))
    ∧ (Starts s w [src8 f.s1 f.s1lk] .none → w.someNoTxn = false → ∃ t, exec (.fabortD f) s = .next t ∧ ∀ l ∈ w.acting, Lone w l →
      ∀ x v, l.t.txn = some x → s.sourceVals w [src8 f.s1 f.s1lk] l = [.dat v] →
        ∃ u, t.thread? l.key = some u ∧ u.txn = none ∧ u.pc = x.next ∧ u.preds = x.preds
          ∧ (x.dst.toNat < 0xC8 → u.cell (fileIndex x.dst) = Cell.ofTw (.data (BitVec.ofNat 32 (2 * 2 ^ 24 + v.toNat % 2 ^ 16)))))

/-! Waiting, barriers, engines, threads that move. -/

/-- MWAIT and WAITA complete: with untagged guards, addresses and comparands, addresses at a word that they take, no acquire open and no
release before them, each thread waits at its word, at the next instruction, and goes on at once where the condition holds (R237). -/
def Obligations.WordWaitsComplete : Prop :=
  ∀ (f : DForm) (s : State) (w : Warp), s.warp (dHead f) = some w → Guarded w → (∀ l ∈ w.acting, s.acquirePending l.key = false) →
    (∀ l ∈ w.acting, s.releasePending l.key = false) → (Dst.reg f.d false).push w.slice = none →
    (∀ a ∈ w.lanes, ∀ b ∈ w.lanes, a.v = b.v → a = b) →
    let go (addr : Src) (reason : Nat) (aim : Val → Aim) : State :=
      (w.acting.foldl (fun st l =>
        let vs := s.sourceVals w [addr, src8 f.s2 f.s2lk] l
        match aim (valAt vs 0) with
        | .at p _ pa _ =>
          let eff := effectiveOrder (WellFormed.mScope f).toNat (WellFormed.mOrder f).toNat w.cluster p
          let word : Watched := match p with | .pad g => .pad g (pa / 4) | _ => .mem pa
          let m : MonWait := ⟨word, (WellFormed.mSub f).toNat, lo32 (valAt vs 1).bits, BitVec.ofNat 3 eff.1,
            BitVec.ofNat 4 (WellFormed.mScope f).toNat, f.d, false, 0, 0, w.pc⟩
          let st := if eff.2 then st.modThread l.key fun t => t.flag SDROP else st
          (st.block l.key (w.pc + 8) reason (.cond m) (dHead f).holds).watchAt w l.key p pa
        | _ => st) (s.started w [addr, src8 f.s2 f.s2lk] w.acting)).step1 w (dHead f) true
    (Starts s w [.pair f.s1 (f.s1lk.getLsbD 1), src8 f.s2 f.s2lk] (.reg f.d false) →
      (∀ l ∈ w.acting, ∃ p va pa attr v, s.aim w 4 .read (valAt (s.sourceVals w [.pair f.s1 (f.s1lk.getLsbD 1), src8 f.s2 f.s2lk] l) 0)
          = .at p va pa attr ∧ ((∃ c, p = .home c) ∨ ∃ q, p = .peer q)
          ∧ valAt (s.sourceVals w [.pair f.s1 (f.s1lk.getLsbD 1), src8 f.s2 f.s2lk] l) 1 = .dat v) →
      exec (.mwaitD f) s = .next (go (.pair f.s1 (f.s1lk.getLsbD 1)) 9 fun v => s.aim w 4 .read v))
    ∧ (Starts s w [src8 f.s1 f.s1lk, src8 f.s2 f.s2lk] (.reg f.d false) → w.group.isSome = true →
      (∀ l ∈ w.acting, ∃ g va pa attr v, s.aimPad w 4 4 (valAt (s.sourceVals w [src8 f.s1 f.s1lk, src8 f.s2 f.s2lk] l) 0)
          = .at (.pad g) va pa attr ∧ valAt (s.sourceVals w [src8 f.s1 f.s1lk, src8 f.s2 f.s2lk] l) 1 = .dat v) →
      exec (.waitaD f) s = .next (go (src8 f.s1 f.s1lk) 10 fun v => s.aimPad w 4 4 v))

/-- BAR and EBAR complete: with untagged guards and counts, the releases before them and their own at .act performed (R301, R303), each thread
arrives, and unless it only arrives it waits, with reason 7 or 8 (R240, R241). -/
def Obligations.BarriersComplete : Prop :=
  ∀ (f : DForm) (s : State) (w : Warp) (g : Nat) (gr : Group),
    let counted := f.mod.getLsbD 4
    let given := f.mod.getLsbD 3
    let srcs := (if counted then [src8 f.s1 f.s1lk] else []) ++ (if given then [src8 f.s2 f.s2lk] else [])
    let id := (f.mod.extractLsb' 6 4).toNat
    let count (l : Lane) : Nat := if counted then (valAt (s.sourceVals w srcs l) 0).bits.toNat else 1
    let total (l : Lane) : Option Nat :=
      if given then some (valAt (s.sourceVals w srcs l) (if counted then 1 else 0)).bits.toNat else none
    let clock (st : State) (l : Lane) : Clock := match st.thread? l.key with | some t => t.vc | none => Clock.zero
    s.warp (dHead f) = some w → Guarded w → w.someTxn = false → w.group = some g → s.group? g = some gr → Starts s w srcs .none →
    (∀ a ∈ w.lanes, ∀ b ∈ w.lanes, a.v = b.v → a = b) →
    (∀ l ∈ w.acting, ∀ v ∈ s.sourceVals w srcs l, v.tok? = none) →
    (∀ l ∈ w.acting, s.releasePending l.key = false ∧ s.releaseReady l.key w.cluster l.t.vc 7 false = true) →
    (exec (.barD f) s = .next ((w.acting.foldl (fun st l =>
      (if f.mod.getLsbD 5 then st else st.block l.key (w.pc + 8) 7 (.bar id) (dHead f).holds).arriveGroup g id (count l) (total l) (clock st l))
        (s.started w srcs w.acting)).step1 w (dHead f) true))
    ∧ (exec (.ebarD f) s = .next ((w.acting.foldl (fun st l =>
      let st' := if f.mod.getLsbD 5 then st else st.block l.key (w.pc + 8) 8 (.ebar id) (dHead f).holds
      match st'.group? g with
      | some gr => st'.arriveEns gr.ens id (count l) (total l) (clock st l)
      | none => st') (s.started w srcs w.acting)).step1 w (dHead f) true))

/-- CPY and CPYT complete (R227 to R231): with their operands untagged, the engine with room and their checks passed, the engine of the
cluster has accepted the command. -/
def Obligations.CopiesComplete : Prop :=
  ∀ (f : DForm) (s : State) (w : Warp) (l : Lane), s.warp (dHead f) = some w → w.elected = some l → l.badTok = none →
    (pushes (WellFormed.mSub f).toNat = true → w.group.isSome = true) → s.acquirePending l.key = false →
    (∀ x ∈ w.acting, s.outstanding x.key 1 < 255) → (s.engine (engineOf w.cluster)).cmds.length < 64 →
    ((WellFormed.mOrder f).toNat = 3 → s.releasePending l.key = false
      ∧ s.releaseReady l.key w.cluster l.t.vc (WellFormed.mScope f).toNat false = true) →
    let kind := (WellFormed.mSub f).toNat
    let lk := f.s3lk.getLsbD 1
    let common := [pairS1 f, .pair f.s2 (f.s2lk.getLsbD 1)]
    let short := common ++ [.reg f.s3 lk 0 0, .many (nextReg f.s3 2) 2 false lk]
    let long := common ++ [.pair f.s3 lk]
    (Starts s (only w l) short .none →
      let vals := s.sourceVals (only w l) short l
      let c : CopyPar := ⟨(valAt vals 3).bits.toNat + (valAt vals 4).bits.toNat * 2 ^ 32, 0, 0, 0, 0, 1, 1, (valAt vals 2).bits.toNat, 0, 0, 0⟩
      let s1 := s.elect w l short w.acting
      vals.findSome? Val.tok? = none →
      s1.copyCheck w kind (valAt vals 0).bits.toNat (valAt vals 1).bits.toNat c false = .go →
      exec (.cpyD f) s = .next ((s1.copyAccept w l f kind (valAt vals 0).bits.toNat (valAt vals 1).bits.toNat c).step1 w (dHead f)))
    ∧ (Starts s (only w l) long .none →
      let vals := s.sourceVals (only w l) long l
      ∀ p va pa attr ws s', vals.findSome? Val.tok? = none → s.aim w 64 .read (valAt vals 2) = .at p va pa attr →
      s.readDescriptor w l p va pa attr = some (.ok ws, s') →
      let s1 := { s.elect w l long w.acting with free := s'.free }
      s1.copyCheck w kind (valAt vals 0).bits.toNat (valAt vals 1).bits.toNat (CopyPar.ofWords ws) true = .go →
      exec (.cpytD f) s = .next ((s1.copyAccept w l f kind (valAt vals 0).bits.toNat (valAt vals 1).bits.toNat (CopyPar.ofWords ws)).step1
        w (dHead f)))

/-- OPK, LAUNCH, SPAWN and MIGR complete with untagged guards and operands: OPK sends, or in a transaction holds, each thread's packet
(R222, R195); LAUNCH posts each thread's act (R197, R350); SPAWN takes a credit and sends a message for each thread (R181); MIGR leaves
each thread whose goal is another cluster waiting for its departure (R179, R180). -/
def Obligations.PacketsLaunchesAndTravelComplete : Prop :=
  ∀ (f : DForm) (s : State) (w : Warp), s.warp (dHead f) = some w → Guarded w → (∀ a ∈ w.lanes, ∀ b ∈ w.lanes, a.v = b.v → a = b) →
    (let srcs := [pairS1 f, .many f.s2 4 false (f.s2lk.getLsbD 1), .pair f.s3 (f.s3lk.getLsbD 1)]
      let vals (l : Lane) := s.sourceVals w srcs l
      let scope := (WellFormed.mScope f).toNat
      let s1 := s.started w srcs w.acting
      Starts s w srcs (.reg f.d true) → (∀ l ∈ w.acting, s.acquirePending l.key = false ∧ s.releasePending l.key = false) →
      (∀ l ∈ w.acting, ∀ k c a, s.packetAim w l (vals l) ≠ .raise k c a) → (∀ l ∈ w.acting, ∀ va, s.packetAim w l (vals l) ≠ .miss va) →
      (∀ l ∈ w.acting, s.releaseReady l.key w.cluster l.t.vc scope false = true) →
      (∀ l ∈ w.acting, s.outstanding l.key 3 < 255 ∧ s.outstanding l.key 4 < 255) →
      exec (.opkD f) s = .next ((w.acting.foldl (fun st l => st.packetOne w f s1.fresh.1 l (vals l) (s.packetAim w l (vals l)))
        s1.fresh.2).step1 w (dHead f)))
    ∧ (let srcs := [pairS1 f, src8 f.s2 f.s2lk]
      let vals (l : Lane) := s.sourceVals w srcs l
      Starts s w srcs .none → w.someTxn = false → (∀ l ∈ w.acting, ∀ v ∈ vals l, v.tok? = none) →
      (∀ l ∈ w.acting, s.releaseReady l.key w.cluster l.t.vc 6 false = true) →
      exec (.launchD f) s = .next ((w.acting.foldl (fun st l =>
        st.post w.cluster w.ctx (valAt (vals l) 1).bits.toNat (valAt (vals l) 0).bits.toNat) (s.started w srcs w.acting)).step1 w (dHead f)))
    ∧ (let srcs := [pairS1 f, .pair f.s2 (f.s2lk.getLsbD 1)]
      let vals (l : Lane) := s.sourceVals w srcs l
      let n := (f.mod.extractLsb' 0 4).toNat
      Starts s w srcs .none → w.group = none → w.someTxn = false →
      (∀ l ∈ w.acting, (∃ g, s.course w (valAt (vals l) 0) = .to g) ∧ (valAt (vals l) 1).tok? = none) →
      (∀ l ∈ w.acting, s.releaseReady l.key w.cluster l.t.vc 7 false = true ∧ s.releaseReady l.key w.cluster l.t.vc 9 false = true) →
      w.acting.length ≤ (s.cluster w.cluster).credits →
      exec (.spawnD f) s = .next ((w.acting.foldl (fun st l => match s.course w (valAt (vals l) 0) with
        | .to g =>
          let st := st.spawnOne w l g ((valAt (vals l) 1).bits &&& ~~~1) f.s3.toNat n
          if f.s3lk.getLsbD 1 then st.modThread l.key fun t => t.killRegs ((List.range n).map fun i => nextReg f.s3 i) else st
        | _ => st) (s.started w srcs w.acting)).step1 w (dHead f)))
    ∧ (let srcs := [pairS1 f]
      Starts s w srcs .none → w.group = none → w.someTxn = false → w.slice = false →
      (∀ l ∈ w.acting, ∃ g, s.course w (valAt (s.sourceVals w srcs l) 0) = .to g ∧ ∀ e c, g ≠ .fabric e c) →
      ∃ t, exec (.migrD f) s = .next t ∧ ∀ l ∈ w.acting, Lone w l → ∀ pkg c,
        (s.course w (valAt (s.sourceVals w srcs l) 0) = .to (.here c) ∧ c ≠ w.cluster ∧ pkg = none
          ∨ ∃ q, s.course w (valAt (s.sourceVals w srcs l) 0) = .to (.peer q c) ∧ pkg = some q) →
        ∃ u d, t.thread? l.key = some u ∧ u.cue = .waiting ∧ u.wait = 0x1D ∧ u.waitOn = .depart d ∧ d.pkg = pkg ∧ d.cluster = c
          ∧ d.resume = w.pc + 8)

/-- ASTR, AGAT and ASCT, the instructions of the access slice, complete (R232 to R234): a stream joins the slice's streams, and its place
is kept in its queue; gathered elements are pushed in lane order; scattered elements are written to the group's scratchpad. -/
def Obligations.AccessInstructionsComplete : Prop :=
  ∀ (s : State) (w : Warp) (g : Nat) (gr : Group), w.slice = true → w.unit = g → w.group = some g → s.group? g = some gr → Guarded w →
    (∀ (f : DForm) (l : Lane) (n : Dword), s.warp (dHead f) = some w → w.elected = some l →
      let srcs := [pairS1 f, .reg f.s2 (f.s2lk.getLsbD 1) 0 0, .reg (nextReg f.s2 1) (f.s2lk.getLsbD 1) 0 0]
      let vals := s.sourceVals (only w l) srcs l
      Starts s (only w l) srcs .none → srcs.filterMap (Src.pops w.slice) = [] → (s.streams g).length < 8 → vals.findSome? Val.tok? = none →
      valAt vals 2 = .dat n → n.toNat % 2 ^ 32 ≠ 0 →
      ∃ t st, exec (.astrD f) s = .next t ∧ t.streams g = s.streams g ++ [st] ∧ st.base = (valAt vals 0).bits.toNat
        ∧ st.stride = signed 32 (valAt vals 1).bits.toNat ∧ st.count = n.toNat % 2 ^ 32 ∧ st.index = 0 ∧ st.tok = none)
    ∧ (∀ f : DMForm, s.warp (dmHead f) = some w → w.queues [padBase f, dmIndex f] (.reg f.d (dmWide f)) = [f.d.toNat - 0xD0] →
      Starts s w [padBase f, dmIndex f] (.reg f.d (dmWide f)) →
      s.roomFor w (f.d.toNat - 0xD0) (w.acting.length * (if dmWide f then 2 else 1)) = true → f.d.toNat - 0xD0 ≠ 14 →
      ∃ t gr', exec (.agatDm f) s = .next t ∧ t.group? g = some gr'
        ∧ get gr'.q (f.d.toNat - 0xD0) [] = get gr.q (f.d.toNat - 0xD0) [] ++ (w.acting.flatMap fun l =>
          (match padAt (dmSize f) gr.scr ((s.cluster w.cluster).accSer + 1) (dmAddr f (s.sourceVals w [padBase f, dmIndex f] l)) with
            | .error k => tokOut (dmWide f) k
            | .ok a => gr.padLoad (dmTy f) a)).map QEl.val)
    ∧ (∀ f : DMForm, s.warp (dmHead f) = some w → Starts s w [padBase f, dmIndex f] .none →
      let q := f.d.toNat - 0xD0
      let n := if dmWide f then 2 else 1
      let el (i : Nat) : Tw := qelVal ((s.queue w q).getD i (.val Tw.zero))
      let at' (l : Lane) : Except Word Nat := padAt (dmSize f) gr.scr w.origin (dmAddr f (s.sourceVals w [padBase f, dmIndex f] l))
      s.queueExists w q = true → w.acting.length * n ≤ queueReady (s.queue w q) →
      (∀ i, i < w.acting.length * n → (el i).tag = false) →
      (∀ l ∈ w.acting, (valAt (s.sourceVals w [padBase f, dmIndex f] l) 1).tok? = none ∧ ∃ a, at' l = .ok a) →
      exec (.asctDm f) s = .next ((w.acting.zipIdx.foldl (fun st x => match at' x.1 with
        | .ok a => st.padStore g (dmSize f) a (dw (el (n * x.2)).val (if n = 2 then (el (n * x.2 + 1)).val else 0))
        | .error _ => st) ((s.started w [padBase f, dmIndex f] w.acting).setQueue w q ((s.queue w q).drop (w.acting.length * n)))).step1
          w (dmHead f)))

/-- MMA, MMAB, MZERO, MACC and SELC complete (R242 to R244): where the elected lane's parameters pass their checks, the operation is
queued behind the group's earlier ones, with the count of the cluster's matrix operations as its serial (R260). -/
def Obligations.MatrixInstructionsQueue : Prop :=
  ∀ (f : DForm) (s : State) (w : Warp) (l : Lane) (g : Nat) (gr : Group) (srcs : List Src) (o : MxOp) (i : Instr),
    (i = .mmaD f ∧ srcs = [.many f.s1 8 false false] ∧ mmaGo f false s w l gr (s.sourceVals (only w l) srcs l) = .op o
      ∨ i = .mmabD f ∧ srcs = [.many f.s1 8 false false] ∧ mmaGo f true s w l gr (s.sourceVals (only w l) srcs l) = .op o
      ∨ i = .mzeroD f ∧ srcs = [src8 f.s1 f.s1lk, src8 f.s2 f.s2lk] ∧ mzeroGo s w l gr (s.sourceVals (only w l) srcs l) = .op o
      ∨ i = .maccD f ∧ srcs = [src8 f.s1 f.s1lk, src8 f.s2 f.s2lk, .pair f.s3 false]
        ∧ maccGo f s w l gr (s.sourceVals (only w l) srcs l) = .op o
      ∨ i = .selcD f ∧ srcs = [.many f.s1 4 false false] ∧ selcGo s w l gr (s.sourceVals (only w l) srcs l) = .op o) →
    s.warp (dHead f) = some w → w.slice = false → w.elected = some l → l.badTok = none → w.group = some g → s.group? g = some gr →
    Starts s (only w l) srcs .none → (∀ x ∈ w.acting, s.outstanding x.key 2 < 255) →
    ∃ t gr', exec i s = .next t ∧ t.group? g = some gr'
      ∧ gr'.mq = gr.mq ++ [{ o with serial := (s.cluster w.cluster).matSer + 1, pc := w.pc, threads := w.acting.map fun x => x.key }]
      ∧ (t.cluster w.cluster).matSer = (s.cluster w.cluster).matSer + 1
      ∧ t.mem = s.mem ∧ t.marks = s.marks ∧ gr'.acc = gr.acc ∧ gr'.pad = gr.pad

/-! The steps of the other agents. Each completes under the conditions that its rule names. -/

/-- No thread of the warp that would form has a transaction that a save has failed (R196). -/
def NoSavedTxn (s : State) (cluster : Nat) : Prop :=
  ∀ head rest, s.cueTable cluster = head :: rest → ∀ x ∈ gather head (head :: rest), ∀ y, x.2.txn = some y → y.failed.map Prod.fst ≠ some 6

/-- R36: at the start of every run l0 and l1 of each thread in the warp are dead, and a read of either before the run has written it is the
token of a dead register. -/
def Obligations.RunStartsWithDeadLs : Prop :=
  ∀ (s : State) (cluster slot : Nat) (head : Nat × Thread) (rest : List (Nat × Thread)), cluster < 768 → slot < 4 →
    s.slotFree (cluster * 4 + slot) = true → (∀ i, i < slot → s.slotFree (cluster * 4 + i) = false) → s.siteDown cluster = false →
    (s.row (rowOf cluster)).clkUntil = 0 → s.cueTable cluster = head :: rest → (∀ x ∈ head :: rest, s.overdue x.1 x.2 = false) →
    NoSavedTxn s cluster →
    ∃ t, exec (.warpFormation cluster slot) s = .next t ∧ some head.1 ∈ (t.slot (cluster * 4 + slot)).lanes
      ∧ ∀ key, some key ∈ (t.slot (cluster * 4 + slot)).lanes → ∃ u, t.thread? key = some u ∧ u.cue = .issuing
        ∧ ∀ w v o, originOf w.pc = o → t.readReg w v u 0xC8 = .tok (token 0x30 o) ∧ t.readReg w v u 0xC9 = .tok (token 0x30 o)

/-- WARP_FORMATION, PROMOTION, QUEUE_WAIT_RESUME and INSTRUCTION_FAULT (R27 to R30, R39, R107); RACQ_GRANT and REGISTER_POOL_EVICTION
(R185, R372, R373). -/
def Obligations.SchedulingSteps : Prop :=
  (∀ s : State,
    (∀ cluster slot head rest, cluster < 768 → slot < 4 → s.slotFree (cluster * 4 + slot) = true →
      (∀ i, i < slot → s.slotFree (cluster * 4 + i) = false) → s.siteDown cluster = false → (s.row (rowOf cluster)).clkUntil = 0 →
      s.cueTable cluster = head :: rest → (∀ x ∈ head :: rest, s.overdue x.1 x.2 = false) →
      (NoSavedTxn s cluster → exec (.warpFormation cluster slot) s = .next (s.takeWarp (cluster * 4 + slot) (gather head (head :: rest))))
      ∧ (¬NoSavedTxn s cluster → exec (.warpFormation cluster slot) s = .next (((gather head (head :: rest)).filter fun (_, t) =>
        match t.txn with | some x => (x.failed.map Prod.fst) = some 6 | none => false).foldl (fun st (key, _) => st.failTxn key 6 0 0) s)))
    ∧ (∀ key t, s.thread? key = some t → t.cue = .runnable → isLaneKey key = false → s.overdue key t = true →
      ∃ t', exec (.promotion key) s = .next t'
        ∧ t'.thread? key = some { t with promoted := some ((s.row (rowOf (clusterOfKey key))).cycleAt t.since + t.paused + 8192) })
    ∧ (∀ cluster slot, (s.slot (cluster * 4 + slot)).wait = 2 ∨ (s.slot (cluster * 4 + slot)).wait = 3 →
      ∃ t, exec (.queueWaitResume cluster slot) s = .next t ∧ (t.slot (cluster * 4 + slot)).wait = 0
        ∧ (t.slot (cluster * 4 + slot)).lanes = (s.slot (cluster * 4 + slot)).lanes)
    ∧ (∀ cluster slot f cause code va,
      let s1 := { s with cur := .slot (cluster * 4 + slot) }
      s1.front = some f → s1.fetched f = .fault cause code va →
      exec (.instructionFault cluster slot) s = .next (s1.takeInstrFault f cause code va)))
  ∧ ∀ (s : State) (c : Nat),
    (∀ r rest key t, s.poolRequests c = r :: rest → r.thread = some key → s.thread? key = some t → r.need ≤ s.blocksFree c →
      (s.ctx t.ctx).low = false → exec (.racqGrant c) s = .next (s.resume key t.grantBlocks)
        ∧ (t.held = false → (t.grantBlocks).spilled = 0 → ∃ u, (s.resume key t.grantBlocks).thread? key = some u ∧ u.cue = .runnable ∧ u.blocks = (t.grantBlocks).blocks
          ∧ u.regs = (t.grantBlocks).regs))
    ∧ (∀ t, exec (.registerPoolEviction c) s = .next t →
      s.changed t = true ∧ ∃ r rest, s.poolRequests c = r :: rest ∧ 16384 ≤ s.cyclesSince c r.since)
    ∧ (∀ r rest, s.poolRequests c = r :: rest → 16384 ≤ s.cyclesSince c r.since →
      s.poolMet c ((r :: rest).foldl (fun n x => n + x.need) 0) = false → s.changed (s.poolEvict c) = true →
      exec (.registerPoolEviction c) s = .next (s.poolEvict c))

/-- LONG_WRITE_RETURN, KLD_REPLY and STORE_ACKNOWLEDGEMENT (R203, R188): a performed operation of the package is retired with its result,
and one that left it with its reply, once no older one of its class is open and the replies that its server gave before it have gone (R313). The timeouts of CXL (R409), of the host (R396) and of the
fabric (R413) end an operation that is still out, with codes 0x14 and 0x03 (of the host's DEDUCED, log entry 30). -/
def Obligations.RetirementSteps : Prop :=
  (∀ (s : State) (op : Nat) (o : Op), find s.ops op = some o → o.retired = false → o.watches = false → (s.ctx o.ctx).down = false →
    (s.ctx o.ctx).low = false → s.olderOut op o = false →
    (o.returns = true → (∀ n, o.dst ≠ .k n) →
      (o.stage = .performed → s.replyTurn o = true → exec (.longWriteReturn op .home) s = .next (s.retire op o o.reply o.flags))
      ∧ (∀ v fl, s.carries o = true → o.element = true → exec (.longWriteReturn op (.value v fl)) s = .next (s.retire op o (o.shape v) fl))
      ∧ (∀ c, s.carries o = true →
        exec (.longWriteReturn op (.fail c)) s = .next ((s.answerCode op c.toNat o.va).retire op o (o.tokens c.toNat) 0)))
    ∧ (∀ n, o.dst = .k n → s.cycleStart o.cluster = true →
      (o.stage = .performed → s.replyTurn o = true → exec (.kldReply op .home) s = .next (s.retire op o o.reply 0))
      ∧ (∀ v fl, s.carries o = true → exec (.kldReply op (.value v fl)) s = .next (s.retire op o (o.shape v) 0)))
    ∧ (o.returns = false →
      (o.stage = .performed → s.replyTurn o = true → exec (.storeAcknowledgement op .home) s = .next (s.retire op o [] 0))
      ∧ (∀ v fl, s.carries o = true → exec (.storeAcknowledgement op (.value v fl)) s = .next ((s.retire op o [] 0).recorded o v fl))))
  ∧ ∀ (s : State) (op : Nat) (o : Op), find s.ops op = some o → o.stage = .sent →
    ((∃ n, o.place = .cxl n) →
      exec (.cxlTimeout op) s = .next (if o.returns then s.endSent op o 0x14 0x14 else (s.endSent op o 0x14 0x14).writeFailed o 0x14))
    ∧ ((o.place = .host ∨ o.place = .hostRaw) → (∀ n v, o.work ≠ .store n v) → o.sentAt + 50000 * ticksPerUs ≤ s.now →
      exec (.hostCompletionTimeout op) s
        = .next (if o.returns then s.endSent op o 0x14 0x14 else (s.endSent op o 0x14 0x14).writeFailed o 0x14))
    ∧ ((∃ e, o.place = .fabric e) → ∃ t, exec (.fabricAckTimeout op) s = .next t
      ∧ ((∀ p, o.work ≠ .packet p) → (∀ n v, o.work ≠ .store n v) → t = s.endSent op o 0x03 0x13))

/-- GATE_RELEASE, GATE_RESEND, FRONTIER_UPDATE, FORWARDED_OPERATION, BANK_ATOMIC, STM_COPY, REGISTER_WINDOW_ACCESS and MONITOR_RECHECK
(R294 to R296, R346, R217, R212, R213, R238). -/
def Obligations.OrderingSteps : Prop :=
  ∀ (s : State) (op : Nat) (o : Op), find s.ops op = some o →
    (o.stage = .held → s.mayApply op o = true → s.passes o = true → s.movedOp o = none → o.kind = some .read →
      exec (.gateRelease op) s = .next (s.readAt op o .clean))
    ∧ (o.stage = .held → s.mayApply op o = true → s.passes o = true → s.movedOp o = none → o.kind = some .write →
      exec (.gateRelease op) s = .next (s.writeAt op o))
    ∧ (∀ again, o.stage = .refused again → again ≤ s.now → exec (.gateResend op) s = .next (s.sendFrom op o o.hop.1))
    ∧ (∀ die, die < 4 → ∃ t, exec (.frontierUpdate die) s = .next t
      ∧ ∀ f, f < 4 → f ≠ die → get t.views (f * 4 + die) 0 = max (s.frontier die) (get s.views (f * 4 + die) 0))
    ∧ (∀ f, o.stage = .sent → s.mayApply op o = true → s.passes o = true → s.movedOp o = some (.to f) →
      (o.isAtomic = false ∨ s.togetherNow o = true) →
      exec (.forwardedOperation op) s = .next ((s.companions op o).foldl (fun st x => st.forward x.1 x.2 f) s)
      ∧ (o.isAtomic = false → s.companions op o = [(op, o)]))
    ∧ (o.stage = .sent → s.mayApply op o = true → s.passes o = true → s.movedOp o = some .frozen →
      exec (.forwardedOperation op) s = .next ((s.companions op o).foldl (fun st x => st.freeze x.1 x.2) s))
    ∧ (∀ n, o.stage = .frozen n → s.mayApply op o = true → s.movedOp o = none →
      exec (.forwardedOperation op) s = .next (s.setOp op { o with stage := .sent }))
    ∧ (∀ g aop ty x c, o.place = .pad g → o.work = .atomic aop ty x c → o.stage = .sent → (s.ctx o.ctx).treated = [] →
      (∀ y ∈ s.batchOf o, s.earlier y.1 y.2 = [] ∧ y.2.sentAt ≤ s.now) → exec (.bankAtomic op) s = .next (s.bankBatch o))
    ∧ (∀ g mask n v cluster, o.place = .pad g → o.work = .stm mask n v → o.stage = .sent → (s.ctx o.ctx).treated = [] →
      (stmSplit (s.ensGroups g) mask cluster).1 ≠ [] →
      (∀ y ∈ s.ops, y.1 < op → y.2.cluster = o.cluster → y.2.stage = .sent → ∀ h, y.2.place = .pad h → ∀ m n v, y.2.work = .stm m n v →
        (stmSplit (s.ensGroups h) m cluster).1 = []) →
      exec (.stmCopy op cluster) s = .next (s.stmWrite op o cluster))
    ∧ (∀ ty, o.place = .window → o.work = .ldw ty → o.stage = .sent → s.earlier op o = [] → s.inTurn op o = true → (s.ctx o.ctx).down = false →
      exec (.registerWindowAccess op) s = .next (s.answer op (s.windowRead o.ctx ty.toNat o.pa o.origin)))
    ∧ (∀ ty v, o.place = .window → o.work = .stw ty v → o.stage = .sent → s.earlier op o = [] → s.inTurn op o = true → (s.ctx o.ctx).down = false →
      exec (.registerWindowAccess op) s
        = .next ((s.windowWrite o.ctx ty.toNat o.pa v.toNat).setOp op { o with stage := .performed }))
    ∧ (∀ key t w, key < 2 ^ 32 → s.thread? key = some t → t.waitOn = .cond w → w.monitor = false → w.interval ≠ 0 →
      w.next ≤ s.coreCycle (clusterOfKey key) → (∃ g n, w.word = .pad g n) → (s.ctx t.ctx).low = false → exec (.monitorRecheck key) s = .next (s.register key))

/-- OPK_PACKET, TRANSACTION_PACKET, FCOMMIT_COMMIT and FCOMMIT_REPLY (R222 to R226, R194, R195). TRANSACTION_PACKET is the answer of a
transaction's target: a package or a fabric address that refuses fails the transaction with reason 0x03, at the step in which its refusal comes
(log entry 73). FCOMMIT_COMMIT is one step (log entry 74), also for the values of a target outside the package, whose request has a route. -/
def Obligations.PacketSteps : Prop :=
  ∀ s : State,
    (∀ op o c p replies, find s.ops op = some o → o.place = .home c → o.work = .packet p → o.stage = .sent → s.mayApply op o = true →
      s.rowFree op o p = true → s.passes o = true → s.movedOp o = none →
      let r := s.packetStep op c (s.seenBy o p) p replies
      exec (.opkPacket op replies) s = .next (r.1.packetEnd op (s.seenBy o p) r.2))
    ∧ (∀ op o key t x, find s.ops op = some o → o.issuer = .thread key → s.thread? key = some t → t.txn = some x → o.stage = .txn →
      x.held.contains op = true → (s.ctx o.ctx).low = false →
      let away := (∃ q, o.place = .peer q) ∨ (∃ e, o.place = .fabric e)
      (away → o.asks = true ∧ o.eg.isSome = true) →
      (∃ t', exec (.transactionPacket op true) s = .next t'
        ∧ (∃ u, t'.thread? key = some u ∧ u.txn = some { x with first := some (x.first.getD s.now) })
        ∧ (¬away → find t'.ops op = some o) ∧ (away → find t'.ops op = some { o with done := 1 }))
      ∧ (away → exec (.transactionPacket op false) s = .next ((s.dropLane key).failTxn key 3 0 0)))
    ∧ (∀ key t x dst pc, s.thread? key = some t → t.waitOn = .commit dst pc → t.txn = some x → (s.ctx t.ctx).low = false →
      (∀ k ∈ x.held, ∃ o, find s.ops k = some o ∧ o.stage = .txn) →
      (x.target = some .self → s.commitReady x.held = true → exec (.fcommitCommit key []) s = .next (x.held.foldl State.commitOne s))
      ∧ ∀ replies, x.target ≠ some .self → replies.length = x.held.length → x.eg.isSome = true →
        exec (.fcommitCommit key replies) s = .next ((x.held.zip replies).foldl (fun st y => st.committed y.1 y.2) s))
    ∧ (∀ key t x dst pc, s.thread? key = some t → t.waitOn = .commit dst pc → t.txn = some x → (s.ctx t.ctx).low = false →
      (∀ k ∈ x.held, ∃ o, find s.ops k = some o ∧ o.stage = .performed) → t.spilled = 0 → t.held = false →
      ∃ t', exec (.fcommitReply key .home) s = .next t' ∧ ∃ u, t'.thread? key = some u ∧ u.txn = none ∧ u.cue = .runnable
        ∧ (dst.toNat < 0xC8 → u.cell (fileIndex dst) = Cell.ofTw (.data 0)))

/-- COPY_ELEMENT_READ, COPY_COMPLETION, CACHE_DROP and STREAM_ELEMENT_RETURN (R228 to R233, R320, R324): an engine reads a list entry or an
element ahead, and delivers the oldest it has read; a copy without a completion word retires, and the completion word of another goes out; a
cache drops the lines of a publish; a stream reads an element, and pushes the oldest in its turn. ACCESS_ISSUE runs an instruction of the
access subset where no slice of its cluster has issued in the core cycle and none before it in the rotation can (R232, R323); a fault of its
fetch lowers the curtain (code 0x01 also: log entry 110). MATRIX_OPERATION_START and MATRIX_OPERATION_COMPLETE (R244), which reads and writes at
one instant (log entry 122). An engine or a stream forgets the pages that it has left (log entry 116). -/
def Obligations.EngineSteps : Prop :=
  (∀ s : State,
    (∀ e id c, let s1 := s.keepPages e id
      s1.copyCmd? e id = some c → s1.copyRuns e c = true →
      (∀ ecc reply, c.ahead < c.total → c.staged.length < 4096 →
        let read (va n : Nat) : Fetch := s1.engineRead (.copy e id) c.cluster c.ctx c.ec va n c.serial ecc reply
        (∀ entry s2 v, (c.blist = 0 ∧ entry = 0) ∨ (c.blist ≠ 0 ∧ c.entry = some (entry, none)) →
          s1.sourceFree e c (c.source c.ahead entry) = true → read (c.source c.ahead entry) 4 = .got s2 v →
          exec (.copyElementRead e id ecc (some reply)) s = .next (s2.stageCopy e id (twOf v) (some (c.source c.ahead entry))))
        ∧ (∀ s2 v, c.blist ≠ 0 → c.entry = none → read c.entryAt 8 = .got s2 v →
          exec (.copyElementRead e id ecc (some reply)) s = .next (s2.modCopy e id fun x => { x with
            entry := some (match v with | .ok n => (BitVec.ofNat 64 n, none) | .error t => (0, some t)) })))
      ∧ ∀ ecc v rest s2 r, c.staged = v :: rest → s1.deliverElement e c v = .got s2 r →
        exec (.copyElementRead e id ecc none) s = .next s2)
    ∧ (∀ e id c, s.copyCmd? e id = some c → c.left = false → c.counted = false → s.copyOps e id = [] → s.copyRuns e c = true →
      (c.kind = 4 → cachePlaces ≤ c.acks.length) →
      (c.cw = allOnes → exec (.copyCompletion e id) s = .next (s.copyRetire e id))
      ∧ (∀ s2 r, c.cw ≠ allOnes → s.completionAt e c = .got s2 r → exec (.copyCompletion e id) s = .next s2))
    ∧ (∀ e id c place, s.copyCmd? e id = some c → c.kind = 4 → c.left = false → place < 896 → c.acks.contains place = false →
      s.copyOps e id = [] → s.copyRuns e c = true →
      ∃ t, exec (.cacheDrop e id place) s = .next t
        ∧ (place < 768 → ∀ l ∈ (t.cluster place).lines, c.lines.contains (l.pa / 64) = false)
        ∧ (768 ≤ place → ∀ x ∈ (t.row ((place - 768) / 4)).slices, x.1 = (place - 768) % 4 → c.lines.contains (x.2.pa / 64) = false))
    ∧ (∀ g id st gr, let s1 := s.modStream g id fun x => { x with walks := keep (fun k _ => inPages [x.va] k) x.walks }
      s1.stream? g id = some st → s1.group? g = some gr → (s1.ctx gr.ctx).treated = [] → (s1.ctx gr.ctx).down = false →
      (∀ ecc reply, st.ahead < st.count → st.staged.length < 32 →
        (∀ t, st.tok = some t → exec (.streamElementReturn g id ecc (some reply)) s
          = .next (s1.modStream g st.id fun x => { x with staged := x.staged ++ [tokOut st.wide t] }))
        ∧ (∀ s2 v, st.tok = none →
          s1.engineRead (.stream g st.id) gr.cluster gr.ctx st.clock st.va (if st.wide then 8 else 4) st.serial ecc reply = .got s2 (.ok v) →
          exec (.streamElementReturn g id ecc (some reply)) s = .next (s2.modStream g st.id fun x => { x with staged := x.staged ++
            [if st.wide then [Tw.data (BitVec.ofNat 32 v), .data (BitVec.ofNat 32 (v / 2 ^ 32))] else [Tw.data (BitVec.ofNat 32 v)]] })))
      ∧ ∀ ecc vs rest, st.staged = vs :: rest → s1.mayPush g false st.q st.id vs.length = true →
        exec (.streamElementReturn g id ecc none) s = .next (s1.streamPush g st vs)))
  ∧ ∀ (s : State) (g : Nat),
    (let s1 := { s with cur := .slice g }
      let noted (t : State) : State := t.modCluster (g / 2048) fun v => { v with access := (s.coreCycle (g / 2048) + 1, g % 2048) }
      (s.row (rowOf (g / 2048))).clkUntil = 0 → (s.cluster (g / 2048)).access.1 ≠ s.coreCycle (g / 2048) + 1 →
      (∀ x ∈ s.slicesBefore (g / 2048) (g % 2048), State.sliceIssues x (s.sliceNow x) = false) →
      ∀ f, s1.front = some f →
      (∀ i n (L : LaneRule) w, s1.fetched f = .ok (.early i) n → i.inSlice = true → laneRule i = some L → s1.warp L.head = some w →
        Starts s1 w L.srcs L.dst → HasRoom s1 w L.srcs L.dst →
        exec (.accessIssue g) s = .next (noted (s1.laneDone w L.head L.srcs L.dst L.checked L.results)))
      ∧ (∀ d n t, s1.fetched f = .ok d n → d.inSlice = true → exec d.instr s1 = .next t →
        exec (.accessIssue g) s = .next (if State.sliceIssues g (.next t) then noted t else t))
      ∧ (∀ cause code va, s1.fetched f = .fault cause code va → (s.ctx f.ctx).low = false →
        ∃ t, exec (.accessIssue g) s = .next t ∧ (t.ctx f.ctx).low = true))
    ∧ (∀ gr o r, s.group? g = some gr → gr.mq = o :: r → o.started = false → (s.ctx gr.ctx).low = false →
      ∃ t, exec (.matrixOperationStart g) s = .next t
        ∧ t.group? g = some (Group.feed { gr with mq := { o with started := true } :: r, mxDog := 0 }))
    ∧ (∀ gr o r upset, s.group? g = some gr → gr.mq = o :: r → o.started = true → o.fed = true → (s.ctx gr.ctx).low = false →
      exec (.matrixOperationComplete g upset) s = .next ((s.mxDone g gr o upset).mxRetire g o))

/-- MESSAGE_DELIVERY, MESSAGE_RESEND and the steps of a spawn (R235, R276). -/
def Obligations.MessageSteps : Prop :=
  ∀ (s : State) (c id : Nat) (m : Msg), s.msg? c id = some m →
    (∀ actq port values vc op origin l, m.cargo = .queue actq port values vc op origin → m.dst ≠ 1023 → m.next = 0 →
      s.behind c m = false → s.inboxOf m actq port = some l → queueUsed l + 1 + values.length ≤ 256 →
      (s.ctx m.ctx).low = false → (actq = true → s.inboxSaved m = false) →
      exec (.messageDelivery c id) s = .next ((s.setInbox m actq port (l ++
        .head (.data (BitVec.ofNat 32 (values.length * 2 ^ 26 + c * 2 ^ 16 + origin))) vc :: values)).messageDone c id))
    ∧ (∀ actq port values vc op origin, m.cargo = .queue actq port values vc op origin → m.next ≠ 0 → m.next ≤ s.coreCycle c →
      exec (.messageResend c id) s = .next (s.modMsg c id fun m => { m with next := 0 }))
    ∧ (∀ t fab eg s' peer, m.cargo = .spawn t none fab eg → m.acked = false → m.next = 0 → s.behind c m = false → (s.ctx m.ctx).low = false →
      s.receive m.dst { t with since := s.now } = some s' →
      exec (.spawnMessage c id peer) s = .next (s'.modMsg c id fun m => { m with acked := true }))
    ∧ (∀ t fab eg peer, m.cargo = .spawn t none fab eg → m.acked = false → m.next = 0 → s.behind c m = false → (s.ctx m.ctx).low = false →
      s.receive m.dst { t with since := s.now } = none → exec (.spawnMessage c id peer) s = .next (s.backOff c id))
    ∧ (∀ t q fab n, m.cargo = .spawn t (some q) fab (some n) → m.acked = false → m.next = 0 → s.behind c m = false → (s.ctx m.ctx).low = false →
      exec (.spawnMessage c id .admitted) s = .next (s.modMsg c id fun m => { m with acked := true }).routeHeld
      ∧ exec (.spawnMessage c id .refused) s = .next (s.backOff c id).routeHeld
      ∧ ∀ code, exec (.spawnMessage c id (.failed code)) s = .next (s.spawnFails c m (if code = 0x10 then 0x10 else 0x15)).routeHeld)
    ∧ (∀ t pkg fab eg, m.cargo = .spawn t pkg fab eg → m.acked = true →
      ∃ t', exec (.spawnAcknowledgement c id) s = .next t' ∧ (t'.cluster c).credits = (s.cluster c).credits + 1)
    ∧ (∀ t pkg fab eg, m.cargo = .spawn t pkg fab eg → m.next ≠ 0 → m.next ≤ s.coreCycle c →
      exec (.spawnResend c id) s = .next (s.spawnAgain c m))

/-- The steps of a migration (R180, R270 to R274): the departure, or the wait for a route (R412), the home's answer, the end of the entry, the thread that fetches in
place of going, or asks again. -/
def Obligations.TravelSteps : Prop :=
  ∀ (s : State) (key : Nat) (t : Thread), s.thread? key = some t →
    (∀ l n, t.cue = .waiting → t.waitOn = .depart l → s.idleThread key = true →
      (l.pkg.isNone = true ∨ s.releaseReady key (clusterOfKey key) t.vc 9 false = true) → (s.ctx t.ctx).low = false →
      (s.leaveRoute t key l = none → t.wait ≠ 0x17 → exec (.departure key) s = .next (s.setThread key { t with wait := 0x17, since := s.now, dog := 0 }))
      ∧ (s.leaveRoute t key l = some n →
      exec (.departure key) s = .next (s.sendAway ({ t with vc := t.vc.max t.rs }.settle fun _ => true) key l n)))
    ∧ (∀ l m a peer, t.cue = .departed → t.waitOn = .depart l → s.travelMsg key = some (m, a) → s.behind (clusterOfKey key) m = false →
      (s.ctx t.ctx).low = false →
      let s1 := s.dropMsg (clusterOfKey key) m.id
      (∀ s', l.pkg = none → s1.receive l.cluster { a with since := s.now } = some s' →
        exec (.migrationMessage key peer) s = .next (s'.answerLeave key l true))
      ∧ (l.pkg = none → s1.receive l.cluster { a with since := s.now } = none →
        exec (.migrationMessage key peer) s = .next (s1.answerLeave key l false))
      ∧ (l.pkg ≠ none → exec (.migrationMessage key .admitted) s = .next (s1.answerLeave key l true).routeHeld
        ∧ exec (.migrationMessage key .refused) s = .next (s1.answerLeave key l false).routeHeld
        ∧ ∀ code, exec (.migrationMessage key (.failed code)) s = .next (s1.answerLeave key l false true).routeHeld))
    ∧ (∀ l, t.cue = .departed → t.waitOn = .depart l → l.answer = some true → l.pkg = none →
      exec (.migrationAcknowledgement key) s = .next { s with threads := drop s.threads key })
    ∧ (∀ l, t.cue = .departed → t.waitOn = .depart l → l.answer = some false → l.migr = false → (s.ctx t.ctx).low = false →
      (l.dst = 0xDE → (s.cluster (clusterOfKey key)).unseen < 16) →
      exec (.migrationRefusal key) s = .next (s.fetchInstead key t l))
    ∧ (∀ l, t.cue = .departed → t.waitOn = .depart l → l.answer = some false → l.migr = true → s.leaveLost l = true → (s.ctx t.ctx).low = false →
      exec (.migrationRefusal key) s
        = .next ((s.setThread key (t.run s.now)).raise t.ctx l.pc [⟨0, key, token 0x15 (originOf l.pc), 5⟩]))
    ∧ (∀ l, t.cue = .departed → t.waitOn = .depart l → l.answer = some false → l.migr = true → s.leaveLost l = false → (s.ctx t.ctx).low = false →
      ∃ t' u, exec (.migrationRefusal key) s = .next t' ∧ t'.thread? key = some u ∧ u.cue = .waiting ∧ u.wait = 0x12)
    ∧ (∀ l next n, t.waitOn = .arrival l next → next ≤ s.coreCycle (clusterOfKey key) → (s.ctx t.ctx).low = false →
      (s.leaveRoute t key l = some n → exec (.migrResend key) s = .next (s.sendAway t key l n))
      ∧ (s.leaveRoute t key l = none → exec (.migrResend key) s = .next (s.setThread key (t.enter s.now .waiting 0x17 (.depart l)))))
    ∧ (∀ c a rest k, (s.cluster c).arrivals = a :: rest → s.headSlot c a = some k →
      exec (.arrivalAdmission c) s = .next ((s.modCluster c fun v => { v with arrivals := rest }).enterSlot c k a))

/-- Acts: TRIGGER_NOTICE, COMPLETION_NOTICE, FAILURE_NOTICE (R278), ACT_RETIREMENT (R269), CBPOST and CBCTL_WRITE (R352, R353), ACT_READY
(R355), PLACEMENT (R358), ROAMING_RELEASE_RESEND (R359), SWAP_OUT (R280), CONGESTION_WINDOW at the end of a window (R318; the number of a window is
log entry 43's). -/
def Obligations.ActSteps : Prop :=
  ∀ s : State,
    (∀ k a n, find s.acts k = some a → 0 < n → n ≤ a.remoteUntrig →
      exec (.triggerNotice k n) s = .next ((s.setAct { a with remoteUntrig := a.remoteUntrig - n }).tryFire a.ctx a.num))
    ∧ (∀ k a src n, find s.acts k = some a → 0 < n → n ≤ get a.remote src 0 → n ≤ a.live →
      ∃ t u, exec (.completionNotice k src n) s = .next t ∧ t.act? a.ctx a.num = some u ∧ u.live = a.live - n
        ∧ get u.remote src 0 = get a.remote src 0 - n)
    ∧ (∀ k a, find s.acts k = some a → a.remote ≠ [] → ∃ t, exec (.failureNotice k) s = .next t ∧ (t.ctx a.ctx).low = true)
    ∧ (∀ k a, find s.acts k = some a → a.live = 0 → a.guest = none → s.actQuiet a = true → (s.ctx a.ctx).low = false →
      (∀ x ∈ s.boards, k ∉ x.2.queue) → ∃ t, exec (.actRetirement k) s = .next t ∧ find t.acts k = none)
    ∧ (∀ board (header : Dword), board < 256 →
      exec (.cbpost board header) s = .next (s.post 0 (fld (s.board board).ctl.toNat 5 0) board header.toNat)
      ∧ (header.toNat % 256 ≠ 0 → ∃ t, exec (.cbpost board header) s = .next t ∧ (t.board board).lasterr = 1))
    ∧ (∀ board v, board < 256 → ∃ t, exec (.cbctlWrite board v) s = .next t ∧ (t.board board).ctl = v &&& 0xF03F)
    ∧ (∀ board k rest a, (s.board board).queue = k :: rest → find s.acts k = some a → a.ready = false → (s.ctx a.ctx).low = false →
      hdrWaddr a.header = 0 → exec (.actReady board) s = .next (s.setAct { a with ready := true }))
    ∧ (∀ part key level a r p, s.waiters part = [(key, level, .fresh a)] → a.roaming = false → hdrNens a.header ≠ 0 →
      (s.waiterRows (.fresh a)).findSome? (fun r => (s.fits r (Waiter.fresh a).wants).map fun p => (r, p)) = some (r, p) →
      exec (.placement part) s = .next (s.placeAt (.fresh a) r p))
    ∧ (∀ k a b, find s.acts k = some a → a.retryAt ≠ 0 → a.retryAt ≤ s.coreCycle (s.launchCluster a.ctx a.placed) → s.readyHead a.board = some b → b.num = a.num →
      exec (.roamingReleaseResend k) s = .next (s.release { a with retryAt := 0 }))
    ∧ (∀ ctx row key level a p,
      let w := Waiter.fresh a
      let own := sortBy (fun (a b : Nat × Ensemble) => decide (a.2.lastIssue ≤ b.2.lastIssue))
        (s.ensembles.filter fun (_, e) => e.ctx = ctx && e.row = row)
      let items := own.map fun (k, _) => Item.ensemble k
      (s.row row).cycleAt (get (s.row row).issued ctx 0) + 65536 ≤ (s.row row).cycleAt s.now →
      s.waiters ((s.rowsOf ctx).headD 0) = [(key, level, w)] → a.ctx = ctx → a.roaming = false → hdrNens a.header ≠ 0 →
      row ∈ s.waiterRows w → (∀ r ∈ s.waiterRows w, s.fits r w.wants = none) → ((s.without items).fits row w.wants).isSome = true →
      (State.evictUntil (fun s => (s.fits row w.wants).isSome) items s).fits row w.wants = some p →
      exec (.swapOut ctx row) s = .next ((State.evictUntil (fun s => (s.fits row w.wants).isSome) items s).placeAt w row p))
    ∧ (∀ (rows : List (Byte × Byte)) (dies : List Byte) (sums : Map Nat), s.pkg.shut = some sums →
      ∃ t, exec (.congestionWindow rows dies) s = .next t
        ∧ (∀ r, r < 32 → (get t.pkg.rowcong r 0).toNat
          = (rows.getD r (0, 0)).1.toNat * 2 ^ 16 + (rows.getD r (0, 0)).2.toNat * 2 ^ 8 + s.nc / 4096 % 256)
        ∧ (∀ d, d < 4 → (get t.pkg.diecong d 0).toNat
          = (gateq sums d).toNat * 2 ^ 16 + (dies.getD d 0).toNat * 2 ^ 8 + s.nc / 4096 % 256))

/-- R365: a write to PARTMAP that would move a row that holds an enabled context into another partition leaves SPLIT and every partition
as they are and sets ERR; any other takes effect at once. And the example of the rule. -/
def Obligations.PartitionMapWrite : Prop :=
  (∀ (s : State) (v : Dword), ∃ t, exec (.partmapWrite v) s = .next t
    ∧ ((∀ r ∈ s.busyRows, partitionFrom v.toNat r 5 1 0 32 = s.partition r) →
      df t.pkg.partmap 31 1 = df v 31 1 ∧ ∀ r, t.partition r = partitionFrom v.toNat r 5 1 0 32)
    ∧ ((∃ r ∈ s.busyRows, partitionFrom v.toNat r 5 1 0 32 ≠ s.partition r) →
      df t.pkg.partmap 63 1 = df s.pkg.partmap 63 1 ∧ bit t.pkg.partmap.toNat 0 = true ∧ ∀ r, t.partition r = s.partition r))
  ∧ ∀ r, partitionFrom 0x00000006 r 5 1 0 32 = if r < 8 then (0, 8) else if r < 16 then (8, 8) else (16, 16)

/-- Contexts: CONTEXT_ENABLE (R367), CONTEXT_END (R369), CTXMODE_WRITE (R367), CLOCK_CHANGE_DONE
(R368), SWITCH_OUT and SWITCH_IN (R380), each with the codes of the writes that are refused. Code 0x03 ranks before 0x04 (log entry 18); the end of
a context drops every operation of it (log entry 19); a switch-out without room ends with BUSY clear (log entry 48). -/
def Obligations.ContextSteps : Prop :=
  ∀ s : State,
    (∀ c v, c < 64 → bit v.toNat 63 = true → (s.ctx c).en = false →
      (s.enableRefused c v = none →
        ∃ t, exec (.contextEnable c v) s = .next t ∧ (t.ctx c).en = true ∧ (t.ctx c).low = false ∧ (t.ctx c).needs = [])
      ∧ (∀ e, s.enableRefused c v = some e →
        ∃ t, exec (.contextEnable c v) s = .next t ∧ (t.ctx c).en = false ∧ df (t.ctx c).stat 7 0 = e))
    ∧ (∀ c v, c < 64 → (s.ctx c).en = true → df v 57 53 ≠ (s.ctx c).part →
      (bit v.toNat 63 = true → exec (.contextEnable c v) s = .next (s.setCtx c ((s.ctx c).setErr 4)))
      ∧ (bit v.toNat 63 = false → exec (.contextEnd c v) s = .next (s.setCtx c ((s.ctx c).setErr 4))))
    ∧ (∀ c v, c < 64 → (s.ctx c).en = true → df v 57 53 = (s.ctx c).part → bit v.toNat 63 = false →
      ∃ t, exec (.contextEnd c v) s = .next t ∧ (t.ctx c).en = false ∧ (∀ x ∈ t.threads, x.2.ctx ≠ c) ∧ (∀ x ∈ t.ops, x.2.ctx ≠ c))
    ∧ (∀ c v, c < 64 →
      let bad := df v 10 9 = 3 ∨ df v 7 6 = 3 ∨ df v 5 4 = 3 ∨ df v 1 0 = 3
      let fixed := (s.ctx c).en = true ∧ (v ^^^ (s.ctx c).mode) &&& 0xFC ≠ 0
      ∃ t, exec (.ctxmodeWrite c v) s = .next t
        ∧ (bad → (t.ctx c).mode = (s.ctx c).mode ∧ df (t.ctx c).stat 7 0 = 3)
        ∧ (¬bad → fixed → (t.ctx c).mode = (s.ctx c).mode ∧ df (t.ctx c).stat 7 0 = 4)
        ∧ (¬bad → ¬fixed → (t.ctx c).mode = v &&& 0xFFF))
    ∧ (∀ p r, (s.partition p).1 = p → r ∈ s.partRows p → (s.row r).clkUntil ≠ 0 →
      ∃ t, exec (.clockChangeDone p) s = .next t ∧ (t.row r).clkUntil = 0 ∧ (t.row r).clk = (s.wantedClock p).getD (s.row r).clk)
    ∧ (∀ c, c < 64 → ((s.ctx c).busy = true ∨ (s.ctx c).out = true) →
      exec (.switchOut c) s = .next (s.setCtx c ((s.ctx c).setErr 6)))
    ∧ (∀ c, c < 64 → (s.ctx c).busy = false → (s.ctx c).out = false →
      let s1 := s.setCtx c { s.ctx c with stat := setD (s.ctx c).stat 10 10 1, swOut := true, swIn := false }
      (s1.areaFits c (s1.residentBytes c) = true → exec (.switchOut c) s = .next (s1.switchOutGo c)
        ∧ (s1.residents c = [] → (∀ x ∈ s1.clusters, ∀ a ∈ x.2.arrivals, a.ctx ≠ c) →
          ((s1.switchOutGo c).ctx c).out = true ∧ ((s1.switchOutGo c).ctx c).busy = false))
      ∧ (s1.areaFits c (s1.residentBytes c) = false → ∃ t, exec (.switchOut c) s = .next t ∧ (t.ctx c).busy = false ∧ (t.ctx c).out = false
        ∧ bit (t.ctx c).stat.toNat 11 = true))
    ∧ (∀ c, c < 64 → ((s.ctx c).busy = true ∨ (s.ctx c).out = false) → exec (.switchIn c) s = .next (s.setCtx c ((s.ctx c).setErr 6)))
    ∧ (∀ c, c < 64 → (s.ctx c).busy = false → (s.ctx c).out = true →
      exec (.switchIn c) s
        = .next ((s.setCtx c { s.ctx c with stat := setD (s.ctx c).stat 10 10 1, swOut := false, swIn := true }).switchedIn c))

/-- Owners of frames and translations: FRAMEOWN_WRITE (R382), ZERO_FILL_DONE (R383), CTXINV_RANGE, CTXINV_ALL and INVALIDATION_COMPLETE
(R394), TRANSLATION_WALK_END (R387, R392). -/
def Obligations.TranslationSteps : Prop :=
  ∀ s : State,
    (∀ v : Dword, df v 39 16 < 768 * 2 ^ 14 → df v 6 0 ≤ 0x40 → get s.owners (df v 39 16) 0x40 ≠ df v 6 0 →
      s.frameBusy (df v 39 16) = false →
      ∃ t, exec (.frameownWrite v) s = .next t ∧ get t.owners (df v 39 16) 0x40 = df v 6 0 ∧ df v 39 16 ∈ t.zeroPend)
    ∧ (∀ f, f ∈ s.zeroPend →
      ∃ t, exec (.zeroFillDone f) s = .next t ∧ f ∉ t.zeroPend ∧ (∀ a, a / 2 ^ 16 = f → readByte t.mem a = 0)
        ∧ (∀ a, a / 2 ^ 16 ≠ f → readByte t.mem a = readByte s.mem a))
    ∧ (∀ c (v : Dword), c < 64 → bit (s.ctx c).invs.toNat 0 = false → bit v.toNat 63 = false →
      let n := if df v 15 0 = 0 then 65536 else df v 15 0
      ∃ t, exec (.ctxinvRange c v) s = .next t ∧ bit (t.ctx c).invs.toNat 0 = true
        ∧ ∀ r, ∀ e ∈ (t.row r).tlb, e.ctx = c → meets (df v 55 16 * 2 ^ 16) (n * 2 ^ 16) e.base e.bytes = false)
    ∧ (∀ c, c < 64 → bit (s.ctx c).invs.toNat 0 = false →
      ∃ t, exec (.ctxinvAll c) s = .next t ∧ bit (t.ctx c).invs.toNat 0 = true
        ∧ ∀ r, ∀ e ∈ (t.row r).tlb, e.ctx = c → meets 0 (2 ^ 64) e.base e.bytes = false)
    ∧ (∀ c (v : Dword), c < 64 → bit (s.ctx c).invs.toNat 0 = true →
      exec (.ctxinvRange c v) s = .next (s.setCtx c { s.ctx c with invs := setD (s.ctx c).invs 1 1 1 }))
    ∧ (∀ c first n, (s.ctx c).inv = some (first, n) →
      (∀ k ∈ (s.ctx c).invOps, ∀ o, find s.ops k = some o → o.isRead = false ∧ o.dst = .none ∧ o.stage = .performed) →
      s.travelling c first n = false →
      ∃ t, exec (.invalidationComplete c) s = .next t ∧ (t.ctx c).inv = none ∧ bit (t.ctx c).invs.toNat 0 = false)
    ∧ (∀ row c g cached w, w ∈ (s.row row).walks → w.ctx = c → w.granule = g → w.started = true →
      ∃ t, exec (.translationWalkEnd row c g cached) s = .next t ∧ ∀ x ∈ (t.row row).walks, ¬(x.ctx = c ∧ x.granule = g))

/-- The host port: ATS_COMPLETION and ATS_TIMEOUT (R397; a held entry is at least 4 KiB, log entry 82), PRG_RESPONSE (R398), ATS_INVALIDATE_REQUEST and INVALIDATE_COMPLETION (R399),
BAR2_READ and BAR2_WRITE (R396), for which the check-symbol range of a home holds data as any other (log entry 111). -/
def Obligations.HostSteps : Prop :=
  ∀ s : State,
    (∀ id r, s.atsReq? id = some r →
      (r.covered (r.span .unsupported) = false → exec (.atsCompletion id .unsupported) s = .next (s.atsFails r 0x14))
      ∧ (r.covered (r.span .abort) = false → exec (.atsCompletion id .abort) s = .next (s.atsFails r 0x14))
      ∧ (∀ rd wr page log u, (rd = false ∨ r.write = true ∧ wr = false) → r.covered (r.span (.granted rd wr page log u)) = false →
        exec (.atsCompletion id (.granted rd wr page log u)) s = .next (s.atsRefused r))
      ∧ (∀ wr page log u, (r.write = true → wr = true) → r.covered (r.span (.granted true wr page log u)) = false →
        let size := 2 ^ (max 12 (min log 30))
        let base := r.page * 4096 / size * size
        let entry (ctx : Nat) : TlbEl := ⟨ctx, base, true, if u then base else page * 4096 / size * size, 3, wr, u, size, none⟩
        let t := r.users.foldl (fun st x => match st.userAt x with
          | some (ctx, cluster) => (st.fillTlb cluster (entry ctx)).tellUser x (hostKey (r.page * 4096) r.write) (.ok 0 3 size true)
          | none => st) (s.dropAts r.id)
        exec (.atsCompletion id (.granted true wr page log u)) s = .next t ∧ t.atsReq? id = none
          ∧ ∀ k, WalkUser.slot k ∈ r.users → s.slotLanes k ≠ [] → (t.slot k).wait ≠ 4)
      ∧ (r.sentAt + 50000 * ticksPerUs ≤ s.now → exec (.atsTimeout id) s = .next (s.atsFails r 0x14)))
    ∧ (∀ id r answer, s.atsReq? id = some r → r.covered (r.span answer) = true → ∃ t r', exec (.atsCompletion id answer) s = .next t
      ∧ t.atsReq? id = some r' ∧ r'.stale = [] ∧ t.sent = s.sent ++ [.atsRequest id r.pasid r.page (!r.write)])
    ∧ (∀ tag pasid page pages all, s.port.invs.length < 32 → (∀ x ∈ s.port.invs, x.1 ≠ tag) →
      (∀ c, c ∈ s.ctxs.map Prod.fst → (s.ctx c).en = true → (all = true ∨ (s.ctx c).pasid = pasid) →
        ∃ t ops, exec (.atsInvalidateRequest tag pasid page pages all) s = .next t ∧ t.port.invs = s.port.invs ++ [(tag, ops)]
          ∧ (∀ k o, (k, o) ∈ s.ops → o.ctx = c → o.place = .host → o.stage = .sent → (∀ n v, o.work ≠ .store n v) →
            meets (page * 4096) (pages * 4096) o.va o.span = true → k ∈ ops)
          ∧ (∀ row, ∀ e ∈ (t.row row).tlb, e.host = true → e.ctx = c → meets (page * 4096) (pages * 4096) e.base e.bytes = false)
          ∧ ∀ r ∈ t.port.ats, (all = true ∨ r.pasid = pasid) → (page * 4096, pages * 4096) ∈ r.stale)
      ∧ ((∀ x ∈ s.ctxs, x.2.en = false) →
        ∃ t, exec (.atsInvalidateRequest tag pasid page pages all) s = .next t ∧ t.sent = s.sent ++ [.invalidateDone tag] ∧ t.port.invs = s.port.invs
          ∧ ∀ row, ∀ e ∈ (t.row row).tlb, e.host = true → (all = true ∨ (s.ctx e.ctx).pasid = pasid) →
            meets (page * 4096) (pages * 4096) e.base e.bytes = false))
    ∧ (∀ tag ops, s.port.invs.find? (fun x => x.1 = tag) = some (tag, ops) →
      (∀ k ∈ ops, ∀ o, find s.ops k = some o → o.isRead = false ∧ o.dst = .none ∧ o.stage = .performed) →
      ∃ t, exec (.invalidateCompletion tag) s = .next t ∧ t.sent = s.sent ++ [.invalidateDone tag] ∧ ∀ x ∈ t.port.invs, x.1 ≠ tag)
    ∧ (∀ id r code, s.port.pages.find? (fun r => r.id = id && r.sent) = some r →
      ∃ t, exec (.prgResponse id code) s = .next t ∧ (∀ x ∈ t.port.pages, x.id ≠ id)
        ∧ (code ≠ .success → ∀ c ∈ s.ofPasid r.pasid, (s.ctx c).low = false → r.page ∈ (t.ctx c).failNext)
        ∧ ∀ k ∈ r.threads, ∀ u va write, s.thread? k = some u → u.waitOn = .host va write → (s.ctx u.ctx).low = false → u.spilled = 0 →
          ∃ u', t.thread? k = some u' ∧ u'.cue = .runnable ∧ u'.wait = 0)
    ∧ (∀ a n, a + n ≤ 2 ^ 40 →
      (768 * 2 ^ 30 < a + n → exec (.bar2Read a n) s = .next (s.send (.hostData a (List.replicate n 0xFF))))
      ∧ (a + n ≤ 768 * 2 ^ 30 → s.moving a n = false →
        exec (.bar2Read a n) s = .next ((s.barRead a n).1.send (.hostData a (s.barRead a n).2))
        ∧ (Unmoved s a n → (s.barRead a n).2 = (List.range n).map fun i => byteAt s (a + i))))
    ∧ (∀ a (data : List Byte), data ≠ [] → data.length ≤ 512 →
      (768 * 2 ^ 30 < a + data.length → a + data.length ≤ 2 ^ 40 → exec (.bar2Write a data) s = .next s)
      ∧ (a + data.length ≤ 768 * 2 ^ 30 → s.moving a data.length = false →
        exec (.bar2Write a data) s = .next (s.barWrite a data)
        ∧ (Unmoved s a data.length → NoOpenMessage s →
          (∀ i, i < data.length → byteAt (s.barWrite a data) (a + i) = data.getD i 0)
          ∧ ∀ b, (b < a ∨ a + data.length ≤ b) → byteAt (s.barWrite a data) b = byteAt s b)))

/-- Edge port groups: PERSONALITY_SWITCH, QUIESCE_NOTICE, SWITCH_DRAIN_END, SWITCH_DRAIN_BOUND, SWITCH_RETRAIN_DONE and
SWITCH_EXCHANGE_DONE (R405, R414, R415), LOSS_OF_LIGHT (R416), KEY_ROTATION (R420), EGSTAT_READ (R405), and the steps of a switch that end by
themselves, within the bounds of R414 (how long within them is log entry 132's). ERR 0x01 ranks before 0x02 (log entry 136), an exchange that
fails leaves 0x03 (log entry 50), a quiesce notice is taken at once and the switch keeps the NEWPERS of its GO (log entry 49), and keys are counted
(log entry 100). -/
def Obligations.EdgeGroupSteps : Prop :=
  ∀ (s : State) (n : Nat), n < 16 →
    (∀ v : Dword, bit v.toNat 7 = true →
      (4 ≤ df v 2 0 → exec (.personalitySwitch n v) s = .next (s.setEg n { s.eg n with err := 1 }))
      ∧ (df v 2 0 < 4 → ((s.eg n).step ≠ 0 ∨ (2 ≤ df v 2 0 ∧ bit s.pkg.podctl.toNat 24 = false)) →
        exec (.personalitySwitch n v) s = .next (s.setEg n { s.eg n with err := 2 }))
      ∧ (df v 2 0 < 4 → (s.eg n).step = 0 → (2 ≤ df v 2 0 → bit s.pkg.podctl.toNat 24 = true) →
        exec (.personalitySwitch n v) s = .next ((s.setEg n { s.eg n with newpers := df v 2 0 }).startSwitch n)))
    ∧ ((s.eg n).step = 0 → ∃ t, exec (.quiesceNotice n) s = .next t ∧ (t.eg n).quiet = true)
    ∧ ((s.eg n).step = 2 → s.drained n = true → exec (.switchDrainEnd n) s = .next (s.fenceStep n))
    ∧ (∀ applied, (s.eg n).step = 2 → s.drained n = false → (s.eg n).stepSince + 1000 * ticksPerUs ≤ s.now →
      exec (.switchDrainBound n applied) s
        = .next (((s.modEg n fun g => { g with err := 6 }).fence n 0x13 applied false).fenceStep n))
    ∧ (∀ applied, (s.eg n).step = 0 → 1 ≤ (s.eg n).pers → (s.eg n).pers ≤ 3 →
      exec (.lossOfLight n applied) s
        = .next (((s.modEg n fun g => { g with los := true, was := g.pers, pers := 7 }).clearRoutes n).fence n 0x03 applied true))
    ∧ ((s.eg n).step = 4 → s.root.policy = true →
      (∃ t, exec (.switchRetrainDone n true) s = .next t ∧ (t.eg n).step = 5 ∧ (t.eg n).fec = s.trainedFec n)
      ∧ exec (.switchRetrainDone n false) s = .next (s.switchFails n 4))
    ∧ ((s.eg n).step = 5 →
      exec (.switchExchangeDone n .mismatch) s = .next (s.switchFails n 3)
      ∧ ((s.eg n).goal = 1 → exec (.switchExchangeDone n .badRanges) s = .next (s.switchFails n 5))
      ∧ (∀ peers pods expanders, (s.eg n).goal = 1 → bit s.pkg.egpol.toNat n = false → rangesOk (s.eg n).valid expanders = true →
        exec (.switchExchangeDone n (.ok peers pods expanders)) s
          = .next ((s.modEg n fun g => { g with installed := (s.eg n).valid }).enterStep n 6 s.now)))
    ∧ (bit s.pkg.egpol.toNat n = true → 1 ≤ (s.eg n).pers → (s.eg n).pers ≤ 3 →
      ∃ t, exec (.keyRotation n) s = .next t ∧ (t.eg n).keys = (s.eg n).keys + 1)
    ∧ (∀ now, switchTicks n 1 now < 10 * ticksPerUs ∧ switchTicks n 3 now < 20 * ticksPerUs ∧ switchTicks n 6 now < 100 * ticksPerUs
      ∧ switchTicks n 7 now < 10 * ticksPerUs)
    ∧ ((s.eg n).ends ≤ s.now →
      ((s.eg n).step = 1 → ((s.stepEdge n).eg n).step = 2)
      ∧ ((s.eg n).step = 3 → ((s.stepEdge n).eg n).step = if (s.eg n).goal = 0 then 7 else 4)
      ∧ ((s.eg n).step = 6 → ((s.stepEdge n).eg n).step = 7)
      ∧ ((s.eg n).step = 7 → ((s.stepEdge n).eg n).step = 0 ∧ ((s.stepEdge n).eg n).pers = (s.eg n).goal))
    ∧ ∃ t, exec (.egstatRead n) s = .next t ∧ t.sent = s.sent ++ [.register (s.egstat n)] ∧ (t.eg n).wfail = 0

/-- The pod and its links: PEER_LEFT_POD (R412), LINK_RECOVERY_RESOLVED and LINK_RECOVERY_TIMEOUT (R417), LINK_FLIT_ERROR (R313, R439),
FABRIC_UNREACHABLE_TIMEOUT (R278, R413; from when an endpoint is unreachable: log entry 54), PEER_REQUEST (R410, R81). The classes of a flit's events
are log entry 53's. -/
def Obligations.PodSteps : Prop :=
  ∀ s : State,
    (∀ q, q < 256 → q ≠ s.ownPkg → get s.pkg.podrt q 0 = 0 → get s.pkg.unreach q 0 + 10000 * ticksPerUs ≤ s.now →
      exec (.peerLeftPod q) s = .next (s.leavePod q))
    ∧ (∀ key t va since pc cons born, s.thread? key = some t → t.waitOn = .link va since pc cons born →
      (s.linkUp (clusterOfKey key) t.ctx va = true → (s.ctx t.ctx).low = false →
        exec (.linkRecoveryResolved key) s = .next (s.setThread key (t.run s.now)))
      ∧ (since + 10000 * ticksPerUs ≤ s.now → s.linkUp (clusterOfKey key) t.ctx va = false →
        exec (.linkRecoveryTimeout key) s = .next (s.lateFailure t.ctx pc cons 0x15 (clusterOfKey born) (slotOfKey born))
        ∧ ∃ t', exec (.linkRecoveryTimeout key) s = .next t' ∧ (t'.ctx t.ctx).low = true))
    ∧ (∀ link lane, link < 2080 → lane < 65536 →
      exec (.linkFlitError link lane false) s = .next (s.reliability 1 0 link 5 0x40 lane)
      ∧ exec (.linkFlitError link lane true) s = .next ((s.reliability 6 0 link 5 0x40 lane).askRepair 5 link lane))
    ∧ (∀ fibre lane, fibre < 64 → lane < 8 ∨ (lane = 8 ∧ get s.pkg.used (5000 + fibre) 0 ≠ 0) →
      exec (.linkFlitError (2080 + fibre) lane false) s = .next (s.reliability 1 0 fibre 6 0x40 lane)
      ∧ exec (.linkFlitError (2080 + fibre) lane true) s = .next ((s.reliability 6 0 fibre 6 0x40 lane).askRepair 6 fibre lane))
    ∧ (∀ k a, find s.acts k = some a → (∃ e ∈ s.endpointsOf a, s.endpointGone e = true) →
      (∀ e n, (256 + e, n) ∈ a.remote → s.endpointGone e = false) →
      exec (.fabricUnreachableTimeout k) s
        = .next (((s.endpointsOf a).filter s.endpointGone).eraseDups.foldl (fun st e => st.leaveTarget (.fabric e)) s))
    ∧ (∀ k a e n, find s.acts k = some a → (256 + e, n) ∈ a.remote → s.endpointGone e = true →
      ∃ t, exec (.fabricUnreachableTimeout k) s = .next t ∧ (t.ctx a.ctx).low = true)
    ∧ (∀ (r : PeerReq) pa n, r.src < 512 → s.linkOpen r = true → r.op = .load pa n → pa % n = 0 → 1 ≤ n → n ≤ 8 →
      (∀ e, s.peerRefused (s.serving r.job) pa n = some e →
        exec (.peerRequest r) s = .next (s.send (.peerReply r.src [] 0 (some (BitVec.ofNat 8 e)))))
      ∧ (∀ s1 a, s.peerRefused (s.serving r.job) pa n = none → s.peerAt pa n = some (s1, a) →
        let s2 := s1.countMse (.home (a / 2 ^ 30))
        (s2.markNow pa n = none → exec (.peerRequest r) s = .next (s2.send (.peerReply r.src (reply64 (s2.readNow pa n)) 0 none)))
        ∧ (∀ m, s2.markNow pa n = some m → exec (.peerRequest r) s = .next (s2.send (.peerReply r.src [] 0 (some m))))))
    ∧ (∀ (r : PeerReq) pa n v, r.src < 512 → s.linkOpen r = true → r.op = .store pa n v → pa % n = 0 → 1 ≤ n → n ≤ 8 →
      ∀ s1 a, s.peerRefused (s.serving r.job) pa n = none → s.peerAt pa n = some (s1, a) →
      exec (.peerRequest r) s = .next (((s1.countMse (.home (a / 2 ^ 30))).storeNow pa (toBytes n v.toNat)).send (.peerReply r.src [] 0 none)))

/-- Stopping: CURTAIN_SIGNAL, CURTAIN_SKID_DEADLINE and CURTAIN_DONE (R429 to R431), WATCHDOG_EXPIRY (R436), CTXPGDONE_GRANULE and
CTXPGDONE_ALL (R426), CTXFRP_READ (R427), CTXDBG_RD, CTXDBG_WR and CTXDBG_RES (R438). What the deadline does to the work of gates, to operations and to
open transactions is log entries 57, 58 and 60; the origin of a token that the debug path reads is free (log entry 4); a discarded CTXDBG_WR changes
nothing else (log entry 61). -/
def Obligations.StoppingSteps : Prop :=
  ∀ (s : State) (c : Nat),
    (∀ e unit, (s.ctx c).lowering = true → unit < kindUnits e → (kindNum e, unit) ∉ (s.ctx c).treated →
      exec (.curtainSignal c e unit) s = .next (s.treat c (kindNum e) unit))
    ∧ ((s.ctx c).lowering = true → (s.ctx c).lowAt.getD 0 + 8 * ticksPerUs ≤ s.now →
      ∃ t, exec (.curtainSkidDeadline c) s = .next t ∧ (t.ctx c).skid.isSome = true ∧ ∀ x ∈ t.ops, x.2.ctx ≠ c)
    ∧ ((s.ctx c).low = true → (s.ctx c).down = false → (s.ctx c).skid.isSome = true →
      ∃ t, exec (.curtainDone c) s = .next t ∧ (t.ctx c).down = true ∧ (t.ctx c).low = true)
    ∧ (∀ key t, s.thread? key = some t → t.cue ≠ .issuing → isLaneKey key = false → t.wait ≠ 0 → s.bites t.ctx t.dog = true →
      (s.ctx t.ctx).low = false → ∃ t', exec (.watchdogExpiry (.thread key)) s = .next t' ∧ (t'.ctx t.ctx).low = true
        ∧ df (t'.ctx t.ctx).cur 31 24 = 0x0D)
    ∧ (∀ g gr sl, s.group? g = some gr → gr.slice = some sl → sl.wait ≠ 0 → s.bites gr.ctx sl.dog = true → (s.ctx gr.ctx).low = false →
      ∃ t', exec (.watchdogExpiry (.slice g)) s = .next t' ∧ (t'.ctx gr.ctx).low = true ∧ df (t'.ctx gr.ctx).cur 31 24 = 0x0D)
    ∧ (∀ g gr, s.group? g = some gr → gr.mxWaits = true → s.bites gr.ctx gr.mxDog = true → (s.ctx gr.ctx).low = false →
      ∃ t', exec (.watchdogExpiry (.matrix g)) s = .next t' ∧ (t'.ctx gr.ctx).low = true ∧ df (t'.ctx gr.ctx).cur 31 24 = 0x0D)
    ∧ (c < 64 → ∀ g, g < 2 ^ 40 →
      ∃ t, exec (.ctxpgdoneGranule c g) s = .next t ∧ g ∉ (t.ctx c).needs
        ∧ ∀ k u va, s.thread? k = some u → u.ctx = c → u.waitOn = .page va → granule va = g → (s.ctx c).low = false → u.spilled = 0 →
          ∃ u', t.thread? k = some u' ∧ u'.cue = .runnable ∧ u'.wait = 0)
    ∧ (c < 64 → ∃ t, exec (.ctxpgdoneAll c) s = .next t ∧ (t.ctx c).needs = []
      ∧ ∀ k u va, s.thread? k = some u → u.ctx = c → u.waitOn = .page va → (s.ctx c).low = false → u.spilled = 0 →
        ∃ u', t.thread? k = some u' ∧ u'.cue = .runnable ∧ u'.wait = 0)
    ∧ (c < 64 → ∃ t, exec (.ctxfrpRead c) s = .next t ∧ t.sent = s.sent ++ [.register (s.ctx c).frp]
      ∧ (t.ctx c).frp = setD (s.ctx c).frp 62 48 0)
    ∧ (c < 64 → ∀ coord : Word,
      (∃ t o, exec (.ctxdbgRd c coord) s = .next t
        ∧ (t.ctx c).dbgd = zx (((s.freeWords 1).2.windowRead c 5 coord.toNat o).headD Tw.zero).val)
      ∧ (let s1 := s.modCtx c fun x => { x with dbg := zx coord }
        (s1.atBreak c coord = true ∨ (s.ctx c).down = true →
          exec (.ctxdbgWr c coord) s = .next (s1.windowWrite c 5 coord.toNat (df (s.ctx c).dbgd 31 0)))
        ∧ (s1.atBreak c coord = false → (s.ctx c).down = false → exec (.ctxdbgWr c coord) s = .next s1)
        ∧ (∀ t, s1.atBreak c coord = true → s.thread? (coordOf coord.toNat).key = some t → t.spilled = 0 → t.held = false →
          ∃ t' u, exec (.ctxdbgRes c coord) s = .next t' ∧ t'.thread? (coordOf coord.toNat).key = some u ∧ u.cue = .runnable ∧ u.brk = none)
        ∧ (s1.atBreak c coord = false → exec (.ctxdbgRes c coord) s = .next s1)))

/-- Reliability and power: RELRP_READ (R442), SCRUB (R440), REPCMD_REPAIR and REPAIR_DONE (R444, R445), POWER_WINDOW, PWRCTL_WRITE (R452,
R453), POWER_LOSS (R449; that wear counts stand is log entry 11), REGISTER_WRITE (R6). A frame of a spare is copied in time (log entry 132). -/
def Obligations.UpkeepSteps : Prop :=
  ∀ s : State,
    (∃ t, exec .relrpRead s = .next t ∧ t.sent = s.sent ++ [.register s.pkg.relrp] ∧ t.pkg.relrp = setD s.pkg.relrp 62 48 0)
    ∧ (∀ cluster sector ecc, cluster < 768 → sector < 2 ^ 25 → s.mseDown cluster = false →
      let pa := cluster * 2 ^ 30 + sector * 32
      (s.unfilled pa = true ∨ s.checkSymbol pa = true → exec (.scrub cluster sector ecc) s = .next s)
      ∧ (s.unfilled pa = false → s.checkSymbol pa = false → exec (.scrub cluster sector ecc) s = .next (s.detect pa ecc)))
    ∧ (∀ v : Dword,
      (bit v.toNat 63 = false ∨ unitCount (df v 23 16) ≤ df v 15 0 → exec (.repcmdRepair v) s = .next s)
      ∧ (bit v.toNat 63 = true → df v 15 0 < unitCount (df v 23 16) → df v 23 16 ≠ 5 → df v 23 16 ≠ 6 →
        exec (.repcmdRepair v) s = .next (s.askRepair (df v 23 16) (df v 15 0) 0)))
    ∧ (∀ kind unit r, s.pkg.repairs.find? (fun x => x.started && x.kind = kind && x.unit = unit) = some r →
      (kind = 1 → s.siteSavable unit = true) → (kind = 4 → 2 ^ 14 ≤ r.frame 0 s.now) →
      ∃ t, exec (.repairDone kind unit) s = .next t ∧ (kind ≠ 1 → t.pkg.done = s.pkg.done + 1))
    ∧ (∀ measured hot, ∃ t, exec (.powerWindow measured hot) s = .next t ∧ df t.pkg.pwrctl 47 32 = measured.toNat
      ∧ (hot = true → df t.pkg.pwrctl 25 24 = 2))
    ∧ (∀ v : Dword, ∃ t, exec (.pwrctlWrite v) s = .next t
      ∧ (1200 ≤ df v 15 0 ∧ df v 15 0 ≤ 4800 → df t.pkg.pwrctl 15 0 = df v 15 0)
      ∧ (¬(1200 ≤ df v 15 0 ∧ df v 15 0 ≤ 4800) → df t.pkg.pwrctl 15 0 = df s.pkg.pwrctl 15 0 ∧ bit t.pkg.pwrctl.toNat 63 = true))
    ∧ (∃ t, exec .powerLoss s = .next t ∧ t.pkg.powered = false ∧ t.mem = [] ∧ t.marks = [] ∧ t.threads = [] ∧ t.ctxs = []
      ∧ t.root.index = s.root.index ∧ t.root.version = s.root.version ∧ t.root.flash = s.root.flash ∧ t.root.staged = s.root.staged
      ∧ t.pkg.wear = s.pkg.wear)
    ∧ (∀ reg i (v : BitVec 128), i < regCount reg →
      let w : Dword := v.extractLsb' 0 64
      (reg = .cbctl → exec (.registerWrite reg i v) s = exec (.cbctlWrite i w) s)
      ∧ (reg = .cbpost → exec (.registerWrite reg i v) s = exec (.cbpost i w) s)
      ∧ (reg = .ctxmode → exec (.registerWrite reg i v) s = exec (.ctxmodeWrite i w) s)
      ∧ (reg = .pwrctl → exec (.registerWrite reg i v) s = exec (.pwrctlWrite w) s)
      ∧ (reg = .partmap → exec (.registerWrite reg i v) s = exec (.partmapWrite w) s)
      ∧ ((∀ r ∈ [MgmtReg.cbctl, .cbpost, .partmap, .ctxmode, .ctxinv, .frameown, .ctxpgdone, .repcmd, .pwrctl], reg ≠ r) →
        exec (.registerWrite reg i v) s = .next (s.writeReg reg i v)))

/-- BOOT (R447: the root measures the two sections of the image in flash, EGPOL and the spare map, and releases the service cores; a section that does
not verify leaves it in recovery), FIRMWARE_UPDATE and RECOVERY_LOAD of the image in the window (R448), ATTESTATION_REQUEST and
ATTESTATION_REPORT_DONE (R449, R450). -/
def Obligations.TrustSteps : Prop :=
  ∀ s : State,
    (∀ b : BootIn,
      let image := s.root.staged.getD s.root.flash
      ∃ t, exec (.boot b) s = .next t ∧ t.mem = [] ∧ t.threads = [] ∧ t.ctxs = [] ∧ t.root.flash = image
      ∧ (b.rootOk = true → t.pkg.egpol = b.egpol ∧ t.root.policy = true ∧ t.root.mr0 = extend (List.replicate 32 0) image.root
        ∧ t.root.mr2 = extend (List.replicate 32 0) (toBytes 2 b.egpol.toNat))
      ∧ (b.rootOk = true → b.serviceOk = true → t.root.recovery = false ∧ t.root.released = true
        ∧ t.root.mr1 = extend (List.replicate 32 0) image.service ∧ t.root.mr3 = extend (List.replicate 32 0) (Config.spareMap s.pkg.used))
      ∧ (b.rootOk = false ∨ b.serviceOk = false → t.root.recovery = true ∧ t.root.released = false))
    ∧ (∀ i : Image,
      (s.accepts i = true ↔ i.good = true ∧ s.root.minVersion ≤ i.version)
      ∧ (s.accepts i = true →
        (∃ t, exec (.firmwareUpdate i) s = .next t ∧ t.root.staged = some i ∧ t.root.version = s.root.version ∧ t.root.flash = s.root.flash)
        ∧ (i = s.windowImage i.good →
          ∃ t, exec (.recoveryLoad i) s = .next t ∧ t.root.flash = i ∧ t.root.version = i.version ∧ t.root.minVersion = s.root.minVersion))
      ∧ (s.accepts i = false → exec (.firmwareUpdate i) s = .next s ∧ (i = s.windowImage i.good → exec (.recoveryLoad i) s = .next s)))
    ∧ (∀ v : Dword, bit v.toNat 63 = true → ∃ t, exec (.attestationRequest v) s = .next t
      ∧ (bit s.pkg.attcmd.toNat 62 = true → df t.pkg.attcmd 55 48 = 3)
      ∧ (bit s.pkg.attcmd.toNat 62 = false → 2 ^ 40 ≤ s.root.index → df t.pkg.attcmd 55 48 = 1)
      ∧ (bit s.pkg.attcmd.toNat 62 = false → s.root.index < 2 ^ 40 → bit t.pkg.attcmd.toNat 62 = true))
    ∧ (bit s.pkg.attcmd.toNat 62 = true →
      (∃ t, exec (.attestationReportDone true) s = .next t ∧ bit t.pkg.attcmd.toNat 62 = false ∧ t.root.index = s.root.index + 1
        ∧ t.root.report.length = 0x100 + 9893)
      ∧ ∃ t, exec (.attestationReportDone false) s = .next t ∧ bit t.pkg.attcmd.toNat 62 = false ∧ df t.pkg.attcmd 55 48 = 2
        ∧ t.root.index = s.root.index)

/-! Faults. -/

/-- R421, R429: a raise of a code that is not recoverable, or of a lane of an access slice, lowers the curtain: LOW is set, CONS and CODE are
those of the first such raise; and in a context whose curtain is low a raise does nothing. -/
def Obligations.RaiseLowersTheCurtain : Prop :=
  ∀ (s : State) (ctx : Nat) (pc : Dword) (rs : List RaiseOf),
    ((s.ctx ctx).low = true → s.raise ctx pc rs = s)
    ∧ (∀ bad, (s.ctx ctx).low = false → rs.find? (fun r => isLaneKey r.key || !recoverable (tokCode r.tok)) = some bad →
      ((s.raise ctx pc rs).ctx ctx).low = true ∧ ((s.raise ctx pc rs).ctx ctx).down = (s.ctx ctx).down
      ∧ df ((s.raise ctx pc rs).ctx ctx).cur 31 24 = bad.cons % 256
      ∧ df ((s.raise ctx pc rs).ctx ctx).cur 23 16 = tokCode bad.tok)

/-- R423: a thread that takes the rollback path: its pending registers are dead and its pending predicates tokens, its PC is its region
entry, it is parked with the reason of its code, and every other register, predicate and clock stands. -/
def Obligations.RollbackParks : Prop :=
  ∀ (s : State) (key code : Nat) (pc : Dword) (cons : Nat) (t : Thread), s.thread? key = some t → t.rest ≠ .pending →
    (code = 1 ∨ code = 2 ∨ code = 3) →
    ∃ u, (s.rollback key code pc cons).thread? key = some u ∧ u.pc = t.region ∧ u.region = t.region
      ∧ (∀ n, u.cell n = if (t.cell n).st = .pending then Cell.dead else t.cell n)
      ∧ u.preds = t.preds.map (fun p => if p.pending then ⟨p.val, true, token 0x30 (originOf pc), false⟩ else p)
      ∧ u.tsw = t.tsw ∧ u.vc = t.vc ∧ u.rs = t.rs ∧ u.fc = t.fc ∧ u.blocks = t.blocks
      ∧ (∀ va a, code = 1 → t.rec1 = some (va, a) → u.cue = .parked ∧ u.wait = 0x18 ∧ u.waitOn = .page va)
      ∧ (∀ va a, code = 2 → t.rec2 = some (va, a) → u.cue = .parked ∧ u.wait = 0x19)
      ∧ (∀ va, code = 3 → t.rec3 = some va → s.linkUp (clusterOfKey key) t.ctx va = false → u.cue = .parked ∧ u.wait = 0x1A)

/-- R106, R424: an instruction fault. A fetch whose translation found a page not resident parks every thread of the warp at its own region entry,
with the address of the fetch as its recovery address (inside a transaction also: log entry 76); every other one, that of a marked sector whatever its
code, lowers the curtain with consumer code 0x0C, and so does a page that is not resident in an access slice (log entry 110). -/
def Obligations.InstructionFaults : Prop :=
  ∀ (s : State) (f : Front) (cause : Cause) (code : Byte) (va : Nat),
    let absent := cause = .fetch ∧ s.lookup f.user f.cluster f.ctx va .fetch = .fault 1 ∧ f.slice = false
    (absent → f.keys.Nodup →
      ∀ k ∈ f.keys, ∀ t, s.thread? k = some t → ∃ u, (s.takeInstrFault f cause code va).thread? k = some u ∧ u.pc = t.region
        ∧ u.rec1 = some (va, .fetch) ∧ u.cue = .parked ∧ u.wait = 0x18 ∧ u.waitOn = .page va)
    ∧ (¬absent → (s.ctx f.ctx).low = false →
      ((s.takeInstrFault f cause code va).ctx f.ctx).low = true
        ∧ df ((s.takeInstrFault f cause code va).ctx f.ctx).cur 31 24 = 0x0C
        ∧ df ((s.takeInstrFault f cause code va).ctx f.ctx).cur 23 16 = code.toNat)
end

