-- ==== Sys2Proof/Laws/Decode.lean ====
section
/-! SUPPORT. The decoder: the late instructions carry their own conditions, and what the opcode maps find. -/

namespace Sys2Proof.Laws

/-- A late instruction has the conditions of the instruction that it is. -/
theorem late_check (sl : Bool) (l : Late) : l.check sl = l.instr.check sl := by cases l <;> rfl

theorem late_inSlice (l : Late) : (Decoded.late l).inSlice = l.instr.inSlice := by cases l <;> rfl

theorem late_allowed (sl : Bool) (l : Late) : (Decoded.late l).allowed sl = l.instr.allowed sl := by cases l <;> rfl

theorem decoded_allowed (sl : Bool) (d : Decoded) : d.allowed sl = d.instr.allowed sl := by
  cases d with
  | early i => rfl
  | late l => exact late_allowed sl l

theorem decoded_check (sl : Bool) (d : Decoded) : d.check sl = d.instr.check sl := by
  cases d with
  | early i => rfl
  | late l => exact late_check sl l

theorem decoded_inSlice (d : Decoded) : d.inSlice = d.instr.inSlice := by
  cases d with
  | early i => rfl
  | late l => exact late_inSlice l

/-- The destination types that the opcode maps know under CVT and CVTS. -/
theorem cvt_decoded (dt : BitVec 4) (f : DForm) : (Raw.d (0x40 + dt.zeroExtend 8) f).decoded = some (.early (.cvtD dt f)) := by
  have h : dt = 0 ∨ dt = 1 ∨ dt = 2 ∨ dt = 3 ∨ dt = 4 ∨ dt = 5 ∨ dt = 6 ∨ dt = 7 ∨ dt = 8 ∨ dt = 9 ∨ dt = 10 ∨ dt = 11 ∨ dt = 12
      ∨ dt = 13 ∨ dt = 14 ∨ dt = 15 := by revert dt; decide
  rcases h with rfl | rfl | rfl | rfl | rfl | rfl | rfl | rfl | rfl | rfl | rfl | rfl | rfl | rfl | rfl | rfl <;> rfl

theorem cvts_decoded (dt : BitVec 4) (f : DForm) (h : Safety.hasOpcode (.cvtsD dt f) = true) :
    (Raw.d (0x50 + dt.zeroExtend 8) f).decoded = some (.early (.cvtsD dt f)) := by
  have h : dt = 8 ∨ dt = 9 ∨ dt = 10 ∨ dt = 12 ∨ dt = 13 ∨ dt = 14 := by
    simp only [Safety.hasOpcode, Bool.or_eq_true, decide_eq_true_eq] at h
    tauto
  rcases h with rfl | rfl | rfl | rfl | rfl | rfl <;> rfl

end Sys2Proof.Laws
end

