-- ==== Sys2Proof/Laws/State.lean ====
section
/-! SUPPORT. One lemma for each field of the State under each of its updates, so that no proof unfolds a record update. -/

namespace Sys2Proof.Machine.State

@[simp] theorem setCluster_now (s : State) (c : Nat) (v : Cluster) : (s.setCluster c v).now = s.now := rfl
@[simp] theorem setCluster_agenda (s : State) (c : Nat) (v : Cluster) : (s.setCluster c v).agenda = s.agenda := rfl
@[simp] theorem setCluster_turn (s : State) (c : Nat) (v : Cluster) : (s.setCluster c v).turn = s.turn := rfl
@[simp] theorem setCluster_cur (s : State) (c : Nat) (v : Cluster) : (s.setCluster c v).cur = s.cur := rfl
@[simp] theorem setCluster_upset (s : State) (c : Nat) (v : Cluster) : (s.setCluster c v).upset = s.upset := rfl
@[simp] theorem setCluster_free (s : State) (c : Nat) (v : Cluster) : (s.setCluster c v).free = s.free := rfl
@[simp] theorem setCluster_seq (s : State) (c : Nat) (v : Cluster) : (s.setCluster c v).seq = s.seq := rfl
@[simp] theorem setCluster_sent (s : State) (c : Nat) (v : Cluster) : (s.setCluster c v).sent = s.sent := rfl
@[simp] theorem setCluster_threads (s : State) (c : Nat) (v : Cluster) : (s.setCluster c v).threads = s.threads := rfl
@[simp] theorem setCluster_slots (s : State) (c : Nat) (v : Cluster) : (s.setCluster c v).slots = s.slots := rfl
@[simp] theorem setCluster_groups (s : State) (c : Nat) (v : Cluster) : (s.setCluster c v).groups = s.groups := rfl
@[simp] theorem setCluster_ensembles (s : State) (c : Nat) (v : Cluster) : (s.setCluster c v).ensembles = s.ensembles := rfl
@[simp] theorem setCluster_acts (s : State) (c : Nat) (v : Cluster) : (s.setCluster c v).acts = s.acts := rfl
@[simp] theorem setCluster_ctxs (s : State) (c : Nat) (v : Cluster) : (s.setCluster c v).ctxs = s.ctxs := rfl
@[simp] theorem setCluster_boards (s : State) (c : Nat) (v : Cluster) : (s.setCluster c v).boards = s.boards := rfl
@[simp] theorem setCluster_clusters (s : State) (c : Nat) (v : Cluster) : (s.setCluster c v).clusters = put s.clusters c v := rfl
@[simp] theorem setCluster_engines (s : State) (c : Nat) (v : Cluster) : (s.setCluster c v).engines = s.engines := rfl
@[simp] theorem setCluster_rows (s : State) (c : Nat) (v : Cluster) : (s.setCluster c v).rows = s.rows := rfl
@[simp] theorem setCluster_ops (s : State) (c : Nat) (v : Cluster) : (s.setCluster c v).ops = s.ops := rfl
@[simp] theorem setCluster_views (s : State) (c : Nat) (v : Cluster) : (s.setCluster c v).views = s.views := rfl
@[simp] theorem setCluster_egs (s : State) (c : Nat) (v : Cluster) : (s.setCluster c v).egs = s.egs := rfl
@[simp] theorem setCluster_mem (s : State) (c : Nat) (v : Cluster) : (s.setCluster c v).mem = s.mem := rfl
@[simp] theorem setCluster_marks (s : State) (c : Nat) (v : Cluster) : (s.setCluster c v).marks = s.marks := rfl
@[simp] theorem setCluster_owners (s : State) (c : Nat) (v : Cluster) : (s.setCluster c v).owners = s.owners := rfl
@[simp] theorem setCluster_zeroPend (s : State) (c : Nat) (v : Cluster) : (s.setCluster c v).zeroPend = s.zeroPend := rfl
@[simp] theorem setCluster_wrote (s : State) (c : Nat) (v : Cluster) : (s.setCluster c v).wrote = s.wrote := rfl
@[simp] theorem setCluster_woken (s : State) (c : Nat) (v : Cluster) : (s.setCluster c v).woken = s.woken := rfl
@[simp] theorem setCluster_port (s : State) (c : Nat) (v : Cluster) : (s.setCluster c v).port = s.port := rfl
@[simp] theorem setCluster_pkg (s : State) (c : Nat) (v : Cluster) : (s.setCluster c v).pkg = s.pkg := rfl
@[simp] theorem setCluster_root (s : State) (c : Nat) (v : Cluster) : (s.setCluster c v).root = s.root := rfl

@[simp] theorem setCtx_now (s : State) (c : Nat) (v : Ctx) : (s.setCtx c v).now = s.now := rfl
@[simp] theorem setCtx_agenda (s : State) (c : Nat) (v : Ctx) : (s.setCtx c v).agenda = s.agenda := rfl
@[simp] theorem setCtx_turn (s : State) (c : Nat) (v : Ctx) : (s.setCtx c v).turn = s.turn := rfl
@[simp] theorem setCtx_cur (s : State) (c : Nat) (v : Ctx) : (s.setCtx c v).cur = s.cur := rfl
@[simp] theorem setCtx_upset (s : State) (c : Nat) (v : Ctx) : (s.setCtx c v).upset = s.upset := rfl
@[simp] theorem setCtx_free (s : State) (c : Nat) (v : Ctx) : (s.setCtx c v).free = s.free := rfl
@[simp] theorem setCtx_seq (s : State) (c : Nat) (v : Ctx) : (s.setCtx c v).seq = s.seq := rfl
@[simp] theorem setCtx_sent (s : State) (c : Nat) (v : Ctx) : (s.setCtx c v).sent = s.sent := rfl
@[simp] theorem setCtx_threads (s : State) (c : Nat) (v : Ctx) : (s.setCtx c v).threads = s.threads := rfl
@[simp] theorem setCtx_slots (s : State) (c : Nat) (v : Ctx) : (s.setCtx c v).slots = s.slots := rfl
@[simp] theorem setCtx_groups (s : State) (c : Nat) (v : Ctx) : (s.setCtx c v).groups = s.groups := rfl
@[simp] theorem setCtx_ensembles (s : State) (c : Nat) (v : Ctx) : (s.setCtx c v).ensembles = s.ensembles := rfl
@[simp] theorem setCtx_acts (s : State) (c : Nat) (v : Ctx) : (s.setCtx c v).acts = s.acts := rfl
@[simp] theorem setCtx_ctxs (s : State) (c : Nat) (v : Ctx) : (s.setCtx c v).ctxs = put s.ctxs c v := rfl
@[simp] theorem setCtx_boards (s : State) (c : Nat) (v : Ctx) : (s.setCtx c v).boards = s.boards := rfl
@[simp] theorem setCtx_clusters (s : State) (c : Nat) (v : Ctx) : (s.setCtx c v).clusters = s.clusters := rfl
@[simp] theorem setCtx_engines (s : State) (c : Nat) (v : Ctx) : (s.setCtx c v).engines = s.engines := rfl
@[simp] theorem setCtx_rows (s : State) (c : Nat) (v : Ctx) : (s.setCtx c v).rows = s.rows := rfl
@[simp] theorem setCtx_ops (s : State) (c : Nat) (v : Ctx) : (s.setCtx c v).ops = s.ops := rfl
@[simp] theorem setCtx_views (s : State) (c : Nat) (v : Ctx) : (s.setCtx c v).views = s.views := rfl
@[simp] theorem setCtx_egs (s : State) (c : Nat) (v : Ctx) : (s.setCtx c v).egs = s.egs := rfl
@[simp] theorem setCtx_mem (s : State) (c : Nat) (v : Ctx) : (s.setCtx c v).mem = s.mem := rfl
@[simp] theorem setCtx_marks (s : State) (c : Nat) (v : Ctx) : (s.setCtx c v).marks = s.marks := rfl
@[simp] theorem setCtx_owners (s : State) (c : Nat) (v : Ctx) : (s.setCtx c v).owners = s.owners := rfl
@[simp] theorem setCtx_zeroPend (s : State) (c : Nat) (v : Ctx) : (s.setCtx c v).zeroPend = s.zeroPend := rfl
@[simp] theorem setCtx_wrote (s : State) (c : Nat) (v : Ctx) : (s.setCtx c v).wrote = s.wrote := rfl
@[simp] theorem setCtx_woken (s : State) (c : Nat) (v : Ctx) : (s.setCtx c v).woken = s.woken := rfl
@[simp] theorem setCtx_port (s : State) (c : Nat) (v : Ctx) : (s.setCtx c v).port = s.port := rfl
@[simp] theorem setCtx_pkg (s : State) (c : Nat) (v : Ctx) : (s.setCtx c v).pkg = s.pkg := rfl
@[simp] theorem setCtx_root (s : State) (c : Nat) (v : Ctx) : (s.setCtx c v).root = s.root := rfl

@[simp] theorem setRow_now (s : State) (r : Nat) (v : Row) : (s.setRow r v).now = s.now := rfl
@[simp] theorem setRow_agenda (s : State) (r : Nat) (v : Row) : (s.setRow r v).agenda = s.agenda := rfl
@[simp] theorem setRow_turn (s : State) (r : Nat) (v : Row) : (s.setRow r v).turn = s.turn := rfl
@[simp] theorem setRow_cur (s : State) (r : Nat) (v : Row) : (s.setRow r v).cur = s.cur := rfl
@[simp] theorem setRow_upset (s : State) (r : Nat) (v : Row) : (s.setRow r v).upset = s.upset := rfl
@[simp] theorem setRow_free (s : State) (r : Nat) (v : Row) : (s.setRow r v).free = s.free := rfl
@[simp] theorem setRow_seq (s : State) (r : Nat) (v : Row) : (s.setRow r v).seq = s.seq := rfl
@[simp] theorem setRow_sent (s : State) (r : Nat) (v : Row) : (s.setRow r v).sent = s.sent := rfl
@[simp] theorem setRow_threads (s : State) (r : Nat) (v : Row) : (s.setRow r v).threads = s.threads := rfl
@[simp] theorem setRow_slots (s : State) (r : Nat) (v : Row) : (s.setRow r v).slots = s.slots := rfl
@[simp] theorem setRow_groups (s : State) (r : Nat) (v : Row) : (s.setRow r v).groups = s.groups := rfl
@[simp] theorem setRow_ensembles (s : State) (r : Nat) (v : Row) : (s.setRow r v).ensembles = s.ensembles := rfl
@[simp] theorem setRow_acts (s : State) (r : Nat) (v : Row) : (s.setRow r v).acts = s.acts := rfl
@[simp] theorem setRow_ctxs (s : State) (r : Nat) (v : Row) : (s.setRow r v).ctxs = s.ctxs := rfl
@[simp] theorem setRow_boards (s : State) (r : Nat) (v : Row) : (s.setRow r v).boards = s.boards := rfl
@[simp] theorem setRow_clusters (s : State) (r : Nat) (v : Row) : (s.setRow r v).clusters = s.clusters := rfl
@[simp] theorem setRow_engines (s : State) (r : Nat) (v : Row) : (s.setRow r v).engines = s.engines := rfl
@[simp] theorem setRow_rows (s : State) (r : Nat) (v : Row) : (s.setRow r v).rows = put s.rows r v := rfl
@[simp] theorem setRow_ops (s : State) (r : Nat) (v : Row) : (s.setRow r v).ops = s.ops := rfl
@[simp] theorem setRow_views (s : State) (r : Nat) (v : Row) : (s.setRow r v).views = s.views := rfl
@[simp] theorem setRow_egs (s : State) (r : Nat) (v : Row) : (s.setRow r v).egs = s.egs := rfl
@[simp] theorem setRow_mem (s : State) (r : Nat) (v : Row) : (s.setRow r v).mem = s.mem := rfl
@[simp] theorem setRow_marks (s : State) (r : Nat) (v : Row) : (s.setRow r v).marks = s.marks := rfl
@[simp] theorem setRow_owners (s : State) (r : Nat) (v : Row) : (s.setRow r v).owners = s.owners := rfl
@[simp] theorem setRow_zeroPend (s : State) (r : Nat) (v : Row) : (s.setRow r v).zeroPend = s.zeroPend := rfl
@[simp] theorem setRow_wrote (s : State) (r : Nat) (v : Row) : (s.setRow r v).wrote = s.wrote := rfl
@[simp] theorem setRow_woken (s : State) (r : Nat) (v : Row) : (s.setRow r v).woken = s.woken := rfl
@[simp] theorem setRow_port (s : State) (r : Nat) (v : Row) : (s.setRow r v).port = s.port := rfl
@[simp] theorem setRow_pkg (s : State) (r : Nat) (v : Row) : (s.setRow r v).pkg = s.pkg := rfl
@[simp] theorem setRow_root (s : State) (r : Nat) (v : Row) : (s.setRow r v).root = s.root := rfl

@[simp] theorem setBoard_now (s : State) (b : Nat) (v : Board) : (s.setBoard b v).now = s.now := rfl
@[simp] theorem setBoard_agenda (s : State) (b : Nat) (v : Board) : (s.setBoard b v).agenda = s.agenda := rfl
@[simp] theorem setBoard_turn (s : State) (b : Nat) (v : Board) : (s.setBoard b v).turn = s.turn := rfl
@[simp] theorem setBoard_cur (s : State) (b : Nat) (v : Board) : (s.setBoard b v).cur = s.cur := rfl
@[simp] theorem setBoard_upset (s : State) (b : Nat) (v : Board) : (s.setBoard b v).upset = s.upset := rfl
@[simp] theorem setBoard_free (s : State) (b : Nat) (v : Board) : (s.setBoard b v).free = s.free := rfl
@[simp] theorem setBoard_seq (s : State) (b : Nat) (v : Board) : (s.setBoard b v).seq = s.seq := rfl
@[simp] theorem setBoard_sent (s : State) (b : Nat) (v : Board) : (s.setBoard b v).sent = s.sent := rfl
@[simp] theorem setBoard_threads (s : State) (b : Nat) (v : Board) : (s.setBoard b v).threads = s.threads := rfl
@[simp] theorem setBoard_slots (s : State) (b : Nat) (v : Board) : (s.setBoard b v).slots = s.slots := rfl
@[simp] theorem setBoard_groups (s : State) (b : Nat) (v : Board) : (s.setBoard b v).groups = s.groups := rfl
@[simp] theorem setBoard_ensembles (s : State) (b : Nat) (v : Board) : (s.setBoard b v).ensembles = s.ensembles := rfl
@[simp] theorem setBoard_acts (s : State) (b : Nat) (v : Board) : (s.setBoard b v).acts = s.acts := rfl
@[simp] theorem setBoard_ctxs (s : State) (b : Nat) (v : Board) : (s.setBoard b v).ctxs = s.ctxs := rfl
@[simp] theorem setBoard_boards (s : State) (b : Nat) (v : Board) : (s.setBoard b v).boards = put s.boards b v := rfl
@[simp] theorem setBoard_clusters (s : State) (b : Nat) (v : Board) : (s.setBoard b v).clusters = s.clusters := rfl
@[simp] theorem setBoard_engines (s : State) (b : Nat) (v : Board) : (s.setBoard b v).engines = s.engines := rfl
@[simp] theorem setBoard_rows (s : State) (b : Nat) (v : Board) : (s.setBoard b v).rows = s.rows := rfl
@[simp] theorem setBoard_ops (s : State) (b : Nat) (v : Board) : (s.setBoard b v).ops = s.ops := rfl
@[simp] theorem setBoard_views (s : State) (b : Nat) (v : Board) : (s.setBoard b v).views = s.views := rfl
@[simp] theorem setBoard_egs (s : State) (b : Nat) (v : Board) : (s.setBoard b v).egs = s.egs := rfl
@[simp] theorem setBoard_mem (s : State) (b : Nat) (v : Board) : (s.setBoard b v).mem = s.mem := rfl
@[simp] theorem setBoard_marks (s : State) (b : Nat) (v : Board) : (s.setBoard b v).marks = s.marks := rfl
@[simp] theorem setBoard_owners (s : State) (b : Nat) (v : Board) : (s.setBoard b v).owners = s.owners := rfl
@[simp] theorem setBoard_zeroPend (s : State) (b : Nat) (v : Board) : (s.setBoard b v).zeroPend = s.zeroPend := rfl
@[simp] theorem setBoard_wrote (s : State) (b : Nat) (v : Board) : (s.setBoard b v).wrote = s.wrote := rfl
@[simp] theorem setBoard_woken (s : State) (b : Nat) (v : Board) : (s.setBoard b v).woken = s.woken := rfl
@[simp] theorem setBoard_port (s : State) (b : Nat) (v : Board) : (s.setBoard b v).port = s.port := rfl
@[simp] theorem setBoard_pkg (s : State) (b : Nat) (v : Board) : (s.setBoard b v).pkg = s.pkg := rfl
@[simp] theorem setBoard_root (s : State) (b : Nat) (v : Board) : (s.setBoard b v).root = s.root := rfl

@[simp] theorem setEngine_now (s : State) (e : Nat) (v : Engine) : (s.setEngine e v).now = s.now := rfl
@[simp] theorem setEngine_agenda (s : State) (e : Nat) (v : Engine) : (s.setEngine e v).agenda = s.agenda := rfl
@[simp] theorem setEngine_turn (s : State) (e : Nat) (v : Engine) : (s.setEngine e v).turn = s.turn := rfl
@[simp] theorem setEngine_cur (s : State) (e : Nat) (v : Engine) : (s.setEngine e v).cur = s.cur := rfl
@[simp] theorem setEngine_upset (s : State) (e : Nat) (v : Engine) : (s.setEngine e v).upset = s.upset := rfl
@[simp] theorem setEngine_free (s : State) (e : Nat) (v : Engine) : (s.setEngine e v).free = s.free := rfl
@[simp] theorem setEngine_seq (s : State) (e : Nat) (v : Engine) : (s.setEngine e v).seq = s.seq := rfl
@[simp] theorem setEngine_sent (s : State) (e : Nat) (v : Engine) : (s.setEngine e v).sent = s.sent := rfl
@[simp] theorem setEngine_threads (s : State) (e : Nat) (v : Engine) : (s.setEngine e v).threads = s.threads := rfl
@[simp] theorem setEngine_slots (s : State) (e : Nat) (v : Engine) : (s.setEngine e v).slots = s.slots := rfl
@[simp] theorem setEngine_groups (s : State) (e : Nat) (v : Engine) : (s.setEngine e v).groups = s.groups := rfl
@[simp] theorem setEngine_ensembles (s : State) (e : Nat) (v : Engine) : (s.setEngine e v).ensembles = s.ensembles := rfl
@[simp] theorem setEngine_acts (s : State) (e : Nat) (v : Engine) : (s.setEngine e v).acts = s.acts := rfl
@[simp] theorem setEngine_ctxs (s : State) (e : Nat) (v : Engine) : (s.setEngine e v).ctxs = s.ctxs := rfl
@[simp] theorem setEngine_boards (s : State) (e : Nat) (v : Engine) : (s.setEngine e v).boards = s.boards := rfl
@[simp] theorem setEngine_clusters (s : State) (e : Nat) (v : Engine) : (s.setEngine e v).clusters = s.clusters := rfl
@[simp] theorem setEngine_engines (s : State) (e : Nat) (v : Engine) : (s.setEngine e v).engines = put s.engines e v := rfl
@[simp] theorem setEngine_rows (s : State) (e : Nat) (v : Engine) : (s.setEngine e v).rows = s.rows := rfl
@[simp] theorem setEngine_ops (s : State) (e : Nat) (v : Engine) : (s.setEngine e v).ops = s.ops := rfl
@[simp] theorem setEngine_views (s : State) (e : Nat) (v : Engine) : (s.setEngine e v).views = s.views := rfl
@[simp] theorem setEngine_egs (s : State) (e : Nat) (v : Engine) : (s.setEngine e v).egs = s.egs := rfl
@[simp] theorem setEngine_mem (s : State) (e : Nat) (v : Engine) : (s.setEngine e v).mem = s.mem := rfl
@[simp] theorem setEngine_marks (s : State) (e : Nat) (v : Engine) : (s.setEngine e v).marks = s.marks := rfl
@[simp] theorem setEngine_owners (s : State) (e : Nat) (v : Engine) : (s.setEngine e v).owners = s.owners := rfl
@[simp] theorem setEngine_zeroPend (s : State) (e : Nat) (v : Engine) : (s.setEngine e v).zeroPend = s.zeroPend := rfl
@[simp] theorem setEngine_wrote (s : State) (e : Nat) (v : Engine) : (s.setEngine e v).wrote = s.wrote := rfl
@[simp] theorem setEngine_woken (s : State) (e : Nat) (v : Engine) : (s.setEngine e v).woken = s.woken := rfl
@[simp] theorem setEngine_port (s : State) (e : Nat) (v : Engine) : (s.setEngine e v).port = s.port := rfl
@[simp] theorem setEngine_pkg (s : State) (e : Nat) (v : Engine) : (s.setEngine e v).pkg = s.pkg := rfl
@[simp] theorem setEngine_root (s : State) (e : Nat) (v : Engine) : (s.setEngine e v).root = s.root := rfl

@[simp] theorem setEg_now (s : State) (n : Nat) (v : EdgeGroup) : (s.setEg n v).now = s.now := rfl
@[simp] theorem setEg_agenda (s : State) (n : Nat) (v : EdgeGroup) : (s.setEg n v).agenda = s.agenda := rfl
@[simp] theorem setEg_turn (s : State) (n : Nat) (v : EdgeGroup) : (s.setEg n v).turn = s.turn := rfl
@[simp] theorem setEg_cur (s : State) (n : Nat) (v : EdgeGroup) : (s.setEg n v).cur = s.cur := rfl
@[simp] theorem setEg_upset (s : State) (n : Nat) (v : EdgeGroup) : (s.setEg n v).upset = s.upset := rfl
@[simp] theorem setEg_free (s : State) (n : Nat) (v : EdgeGroup) : (s.setEg n v).free = s.free := rfl
@[simp] theorem setEg_seq (s : State) (n : Nat) (v : EdgeGroup) : (s.setEg n v).seq = s.seq := rfl
@[simp] theorem setEg_sent (s : State) (n : Nat) (v : EdgeGroup) : (s.setEg n v).sent = s.sent := rfl
@[simp] theorem setEg_threads (s : State) (n : Nat) (v : EdgeGroup) : (s.setEg n v).threads = s.threads := rfl
@[simp] theorem setEg_slots (s : State) (n : Nat) (v : EdgeGroup) : (s.setEg n v).slots = s.slots := rfl
@[simp] theorem setEg_groups (s : State) (n : Nat) (v : EdgeGroup) : (s.setEg n v).groups = s.groups := rfl
@[simp] theorem setEg_ensembles (s : State) (n : Nat) (v : EdgeGroup) : (s.setEg n v).ensembles = s.ensembles := rfl
@[simp] theorem setEg_acts (s : State) (n : Nat) (v : EdgeGroup) : (s.setEg n v).acts = s.acts := rfl
@[simp] theorem setEg_ctxs (s : State) (n : Nat) (v : EdgeGroup) : (s.setEg n v).ctxs = s.ctxs := rfl
@[simp] theorem setEg_boards (s : State) (n : Nat) (v : EdgeGroup) : (s.setEg n v).boards = s.boards := rfl
@[simp] theorem setEg_clusters (s : State) (n : Nat) (v : EdgeGroup) : (s.setEg n v).clusters = s.clusters := rfl
@[simp] theorem setEg_engines (s : State) (n : Nat) (v : EdgeGroup) : (s.setEg n v).engines = s.engines := rfl
@[simp] theorem setEg_rows (s : State) (n : Nat) (v : EdgeGroup) : (s.setEg n v).rows = s.rows := rfl
@[simp] theorem setEg_ops (s : State) (n : Nat) (v : EdgeGroup) : (s.setEg n v).ops = s.ops := rfl
@[simp] theorem setEg_views (s : State) (n : Nat) (v : EdgeGroup) : (s.setEg n v).views = s.views := rfl
@[simp] theorem setEg_egs (s : State) (n : Nat) (v : EdgeGroup) : (s.setEg n v).egs = put s.egs n v := rfl
@[simp] theorem setEg_mem (s : State) (n : Nat) (v : EdgeGroup) : (s.setEg n v).mem = s.mem := rfl
@[simp] theorem setEg_marks (s : State) (n : Nat) (v : EdgeGroup) : (s.setEg n v).marks = s.marks := rfl
@[simp] theorem setEg_owners (s : State) (n : Nat) (v : EdgeGroup) : (s.setEg n v).owners = s.owners := rfl
@[simp] theorem setEg_zeroPend (s : State) (n : Nat) (v : EdgeGroup) : (s.setEg n v).zeroPend = s.zeroPend := rfl
@[simp] theorem setEg_wrote (s : State) (n : Nat) (v : EdgeGroup) : (s.setEg n v).wrote = s.wrote := rfl
@[simp] theorem setEg_woken (s : State) (n : Nat) (v : EdgeGroup) : (s.setEg n v).woken = s.woken := rfl
@[simp] theorem setEg_port (s : State) (n : Nat) (v : EdgeGroup) : (s.setEg n v).port = s.port := rfl
@[simp] theorem setEg_pkg (s : State) (n : Nat) (v : EdgeGroup) : (s.setEg n v).pkg = s.pkg := rfl
@[simp] theorem setEg_root (s : State) (n : Nat) (v : EdgeGroup) : (s.setEg n v).root = s.root := rfl

@[simp] theorem setSlot_now (s : State) (k : Nat) (v : Slot) : (s.setSlot k v).now = s.now := rfl
@[simp] theorem setSlot_agenda (s : State) (k : Nat) (v : Slot) : (s.setSlot k v).agenda = s.agenda := rfl
@[simp] theorem setSlot_turn (s : State) (k : Nat) (v : Slot) : (s.setSlot k v).turn = s.turn := rfl
@[simp] theorem setSlot_cur (s : State) (k : Nat) (v : Slot) : (s.setSlot k v).cur = s.cur := rfl
@[simp] theorem setSlot_upset (s : State) (k : Nat) (v : Slot) : (s.setSlot k v).upset = s.upset := rfl
@[simp] theorem setSlot_free (s : State) (k : Nat) (v : Slot) : (s.setSlot k v).free = s.free := rfl
@[simp] theorem setSlot_seq (s : State) (k : Nat) (v : Slot) : (s.setSlot k v).seq = s.seq := rfl
@[simp] theorem setSlot_sent (s : State) (k : Nat) (v : Slot) : (s.setSlot k v).sent = s.sent := rfl
@[simp] theorem setSlot_threads (s : State) (k : Nat) (v : Slot) : (s.setSlot k v).threads = s.threads := rfl
@[simp] theorem setSlot_slots (s : State) (k : Nat) (v : Slot) : (s.setSlot k v).slots = put s.slots k v := rfl
@[simp] theorem setSlot_groups (s : State) (k : Nat) (v : Slot) : (s.setSlot k v).groups = s.groups := rfl
@[simp] theorem setSlot_ensembles (s : State) (k : Nat) (v : Slot) : (s.setSlot k v).ensembles = s.ensembles := rfl
@[simp] theorem setSlot_acts (s : State) (k : Nat) (v : Slot) : (s.setSlot k v).acts = s.acts := rfl
@[simp] theorem setSlot_ctxs (s : State) (k : Nat) (v : Slot) : (s.setSlot k v).ctxs = s.ctxs := rfl
@[simp] theorem setSlot_boards (s : State) (k : Nat) (v : Slot) : (s.setSlot k v).boards = s.boards := rfl
@[simp] theorem setSlot_clusters (s : State) (k : Nat) (v : Slot) : (s.setSlot k v).clusters = s.clusters := rfl
@[simp] theorem setSlot_engines (s : State) (k : Nat) (v : Slot) : (s.setSlot k v).engines = s.engines := rfl
@[simp] theorem setSlot_rows (s : State) (k : Nat) (v : Slot) : (s.setSlot k v).rows = s.rows := rfl
@[simp] theorem setSlot_ops (s : State) (k : Nat) (v : Slot) : (s.setSlot k v).ops = s.ops := rfl
@[simp] theorem setSlot_views (s : State) (k : Nat) (v : Slot) : (s.setSlot k v).views = s.views := rfl
@[simp] theorem setSlot_egs (s : State) (k : Nat) (v : Slot) : (s.setSlot k v).egs = s.egs := rfl
@[simp] theorem setSlot_mem (s : State) (k : Nat) (v : Slot) : (s.setSlot k v).mem = s.mem := rfl
@[simp] theorem setSlot_marks (s : State) (k : Nat) (v : Slot) : (s.setSlot k v).marks = s.marks := rfl
@[simp] theorem setSlot_owners (s : State) (k : Nat) (v : Slot) : (s.setSlot k v).owners = s.owners := rfl
@[simp] theorem setSlot_zeroPend (s : State) (k : Nat) (v : Slot) : (s.setSlot k v).zeroPend = s.zeroPend := rfl
@[simp] theorem setSlot_wrote (s : State) (k : Nat) (v : Slot) : (s.setSlot k v).wrote = s.wrote := rfl
@[simp] theorem setSlot_woken (s : State) (k : Nat) (v : Slot) : (s.setSlot k v).woken = s.woken := rfl
@[simp] theorem setSlot_port (s : State) (k : Nat) (v : Slot) : (s.setSlot k v).port = s.port := rfl
@[simp] theorem setSlot_pkg (s : State) (k : Nat) (v : Slot) : (s.setSlot k v).pkg = s.pkg := rfl
@[simp] theorem setSlot_root (s : State) (k : Nat) (v : Slot) : (s.setSlot k v).root = s.root := rfl

@[simp] theorem setThread_now (s : State) (k : Nat) (v : Thread) : (s.setThread k v).now = s.now := rfl
@[simp] theorem setThread_agenda (s : State) (k : Nat) (v : Thread) : (s.setThread k v).agenda = s.agenda := rfl
@[simp] theorem setThread_turn (s : State) (k : Nat) (v : Thread) : (s.setThread k v).turn = s.turn := rfl
@[simp] theorem setThread_cur (s : State) (k : Nat) (v : Thread) : (s.setThread k v).cur = s.cur := rfl
@[simp] theorem setThread_upset (s : State) (k : Nat) (v : Thread) : (s.setThread k v).upset = s.upset := rfl
@[simp] theorem setThread_free (s : State) (k : Nat) (v : Thread) : (s.setThread k v).free = s.free := rfl
@[simp] theorem setThread_seq (s : State) (k : Nat) (v : Thread) : (s.setThread k v).seq = s.seq := rfl
@[simp] theorem setThread_sent (s : State) (k : Nat) (v : Thread) : (s.setThread k v).sent = s.sent := rfl
@[simp] theorem setThread_threads (s : State) (k : Nat) (v : Thread) : (s.setThread k v).threads = put s.threads k v := rfl
@[simp] theorem setThread_slots (s : State) (k : Nat) (v : Thread) : (s.setThread k v).slots = s.slots := rfl
@[simp] theorem setThread_groups (s : State) (k : Nat) (v : Thread) : (s.setThread k v).groups = s.groups := rfl
@[simp] theorem setThread_ensembles (s : State) (k : Nat) (v : Thread) : (s.setThread k v).ensembles = s.ensembles := rfl
@[simp] theorem setThread_acts (s : State) (k : Nat) (v : Thread) : (s.setThread k v).acts = s.acts := rfl
@[simp] theorem setThread_ctxs (s : State) (k : Nat) (v : Thread) : (s.setThread k v).ctxs = s.ctxs := rfl
@[simp] theorem setThread_boards (s : State) (k : Nat) (v : Thread) : (s.setThread k v).boards = s.boards := rfl
@[simp] theorem setThread_clusters (s : State) (k : Nat) (v : Thread) : (s.setThread k v).clusters = s.clusters := rfl
@[simp] theorem setThread_engines (s : State) (k : Nat) (v : Thread) : (s.setThread k v).engines = s.engines := rfl
@[simp] theorem setThread_rows (s : State) (k : Nat) (v : Thread) : (s.setThread k v).rows = s.rows := rfl
@[simp] theorem setThread_ops (s : State) (k : Nat) (v : Thread) : (s.setThread k v).ops = s.ops := rfl
@[simp] theorem setThread_views (s : State) (k : Nat) (v : Thread) : (s.setThread k v).views = s.views := rfl
@[simp] theorem setThread_egs (s : State) (k : Nat) (v : Thread) : (s.setThread k v).egs = s.egs := rfl
@[simp] theorem setThread_mem (s : State) (k : Nat) (v : Thread) : (s.setThread k v).mem = s.mem := rfl
@[simp] theorem setThread_marks (s : State) (k : Nat) (v : Thread) : (s.setThread k v).marks = s.marks := rfl
@[simp] theorem setThread_owners (s : State) (k : Nat) (v : Thread) : (s.setThread k v).owners = s.owners := rfl
@[simp] theorem setThread_zeroPend (s : State) (k : Nat) (v : Thread) : (s.setThread k v).zeroPend = s.zeroPend := rfl
@[simp] theorem setThread_wrote (s : State) (k : Nat) (v : Thread) : (s.setThread k v).wrote = s.wrote := rfl
@[simp] theorem setThread_woken (s : State) (k : Nat) (v : Thread) : (s.setThread k v).woken = s.woken := rfl
@[simp] theorem setThread_port (s : State) (k : Nat) (v : Thread) : (s.setThread k v).port = s.port := rfl
@[simp] theorem setThread_pkg (s : State) (k : Nat) (v : Thread) : (s.setThread k v).pkg = s.pkg := rfl
@[simp] theorem setThread_root (s : State) (k : Nat) (v : Thread) : (s.setThread k v).root = s.root := rfl

@[simp] theorem setGroup_now (s : State) (k : Nat) (v : Group) : (s.setGroup k v).now = s.now := rfl
@[simp] theorem setGroup_agenda (s : State) (k : Nat) (v : Group) : (s.setGroup k v).agenda = s.agenda := rfl
@[simp] theorem setGroup_turn (s : State) (k : Nat) (v : Group) : (s.setGroup k v).turn = s.turn := rfl
@[simp] theorem setGroup_cur (s : State) (k : Nat) (v : Group) : (s.setGroup k v).cur = s.cur := rfl
@[simp] theorem setGroup_upset (s : State) (k : Nat) (v : Group) : (s.setGroup k v).upset = s.upset := rfl
@[simp] theorem setGroup_free (s : State) (k : Nat) (v : Group) : (s.setGroup k v).free = s.free := rfl
@[simp] theorem setGroup_seq (s : State) (k : Nat) (v : Group) : (s.setGroup k v).seq = s.seq := rfl
@[simp] theorem setGroup_sent (s : State) (k : Nat) (v : Group) : (s.setGroup k v).sent = s.sent := rfl
@[simp] theorem setGroup_threads (s : State) (k : Nat) (v : Group) : (s.setGroup k v).threads = s.threads := rfl
@[simp] theorem setGroup_slots (s : State) (k : Nat) (v : Group) : (s.setGroup k v).slots = s.slots := rfl
@[simp] theorem setGroup_groups (s : State) (k : Nat) (v : Group) : (s.setGroup k v).groups = put s.groups k v := rfl
@[simp] theorem setGroup_ensembles (s : State) (k : Nat) (v : Group) : (s.setGroup k v).ensembles = s.ensembles := rfl
@[simp] theorem setGroup_acts (s : State) (k : Nat) (v : Group) : (s.setGroup k v).acts = s.acts := rfl
@[simp] theorem setGroup_ctxs (s : State) (k : Nat) (v : Group) : (s.setGroup k v).ctxs = s.ctxs := rfl
@[simp] theorem setGroup_boards (s : State) (k : Nat) (v : Group) : (s.setGroup k v).boards = s.boards := rfl
@[simp] theorem setGroup_clusters (s : State) (k : Nat) (v : Group) : (s.setGroup k v).clusters = s.clusters := rfl
@[simp] theorem setGroup_engines (s : State) (k : Nat) (v : Group) : (s.setGroup k v).engines = s.engines := rfl
@[simp] theorem setGroup_rows (s : State) (k : Nat) (v : Group) : (s.setGroup k v).rows = s.rows := rfl
@[simp] theorem setGroup_ops (s : State) (k : Nat) (v : Group) : (s.setGroup k v).ops = s.ops := rfl
@[simp] theorem setGroup_views (s : State) (k : Nat) (v : Group) : (s.setGroup k v).views = s.views := rfl
@[simp] theorem setGroup_egs (s : State) (k : Nat) (v : Group) : (s.setGroup k v).egs = s.egs := rfl
@[simp] theorem setGroup_mem (s : State) (k : Nat) (v : Group) : (s.setGroup k v).mem = s.mem := rfl
@[simp] theorem setGroup_marks (s : State) (k : Nat) (v : Group) : (s.setGroup k v).marks = s.marks := rfl
@[simp] theorem setGroup_owners (s : State) (k : Nat) (v : Group) : (s.setGroup k v).owners = s.owners := rfl
@[simp] theorem setGroup_zeroPend (s : State) (k : Nat) (v : Group) : (s.setGroup k v).zeroPend = s.zeroPend := rfl
@[simp] theorem setGroup_wrote (s : State) (k : Nat) (v : Group) : (s.setGroup k v).wrote = s.wrote := rfl
@[simp] theorem setGroup_woken (s : State) (k : Nat) (v : Group) : (s.setGroup k v).woken = s.woken := rfl
@[simp] theorem setGroup_port (s : State) (k : Nat) (v : Group) : (s.setGroup k v).port = s.port := rfl
@[simp] theorem setGroup_pkg (s : State) (k : Nat) (v : Group) : (s.setGroup k v).pkg = s.pkg := rfl
@[simp] theorem setGroup_root (s : State) (k : Nat) (v : Group) : (s.setGroup k v).root = s.root := rfl

@[simp] theorem setOp_now (s : State) (k : Nat) (v : Op) : (s.setOp k v).now = s.now := rfl
@[simp] theorem setOp_agenda (s : State) (k : Nat) (v : Op) : (s.setOp k v).agenda = s.agenda := rfl
@[simp] theorem setOp_turn (s : State) (k : Nat) (v : Op) : (s.setOp k v).turn = s.turn := rfl
@[simp] theorem setOp_cur (s : State) (k : Nat) (v : Op) : (s.setOp k v).cur = s.cur := rfl
@[simp] theorem setOp_upset (s : State) (k : Nat) (v : Op) : (s.setOp k v).upset = s.upset := rfl
@[simp] theorem setOp_free (s : State) (k : Nat) (v : Op) : (s.setOp k v).free = s.free := rfl
@[simp] theorem setOp_seq (s : State) (k : Nat) (v : Op) : (s.setOp k v).seq = s.seq := rfl
@[simp] theorem setOp_sent (s : State) (k : Nat) (v : Op) : (s.setOp k v).sent = s.sent := rfl
@[simp] theorem setOp_threads (s : State) (k : Nat) (v : Op) : (s.setOp k v).threads = s.threads := rfl
@[simp] theorem setOp_slots (s : State) (k : Nat) (v : Op) : (s.setOp k v).slots = s.slots := rfl
@[simp] theorem setOp_groups (s : State) (k : Nat) (v : Op) : (s.setOp k v).groups = s.groups := rfl
@[simp] theorem setOp_ensembles (s : State) (k : Nat) (v : Op) : (s.setOp k v).ensembles = s.ensembles := rfl
@[simp] theorem setOp_acts (s : State) (k : Nat) (v : Op) : (s.setOp k v).acts = s.acts := rfl
@[simp] theorem setOp_ctxs (s : State) (k : Nat) (v : Op) : (s.setOp k v).ctxs = s.ctxs := rfl
@[simp] theorem setOp_boards (s : State) (k : Nat) (v : Op) : (s.setOp k v).boards = s.boards := rfl
@[simp] theorem setOp_clusters (s : State) (k : Nat) (v : Op) : (s.setOp k v).clusters = s.clusters := rfl
@[simp] theorem setOp_engines (s : State) (k : Nat) (v : Op) : (s.setOp k v).engines = s.engines := rfl
@[simp] theorem setOp_rows (s : State) (k : Nat) (v : Op) : (s.setOp k v).rows = s.rows := rfl
@[simp] theorem setOp_ops (s : State) (k : Nat) (v : Op) : (s.setOp k v).ops = put s.ops k v := rfl
@[simp] theorem setOp_views (s : State) (k : Nat) (v : Op) : (s.setOp k v).views = s.views := rfl
@[simp] theorem setOp_egs (s : State) (k : Nat) (v : Op) : (s.setOp k v).egs = s.egs := rfl
@[simp] theorem setOp_mem (s : State) (k : Nat) (v : Op) : (s.setOp k v).mem = s.mem := rfl
@[simp] theorem setOp_marks (s : State) (k : Nat) (v : Op) : (s.setOp k v).marks = s.marks := rfl
@[simp] theorem setOp_owners (s : State) (k : Nat) (v : Op) : (s.setOp k v).owners = s.owners := rfl
@[simp] theorem setOp_zeroPend (s : State) (k : Nat) (v : Op) : (s.setOp k v).zeroPend = s.zeroPend := rfl
@[simp] theorem setOp_wrote (s : State) (k : Nat) (v : Op) : (s.setOp k v).wrote = s.wrote := rfl
@[simp] theorem setOp_woken (s : State) (k : Nat) (v : Op) : (s.setOp k v).woken = s.woken := rfl
@[simp] theorem setOp_port (s : State) (k : Nat) (v : Op) : (s.setOp k v).port = s.port := rfl
@[simp] theorem setOp_pkg (s : State) (k : Nat) (v : Op) : (s.setOp k v).pkg = s.pkg := rfl
@[simp] theorem setOp_root (s : State) (k : Nat) (v : Op) : (s.setOp k v).root = s.root := rfl

@[simp] theorem setAct_now (s : State) (v : Act) : (s.setAct v).now = s.now := rfl
@[simp] theorem setAct_agenda (s : State) (v : Act) : (s.setAct v).agenda = s.agenda := rfl
@[simp] theorem setAct_turn (s : State) (v : Act) : (s.setAct v).turn = s.turn := rfl
@[simp] theorem setAct_cur (s : State) (v : Act) : (s.setAct v).cur = s.cur := rfl
@[simp] theorem setAct_upset (s : State) (v : Act) : (s.setAct v).upset = s.upset := rfl
@[simp] theorem setAct_free (s : State) (v : Act) : (s.setAct v).free = s.free := rfl
@[simp] theorem setAct_seq (s : State) (v : Act) : (s.setAct v).seq = s.seq := rfl
@[simp] theorem setAct_sent (s : State) (v : Act) : (s.setAct v).sent = s.sent := rfl
@[simp] theorem setAct_threads (s : State) (v : Act) : (s.setAct v).threads = s.threads := rfl
@[simp] theorem setAct_slots (s : State) (v : Act) : (s.setAct v).slots = s.slots := rfl
@[simp] theorem setAct_groups (s : State) (v : Act) : (s.setAct v).groups = s.groups := rfl
@[simp] theorem setAct_ensembles (s : State) (v : Act) : (s.setAct v).ensembles = s.ensembles := rfl
@[simp] theorem setAct_acts (s : State) (v : Act) : (s.setAct v).acts = put s.acts (actKey v.ctx v.num) v := rfl
@[simp] theorem setAct_ctxs (s : State) (v : Act) : (s.setAct v).ctxs = s.ctxs := rfl
@[simp] theorem setAct_boards (s : State) (v : Act) : (s.setAct v).boards = s.boards := rfl
@[simp] theorem setAct_clusters (s : State) (v : Act) : (s.setAct v).clusters = s.clusters := rfl
@[simp] theorem setAct_engines (s : State) (v : Act) : (s.setAct v).engines = s.engines := rfl
@[simp] theorem setAct_rows (s : State) (v : Act) : (s.setAct v).rows = s.rows := rfl
@[simp] theorem setAct_ops (s : State) (v : Act) : (s.setAct v).ops = s.ops := rfl
@[simp] theorem setAct_views (s : State) (v : Act) : (s.setAct v).views = s.views := rfl
@[simp] theorem setAct_egs (s : State) (v : Act) : (s.setAct v).egs = s.egs := rfl
@[simp] theorem setAct_mem (s : State) (v : Act) : (s.setAct v).mem = s.mem := rfl
@[simp] theorem setAct_marks (s : State) (v : Act) : (s.setAct v).marks = s.marks := rfl
@[simp] theorem setAct_owners (s : State) (v : Act) : (s.setAct v).owners = s.owners := rfl
@[simp] theorem setAct_zeroPend (s : State) (v : Act) : (s.setAct v).zeroPend = s.zeroPend := rfl
@[simp] theorem setAct_wrote (s : State) (v : Act) : (s.setAct v).wrote = s.wrote := rfl
@[simp] theorem setAct_woken (s : State) (v : Act) : (s.setAct v).woken = s.woken := rfl
@[simp] theorem setAct_port (s : State) (v : Act) : (s.setAct v).port = s.port := rfl
@[simp] theorem setAct_pkg (s : State) (v : Act) : (s.setAct v).pkg = s.pkg := rfl
@[simp] theorem setAct_root (s : State) (v : Act) : (s.setAct v).root = s.root := rfl

@[simp] theorem send_now (s : State) (m : Sent) : (s.send m).now = s.now := rfl
@[simp] theorem send_agenda (s : State) (m : Sent) : (s.send m).agenda = s.agenda := rfl
@[simp] theorem send_turn (s : State) (m : Sent) : (s.send m).turn = s.turn := rfl
@[simp] theorem send_cur (s : State) (m : Sent) : (s.send m).cur = s.cur := rfl
@[simp] theorem send_upset (s : State) (m : Sent) : (s.send m).upset = s.upset := rfl
@[simp] theorem send_free (s : State) (m : Sent) : (s.send m).free = s.free := rfl
@[simp] theorem send_seq (s : State) (m : Sent) : (s.send m).seq = s.seq := rfl
@[simp] theorem send_sent (s : State) (m : Sent) : (s.send m).sent = s.sent ++ [m] := rfl
@[simp] theorem send_threads (s : State) (m : Sent) : (s.send m).threads = s.threads := rfl
@[simp] theorem send_slots (s : State) (m : Sent) : (s.send m).slots = s.slots := rfl
@[simp] theorem send_groups (s : State) (m : Sent) : (s.send m).groups = s.groups := rfl
@[simp] theorem send_ensembles (s : State) (m : Sent) : (s.send m).ensembles = s.ensembles := rfl
@[simp] theorem send_acts (s : State) (m : Sent) : (s.send m).acts = s.acts := rfl
@[simp] theorem send_ctxs (s : State) (m : Sent) : (s.send m).ctxs = s.ctxs := rfl
@[simp] theorem send_boards (s : State) (m : Sent) : (s.send m).boards = s.boards := rfl
@[simp] theorem send_clusters (s : State) (m : Sent) : (s.send m).clusters = s.clusters := rfl
@[simp] theorem send_engines (s : State) (m : Sent) : (s.send m).engines = s.engines := rfl
@[simp] theorem send_rows (s : State) (m : Sent) : (s.send m).rows = s.rows := rfl
@[simp] theorem send_ops (s : State) (m : Sent) : (s.send m).ops = s.ops := rfl
@[simp] theorem send_views (s : State) (m : Sent) : (s.send m).views = s.views := rfl
@[simp] theorem send_egs (s : State) (m : Sent) : (s.send m).egs = s.egs := rfl
@[simp] theorem send_mem (s : State) (m : Sent) : (s.send m).mem = s.mem := rfl
@[simp] theorem send_marks (s : State) (m : Sent) : (s.send m).marks = s.marks := rfl
@[simp] theorem send_owners (s : State) (m : Sent) : (s.send m).owners = s.owners := rfl
@[simp] theorem send_zeroPend (s : State) (m : Sent) : (s.send m).zeroPend = s.zeroPend := rfl
@[simp] theorem send_wrote (s : State) (m : Sent) : (s.send m).wrote = s.wrote := rfl
@[simp] theorem send_woken (s : State) (m : Sent) : (s.send m).woken = s.woken := rfl
@[simp] theorem send_port (s : State) (m : Sent) : (s.send m).port = s.port := rfl
@[simp] theorem send_pkg (s : State) (m : Sent) : (s.send m).pkg = s.pkg := rfl
@[simp] theorem send_root (s : State) (m : Sent) : (s.send m).root = s.root := rfl

@[simp] theorem modCluster_now (s : State) (c : Nat) (f : Cluster → Cluster) : (s.modCluster c f).now = s.now := rfl
@[simp] theorem modCluster_agenda (s : State) (c : Nat) (f : Cluster → Cluster) : (s.modCluster c f).agenda = s.agenda := rfl
@[simp] theorem modCluster_turn (s : State) (c : Nat) (f : Cluster → Cluster) : (s.modCluster c f).turn = s.turn := rfl
@[simp] theorem modCluster_cur (s : State) (c : Nat) (f : Cluster → Cluster) : (s.modCluster c f).cur = s.cur := rfl
@[simp] theorem modCluster_upset (s : State) (c : Nat) (f : Cluster → Cluster) : (s.modCluster c f).upset = s.upset := rfl
@[simp] theorem modCluster_free (s : State) (c : Nat) (f : Cluster → Cluster) : (s.modCluster c f).free = s.free := rfl
@[simp] theorem modCluster_seq (s : State) (c : Nat) (f : Cluster → Cluster) : (s.modCluster c f).seq = s.seq := rfl
@[simp] theorem modCluster_sent (s : State) (c : Nat) (f : Cluster → Cluster) : (s.modCluster c f).sent = s.sent := rfl
@[simp] theorem modCluster_threads (s : State) (c : Nat) (f : Cluster → Cluster) : (s.modCluster c f).threads = s.threads := rfl
@[simp] theorem modCluster_slots (s : State) (c : Nat) (f : Cluster → Cluster) : (s.modCluster c f).slots = s.slots := rfl
@[simp] theorem modCluster_groups (s : State) (c : Nat) (f : Cluster → Cluster) : (s.modCluster c f).groups = s.groups := rfl
@[simp] theorem modCluster_ensembles (s : State) (c : Nat) (f : Cluster → Cluster) : (s.modCluster c f).ensembles = s.ensembles := rfl
@[simp] theorem modCluster_acts (s : State) (c : Nat) (f : Cluster → Cluster) : (s.modCluster c f).acts = s.acts := rfl
@[simp] theorem modCluster_ctxs (s : State) (c : Nat) (f : Cluster → Cluster) : (s.modCluster c f).ctxs = s.ctxs := rfl
@[simp] theorem modCluster_boards (s : State) (c : Nat) (f : Cluster → Cluster) : (s.modCluster c f).boards = s.boards := rfl
@[simp] theorem modCluster_clusters (s : State) (c : Nat) (f : Cluster → Cluster) : (s.modCluster c f).clusters = put s.clusters c (f (s.cluster c)) := rfl
@[simp] theorem modCluster_engines (s : State) (c : Nat) (f : Cluster → Cluster) : (s.modCluster c f).engines = s.engines := rfl
@[simp] theorem modCluster_rows (s : State) (c : Nat) (f : Cluster → Cluster) : (s.modCluster c f).rows = s.rows := rfl
@[simp] theorem modCluster_ops (s : State) (c : Nat) (f : Cluster → Cluster) : (s.modCluster c f).ops = s.ops := rfl
@[simp] theorem modCluster_views (s : State) (c : Nat) (f : Cluster → Cluster) : (s.modCluster c f).views = s.views := rfl
@[simp] theorem modCluster_egs (s : State) (c : Nat) (f : Cluster → Cluster) : (s.modCluster c f).egs = s.egs := rfl
@[simp] theorem modCluster_mem (s : State) (c : Nat) (f : Cluster → Cluster) : (s.modCluster c f).mem = s.mem := rfl
@[simp] theorem modCluster_marks (s : State) (c : Nat) (f : Cluster → Cluster) : (s.modCluster c f).marks = s.marks := rfl
@[simp] theorem modCluster_owners (s : State) (c : Nat) (f : Cluster → Cluster) : (s.modCluster c f).owners = s.owners := rfl
@[simp] theorem modCluster_zeroPend (s : State) (c : Nat) (f : Cluster → Cluster) : (s.modCluster c f).zeroPend = s.zeroPend := rfl
@[simp] theorem modCluster_wrote (s : State) (c : Nat) (f : Cluster → Cluster) : (s.modCluster c f).wrote = s.wrote := rfl
@[simp] theorem modCluster_woken (s : State) (c : Nat) (f : Cluster → Cluster) : (s.modCluster c f).woken = s.woken := rfl
@[simp] theorem modCluster_port (s : State) (c : Nat) (f : Cluster → Cluster) : (s.modCluster c f).port = s.port := rfl
@[simp] theorem modCluster_pkg (s : State) (c : Nat) (f : Cluster → Cluster) : (s.modCluster c f).pkg = s.pkg := rfl
@[simp] theorem modCluster_root (s : State) (c : Nat) (f : Cluster → Cluster) : (s.modCluster c f).root = s.root := rfl

@[simp] theorem modCtx_now (s : State) (c : Nat) (f : Ctx → Ctx) : (s.modCtx c f).now = s.now := rfl
@[simp] theorem modCtx_agenda (s : State) (c : Nat) (f : Ctx → Ctx) : (s.modCtx c f).agenda = s.agenda := rfl
@[simp] theorem modCtx_turn (s : State) (c : Nat) (f : Ctx → Ctx) : (s.modCtx c f).turn = s.turn := rfl
@[simp] theorem modCtx_cur (s : State) (c : Nat) (f : Ctx → Ctx) : (s.modCtx c f).cur = s.cur := rfl
@[simp] theorem modCtx_upset (s : State) (c : Nat) (f : Ctx → Ctx) : (s.modCtx c f).upset = s.upset := rfl
@[simp] theorem modCtx_free (s : State) (c : Nat) (f : Ctx → Ctx) : (s.modCtx c f).free = s.free := rfl
@[simp] theorem modCtx_seq (s : State) (c : Nat) (f : Ctx → Ctx) : (s.modCtx c f).seq = s.seq := rfl
@[simp] theorem modCtx_sent (s : State) (c : Nat) (f : Ctx → Ctx) : (s.modCtx c f).sent = s.sent := rfl
@[simp] theorem modCtx_threads (s : State) (c : Nat) (f : Ctx → Ctx) : (s.modCtx c f).threads = s.threads := rfl
@[simp] theorem modCtx_slots (s : State) (c : Nat) (f : Ctx → Ctx) : (s.modCtx c f).slots = s.slots := rfl
@[simp] theorem modCtx_groups (s : State) (c : Nat) (f : Ctx → Ctx) : (s.modCtx c f).groups = s.groups := rfl
@[simp] theorem modCtx_ensembles (s : State) (c : Nat) (f : Ctx → Ctx) : (s.modCtx c f).ensembles = s.ensembles := rfl
@[simp] theorem modCtx_acts (s : State) (c : Nat) (f : Ctx → Ctx) : (s.modCtx c f).acts = s.acts := rfl
@[simp] theorem modCtx_ctxs (s : State) (c : Nat) (f : Ctx → Ctx) : (s.modCtx c f).ctxs = put s.ctxs c (f (s.ctx c)) := rfl
@[simp] theorem modCtx_boards (s : State) (c : Nat) (f : Ctx → Ctx) : (s.modCtx c f).boards = s.boards := rfl
@[simp] theorem modCtx_clusters (s : State) (c : Nat) (f : Ctx → Ctx) : (s.modCtx c f).clusters = s.clusters := rfl
@[simp] theorem modCtx_engines (s : State) (c : Nat) (f : Ctx → Ctx) : (s.modCtx c f).engines = s.engines := rfl
@[simp] theorem modCtx_rows (s : State) (c : Nat) (f : Ctx → Ctx) : (s.modCtx c f).rows = s.rows := rfl
@[simp] theorem modCtx_ops (s : State) (c : Nat) (f : Ctx → Ctx) : (s.modCtx c f).ops = s.ops := rfl
@[simp] theorem modCtx_views (s : State) (c : Nat) (f : Ctx → Ctx) : (s.modCtx c f).views = s.views := rfl
@[simp] theorem modCtx_egs (s : State) (c : Nat) (f : Ctx → Ctx) : (s.modCtx c f).egs = s.egs := rfl
@[simp] theorem modCtx_mem (s : State) (c : Nat) (f : Ctx → Ctx) : (s.modCtx c f).mem = s.mem := rfl
@[simp] theorem modCtx_marks (s : State) (c : Nat) (f : Ctx → Ctx) : (s.modCtx c f).marks = s.marks := rfl
@[simp] theorem modCtx_owners (s : State) (c : Nat) (f : Ctx → Ctx) : (s.modCtx c f).owners = s.owners := rfl
@[simp] theorem modCtx_zeroPend (s : State) (c : Nat) (f : Ctx → Ctx) : (s.modCtx c f).zeroPend = s.zeroPend := rfl
@[simp] theorem modCtx_wrote (s : State) (c : Nat) (f : Ctx → Ctx) : (s.modCtx c f).wrote = s.wrote := rfl
@[simp] theorem modCtx_woken (s : State) (c : Nat) (f : Ctx → Ctx) : (s.modCtx c f).woken = s.woken := rfl
@[simp] theorem modCtx_port (s : State) (c : Nat) (f : Ctx → Ctx) : (s.modCtx c f).port = s.port := rfl
@[simp] theorem modCtx_pkg (s : State) (c : Nat) (f : Ctx → Ctx) : (s.modCtx c f).pkg = s.pkg := rfl
@[simp] theorem modCtx_root (s : State) (c : Nat) (f : Ctx → Ctx) : (s.modCtx c f).root = s.root := rfl

@[simp] theorem modRow_now (s : State) (r : Nat) (f : Row → Row) : (s.modRow r f).now = s.now := rfl
@[simp] theorem modRow_agenda (s : State) (r : Nat) (f : Row → Row) : (s.modRow r f).agenda = s.agenda := rfl
@[simp] theorem modRow_turn (s : State) (r : Nat) (f : Row → Row) : (s.modRow r f).turn = s.turn := rfl
@[simp] theorem modRow_cur (s : State) (r : Nat) (f : Row → Row) : (s.modRow r f).cur = s.cur := rfl
@[simp] theorem modRow_upset (s : State) (r : Nat) (f : Row → Row) : (s.modRow r f).upset = s.upset := rfl
@[simp] theorem modRow_free (s : State) (r : Nat) (f : Row → Row) : (s.modRow r f).free = s.free := rfl
@[simp] theorem modRow_seq (s : State) (r : Nat) (f : Row → Row) : (s.modRow r f).seq = s.seq := rfl
@[simp] theorem modRow_sent (s : State) (r : Nat) (f : Row → Row) : (s.modRow r f).sent = s.sent := rfl
@[simp] theorem modRow_threads (s : State) (r : Nat) (f : Row → Row) : (s.modRow r f).threads = s.threads := rfl
@[simp] theorem modRow_slots (s : State) (r : Nat) (f : Row → Row) : (s.modRow r f).slots = s.slots := rfl
@[simp] theorem modRow_groups (s : State) (r : Nat) (f : Row → Row) : (s.modRow r f).groups = s.groups := rfl
@[simp] theorem modRow_ensembles (s : State) (r : Nat) (f : Row → Row) : (s.modRow r f).ensembles = s.ensembles := rfl
@[simp] theorem modRow_acts (s : State) (r : Nat) (f : Row → Row) : (s.modRow r f).acts = s.acts := rfl
@[simp] theorem modRow_ctxs (s : State) (r : Nat) (f : Row → Row) : (s.modRow r f).ctxs = s.ctxs := rfl
@[simp] theorem modRow_boards (s : State) (r : Nat) (f : Row → Row) : (s.modRow r f).boards = s.boards := rfl
@[simp] theorem modRow_clusters (s : State) (r : Nat) (f : Row → Row) : (s.modRow r f).clusters = s.clusters := rfl
@[simp] theorem modRow_engines (s : State) (r : Nat) (f : Row → Row) : (s.modRow r f).engines = s.engines := rfl
@[simp] theorem modRow_rows (s : State) (r : Nat) (f : Row → Row) : (s.modRow r f).rows = put s.rows r (f (s.row r)) := rfl
@[simp] theorem modRow_ops (s : State) (r : Nat) (f : Row → Row) : (s.modRow r f).ops = s.ops := rfl
@[simp] theorem modRow_views (s : State) (r : Nat) (f : Row → Row) : (s.modRow r f).views = s.views := rfl
@[simp] theorem modRow_egs (s : State) (r : Nat) (f : Row → Row) : (s.modRow r f).egs = s.egs := rfl
@[simp] theorem modRow_mem (s : State) (r : Nat) (f : Row → Row) : (s.modRow r f).mem = s.mem := rfl
@[simp] theorem modRow_marks (s : State) (r : Nat) (f : Row → Row) : (s.modRow r f).marks = s.marks := rfl
@[simp] theorem modRow_owners (s : State) (r : Nat) (f : Row → Row) : (s.modRow r f).owners = s.owners := rfl
@[simp] theorem modRow_zeroPend (s : State) (r : Nat) (f : Row → Row) : (s.modRow r f).zeroPend = s.zeroPend := rfl
@[simp] theorem modRow_wrote (s : State) (r : Nat) (f : Row → Row) : (s.modRow r f).wrote = s.wrote := rfl
@[simp] theorem modRow_woken (s : State) (r : Nat) (f : Row → Row) : (s.modRow r f).woken = s.woken := rfl
@[simp] theorem modRow_port (s : State) (r : Nat) (f : Row → Row) : (s.modRow r f).port = s.port := rfl
@[simp] theorem modRow_pkg (s : State) (r : Nat) (f : Row → Row) : (s.modRow r f).pkg = s.pkg := rfl
@[simp] theorem modRow_root (s : State) (r : Nat) (f : Row → Row) : (s.modRow r f).root = s.root := rfl

@[simp] theorem modEg_now (s : State) (n : Nat) (f : EdgeGroup → EdgeGroup) : (s.modEg n f).now = s.now := rfl
@[simp] theorem modEg_agenda (s : State) (n : Nat) (f : EdgeGroup → EdgeGroup) : (s.modEg n f).agenda = s.agenda := rfl
@[simp] theorem modEg_turn (s : State) (n : Nat) (f : EdgeGroup → EdgeGroup) : (s.modEg n f).turn = s.turn := rfl
@[simp] theorem modEg_cur (s : State) (n : Nat) (f : EdgeGroup → EdgeGroup) : (s.modEg n f).cur = s.cur := rfl
@[simp] theorem modEg_upset (s : State) (n : Nat) (f : EdgeGroup → EdgeGroup) : (s.modEg n f).upset = s.upset := rfl
@[simp] theorem modEg_free (s : State) (n : Nat) (f : EdgeGroup → EdgeGroup) : (s.modEg n f).free = s.free := rfl
@[simp] theorem modEg_seq (s : State) (n : Nat) (f : EdgeGroup → EdgeGroup) : (s.modEg n f).seq = s.seq := rfl
@[simp] theorem modEg_sent (s : State) (n : Nat) (f : EdgeGroup → EdgeGroup) : (s.modEg n f).sent = s.sent := rfl
@[simp] theorem modEg_threads (s : State) (n : Nat) (f : EdgeGroup → EdgeGroup) : (s.modEg n f).threads = s.threads := rfl
@[simp] theorem modEg_slots (s : State) (n : Nat) (f : EdgeGroup → EdgeGroup) : (s.modEg n f).slots = s.slots := rfl
@[simp] theorem modEg_groups (s : State) (n : Nat) (f : EdgeGroup → EdgeGroup) : (s.modEg n f).groups = s.groups := rfl
@[simp] theorem modEg_ensembles (s : State) (n : Nat) (f : EdgeGroup → EdgeGroup) : (s.modEg n f).ensembles = s.ensembles := rfl
@[simp] theorem modEg_acts (s : State) (n : Nat) (f : EdgeGroup → EdgeGroup) : (s.modEg n f).acts = s.acts := rfl
@[simp] theorem modEg_ctxs (s : State) (n : Nat) (f : EdgeGroup → EdgeGroup) : (s.modEg n f).ctxs = s.ctxs := rfl
@[simp] theorem modEg_boards (s : State) (n : Nat) (f : EdgeGroup → EdgeGroup) : (s.modEg n f).boards = s.boards := rfl
@[simp] theorem modEg_clusters (s : State) (n : Nat) (f : EdgeGroup → EdgeGroup) : (s.modEg n f).clusters = s.clusters := rfl
@[simp] theorem modEg_engines (s : State) (n : Nat) (f : EdgeGroup → EdgeGroup) : (s.modEg n f).engines = s.engines := rfl
@[simp] theorem modEg_rows (s : State) (n : Nat) (f : EdgeGroup → EdgeGroup) : (s.modEg n f).rows = s.rows := rfl
@[simp] theorem modEg_ops (s : State) (n : Nat) (f : EdgeGroup → EdgeGroup) : (s.modEg n f).ops = s.ops := rfl
@[simp] theorem modEg_views (s : State) (n : Nat) (f : EdgeGroup → EdgeGroup) : (s.modEg n f).views = s.views := rfl
@[simp] theorem modEg_egs (s : State) (n : Nat) (f : EdgeGroup → EdgeGroup) : (s.modEg n f).egs = put s.egs n (f (s.eg n)) := rfl
@[simp] theorem modEg_mem (s : State) (n : Nat) (f : EdgeGroup → EdgeGroup) : (s.modEg n f).mem = s.mem := rfl
@[simp] theorem modEg_marks (s : State) (n : Nat) (f : EdgeGroup → EdgeGroup) : (s.modEg n f).marks = s.marks := rfl
@[simp] theorem modEg_owners (s : State) (n : Nat) (f : EdgeGroup → EdgeGroup) : (s.modEg n f).owners = s.owners := rfl
@[simp] theorem modEg_zeroPend (s : State) (n : Nat) (f : EdgeGroup → EdgeGroup) : (s.modEg n f).zeroPend = s.zeroPend := rfl
@[simp] theorem modEg_wrote (s : State) (n : Nat) (f : EdgeGroup → EdgeGroup) : (s.modEg n f).wrote = s.wrote := rfl
@[simp] theorem modEg_woken (s : State) (n : Nat) (f : EdgeGroup → EdgeGroup) : (s.modEg n f).woken = s.woken := rfl
@[simp] theorem modEg_port (s : State) (n : Nat) (f : EdgeGroup → EdgeGroup) : (s.modEg n f).port = s.port := rfl
@[simp] theorem modEg_pkg (s : State) (n : Nat) (f : EdgeGroup → EdgeGroup) : (s.modEg n f).pkg = s.pkg := rfl
@[simp] theorem modEg_root (s : State) (n : Nat) (f : EdgeGroup → EdgeGroup) : (s.modEg n f).root = s.root := rfl

@[simp] theorem modSlot_now (s : State) (k : Nat) (f : Slot → Slot) : (s.modSlot k f).now = s.now := rfl
@[simp] theorem modSlot_agenda (s : State) (k : Nat) (f : Slot → Slot) : (s.modSlot k f).agenda = s.agenda := rfl
@[simp] theorem modSlot_turn (s : State) (k : Nat) (f : Slot → Slot) : (s.modSlot k f).turn = s.turn := rfl
@[simp] theorem modSlot_cur (s : State) (k : Nat) (f : Slot → Slot) : (s.modSlot k f).cur = s.cur := rfl
@[simp] theorem modSlot_upset (s : State) (k : Nat) (f : Slot → Slot) : (s.modSlot k f).upset = s.upset := rfl
@[simp] theorem modSlot_free (s : State) (k : Nat) (f : Slot → Slot) : (s.modSlot k f).free = s.free := rfl
@[simp] theorem modSlot_seq (s : State) (k : Nat) (f : Slot → Slot) : (s.modSlot k f).seq = s.seq := rfl
@[simp] theorem modSlot_sent (s : State) (k : Nat) (f : Slot → Slot) : (s.modSlot k f).sent = s.sent := rfl
@[simp] theorem modSlot_threads (s : State) (k : Nat) (f : Slot → Slot) : (s.modSlot k f).threads = s.threads := rfl
@[simp] theorem modSlot_slots (s : State) (k : Nat) (f : Slot → Slot) : (s.modSlot k f).slots = put s.slots k (f (s.slot k)) := rfl
@[simp] theorem modSlot_groups (s : State) (k : Nat) (f : Slot → Slot) : (s.modSlot k f).groups = s.groups := rfl
@[simp] theorem modSlot_ensembles (s : State) (k : Nat) (f : Slot → Slot) : (s.modSlot k f).ensembles = s.ensembles := rfl
@[simp] theorem modSlot_acts (s : State) (k : Nat) (f : Slot → Slot) : (s.modSlot k f).acts = s.acts := rfl
@[simp] theorem modSlot_ctxs (s : State) (k : Nat) (f : Slot → Slot) : (s.modSlot k f).ctxs = s.ctxs := rfl
@[simp] theorem modSlot_boards (s : State) (k : Nat) (f : Slot → Slot) : (s.modSlot k f).boards = s.boards := rfl
@[simp] theorem modSlot_clusters (s : State) (k : Nat) (f : Slot → Slot) : (s.modSlot k f).clusters = s.clusters := rfl
@[simp] theorem modSlot_engines (s : State) (k : Nat) (f : Slot → Slot) : (s.modSlot k f).engines = s.engines := rfl
@[simp] theorem modSlot_rows (s : State) (k : Nat) (f : Slot → Slot) : (s.modSlot k f).rows = s.rows := rfl
@[simp] theorem modSlot_ops (s : State) (k : Nat) (f : Slot → Slot) : (s.modSlot k f).ops = s.ops := rfl
@[simp] theorem modSlot_views (s : State) (k : Nat) (f : Slot → Slot) : (s.modSlot k f).views = s.views := rfl
@[simp] theorem modSlot_egs (s : State) (k : Nat) (f : Slot → Slot) : (s.modSlot k f).egs = s.egs := rfl
@[simp] theorem modSlot_mem (s : State) (k : Nat) (f : Slot → Slot) : (s.modSlot k f).mem = s.mem := rfl
@[simp] theorem modSlot_marks (s : State) (k : Nat) (f : Slot → Slot) : (s.modSlot k f).marks = s.marks := rfl
@[simp] theorem modSlot_owners (s : State) (k : Nat) (f : Slot → Slot) : (s.modSlot k f).owners = s.owners := rfl
@[simp] theorem modSlot_zeroPend (s : State) (k : Nat) (f : Slot → Slot) : (s.modSlot k f).zeroPend = s.zeroPend := rfl
@[simp] theorem modSlot_wrote (s : State) (k : Nat) (f : Slot → Slot) : (s.modSlot k f).wrote = s.wrote := rfl
@[simp] theorem modSlot_woken (s : State) (k : Nat) (f : Slot → Slot) : (s.modSlot k f).woken = s.woken := rfl
@[simp] theorem modSlot_port (s : State) (k : Nat) (f : Slot → Slot) : (s.modSlot k f).port = s.port := rfl
@[simp] theorem modSlot_pkg (s : State) (k : Nat) (f : Slot → Slot) : (s.modSlot k f).pkg = s.pkg := rfl
@[simp] theorem modSlot_root (s : State) (k : Nat) (f : Slot → Slot) : (s.modSlot k f).root = s.root := rfl

@[simp] theorem modThread_now (s : State) (k : Nat) (f : Thread → Thread) : (s.modThread k f).now = s.now := by unfold modThread; split <;> rfl
@[simp] theorem modThread_agenda (s : State) (k : Nat) (f : Thread → Thread) : (s.modThread k f).agenda = s.agenda := by unfold modThread; split <;> rfl
@[simp] theorem modThread_turn (s : State) (k : Nat) (f : Thread → Thread) : (s.modThread k f).turn = s.turn := by unfold modThread; split <;> rfl
@[simp] theorem modThread_cur (s : State) (k : Nat) (f : Thread → Thread) : (s.modThread k f).cur = s.cur := by unfold modThread; split <;> rfl
@[simp] theorem modThread_upset (s : State) (k : Nat) (f : Thread → Thread) : (s.modThread k f).upset = s.upset := by unfold modThread; split <;> rfl
@[simp] theorem modThread_free (s : State) (k : Nat) (f : Thread → Thread) : (s.modThread k f).free = s.free := by unfold modThread; split <;> rfl
@[simp] theorem modThread_seq (s : State) (k : Nat) (f : Thread → Thread) : (s.modThread k f).seq = s.seq := by unfold modThread; split <;> rfl
@[simp] theorem modThread_sent (s : State) (k : Nat) (f : Thread → Thread) : (s.modThread k f).sent = s.sent := by unfold modThread; split <;> rfl
@[simp] theorem modThread_slots (s : State) (k : Nat) (f : Thread → Thread) : (s.modThread k f).slots = s.slots := by unfold modThread; split <;> rfl
@[simp] theorem modThread_groups (s : State) (k : Nat) (f : Thread → Thread) : (s.modThread k f).groups = s.groups := by unfold modThread; split <;> rfl
@[simp] theorem modThread_ensembles (s : State) (k : Nat) (f : Thread → Thread) : (s.modThread k f).ensembles = s.ensembles := by unfold modThread; split <;> rfl
@[simp] theorem modThread_acts (s : State) (k : Nat) (f : Thread → Thread) : (s.modThread k f).acts = s.acts := by unfold modThread; split <;> rfl
@[simp] theorem modThread_ctxs (s : State) (k : Nat) (f : Thread → Thread) : (s.modThread k f).ctxs = s.ctxs := by unfold modThread; split <;> rfl
@[simp] theorem modThread_boards (s : State) (k : Nat) (f : Thread → Thread) : (s.modThread k f).boards = s.boards := by unfold modThread; split <;> rfl
@[simp] theorem modThread_clusters (s : State) (k : Nat) (f : Thread → Thread) : (s.modThread k f).clusters = s.clusters := by unfold modThread; split <;> rfl
@[simp] theorem modThread_engines (s : State) (k : Nat) (f : Thread → Thread) : (s.modThread k f).engines = s.engines := by unfold modThread; split <;> rfl
@[simp] theorem modThread_rows (s : State) (k : Nat) (f : Thread → Thread) : (s.modThread k f).rows = s.rows := by unfold modThread; split <;> rfl
@[simp] theorem modThread_ops (s : State) (k : Nat) (f : Thread → Thread) : (s.modThread k f).ops = s.ops := by unfold modThread; split <;> rfl
@[simp] theorem modThread_views (s : State) (k : Nat) (f : Thread → Thread) : (s.modThread k f).views = s.views := by unfold modThread; split <;> rfl
@[simp] theorem modThread_egs (s : State) (k : Nat) (f : Thread → Thread) : (s.modThread k f).egs = s.egs := by unfold modThread; split <;> rfl
@[simp] theorem modThread_mem (s : State) (k : Nat) (f : Thread → Thread) : (s.modThread k f).mem = s.mem := by unfold modThread; split <;> rfl
@[simp] theorem modThread_marks (s : State) (k : Nat) (f : Thread → Thread) : (s.modThread k f).marks = s.marks := by unfold modThread; split <;> rfl
@[simp] theorem modThread_owners (s : State) (k : Nat) (f : Thread → Thread) : (s.modThread k f).owners = s.owners := by unfold modThread; split <;> rfl
@[simp] theorem modThread_zeroPend (s : State) (k : Nat) (f : Thread → Thread) : (s.modThread k f).zeroPend = s.zeroPend := by unfold modThread; split <;> rfl
@[simp] theorem modThread_wrote (s : State) (k : Nat) (f : Thread → Thread) : (s.modThread k f).wrote = s.wrote := by unfold modThread; split <;> rfl
@[simp] theorem modThread_woken (s : State) (k : Nat) (f : Thread → Thread) : (s.modThread k f).woken = s.woken := by unfold modThread; split <;> rfl
@[simp] theorem modThread_port (s : State) (k : Nat) (f : Thread → Thread) : (s.modThread k f).port = s.port := by unfold modThread; split <;> rfl
@[simp] theorem modThread_pkg (s : State) (k : Nat) (f : Thread → Thread) : (s.modThread k f).pkg = s.pkg := by unfold modThread; split <;> rfl
@[simp] theorem modThread_root (s : State) (k : Nat) (f : Thread → Thread) : (s.modThread k f).root = s.root := by unfold modThread; split <;> rfl

@[simp] theorem modGroup_now (s : State) (k : Nat) (f : Group → Group) : (s.modGroup k f).now = s.now := by unfold modGroup; split <;> rfl
@[simp] theorem modGroup_agenda (s : State) (k : Nat) (f : Group → Group) : (s.modGroup k f).agenda = s.agenda := by unfold modGroup; split <;> rfl
@[simp] theorem modGroup_turn (s : State) (k : Nat) (f : Group → Group) : (s.modGroup k f).turn = s.turn := by unfold modGroup; split <;> rfl
@[simp] theorem modGroup_cur (s : State) (k : Nat) (f : Group → Group) : (s.modGroup k f).cur = s.cur := by unfold modGroup; split <;> rfl
@[simp] theorem modGroup_upset (s : State) (k : Nat) (f : Group → Group) : (s.modGroup k f).upset = s.upset := by unfold modGroup; split <;> rfl
@[simp] theorem modGroup_free (s : State) (k : Nat) (f : Group → Group) : (s.modGroup k f).free = s.free := by unfold modGroup; split <;> rfl
@[simp] theorem modGroup_seq (s : State) (k : Nat) (f : Group → Group) : (s.modGroup k f).seq = s.seq := by unfold modGroup; split <;> rfl
@[simp] theorem modGroup_sent (s : State) (k : Nat) (f : Group → Group) : (s.modGroup k f).sent = s.sent := by unfold modGroup; split <;> rfl
@[simp] theorem modGroup_threads (s : State) (k : Nat) (f : Group → Group) : (s.modGroup k f).threads = s.threads := by unfold modGroup; split <;> rfl
@[simp] theorem modGroup_slots (s : State) (k : Nat) (f : Group → Group) : (s.modGroup k f).slots = s.slots := by unfold modGroup; split <;> rfl
@[simp] theorem modGroup_ensembles (s : State) (k : Nat) (f : Group → Group) : (s.modGroup k f).ensembles = s.ensembles := by unfold modGroup; split <;> rfl
@[simp] theorem modGroup_acts (s : State) (k : Nat) (f : Group → Group) : (s.modGroup k f).acts = s.acts := by unfold modGroup; split <;> rfl
@[simp] theorem modGroup_ctxs (s : State) (k : Nat) (f : Group → Group) : (s.modGroup k f).ctxs = s.ctxs := by unfold modGroup; split <;> rfl
@[simp] theorem modGroup_boards (s : State) (k : Nat) (f : Group → Group) : (s.modGroup k f).boards = s.boards := by unfold modGroup; split <;> rfl
@[simp] theorem modGroup_clusters (s : State) (k : Nat) (f : Group → Group) : (s.modGroup k f).clusters = s.clusters := by unfold modGroup; split <;> rfl
@[simp] theorem modGroup_engines (s : State) (k : Nat) (f : Group → Group) : (s.modGroup k f).engines = s.engines := by unfold modGroup; split <;> rfl
@[simp] theorem modGroup_rows (s : State) (k : Nat) (f : Group → Group) : (s.modGroup k f).rows = s.rows := by unfold modGroup; split <;> rfl
@[simp] theorem modGroup_ops (s : State) (k : Nat) (f : Group → Group) : (s.modGroup k f).ops = s.ops := by unfold modGroup; split <;> rfl
@[simp] theorem modGroup_views (s : State) (k : Nat) (f : Group → Group) : (s.modGroup k f).views = s.views := by unfold modGroup; split <;> rfl
@[simp] theorem modGroup_egs (s : State) (k : Nat) (f : Group → Group) : (s.modGroup k f).egs = s.egs := by unfold modGroup; split <;> rfl
@[simp] theorem modGroup_mem (s : State) (k : Nat) (f : Group → Group) : (s.modGroup k f).mem = s.mem := by unfold modGroup; split <;> rfl
@[simp] theorem modGroup_marks (s : State) (k : Nat) (f : Group → Group) : (s.modGroup k f).marks = s.marks := by unfold modGroup; split <;> rfl
@[simp] theorem modGroup_owners (s : State) (k : Nat) (f : Group → Group) : (s.modGroup k f).owners = s.owners := by unfold modGroup; split <;> rfl
@[simp] theorem modGroup_zeroPend (s : State) (k : Nat) (f : Group → Group) : (s.modGroup k f).zeroPend = s.zeroPend := by unfold modGroup; split <;> rfl
@[simp] theorem modGroup_wrote (s : State) (k : Nat) (f : Group → Group) : (s.modGroup k f).wrote = s.wrote := by unfold modGroup; split <;> rfl
@[simp] theorem modGroup_woken (s : State) (k : Nat) (f : Group → Group) : (s.modGroup k f).woken = s.woken := by unfold modGroup; split <;> rfl
@[simp] theorem modGroup_port (s : State) (k : Nat) (f : Group → Group) : (s.modGroup k f).port = s.port := by unfold modGroup; split <;> rfl
@[simp] theorem modGroup_pkg (s : State) (k : Nat) (f : Group → Group) : (s.modGroup k f).pkg = s.pkg := by unfold modGroup; split <;> rfl
@[simp] theorem modGroup_root (s : State) (k : Nat) (f : Group → Group) : (s.modGroup k f).root = s.root := by unfold modGroup; split <;> rfl

@[simp] theorem modAct_now (s : State) (c n : Nat) (f : Act → Act) : (s.modAct c n f).now = s.now := by unfold modAct; split <;> rfl
@[simp] theorem modAct_agenda (s : State) (c n : Nat) (f : Act → Act) : (s.modAct c n f).agenda = s.agenda := by unfold modAct; split <;> rfl
@[simp] theorem modAct_turn (s : State) (c n : Nat) (f : Act → Act) : (s.modAct c n f).turn = s.turn := by unfold modAct; split <;> rfl
@[simp] theorem modAct_cur (s : State) (c n : Nat) (f : Act → Act) : (s.modAct c n f).cur = s.cur := by unfold modAct; split <;> rfl
@[simp] theorem modAct_upset (s : State) (c n : Nat) (f : Act → Act) : (s.modAct c n f).upset = s.upset := by unfold modAct; split <;> rfl
@[simp] theorem modAct_free (s : State) (c n : Nat) (f : Act → Act) : (s.modAct c n f).free = s.free := by unfold modAct; split <;> rfl
@[simp] theorem modAct_seq (s : State) (c n : Nat) (f : Act → Act) : (s.modAct c n f).seq = s.seq := by unfold modAct; split <;> rfl
@[simp] theorem modAct_sent (s : State) (c n : Nat) (f : Act → Act) : (s.modAct c n f).sent = s.sent := by unfold modAct; split <;> rfl
@[simp] theorem modAct_threads (s : State) (c n : Nat) (f : Act → Act) : (s.modAct c n f).threads = s.threads := by unfold modAct; split <;> rfl
@[simp] theorem modAct_slots (s : State) (c n : Nat) (f : Act → Act) : (s.modAct c n f).slots = s.slots := by unfold modAct; split <;> rfl
@[simp] theorem modAct_groups (s : State) (c n : Nat) (f : Act → Act) : (s.modAct c n f).groups = s.groups := by unfold modAct; split <;> rfl
@[simp] theorem modAct_ensembles (s : State) (c n : Nat) (f : Act → Act) : (s.modAct c n f).ensembles = s.ensembles := by unfold modAct; split <;> rfl
@[simp] theorem modAct_ctxs (s : State) (c n : Nat) (f : Act → Act) : (s.modAct c n f).ctxs = s.ctxs := by unfold modAct; split <;> rfl
@[simp] theorem modAct_boards (s : State) (c n : Nat) (f : Act → Act) : (s.modAct c n f).boards = s.boards := by unfold modAct; split <;> rfl
@[simp] theorem modAct_clusters (s : State) (c n : Nat) (f : Act → Act) : (s.modAct c n f).clusters = s.clusters := by unfold modAct; split <;> rfl
@[simp] theorem modAct_engines (s : State) (c n : Nat) (f : Act → Act) : (s.modAct c n f).engines = s.engines := by unfold modAct; split <;> rfl
@[simp] theorem modAct_rows (s : State) (c n : Nat) (f : Act → Act) : (s.modAct c n f).rows = s.rows := by unfold modAct; split <;> rfl
@[simp] theorem modAct_ops (s : State) (c n : Nat) (f : Act → Act) : (s.modAct c n f).ops = s.ops := by unfold modAct; split <;> rfl
@[simp] theorem modAct_views (s : State) (c n : Nat) (f : Act → Act) : (s.modAct c n f).views = s.views := by unfold modAct; split <;> rfl
@[simp] theorem modAct_egs (s : State) (c n : Nat) (f : Act → Act) : (s.modAct c n f).egs = s.egs := by unfold modAct; split <;> rfl
@[simp] theorem modAct_mem (s : State) (c n : Nat) (f : Act → Act) : (s.modAct c n f).mem = s.mem := by unfold modAct; split <;> rfl
@[simp] theorem modAct_marks (s : State) (c n : Nat) (f : Act → Act) : (s.modAct c n f).marks = s.marks := by unfold modAct; split <;> rfl
@[simp] theorem modAct_owners (s : State) (c n : Nat) (f : Act → Act) : (s.modAct c n f).owners = s.owners := by unfold modAct; split <;> rfl
@[simp] theorem modAct_zeroPend (s : State) (c n : Nat) (f : Act → Act) : (s.modAct c n f).zeroPend = s.zeroPend := by unfold modAct; split <;> rfl
@[simp] theorem modAct_wrote (s : State) (c n : Nat) (f : Act → Act) : (s.modAct c n f).wrote = s.wrote := by unfold modAct; split <;> rfl
@[simp] theorem modAct_woken (s : State) (c n : Nat) (f : Act → Act) : (s.modAct c n f).woken = s.woken := by unfold modAct; split <;> rfl
@[simp] theorem modAct_port (s : State) (c n : Nat) (f : Act → Act) : (s.modAct c n f).port = s.port := by unfold modAct; split <;> rfl
@[simp] theorem modAct_pkg (s : State) (c n : Nat) (f : Act → Act) : (s.modAct c n f).pkg = s.pkg := by unfold modAct; split <;> rfl
@[simp] theorem modAct_root (s : State) (c n : Nat) (f : Act → Act) : (s.modAct c n f).root = s.root := by unfold modAct; split <;> rfl

@[simp] theorem modOp_now (s : State) (k : Nat) (f : Op → Op) : (s.modOp k f).now = s.now := by unfold modOp; split <;> rfl
@[simp] theorem modOp_agenda (s : State) (k : Nat) (f : Op → Op) : (s.modOp k f).agenda = s.agenda := by unfold modOp; split <;> rfl
@[simp] theorem modOp_turn (s : State) (k : Nat) (f : Op → Op) : (s.modOp k f).turn = s.turn := by unfold modOp; split <;> rfl
@[simp] theorem modOp_cur (s : State) (k : Nat) (f : Op → Op) : (s.modOp k f).cur = s.cur := by unfold modOp; split <;> rfl
@[simp] theorem modOp_upset (s : State) (k : Nat) (f : Op → Op) : (s.modOp k f).upset = s.upset := by unfold modOp; split <;> rfl
@[simp] theorem modOp_free (s : State) (k : Nat) (f : Op → Op) : (s.modOp k f).free = s.free := by unfold modOp; split <;> rfl
@[simp] theorem modOp_seq (s : State) (k : Nat) (f : Op → Op) : (s.modOp k f).seq = s.seq := by unfold modOp; split <;> rfl
@[simp] theorem modOp_sent (s : State) (k : Nat) (f : Op → Op) : (s.modOp k f).sent = s.sent := by unfold modOp; split <;> rfl
@[simp] theorem modOp_threads (s : State) (k : Nat) (f : Op → Op) : (s.modOp k f).threads = s.threads := by unfold modOp; split <;> rfl
@[simp] theorem modOp_slots (s : State) (k : Nat) (f : Op → Op) : (s.modOp k f).slots = s.slots := by unfold modOp; split <;> rfl
@[simp] theorem modOp_groups (s : State) (k : Nat) (f : Op → Op) : (s.modOp k f).groups = s.groups := by unfold modOp; split <;> rfl
@[simp] theorem modOp_ensembles (s : State) (k : Nat) (f : Op → Op) : (s.modOp k f).ensembles = s.ensembles := by unfold modOp; split <;> rfl
@[simp] theorem modOp_acts (s : State) (k : Nat) (f : Op → Op) : (s.modOp k f).acts = s.acts := by unfold modOp; split <;> rfl
@[simp] theorem modOp_ctxs (s : State) (k : Nat) (f : Op → Op) : (s.modOp k f).ctxs = s.ctxs := by unfold modOp; split <;> rfl
@[simp] theorem modOp_boards (s : State) (k : Nat) (f : Op → Op) : (s.modOp k f).boards = s.boards := by unfold modOp; split <;> rfl
@[simp] theorem modOp_clusters (s : State) (k : Nat) (f : Op → Op) : (s.modOp k f).clusters = s.clusters := by unfold modOp; split <;> rfl
@[simp] theorem modOp_engines (s : State) (k : Nat) (f : Op → Op) : (s.modOp k f).engines = s.engines := by unfold modOp; split <;> rfl
@[simp] theorem modOp_rows (s : State) (k : Nat) (f : Op → Op) : (s.modOp k f).rows = s.rows := by unfold modOp; split <;> rfl
@[simp] theorem modOp_views (s : State) (k : Nat) (f : Op → Op) : (s.modOp k f).views = s.views := by unfold modOp; split <;> rfl
@[simp] theorem modOp_egs (s : State) (k : Nat) (f : Op → Op) : (s.modOp k f).egs = s.egs := by unfold modOp; split <;> rfl
@[simp] theorem modOp_mem (s : State) (k : Nat) (f : Op → Op) : (s.modOp k f).mem = s.mem := by unfold modOp; split <;> rfl
@[simp] theorem modOp_marks (s : State) (k : Nat) (f : Op → Op) : (s.modOp k f).marks = s.marks := by unfold modOp; split <;> rfl
@[simp] theorem modOp_owners (s : State) (k : Nat) (f : Op → Op) : (s.modOp k f).owners = s.owners := by unfold modOp; split <;> rfl
@[simp] theorem modOp_zeroPend (s : State) (k : Nat) (f : Op → Op) : (s.modOp k f).zeroPend = s.zeroPend := by unfold modOp; split <;> rfl
@[simp] theorem modOp_wrote (s : State) (k : Nat) (f : Op → Op) : (s.modOp k f).wrote = s.wrote := by unfold modOp; split <;> rfl
@[simp] theorem modOp_woken (s : State) (k : Nat) (f : Op → Op) : (s.modOp k f).woken = s.woken := by unfold modOp; split <;> rfl
@[simp] theorem modOp_port (s : State) (k : Nat) (f : Op → Op) : (s.modOp k f).port = s.port := by unfold modOp; split <;> rfl
@[simp] theorem modOp_pkg (s : State) (k : Nat) (f : Op → Op) : (s.modOp k f).pkg = s.pkg := by unfold modOp; split <;> rfl
@[simp] theorem modOp_root (s : State) (k : Nat) (f : Op → Op) : (s.modOp k f).root = s.root := by unfold modOp; split <;> rfl

@[simp] theorem msix_now (s : State) (v : Nat) : (s.msix v).now = s.now := by unfold msix; split <;> rfl
@[simp] theorem msix_agenda (s : State) (v : Nat) : (s.msix v).agenda = s.agenda := by unfold msix; split <;> rfl
@[simp] theorem msix_turn (s : State) (v : Nat) : (s.msix v).turn = s.turn := by unfold msix; split <;> rfl
@[simp] theorem msix_cur (s : State) (v : Nat) : (s.msix v).cur = s.cur := by unfold msix; split <;> rfl
@[simp] theorem msix_upset (s : State) (v : Nat) : (s.msix v).upset = s.upset := by unfold msix; split <;> rfl
@[simp] theorem msix_free (s : State) (v : Nat) : (s.msix v).free = s.free := by unfold msix; split <;> rfl
@[simp] theorem msix_seq (s : State) (v : Nat) : (s.msix v).seq = s.seq := by unfold msix; split <;> rfl
@[simp] theorem msix_threads (s : State) (v : Nat) : (s.msix v).threads = s.threads := by unfold msix; split <;> rfl
@[simp] theorem msix_slots (s : State) (v : Nat) : (s.msix v).slots = s.slots := by unfold msix; split <;> rfl
@[simp] theorem msix_groups (s : State) (v : Nat) : (s.msix v).groups = s.groups := by unfold msix; split <;> rfl
@[simp] theorem msix_ensembles (s : State) (v : Nat) : (s.msix v).ensembles = s.ensembles := by unfold msix; split <;> rfl
@[simp] theorem msix_acts (s : State) (v : Nat) : (s.msix v).acts = s.acts := by unfold msix; split <;> rfl
@[simp] theorem msix_ctxs (s : State) (v : Nat) : (s.msix v).ctxs = s.ctxs := by unfold msix; split <;> rfl
@[simp] theorem msix_boards (s : State) (v : Nat) : (s.msix v).boards = s.boards := by unfold msix; split <;> rfl
@[simp] theorem msix_clusters (s : State) (v : Nat) : (s.msix v).clusters = s.clusters := by unfold msix; split <;> rfl
@[simp] theorem msix_engines (s : State) (v : Nat) : (s.msix v).engines = s.engines := by unfold msix; split <;> rfl
@[simp] theorem msix_rows (s : State) (v : Nat) : (s.msix v).rows = s.rows := by unfold msix; split <;> rfl
@[simp] theorem msix_ops (s : State) (v : Nat) : (s.msix v).ops = s.ops := by unfold msix; split <;> rfl
@[simp] theorem msix_views (s : State) (v : Nat) : (s.msix v).views = s.views := by unfold msix; split <;> rfl
@[simp] theorem msix_egs (s : State) (v : Nat) : (s.msix v).egs = s.egs := by unfold msix; split <;> rfl
@[simp] theorem msix_mem (s : State) (v : Nat) : (s.msix v).mem = s.mem := by unfold msix; split <;> rfl
@[simp] theorem msix_marks (s : State) (v : Nat) : (s.msix v).marks = s.marks := by unfold msix; split <;> rfl
@[simp] theorem msix_owners (s : State) (v : Nat) : (s.msix v).owners = s.owners := by unfold msix; split <;> rfl
@[simp] theorem msix_zeroPend (s : State) (v : Nat) : (s.msix v).zeroPend = s.zeroPend := by unfold msix; split <;> rfl
@[simp] theorem msix_wrote (s : State) (v : Nat) : (s.msix v).wrote = s.wrote := by unfold msix; split <;> rfl
@[simp] theorem msix_woken (s : State) (v : Nat) : (s.msix v).woken = s.woken := by unfold msix; split <;> rfl
@[simp] theorem msix_port (s : State) (v : Nat) : (s.msix v).port = s.port := by unfold msix; split <;> rfl
@[simp] theorem msix_pkg (s : State) (v : Nat) : (s.msix v).pkg = s.pkg := by unfold msix; split <;> rfl
@[simp] theorem msix_root (s : State) (v : Nat) : (s.msix v).root = s.root := by unfold msix; split <;> rfl

end Sys2Proof.Machine.State
end

