-- ==== Sys2Proof/Laws/Maps.lean ====
section
/-! SUPPORT. The tables: what a read finds after a write, a removal, a change of every value; and the units read through them. -/

namespace Sys2Proof.Machine

variable {α : Type}

@[simp] theorem find_nil (n : Nat) : find ([] : Map α) n = none := rfl

@[simp] theorem find_put_self (m : Map α) (n : Nat) (v : α) : find (put m n v) n = some v := by
  induction m with
  | nil => simp [put, find]
  | cons x r ih =>
    obtain ⟨k, w⟩ := x
    simp only [put]
    split
    · simp [find]
    · split
      · simp [find]
      · simp only [find]
        rw [if_neg (by omega)]
        exact ih

theorem find_put_other (m : Map α) (n k : Nat) (v : α) (h : k ≠ n) : find (put m n v) k = find m k := by
  induction m with
  | nil => simp [put, find, Ne.symm h]
  | cons x r ih =>
    obtain ⟨a, w⟩ := x
    simp only [put]
    split
    · simp [find, Ne.symm h]
    · split
      · next h1 => subst h1; simp [find, Ne.symm h]
      · simp only [find, ih]

theorem find_put (m : Map α) (n k : Nat) (v : α) : find (put m n v) k = if k = n then some v else find m k := by
  split
  · next h => subst h; simp
  · next h => exact find_put_other m n k v h

@[simp] theorem find_drop_self (m : Map α) (n : Nat) : find (drop m n) n = none := by
  induction m with
  | nil => rfl
  | cons x r ih =>
    obtain ⟨a, w⟩ := x
    simp only [drop]
    split
    · exact ih
    · next h => simp [find, h, ih]

theorem find_drop_other (m : Map α) (n k : Nat) (h : k ≠ n) : find (drop m n) k = find m k := by
  induction m with
  | nil => rfl
  | cons x r ih =>
    obtain ⟨a, w⟩ := x
    simp only [drop]
    split
    · next h1 => subst h1; simp [find, Ne.symm h, ih]
    · simp only [find, ih]

@[simp] theorem find_mapVals (f : Nat → α → α) (m : Map α) (k : Nat) : find (mapVals f m) k = (find m k).map (f k) := by
  induction m with
  | nil => rfl
  | cons x r ih =>
    obtain ⟨a, w⟩ := x
    simp only [mapVals, List.map_cons, find] at *
    split
    · next h => subst h; rfl
    · exact ih

theorem find_keep (p : Nat → α → Bool) (m : Map α) (k : Nat) (h : ∀ v w, p k v = p k w) :
    find (keep p m) k = (find m k).filter (p k) := by
  induction m with
  | nil => rfl
  | cons x r ih =>
    obtain ⟨a, w⟩ := x
    simp only [keep, List.filter_cons, find] at *
    by_cases ha : a = k
    · subst ha
      by_cases hp : p a w = true
      · simp [hp, find, Option.filter]
      · have hp' : p a w = false := by simpa using hp
        simp only [hp', if_true, Bool.false_eq_true, if_false, ih, Option.filter]
        cases hf : find r a with
        | none => rfl
        | some y => simp [h y w, hp']
    · by_cases hp : p a w = true
      · simp [hp, find, ha, ih]
      · simp [hp, ha, ih]

@[simp] theorem get_put_self (m : Map α) (n : Nat) (v d : α) : get (put m n v) n d = v := by simp [get]

theorem get_put_other (m : Map α) (n k : Nat) (v d : α) (h : k ≠ n) : get (put m n v) k d = get m k d := by
  simp [get, find_put_other m n k v h]

@[simp] theorem get_drop_self (m : Map α) (n : Nat) (d : α) : get (drop m n) n d = d := by simp [get]

theorem get_drop_other (m : Map α) (n k : Nat) (d : α) (h : k ≠ n) : get (drop m n) k d = get m k d := by
  simp [get, find_drop_other m n k h]

/-! Units. -/

@[simp] theorem cluster_setCluster (s : State) (c : Nat) (v : Cluster) : (s.setCluster c v).cluster c = v := by simp [State.cluster]
@[simp] theorem ctx_setCtx (s : State) (c : Nat) (v : Ctx) : (s.setCtx c v).ctx c = v := by simp [State.ctx]
@[simp] theorem row_setRow (s : State) (r : Nat) (v : Row) : (s.setRow r v).row r = v := by simp [State.row]
@[simp] theorem board_setBoard (s : State) (b : Nat) (v : Board) : (s.setBoard b v).board b = v := by simp [State.board]
@[simp] theorem engine_setEngine (s : State) (e : Nat) (v : Engine) : (s.setEngine e v).engine e = v := by simp [State.engine]
@[simp] theorem eg_setEg (s : State) (n : Nat) (v : EdgeGroup) : (s.setEg n v).eg n = v := by simp [State.eg]
@[simp] theorem slot_setSlot (s : State) (k : Nat) (v : Slot) : (s.setSlot k v).slot k = v := by simp [State.slot]
@[simp] theorem thread_setThread (s : State) (k : Nat) (v : Thread) : (s.setThread k v).thread? k = some v := by simp [State.thread?]
@[simp] theorem group_setGroup (s : State) (k : Nat) (v : Group) : (s.setGroup k v).group? k = some v := by simp [State.group?]
@[simp] theorem act_setAct (s : State) (v : Act) : (s.setAct v).act? v.ctx v.num = some v := by simp [State.act?]

@[simp] theorem cluster_modCluster (s : State) (c : Nat) (f : Cluster → Cluster) : (s.modCluster c f).cluster c = f (s.cluster c) := by
  simp [State.modCluster]
@[simp] theorem ctx_modCtx (s : State) (c : Nat) (f : Ctx → Ctx) : (s.modCtx c f).ctx c = f (s.ctx c) := by simp [State.modCtx]
@[simp] theorem row_modRow (s : State) (r : Nat) (f : Row → Row) : (s.modRow r f).row r = f (s.row r) := by simp [State.modRow]
@[simp] theorem eg_modEg (s : State) (n : Nat) (f : EdgeGroup → EdgeGroup) : (s.modEg n f).eg n = f (s.eg n) := by simp [State.modEg]
@[simp] theorem slot_modSlot (s : State) (k : Nat) (f : Slot → Slot) : (s.modSlot k f).slot k = f (s.slot k) := by simp [State.modSlot]

theorem cluster_setCluster_other (s : State) (c k : Nat) (v : Cluster) (h : k ≠ c) : (s.setCluster c v).cluster k = s.cluster k := by
  simp [State.cluster, get_put_other _ _ _ _ _ h]
theorem ctx_setCtx_other (s : State) (c k : Nat) (v : Ctx) (h : k ≠ c) : (s.setCtx c v).ctx k = s.ctx k := by
  simp [State.ctx, get_put_other _ _ _ _ _ h]
theorem row_setRow_other (s : State) (r k : Nat) (v : Row) (h : k ≠ r) : (s.setRow r v).row k = s.row k := by
  simp [State.row, get_put_other _ _ _ _ _ h]
theorem slot_setSlot_other (s : State) (c k : Nat) (v : Slot) (h : k ≠ c) : (s.setSlot c v).slot k = s.slot k := by
  simp [State.slot, get_put_other _ _ _ _ _ h]
theorem thread_setThread_other (s : State) (c k : Nat) (v : Thread) (h : k ≠ c) : (s.setThread c v).thread? k = s.thread? k := by
  simp [State.thread?, find_put_other _ _ _ _ h]
theorem group_setGroup_other (s : State) (c k : Nat) (v : Group) (h : k ≠ c) : (s.setGroup c v).group? k = s.group? k := by
  simp [State.group?, find_put_other _ _ _ _ h]

theorem thread_modThread (s : State) (k : Nat) (f : Thread → Thread) (n : Nat) :
    (s.modThread k f).thread? n = if n = k then (s.thread? k).map f else s.thread? n := by
  unfold State.modThread State.thread?
  cases h : find s.threads k with
  | none => by_cases e : n = k <;> simp [e, h]
  | some t => simp [State.setThread, find_put]

theorem group_modGroup (s : State) (k : Nat) (f : Group → Group) (n : Nat) :
    (s.modGroup k f).group? n = if n = k then (s.group? k).map f else s.group? n := by
  unfold State.modGroup State.group?
  cases h : find s.groups k with
  | none => by_cases e : n = k <;> simp [e, h]
  | some t => simp [State.setGroup, find_put]

end Sys2Proof.Machine
end

