-- ==== Sys2Proof/Laws/Memory.lean ====
section
/-! SUPPORT. Memory: its canonical form is kept by every operation, and what a read finds after a write. -/

namespace Sys2Proof.Machine

/-- The canonical form as two facts: the addresses rise strictly, and no byte is zero. -/
theorem wf_iff (m : List Host.Cell) :
    Memory.wf m = true ↔ m.Pairwise (fun x y => x.1 < y.1) ∧ ∀ x ∈ m, x.2 ≠ 0 := by
  induction m with
  | nil => simp [Memory.wf]
  | cons x r ih =>
    obtain ⟨a, v⟩ := x
    cases r with
    | nil => simp [Memory.wf]
    | cons y r =>
      obtain ⟨b, w⟩ := y
      simp only [Memory.wf, Bool.and_eq_true, bne_iff_ne, ne_eq, decide_eq_true_eq, ih]
      constructor
      · rintro ⟨⟨hv, hab⟩, hp, hz⟩
        refine ⟨List.pairwise_cons.2 ⟨fun z hz' => ?_, hp⟩, fun z hz' => ?_⟩
        · rcases List.mem_cons.1 hz' with rfl | hz'
          · exact hab
          · exact Nat.lt_trans hab ((List.pairwise_cons.1 hp).1 z hz')
        · rcases List.mem_cons.1 hz' with rfl | hz'
          · exact hv
          · exact hz z hz'
      · rintro ⟨hp, hz⟩
        have h := List.pairwise_cons.1 hp
        exact ⟨⟨hz (a, v) (by simp), h.1 (b, w) (by simp)⟩, h.2, fun z hz' => hz z (by simp [hz'])⟩

theorem mem_drop {α : Type} (m : Map α) (n : Nat) (x : Nat × α) : x ∈ drop m n → x ∈ m := by
  induction m with
  | nil => simp [drop]
  | cons y r ih =>
    obtain ⟨k, w⟩ := y
    simp only [drop]
    split
    · intro h; exact List.mem_cons_of_mem _ (ih h)
    · intro h
      rcases List.mem_cons.1 h with rfl | h
      · simp
      · exact List.mem_cons_of_mem _ (ih h)

theorem mem_put {α : Type} (m : Map α) (n : Nat) (v : α) (x : Nat × α) : x ∈ put m n v → x = (n, v) ∨ x ∈ m := by
  induction m with
  | nil => simp [put]
  | cons y r ih =>
    obtain ⟨k, w⟩ := y
    simp only [put]
    split
    · intro h
      rcases List.mem_cons.1 h with rfl | h
      · exact Or.inl rfl
      · exact Or.inr h
    · split
      · intro h
        rcases List.mem_cons.1 h with rfl | h
        · exact Or.inl rfl
        · exact Or.inr (List.mem_cons_of_mem _ h)
      · intro h
        rcases List.mem_cons.1 h with rfl | h
        · exact Or.inr (by simp)
        · rcases ih h with h | h
          · exact Or.inl h
          · exact Or.inr (List.mem_cons_of_mem _ h)

theorem rising_drop {α : Type} (m : Map α) (n : Nat) (h : m.Pairwise (fun x y => x.1 < y.1)) :
    (drop m n).Pairwise (fun x y => x.1 < y.1) := by
  induction m with
  | nil => simp [drop]
  | cons y r ih =>
    obtain ⟨k, w⟩ := y
    have h' := List.pairwise_cons.1 h
    simp only [drop]
    split
    · exact ih h'.2
    · exact List.pairwise_cons.2 ⟨fun z hz => h'.1 z (mem_drop r n z hz), ih h'.2⟩

theorem rising_put {α : Type} (m : Map α) (n : Nat) (v : α) (h : m.Pairwise (fun x y => x.1 < y.1)) :
    (put m n v).Pairwise (fun x y => x.1 < y.1) := by
  induction m with
  | nil => simp [put]
  | cons y r ih =>
    obtain ⟨k, w⟩ := y
    have h' := List.pairwise_cons.1 h
    simp only [put]
    split
    · next hlt =>
      refine List.pairwise_cons.2 ⟨fun z hz => ?_, h⟩
      rcases List.mem_cons.1 hz with rfl | hz
      · exact hlt
      · exact Nat.lt_trans hlt (h'.1 z hz)
    · split
      · next he => subst he; exact List.pairwise_cons.2 ⟨h'.1, h'.2⟩
      · next h1 h2 =>
        refine List.pairwise_cons.2 ⟨fun z hz => ?_, ih h'.2⟩
        rcases mem_put r n v z hz with rfl | hz
        · simp only; omega
        · exact h'.1 z hz

theorem rising_keep {α : Type} (p : Nat → α → Bool) (m : Map α) (h : m.Pairwise (fun x y => x.1 < y.1)) :
    (keep p m).Pairwise (fun x y => x.1 < y.1) := List.Pairwise.filter _ h

theorem wf_drop (m : List Host.Cell) (n : Nat) (h : Memory.wf m = true) : Memory.wf (drop m n) = true :=
  (wf_iff _).2 ⟨rising_drop m n ((wf_iff m).1 h).1, fun x hx => ((wf_iff m).1 h).2 x (mem_drop m n x hx)⟩

theorem wf_keep (p : Nat → Byte → Bool) (m : List Host.Cell) (h : Memory.wf m = true) : Memory.wf (keep p m) = true :=
  (wf_iff _).2 ⟨rising_keep p m ((wf_iff m).1 h).1, fun x hx => ((wf_iff m).1 h).2 x (List.mem_of_mem_filter hx)⟩

theorem wf_writeByte (m : List Host.Cell) (a : Nat) (v : Byte) (h : Memory.wf m = true) : Memory.wf (writeByte m a v) = true := by
  unfold writeByte
  split
  · exact wf_drop m a h
  · next hv =>
    refine (wf_iff _).2 ⟨rising_put m a v ((wf_iff m).1 h).1, fun x hx => ?_⟩
    rcases mem_put m a v x hx with rfl | hx
    · exact hv
    · exact ((wf_iff m).1 h).2 x hx

theorem wf_writeBytes (bytes : List Byte) (m : List Host.Cell) (a : Nat) (h : Memory.wf m = true) :
    Memory.wf (writeBytes m a bytes) = true := by
  induction bytes generalizing m a with
  | nil => exact h
  | cons b r ih => exact ih _ _ (wf_writeByte m a b h)

@[simp] theorem readByte_writeByte_self (m : List Host.Cell) (a : Nat) (v : Byte) : readByte (writeByte m a v) a = v := by
  unfold readByte writeByte
  split
  · next h => simp [h]
  · simp

theorem readByte_writeByte_other (m : List Host.Cell) (a b : Nat) (v : Byte) (h : b ≠ a) :
    readByte (writeByte m a v) b = readByte m b := by
  unfold readByte writeByte
  split
  · exact get_drop_other m a b 0 h
  · exact get_put_other m a b v 0 h

/-! The operations of the State that write memory. -/

@[simp] theorem farEnd_mem (s : State) (w : FarWait) : (s.farEnd w).mem = s.mem := by
  unfold State.farEnd
  split <;> split <;> rfl

theorem foldl_farEnd_mem (ws : List FarWait) (s : State) : (ws.foldl State.farEnd s).mem = s.mem := by
  induction ws generalizing s with
  | nil => rfl
  | cons w r ih => simp [ih]

/-- The end of a wait writes no byte. -/
@[simp] theorem farWake_mem (s : State) (hit : Watched → Bool) : (s.farWake hit).mem = s.mem := by
  unfold State.farWake
  dsimp only
  split
  · rfl
  · rw [foldl_farEnd_mem]

@[simp] theorem noteWrite_mem (s : State) (pa n : Nat) : (s.noteWrite pa n).mem = s.mem := by
  unfold State.noteWrite
  rw [farWake_mem]

@[simp] theorem fillFrame_mem (s : State) (f : Nat) : (s.fillFrame f).mem = keep (fun a _ => a / 2 ^ 16 != f) s.mem := by
  simp [State.fillFrame]

theorem wf_fillFrame (s : State) (f : Nat) (h : Memory.wf s.mem = true) : Memory.wf (s.fillFrame f).mem = true := by
  rw [fillFrame_mem]; exact wf_keep _ _ h

theorem wf_reach (s : State) (pa : Nat) (h : Memory.wf s.mem = true) : Memory.wf (s.reach pa).mem = true := by
  unfold State.reach
  split
  · exact wf_fillFrame s _ h
  · exact h

theorem wf_putBytes (s : State) (pa : Nat) (bytes : List Byte) (h : Memory.wf s.mem = true) : Memory.wf (s.putBytes pa bytes).mem = true :=
  wf_writeBytes _ _ _ (wf_reach s pa h)

theorem wf_writeN (s : State) (pa n v : Nat) (h : Memory.wf s.mem = true) : Memory.wf (s.writeN pa n v).mem = true := wf_putBytes s pa _ h

theorem wf_setMark (s : State) (pa code : Nat) (h : Memory.wf s.mem = true) : Memory.wf (s.setMark pa code).mem = true := wf_reach s pa h

end Sys2Proof.Machine
end

