-- ==== Sys2Proof/Laws/PerInstr.lean ====
section
/-! SUPPORT. For every instruction: the opcode that its encoding carries is found in the opcode maps of spec/05, as the instruction itself
with its own conditions. -/

namespace Sys2Proof.Laws.Encodable

/-- What the maps find under an instruction's own opcode is the instruction, with its checks and its place in the maps of warps and access slices. -/
def Statement (i : Instr) : Prop :=
  ∀ r, i.raw = some r → Safety.hasOpcode i = true →
    ∃ d, r.decoded = some d ∧ d.instr = i ∧ ∀ sl, d.check sl = i.check sl ∧ d.allowed sl = i.allowed sl

theorem of_early {i : Instr} {r : Raw} (h : i.raw = some r) (d : r.decoded = some (.early i)) : Statement i := by
  intro r' h' _
  rw [h] at h'
  cases h'
  exact ⟨.early i, d, rfl, fun _ => ⟨rfl, rfl⟩⟩

theorem of_late {l : Late} {r : Raw} (h : l.instr.raw = some r) (d : r.decoded = some (.late l)) : Statement l.instr := by
  intro r' h' _
  rw [h] at h'
  cases h'
  exact ⟨.late l, d, rfl, fun sl => ⟨late_check sl l, late_allowed sl l⟩⟩

theorem of_none {i : Instr} (h : i.raw = none) : Statement i := by
  intro r h'
  rw [h] at h'
  cases h'

theorem movH (f : HForm) : Statement (.movH f) := of_early rfl rfl
theorem iaddH (f : HForm) : Statement (.iaddH f) := of_early rfl rfl
theorem isubH (f : HForm) : Statement (.isubH f) := of_early rfl rfl
theorem imulH (f : HForm) : Statement (.imulH f) := of_early rfl rfl
theorem andH (f : HForm) : Statement (.andH f) := of_early rfl rfl
theorem orH (f : HForm) : Statement (.orH f) := of_early rfl rfl
theorem xorH (f : HForm) : Statement (.xorH f) := of_early rfl rfl
theorem shlH (f : HForm) : Statement (.shlH f) := of_early rfl rfl
theorem shrH (f : HForm) : Statement (.shrH f) := of_early rfl rfl
theorem sarH (f : HForm) : Statement (.sarH f) := of_early rfl rfl
theorem iminH (f : HForm) : Statement (.iminH f) := of_early rfl rfl
theorem imaxH (f : HForm) : Statement (.imaxH f) := of_early rfl rfl
theorem faddH (f : HForm) : Statement (.faddH f) := of_early rfl rfl
theorem fmulH (f : HForm) : Statement (.fmulH f) := of_early rfl rfl
theorem fmaxH (f : HForm) : Statement (.fmaxH f) := of_early rfl rfl
theorem ffmaH (f : HForm) : Statement (.ffmaH f) := of_early rfl rfl
theorem movW (f : WForm) : Statement (.movW f) := of_early rfl rfl
theorem iaddW (f : WForm) : Statement (.iaddW f) := of_early rfl rfl
theorem isubW (f : WForm) : Statement (.isubW f) := of_early rfl rfl
theorem imulW (f : WForm) : Statement (.imulW f) := of_early rfl rfl
theorem imulhW (f : WForm) : Statement (.imulhW f) := of_early rfl rfl
theorem iminW (f : WForm) : Statement (.iminW f) := of_early rfl rfl
theorem imaxW (f : WForm) : Statement (.imaxW f) := of_early rfl rfl
theorem andW (f : WForm) : Statement (.andW f) := of_early rfl rfl
theorem orW (f : WForm) : Statement (.orW f) := of_early rfl rfl
theorem xorW (f : WForm) : Statement (.xorW f) := of_early rfl rfl
theorem andnW (f : WForm) : Statement (.andnW f) := of_early rfl rfl
theorem notW (f : WForm) : Statement (.notW f) := of_early rfl rfl
theorem shlW (f : WForm) : Statement (.shlW f) := of_early rfl rfl
theorem shrW (f : WForm) : Statement (.shrW f) := of_early rfl rfl
theorem sarW (f : WForm) : Statement (.sarW f) := of_early rfl rfl
theorem rotW (f : WForm) : Statement (.rotW f) := of_early rfl rfl
theorem popcW (f : WForm) : Statement (.popcW f) := of_early rfl rfl
theorem clzW (f : WForm) : Statement (.clzW f) := of_early rfl rfl
theorem ctzW (f : WForm) : Statement (.ctzW f) := of_early rfl rfl
theorem brevW (f : WForm) : Statement (.brevW f) := of_early rfl rfl
theorem inegW (f : WForm) : Statement (.inegW f) := of_early rfl rfl
theorem iabsW (f : WForm) : Statement (.iabsW f) := of_early rfl rfl
theorem faddW (f : WForm) : Statement (.faddW f) := of_early rfl rfl
theorem fsubW (f : WForm) : Statement (.fsubW f) := of_early rfl rfl
theorem fmulW (f : WForm) : Statement (.fmulW f) := of_early rfl rfl
theorem fminW (f : WForm) : Statement (.fminW f) := of_early rfl rfl
theorem fmaxW (f : WForm) : Statement (.fmaxW f) := of_early rfl rfl
theorem frcpW (f : WForm) : Statement (.frcpW f) := of_early rfl rfl
theorem frsqW (f : WForm) : Statement (.frsqW f) := of_early rfl rfl
theorem fsqrtW (f : WForm) : Statement (.fsqrtW f) := of_early rfl rfl
theorem fexp2W (f : WForm) : Statement (.fexp2W f) := of_early rfl rfl
theorem flog2W (f : WForm) : Statement (.flog2W f) := of_early rfl rfl
theorem fsinW (f : WForm) : Statement (.fsinW f) := of_early rfl rfl
theorem fcosW (f : WForm) : Statement (.fcosW f) := of_early rfl rfl
theorem ftanhW (f : WForm) : Statement (.ftanhW f) := of_early rfl rfl
theorem hpaddW (f : WForm) : Statement (.hpaddW f) := of_early rfl rfl
theorem hpmulW (f : WForm) : Statement (.hpmulW f) := of_early rfl rfl
theorem hpmaxW (f : WForm) : Statement (.hpmaxW f) := of_early rfl rfl
theorem iaddWimm (f : WImmForm) : Statement (.iaddWimm f) := of_early rfl rfl
theorem imulWimm (f : WImmForm) : Statement (.imulWimm f) := of_early rfl rfl
theorem andWimm (f : WImmForm) : Statement (.andWimm f) := of_early rfl rfl
theorem orWimm (f : WImmForm) : Statement (.orWimm f) := of_early rfl rfl
theorem xorWimm (f : WImmForm) : Statement (.xorWimm f) := of_early rfl rfl
theorem shlWimm (f : WImmForm) : Statement (.shlWimm f) := of_early rfl rfl
theorem shrWimm (f : WImmForm) : Statement (.shrWimm f) := of_early rfl rfl
theorem sarWimm (f : WImmForm) : Statement (.sarWimm f) := of_early rfl rfl
theorem rotWimm (f : WImmForm) : Statement (.rotWimm f) := of_early rfl rfl
theorem iminWimm (f : WImmForm) : Statement (.iminWimm f) := of_early rfl rfl
theorem imaxWimm (f : WImmForm) : Statement (.imaxWimm f) := of_early rfl rfl
theorem moviWi (f : WIForm) : Statement (.moviWi f) := of_early rfl rfl
theorem iaddWi (f : WIForm) : Statement (.iaddWi f) := of_early rfl rfl
theorem imulWi (f : WIForm) : Statement (.imulWi f) := of_early rfl rfl
theorem andWi (f : WIForm) : Statement (.andWi f) := of_early rfl rfl
theorem orWi (f : WIForm) : Statement (.orWi f) := of_early rfl rfl
theorem xorWi (f : WIForm) : Statement (.xorWi f) := of_early rfl rfl
theorem iminWi (f : WIForm) : Statement (.iminWi f) := of_early rfl rfl
theorem imaxWi (f : WIForm) : Statement (.imaxWi f) := of_early rfl rfl
theorem braWi (f : WIForm) : Statement (.braWi f) := of_early rfl rfl
theorem checkW (f : WForm) : Statement (.checkW f) := of_early rfl rfl
theorem nopW (f : WForm) : Statement (.nopW f) := of_early rfl rfl
theorem exitW (f : WForm) : Statement (.exitW f) := of_early rfl rfl
theorem holdW (f : WForm) : Statement (.holdW f) := of_early rfl rfl
theorem yieldW (f : WForm) : Statement (.yieldW f) := of_early rfl rfl
theorem retW (f : WForm) : Statement (.retW f) := of_early rfl rfl
theorem movD (f : DForm) : Statement (.movD f) := of_early rfl rfl
theorem iaddD (f : DForm) : Statement (.iaddD f) := of_early rfl rfl
theorem iaddxD (f : DForm) : Statement (.iaddxD f) := of_early rfl rfl
theorem isubD (f : DForm) : Statement (.isubD f) := of_early rfl rfl
theorem imulD (f : DForm) : Statement (.imulD f) := of_early rfl rfl
theorem imulhD (f : DForm) : Statement (.imulhD f) := of_early rfl rfl
theorem imadD (f : DForm) : Statement (.imadD f) := of_early rfl rfl
theorem iabsD (f : DForm) : Statement (.iabsD f) := of_early rfl rfl
theorem inegD (f : DForm) : Statement (.inegD f) := of_early rfl rfl
theorem iminD (f : DForm) : Statement (.iminD f) := of_early rfl rfl
theorem imaxD (f : DForm) : Statement (.imaxD f) := of_early rfl rfl
theorem icmpD (f : DForm) : Statement (.icmpD f) := of_early rfl rfl
theorem selD (f : DForm) : Statement (.selD f) := of_early rfl rfl
theorem andD (f : DForm) : Statement (.andD f) := of_early rfl rfl
theorem orD (f : DForm) : Statement (.orD f) := of_early rfl rfl
theorem xorD (f : DForm) : Statement (.xorD f) := of_early rfl rfl
theorem notD (f : DForm) : Statement (.notD f) := of_early rfl rfl
theorem andnD (f : DForm) : Statement (.andnD f) := of_early rfl rfl
theorem tbl3D (f : DForm) : Statement (.tbl3D f) := of_early rfl rfl
theorem shlD (f : DForm) : Statement (.shlD f) := of_early rfl rfl
theorem shrD (f : DForm) : Statement (.shrD f) := of_early rfl rfl
theorem sarD (f : DForm) : Statement (.sarD f) := of_early rfl rfl
theorem rotD (f : DForm) : Statement (.rotD f) := of_early rfl rfl
theorem funnelD (f : DForm) : Statement (.funnelD f) := of_early rfl rfl
theorem bfxD (f : DForm) : Statement (.bfxD f) := of_early rfl rfl
theorem bfiD (f : DForm) : Statement (.bfiD f) := of_early rfl rfl
theorem popcD (f : DForm) : Statement (.popcD f) := of_early rfl rfl
theorem clzD (f : DForm) : Statement (.clzD f) := of_early rfl rfl
theorem ctzD (f : DForm) : Statement (.ctzD f) := of_early rfl rfl
theorem brevD (f : DForm) : Statement (.brevD f) := of_early rfl rfl
theorem leaD (f : DForm) : Statement (.leaD f) := of_early rfl rfl
theorem dp4D (f : DForm) : Statement (.dp4D f) := of_early rfl rfl
theorem dp8D (f : DForm) : Statement (.dp8D f) := of_early rfl rfl
theorem faddD (f : DForm) : Statement (.faddD f) := of_early rfl rfl
theorem fsubD (f : DForm) : Statement (.fsubD f) := of_early rfl rfl
theorem fmulD (f : DForm) : Statement (.fmulD f) := of_early rfl rfl
theorem ffmaD (f : DForm) : Statement (.ffmaD f) := of_early rfl rfl
theorem fminD (f : DForm) : Statement (.fminD f) := of_early rfl rfl
theorem fmaxD (f : DForm) : Statement (.fmaxD f) := of_early rfl rfl
theorem fcmpD (f : DForm) : Statement (.fcmpD f) := of_early rfl rfl
theorem fclassD (f : DForm) : Statement (.fclassD f) := of_early rfl rfl
theorem frcpD (f : DForm) : Statement (.frcpD f) := of_early rfl rfl
theorem frsqD (f : DForm) : Statement (.frsqD f) := of_early rfl rfl
theorem fsqrtD (f : DForm) : Statement (.fsqrtD f) := of_early rfl rfl
theorem fexp2D (f : DForm) : Statement (.fexp2D f) := of_early rfl rfl
theorem flog2D (f : DForm) : Statement (.flog2D f) := of_early rfl rfl
theorem fsinD (f : DForm) : Statement (.fsinD f) := of_early rfl rfl
theorem fcosD (f : DForm) : Statement (.fcosD f) := of_early rfl rfl
theorem ftanhD (f : DForm) : Statement (.ftanhD f) := of_early rfl rfl
theorem fscaleD (f : DForm) : Statement (.fscaleD f) := of_early rfl rfl
theorem frndD (f : DForm) : Statement (.frndD f) := of_early rfl rfl
theorem fdivfixD (f : DForm) : Statement (.fdivfixD f) := of_early rfl rfl
theorem daddD (f : DForm) : Statement (.daddD f) := of_early rfl rfl
theorem dmulD (f : DForm) : Statement (.dmulD f) := of_early rfl rfl
theorem dfmaD (f : DForm) : Statement (.dfmaD f) := of_early rfl rfl
theorem dcmpD (f : DForm) : Statement (.dcmpD f) := of_early rfl rfl
theorem hpaddD (f : DForm) : Statement (.hpaddD f) := of_early rfl rfl
theorem hpmulD (f : DForm) : Statement (.hpmulD f) := of_early rfl rfl
theorem hpfmaD (f : DForm) : Statement (.hpfmaD f) := of_early rfl rfl
theorem hpmaxD (f : DForm) : Statement (.hpmaxD f) := of_early rfl rfl
theorem packD (f : DForm) : Statement (.packD f) := of_early rfl rfl
theorem unpackD (f : DForm) : Statement (.unpackD f) := of_early rfl rfl
theorem cvtD (dt : BitVec 4) (f : DForm) : Statement (.cvtD dt f) := of_early rfl (cvt_decoded dt f)
theorem cvtsD (dt : BitVec 4) (f : DForm) : Statement (.cvtsD dt f) := fun _ h o => by cases h; exact ⟨_, cvts_decoded dt f o, rfl, fun _ => ⟨rfl, rfl⟩⟩
theorem shflD (f : DForm) : Statement (.shflD f) := of_early rfl rfl
theorem ballotD (f : DForm) : Statement (.ballotD f) := of_early rfl rfl
theorem agreeD (f : DForm) : Statement (.agreeD f) := of_early rfl rfl
theorem vpfxD (f : DForm) : Statement (.vpfxD f) := of_early rfl rfl
theorem vredD (f : DForm) : Statement (.vredD f) := of_early rfl rfl
theorem matchD (f : DForm) : Statement (.matchD f) := of_early rfl rfl
theorem xsectD (f : DForm) : Statement (.xsectD f) := of_early rfl rfl
theorem conflD (f : DForm) : Statement (.conflD f) := of_early rfl rfl
theorem ptblD (f : DForm) : Statement (.ptblD f) := of_early rfl rfl
theorem pmovD (f : DForm) : Statement (.pmovD f) := of_early rfl rfl
theorem checkD (f : DForm) : Statement (.checkD f) := of_early rfl rfl
theorem ispoiD (f : DForm) : Statement (.ispoiD f) := of_early rfl rfl
theorem pclrD (f : DForm) : Statement (.pclrD f) := of_early rfl rfl
theorem movDp (f : DPForm) : Statement (.movDp f) := of_early rfl rfl
theorem iaddDp (f : DPForm) : Statement (.iaddDp f) := of_early rfl rfl
theorem isubDp (f : DPForm) : Statement (.isubDp f) := of_early rfl rfl
theorem imulDp (f : DPForm) : Statement (.imulDp f) := of_early rfl rfl
theorem iminDp (f : DPForm) : Statement (.iminDp f) := of_early rfl rfl
theorem imaxDp (f : DPForm) : Statement (.imaxDp f) := of_early rfl rfl
theorem andDp (f : DPForm) : Statement (.andDp f) := of_early rfl rfl
theorem orDp (f : DPForm) : Statement (.orDp f) := of_early rfl rfl
theorem xorDp (f : DPForm) : Statement (.xorDp f) := of_early rfl rfl
theorem shlDp (f : DPForm) : Statement (.shlDp f) := of_early rfl rfl
theorem shrDp (f : DPForm) : Statement (.shrDp f) := of_early rfl rfl
theorem faddDp (f : DPForm) : Statement (.faddDp f) := of_early rfl rfl
theorem fsubDp (f : DPForm) : Statement (.fsubDp f) := of_early rfl rfl
theorem fmulDp (f : DPForm) : Statement (.fmulDp f) := of_early rfl rfl
theorem fminDp (f : DPForm) : Statement (.fminDp f) := of_early rfl rfl
theorem fmaxDp (f : DPForm) : Statement (.fmaxDp f) := of_early rfl rfl
theorem braDi (f : DIForm) : Statement (.braDi f) := of_early rfl rfl
theorem brxD (f : DForm) : Statement (.brxD f) := of_early rfl rfl
theorem callDi (f : DIForm) : Statement (.callDi f) := of_early rfl rfl
theorem callxD (f : DForm) : Statement (.callxD f) := of_early rfl rfl
theorem retD (f : DForm) : Statement (.retD f) := of_early rfl rfl
theorem exitD (f : DForm) : Statement (.exitD f) := of_early rfl rfl
theorem nopD (f : DForm) : Statement (.nopD f) := of_early rfl rfl
theorem holdD (f : DForm) : Statement (.holdD f) := of_early rfl rfl
theorem yieldD (f : DForm) : Statement (.yieldD f) := of_early rfl rfl
theorem regionD (f : DForm) : Statement (.regionD f) := of_early rfl rfl
theorem spawnD (f : DForm) : Statement (.spawnD f) := of_early rfl rfl
theorem migrD (f : DForm) : Statement (.migrD f) := of_early rfl rfl
theorem homeD (f : DForm) : Statement (.homeD f) := of_early rfl rfl
theorem racqD (f : DForm) : Statement (.racqD f) := of_early rfl rfl
theorem rrelD (f : DForm) : Statement (.rrelD f) := of_early rfl rfl
theorem statD (f : DForm) : Statement (.statD f) := of_early rfl rfl
theorem moviDi (f : DIForm) : Statement (.moviDi f) := of_early rfl rfl
theorem kmovDi (f : DIForm) : Statement (.kmovDi f) := of_early rfl rfl
theorem kaddDi (f : DIForm) : Statement (.kaddDi f) := of_early rfl rfl
theorem tapeD (f : DForm) : Statement (.tapeD f) := of_early rfl rfl
theorem trapDi (f : DIForm) : Statement (.trapDi f) := of_early rfl rfl
theorem brkDi (f : DIForm) : Statement (.brkDi f) := of_early rfl rfl
theorem fbeginD (f : DForm) : Statement (.fbeginD f) := of_early rfl rfl
theorem fcommitD (f : DForm) : Statement (.fcommitD f) := of_early rfl rfl
theorem fabortD (f : DForm) : Statement (.fabortD f) := of_early rfl rfl
theorem launchD (f : DForm) : Statement (.launchD f) := of_early rfl rfl
theorem trigD (f : DForm) : Statement (.trigD f) := of_early rfl rfl
theorem ldDm (f : DMForm) : Statement (.ldDm f) := of_early rfl rfl
theorem stDm (f : DMForm) : Statement (.stDm f) := of_early rfl rfl
theorem ldfDm (f : DMForm) : Statement (.ldfDm f) := of_early rfl rfl
theorem ldsDm (f : DMForm) : Statement (.ldsDm f) := of_early rfl rfl
theorem stsDm (f : DMForm) : Statement (.stsDm f) := of_early rfl rfl
theorem stmDm (f : DMForm) : Statement (.stmDm f) := of_early rfl rfl
theorem ldwDm (f : DMForm) : Statement (.ldwDm f) := of_early rfl rfl
theorem stwDm (f : DMForm) : Statement (.stwDm f) := of_early rfl rfl
theorem ldgDm (f : DMForm) : Statement (.ldgDm f) := of_early rfl rfl
theorem pmaxDm (f : DMForm) : Statement (.pmaxDm f) := of_early rfl rfl
theorem agatDm (f : DMForm) : Statement (.agatDm f) := of_early rfl rfl
theorem asctDm (f : DMForm) : Statement (.asctDm f) := of_early rfl rfl
theorem kldDm (f : DMForm) : Statement (.kldDm f) := of_early rfl rfl
theorem atomAdd (f : DMForm) : Statement (.atomAdd f) := of_early rfl rfl
theorem atomMin (f : DMForm) : Statement (.atomMin f) := of_early rfl rfl
theorem atomMax (f : DMForm) : Statement (.atomMax f) := of_early rfl rfl
theorem atomAnd (f : DMForm) : Statement (.atomAnd f) := of_early rfl rfl
theorem atomOr (f : DMForm) : Statement (.atomOr f) := of_early rfl rfl
theorem atomXor (f : DMForm) : Statement (.atomXor f) := of_early rfl rfl
theorem atomXchg (f : DMForm) : Statement (.atomXchg f) := of_early rfl rfl
theorem atomCas (f : DMForm) : Statement (.atomCas f) := of_early rfl rfl
theorem atomFadd (f : DMForm) : Statement (.atomFadd f) := of_early rfl rfl
theorem atomqBinc (f : DMForm) : Statement (.atomqBinc f) := of_early rfl rfl
theorem atomqWinc (f : DMForm) : Statement (.atomqWinc f) := of_early rfl rfl
theorem atomqCdec (f : DMForm) : Statement (.atomqCdec f) := of_early rfl rfl
theorem atomqLadd (f : DMForm) : Statement (.atomqLadd f) := of_early rfl rfl
theorem atomsAdd (f : DMForm) : Statement (.atomsAdd f) := of_early rfl rfl
theorem atomsMin (f : DMForm) : Statement (.atomsMin f) := of_early rfl rfl
theorem atomsMax (f : DMForm) : Statement (.atomsMax f) := of_early rfl rfl
theorem atomsAnd (f : DMForm) : Statement (.atomsAnd f) := of_early rfl rfl
theorem atomsOr (f : DMForm) : Statement (.atomsOr f) := of_early rfl rfl
theorem atomsXor (f : DMForm) : Statement (.atomsXor f) := of_early rfl rfl
theorem atomsXchg (f : DMForm) : Statement (.atomsXchg f) := of_early rfl rfl
theorem atomsCas (f : DMForm) : Statement (.atomsCas f) := of_early rfl rfl
theorem atomsFadd (f : DMForm) : Statement (.atomsFadd f) := of_early rfl rfl
theorem redAdd (f : DMForm) : Statement (.redAdd f) := of_early rfl rfl
theorem redMin (f : DMForm) : Statement (.redMin f) := of_early rfl rfl
theorem redMax (f : DMForm) : Statement (.redMax f) := of_early rfl rfl
theorem redAnd (f : DMForm) : Statement (.redAnd f) := of_early rfl rfl
theorem redOr (f : DMForm) : Statement (.redOr f) := of_early rfl rfl
theorem redXor (f : DMForm) : Statement (.redXor f) := of_early rfl rfl
theorem redFadd (f : DMForm) : Statement (.redFadd f) := of_early rfl rfl
theorem cpyD (f : DForm) : Statement (.cpyD f) := of_early rfl rfl
theorem cpytD (f : DForm) : Statement (.cpytD f) := of_early rfl rfl
theorem opkD (f : DForm) : Statement (.opkD f) := of_late (l := .opkD f) rfl rfl
theorem mwaitD (f : DForm) : Statement (.mwaitD f) := of_late (l := .mwaitD f) rfl rfl
theorem waitaD (f : DForm) : Statement (.waitaD f) := of_late (l := .waitaD f) rfl rfl
theorem waitcD (f : DForm) : Statement (.waitcD f) := of_late (l := .waitcD f) rfl rfl
theorem fenceD (f : DForm) : Statement (.fenceD f) := of_late (l := .fenceD f) rfl rfl
theorem barD (f : DForm) : Statement (.barD f) := of_late (l := .barD f) rfl rfl
theorem ebarD (f : DForm) : Statement (.ebarD f) := of_late (l := .ebarD f) rfl rfl
theorem astrD (f : DForm) : Statement (.astrD f) := of_late (l := .astrD f) rfl rfl
theorem mmaD (f : DForm) : Statement (.mmaD f) := of_late (l := .mmaD f) rfl rfl
theorem mmabD (f : DForm) : Statement (.mmabD f) := of_late (l := .mmabD f) rfl rfl
theorem mzeroD (f : DForm) : Statement (.mzeroD f) := of_late (l := .mzeroD f) rfl rfl
theorem maccD (f : DForm) : Statement (.maccD f) := of_late (l := .maccD f) rfl rfl
theorem selcD (f : DForm) : Statement (.selcD f) := of_late (l := .selcD f) rfl rfl
theorem warpFormation (cluster slot : Nat) : Statement (.warpFormation cluster slot) := of_none rfl
theorem promotion (thread : Nat) : Statement (.promotion thread) := of_none rfl
theorem longWriteReturn (op : Nat) (reply : Reply) : Statement (.longWriteReturn op reply) := of_none rfl
theorem storeAcknowledgement (op : Nat) (reply : Reply) : Statement (.storeAcknowledgement op reply) := of_none rfl
theorem queueWaitResume (cluster slot : Nat) : Statement (.queueWaitResume cluster slot) := of_none rfl
theorem translationWalkEnd (row ctx granule : Nat) (cached : Bool) : Statement (.translationWalkEnd row ctx granule cached) := of_none rfl
theorem mseRead (op : Nat) (ecc : Ecc) : Statement (.mseRead op ecc) := of_none rfl
theorem mseWrite (op : Nat) : Statement (.mseWrite op) := of_none rfl
theorem mseAtomic (op : Nat) (ecc : Ecc) : Statement (.mseAtomic op ecc) := of_none rfl
theorem bankAtomic (op : Nat) : Statement (.bankAtomic op) := of_none rfl
theorem opkPacket (op : Nat) (replies : List Reply) : Statement (.opkPacket op replies) := of_none rfl
theorem forwardedOperation (op : Nat) : Statement (.forwardedOperation op) := of_none rfl
theorem stmCopy (op cluster : Nat) : Statement (.stmCopy op cluster) := of_none rfl
theorem registerWindowAccess (op : Nat) : Statement (.registerWindowAccess op) := of_none rfl
theorem monitorRecheck (thread : Nat) : Statement (.monitorRecheck thread) := of_none rfl
theorem gateRelease (op : Nat) : Statement (.gateRelease op) := of_none rfl
theorem frontierUpdate (die : Nat) : Statement (.frontierUpdate die) := of_none rfl
theorem gateResend (op : Nat) : Statement (.gateResend op) := of_none rfl
theorem copyElementRead (engine command : Nat) (ecc : Ecc) (reply : Option Reply) : Statement (.copyElementRead engine command ecc reply) := of_none rfl
theorem copyCompletion (engine command : Nat) : Statement (.copyCompletion engine command) := of_none rfl
theorem cacheDrop (engine command place : Nat) : Statement (.cacheDrop engine command place) := of_none rfl
theorem sliceFill (op : Nat) : Statement (.sliceFill op) := of_none rfl
theorem accessIssue (group : Nat) : Statement (.accessIssue group) := of_none rfl
theorem streamElementReturn (group stream : Nat) (ecc : Ecc) (reply : Option Reply) : Statement (.streamElementReturn group stream ecc reply) := of_none rfl
theorem matrixOperationStart (group : Nat) : Statement (.matrixOperationStart group) := of_none rfl
theorem matrixOperationComplete (group : Nat) (upset : List Nat) : Statement (.matrixOperationComplete group upset) := of_none rfl
theorem messageDelivery (cluster message : Nat) : Statement (.messageDelivery cluster message) := of_none rfl
theorem messageResend (cluster message : Nat) : Statement (.messageResend cluster message) := of_none rfl
theorem departure (thread : Nat) : Statement (.departure thread) := of_none rfl
theorem migrationMessage (thread : Nat) (peer : Admission) : Statement (.migrationMessage thread peer) := of_none rfl
theorem migrationAcknowledgement (thread : Nat) : Statement (.migrationAcknowledgement thread) := of_none rfl
theorem migrationRefusal (thread : Nat) : Statement (.migrationRefusal thread) := of_none rfl
theorem migrResend (thread : Nat) : Statement (.migrResend thread) := of_none rfl
theorem arrivalAdmission (cluster : Nat) : Statement (.arrivalAdmission cluster) := of_none rfl
theorem spawnMessage (cluster message : Nat) (peer : Admission) : Statement (.spawnMessage cluster message peer) := of_none rfl
theorem spawnResend (cluster message : Nat) : Statement (.spawnResend cluster message) := of_none rfl
theorem triggerNotice (act count : Nat) : Statement (.triggerNotice act count) := of_none rfl
theorem completionNotice (act source count : Nat) : Statement (.completionNotice act source count) := of_none rfl
theorem failureNotice (act : Nat) : Statement (.failureNotice act) := of_none rfl
theorem racqGrant (cluster : Nat) : Statement (.racqGrant cluster) := of_none rfl
theorem registerPoolEviction (cluster : Nat) : Statement (.registerPoolEviction cluster) := of_none rfl
theorem swapOut (ctx row : Nat) : Statement (.swapOut ctx row) := of_none rfl
theorem kldReply (op : Nat) (reply : Reply) : Statement (.kldReply op reply) := of_none rfl
theorem transactionPacket (op : Nat) (accepted : Bool) : Statement (.transactionPacket op accepted) := of_none rfl
theorem fcommitCommit (thread : Nat) (replies : List Reply) : Statement (.fcommitCommit thread replies) := of_none rfl
theorem fcommitReply (thread : Nat) (reply : Reply) : Statement (.fcommitReply thread reply) := of_none rfl
theorem actRetirement (act : Nat) : Statement (.actRetirement act) := of_none rfl
theorem cbpost (callboard : Nat) (header : Dword) : Statement (.cbpost callboard header) := of_none rfl
theorem cbctlWrite (callboard : Nat) (value : Dword) : Statement (.cbctlWrite callboard value) := of_none rfl
theorem actReady (callboard : Nat) : Statement (.actReady callboard) := of_none rfl
theorem placement (partition : Nat) : Statement (.placement partition) := of_none rfl
theorem roamingReleaseResend (act : Nat) : Statement (.roamingReleaseResend act) := of_none rfl
theorem congestionWindow (rows : List (Byte × Byte)) (dies : List Byte) : Statement (.congestionWindow rows dies) := of_none rfl
theorem partmapWrite (value : Dword) : Statement (.partmapWrite value) := of_none rfl
theorem contextEnable (ctx : Nat) (value : Dword) : Statement (.contextEnable ctx value) := of_none rfl
theorem contextEnd (ctx : Nat) (value : Dword) : Statement (.contextEnd ctx value) := of_none rfl
theorem ctxmodeWrite (ctx : Nat) (value : Dword) : Statement (.ctxmodeWrite ctx value) := of_none rfl
theorem clockChangeDone (partition : Nat) : Statement (.clockChangeDone partition) := of_none rfl
theorem switchOut (ctx : Nat) : Statement (.switchOut ctx) := of_none rfl
theorem switchIn (ctx : Nat) : Statement (.switchIn ctx) := of_none rfl
theorem frameownWrite (value : Dword) : Statement (.frameownWrite value) := of_none rfl
theorem zeroFillDone (frame : Nat) : Statement (.zeroFillDone frame) := of_none rfl
theorem ctxinvRange (ctx : Nat) (value : Dword) : Statement (.ctxinvRange ctx value) := of_none rfl
theorem ctxinvAll (ctx : Nat) : Statement (.ctxinvAll ctx) := of_none rfl
theorem invalidationComplete (ctx : Nat) : Statement (.invalidationComplete ctx) := of_none rfl
theorem atsCompletion (request : Nat) (answer : AtsAnswer) : Statement (.atsCompletion request answer) := of_none rfl
theorem atsTimeout (request : Nat) : Statement (.atsTimeout request) := of_none rfl
theorem atsInvalidateRequest (tag pasid page pages : Nat) (all : Bool) : Statement (.atsInvalidateRequest tag pasid page pages all) := of_none rfl
theorem invalidateCompletion (tag : Nat) : Statement (.invalidateCompletion tag) := of_none rfl
theorem prgResponse (request : Nat) (code : PrgCode) : Statement (.prgResponse request code) := of_none rfl
theorem bar2Read (address bytes : Nat) : Statement (.bar2Read address bytes) := of_none rfl
theorem bar2Write (address : Nat) (data : List Byte) : Statement (.bar2Write address data) := of_none rfl
theorem personalitySwitch (group : Nat) (value : Dword) : Statement (.personalitySwitch group value) := of_none rfl
theorem quiesceNotice (group : Nat) : Statement (.quiesceNotice group) := of_none rfl
theorem switchDrainEnd (group : Nat) : Statement (.switchDrainEnd group) := of_none rfl
theorem switchDrainBound (group : Nat) (applied : List Nat) : Statement (.switchDrainBound group applied) := of_none rfl
theorem switchRetrainDone (group : Nat) (trained : Bool) : Statement (.switchRetrainDone group trained) := of_none rfl
theorem switchExchangeDone (group : Nat) (result : Exchange) : Statement (.switchExchangeDone group result) := of_none rfl
theorem lossOfLight (group : Nat) (applied : List Nat) : Statement (.lossOfLight group applied) := of_none rfl
theorem peerLeftPod (package : Nat) : Statement (.peerLeftPod package) := of_none rfl
theorem peerRequest (request : PeerReq) : Statement (.peerRequest request) := of_none rfl
theorem cxlTimeout (op : Nat) : Statement (.cxlTimeout op) := of_none rfl
theorem fabricAckTimeout (op : Nat) : Statement (.fabricAckTimeout op) := of_none rfl
theorem keyRotation (group : Nat) : Statement (.keyRotation group) := of_none rfl
theorem linkRecoveryResolved (thread : Nat) : Statement (.linkRecoveryResolved thread) := of_none rfl
theorem linkRecoveryTimeout (thread : Nat) : Statement (.linkRecoveryTimeout thread) := of_none rfl
theorem linkFlitError (link lane : Nat) (exhausted : Bool) : Statement (.linkFlitError link lane exhausted) := of_none rfl
theorem curtainSignal (ctx : Nat) (engine : EngineKind) (unit : Nat) : Statement (.curtainSignal ctx engine unit) := of_none rfl
theorem curtainSkidDeadline (ctx : Nat) : Statement (.curtainSkidDeadline ctx) := of_none rfl
theorem curtainDone (ctx : Nat) : Statement (.curtainDone ctx) := of_none rfl
theorem watchdogExpiry (owner : WatchOwner) : Statement (.watchdogExpiry owner) := of_none rfl
theorem ctxpgdoneGranule (ctx granule : Nat) : Statement (.ctxpgdoneGranule ctx granule) := of_none rfl
theorem ctxpgdoneAll (ctx : Nat) : Statement (.ctxpgdoneAll ctx) := of_none rfl
theorem ctxdbgRd (ctx : Nat) (coord : Word) : Statement (.ctxdbgRd ctx coord) := of_none rfl
theorem ctxdbgWr (ctx : Nat) (coord : Word) : Statement (.ctxdbgWr ctx coord) := of_none rfl
theorem ctxdbgRes (ctx : Nat) (coord : Word) : Statement (.ctxdbgRes ctx coord) := of_none rfl
theorem ctxfrpRead (ctx : Nat) : Statement (.ctxfrpRead ctx) := of_none rfl
theorem relrpRead : Statement (.relrpRead) := of_none rfl
theorem egstatRead (group : Nat) : Statement (.egstatRead group) := of_none rfl
theorem scrub (cluster sector : Nat) (ecc : Ecc) : Statement (.scrub cluster sector ecc) := of_none rfl
theorem repcmdRepair (value : Dword) : Statement (.repcmdRepair value) := of_none rfl
theorem repairDone (kind unit : Nat) : Statement (.repairDone kind unit) := of_none rfl
theorem boot (found : BootIn) : Statement (.boot found) := of_none rfl
theorem firmwareUpdate (image : Image) : Statement (.firmwareUpdate image) := of_none rfl
theorem recoveryLoad (image : Image) : Statement (.recoveryLoad image) := of_none rfl
theorem attestationRequest (value : Dword) : Statement (.attestationRequest value) := of_none rfl
theorem attestationReportDone (stored : Bool) : Statement (.attestationReportDone stored) := of_none rfl
theorem powerWindow (measured : Half) (hot : Bool) : Statement (.powerWindow measured hot) := of_none rfl
theorem pwrctlWrite (value : Dword) : Statement (.pwrctlWrite value) := of_none rfl
theorem registerWrite (reg : MgmtReg) (index : Nat) (value : BitVec 128) : Statement (.registerWrite reg index value) := of_none rfl
theorem instructionFault (cluster slot : Nat) : Statement (.instructionFault cluster slot) := of_none rfl
theorem spawnAcknowledgement (cluster message : Nat) : Statement (.spawnAcknowledgement cluster message) := of_none rfl
theorem hostCompletionTimeout (op : Nat) : Statement (.hostCompletionTimeout op) := of_none rfl
theorem fabricUnreachableTimeout (act : Nat) : Statement (.fabricUnreachableTimeout act) := of_none rfl
theorem powerLoss : Statement (.powerLoss) := of_none rfl

end Sys2Proof.Laws.Encodable
end

