-- ==== Sys2Proof/Laws/Shared.lean ====
section
/-! SUPPORT. The shared operations of the instructions: what each answers where its instruction starts, and where it does not. -/

namespace Sys2Proof.Machine

open Sys2Proof.Safety

/-! What holds an instruction back. -/

theorem missingBlock_false {w : Warp} {d : Dst}
    (h : ∀ l ∈ w.executing, ∀ r ∈ d.regs, r.toNat < 0xC0 → blockOf r.toNat ≤ l.t.blocks) : w.missingBlock d = false := by
  simp only [Warp.missingBlock, List.any_eq_false]
  intro l hl
  simp only [Bool.not_eq_true, List.any_eq_false, Bool.and_eq_true, decide_eq_true_eq, not_and, not_lt]
  intro r hr h'
  exact h l hl r hr h'

/-- Nothing bars an instruction that starts. -/
theorem barred_none {s : State} {w : Warp} {srcs : List Src} {d : Dst} (h : Starts s w srcs d) : s.barred w srcs d false = none := by
  obtain ⟨h1, h2, h3⟩ := h
  have a : (w.queues srcs d).any (fun q => !s.queueExists w q) = false := by
    simpa [List.any_eq_false] using h1
  simp [State.barred, a, missingBlock_false h2, h3]

/-- Nothing waits for a destination that has room. -/
theorem noRoom_none {s : State} {w : Warp} {srcs : List Src} {d : Dst} (h : HasRoom s w srcs d) : s.noRoom w srcs d = none := by
  unfold State.noRoom
  unfold HasRoom at h
  unfold Warp.pushing
  cases hp : d.push w.slice with
  | none => simp
  | some x =>
    obtain ⟨q, wide⟩ := x
    obtain ⟨h1, h2⟩ := h q wide hp
    by_cases hq : q = 14
    · subst hq
      obtain ⟨h3, h5, h4⟩ := h2 rfl
      have c : (w.acting.any fun l => decide (255 ≤ s.outstanding l.key 3)) = false := by
        simpa [List.any_eq_false] using h5
      have f : (w.acting.all fun l => s.releaseReady l.key w.cluster l.t.vc 7 false) = true := by simpa using h4
      rcases h3 with h3 | h3
      · simp [h3]
      · have e : ¬ (16 ≤ ((s.takePops w srcs).1.cluster w.cluster).unseen) := by omega
        simp [e, f, c]
    · have := h1 hq
      split at this <;> simp_all

/-! Lane instructions. -/

/-- A lane instruction that nothing holds back leaves its results. -/
theorem runLane_eq {s : State} {h : Head} {w : Warp} {srcs : List Src} {d : Dst} {c : Bool} {f : List LaneIn → List LaneOut}
    (hw : s.warp h = some w) (a : s.barred w srcs d false = none) (b : s.noRoom w srcs d = none) :
    runLane s h srcs d c f = .next (s.laneDone w h srcs d c f) := by simp only [runLane, hw, a, b]

/-- A lane instruction that something bars leaves what the bar leaves. -/
theorem runLane_barred {s t : State} {h : Head} {w : Warp} {srcs : List Src} {d : Dst} {c : Bool} {f : List LaneIn → List LaneOut}
    (hw : s.warp h = some w) (a : s.barred w srcs d false = some t) : runLane s h srcs d c f = .next t := by
  simp only [runLane, hw, a]

/-- Without a warp there is no instruction. -/
theorem runLane_idle {s : State} {h : Head} {srcs : List Src} {d : Dst} {c : Bool} {f : List LaneIn → List LaneOut}
    (hw : s.warp h = none) : runLane s h srcs d c f = .refused .noWarp := by simp only [runLane, hw]

/-! Memory instructions. -/

/-- Nothing holds back an access that starts. -/
theorem memWait_none {s : State} {w : Warp} {m : MemDo} (h : AccessStarts s w m) : s.memWait w m = none := by
  obtain ⟨hg, ⟨h1, h2, h3⟩, ha, hw, ho, hr, hc, hroom⟩ := h
  have a : (w.queues m.srcs m.dst).any (fun q => !s.queueExists w q) = false := by
    simpa [List.any_eq_false] using h1
  have b : w.missingBlock m.dst = false := missingBlock_false h2
  have c : (m.pad && w.group.isNone) = false := by
    cases hp : m.pad with
    | false => rfl
    | true =>
      have := hg hp
      cases hgr : w.group with
      | none => simp [hgr] at this
      | some g => rfl
  have d : (w.acting.any fun l => s.acquirePending l.key) = false := by simpa [List.any_eq_false] using ha
  have e1 : (s.memAsks w m).filterMap (fun a => match a.lane.acts, a.aim with | true, .miss va => some (granule va) | _, _ => none) = [] := by
    rw [List.filterMap_eq_nil_iff]
    intro a' h'
    split
    · rename_i h1 h2
      exact absurd h2 ((hw a' h' h1).1 _)
    · rfl
  have e2 : (s.memAsks w m).filterMap (fun a => match a.lane.acts, a.aim with | true, .ats va => some va | _, _ => none) = [] := by
    rw [List.filterMap_eq_nil_iff]
    intro a' h'
    split
    · rename_i h1 h2
      exact absurd h2 ((hw a' h' h1).2 _)
    · rfl
  have f : ((s.memSends w m).any fun a => decide (2 ≤ a.eff.1) && s.releasePending a.lane.key) = false := by
    simp only [List.any_eq_false, Bool.and_eq_true, decide_eq_true_eq, not_and]
    intro x hx h
    simp [ho x hx h]
  have g : ((s.memSends w m).any fun a => (a.eff.1 = 3 || a.eff.1 = 4) && !s.releaseReady a.lane.key w.cluster a.lane.t.vc m.scope m.pad)
      = false := by
    simp only [List.any_eq_false, Bool.and_eq_true, Bool.or_eq_true, decide_eq_true_eq, not_and]
    intro x hx h
    simp [hr x hx h]
  have i : ((s.memSends w m).any fun a => decide (255 ≤ s.outstanding a.lane.key (a.cls m))) = false := by
    simp only [List.any_eq_false, decide_eq_true_eq]
    intro x hx
    have := hc x hx
    omega
  unfold State.memWait
  dsimp only
  rw [if_neg (by simp [a, b, c]), if_neg (by simp [d]), if_neg (by simp [h3]), if_neg (by erw [e1, e2]; simp), if_neg (by rw [f]; simp),
    if_neg (by rw [g]; simp), if_neg (by rw [i]; simp)]
  cases hp : m.dst.push w.slice with
  | none => simp
  | some x =>
    obtain ⟨q, wide⟩ := x
    obtain ⟨r2, r3⟩ := hroom q wide hp
    have r : ((s.memSends w m).isEmpty || (s.takePops w m.srcs).1.roomFor w q ((s.memSends w m).length * (if wide then 2 else 1))) = true := by
      rcases r2 with r2 | r2
      · simp [r2]
      · rw [r2, Bool.or_true]
    rw [if_neg (by dsimp only; rw [r]; simp), if_neg]
    rintro ⟨e, h2⟩
    have e : q = 14 := by simpa using e
    have : (w.acting.all fun l => s.releaseReady l.key w.cluster l.t.vc 7 false) = true := by simpa using r3 e
    simp [this] at h2

/-- A memory instruction that nothing holds back is done as `memDone` says. -/
theorem runMemory_eq {s : State} {h : Head} {w : Warp} {m : MemDo} (hw : s.warp h = some w) (a : s.memWait w m = none) :
    runMemory s h m = .next (s.memDone w h m) := by simp only [runMemory, hw, a]

theorem runMemory_held {s t : State} {h : Head} {w : Warp} {m : MemDo} (hw : s.warp h = some w) (a : s.memWait w m = some t) :
    runMemory s h m = .next t := by simp only [runMemory, hw, a]

/-! Thread instructions. -/

/-- An instruction over the executing threads runs its body. -/
theorem control_eq {s : State} {h : Head} {w : Warp} {srcs : List Src} {d : Dst} {fault : Warp → Bool}
    {body : Warp → (List (Lane × Word × Nat) → State) → List (Lane × List Val) → Res} (hw : s.warp h = some w)
    (a : s.barred w srcs d (fault w) = none) :
    Machine.control s h srcs d fault body
      = body w (fun raises => s.started w srcs (w.quiet raises)) (w.executing.map fun l => (l, s.sourceVals w srcs l)) := by
  simp only [Machine.control, hw, a]

/-- Where nothing raises, every thread whose guard holds reads its operands. -/
@[simp] theorem quiet_nil (w : Warp) : w.quiet [] = w.acting := by simp [Warp.quiet]

/-- With untagged guards no guard raises. -/
theorem badGuards_nil {w : Warp} (hg : Guarded w) : badGuards w = [] := by
  simp only [badGuards, List.filterMap_eq_nil_iff, Warp.executing, List.mem_filter]
  intro l hl
  simp [hg l hl.1]

/-- An instruction with no operand does its act in each thread whose guard holds. -/
theorem simple_eq {s : State} {h : Head} {w : Warp} {ends : Bool} {fault : Warp → Bool} {act : Warp → State → Lane → State}
    (hw : s.warp h = some w) (hg : Guarded w) (hf : fault w = false) :
    simple s h ends fault act = .next ((w.acting.foldl (act w) (s.started w [] w.acting)).step1 w h ends) := by
  have : s.barred w [] .none (fault w) = none := by
    simp [State.barred, Warp.queues, Dst.push, Warp.missingBlock, Dst.regs, hf, State.takePops]
  simp [simple, Machine.control, hw, this, State.finish, badGuards_nil hg]

/-! Issue. -/

/-- The late instructions have the meanings of the instructions that they are. -/
theorem execLate_eq (l : Late) (s : State) : execLate l s = exec l.instr s := by cases l <;> rfl

theorem execDecoded_eq (d : Decoded) (s : State) : execDecoded d s = exec d.instr s := by
  cases d with
  | early i => rfl
  | late l => exact execLate_eq l s

/-- An instruction of the access subset means in a slice what it means in a warp; ASTR the decoder carries apart. -/
theorem sliceExec_eq (i : Instr) (s : State) (h : i.inSlice = true) (ha : ∀ f, i ≠ .astrD f) : sliceExec i s = exec i s := by
  cases i <;> first | rfl | exact absurd rfl (ha _) | exact absurd h (by simp [Instr.inSlice])

end Sys2Proof.Machine
end

