-- ==== Sys2Proof/Tests/Slice0.lean ====
section
/-! SUPPORT. Tests: words of the encoding tables, ill-formed terms that each check refuses, and for every statement a state that meets its hypotheses. -/

open Sys2Proof Sys2Proof.Machine Sys2Proof.Safety

set_option maxRecDepth 16000

namespace Sys2Proof.Tests

/-! Small states. -/

/-- A roaming thread Issuing at 0x10000 with g1 = 5, g2 = 3, g4:g5 = 0x20000. -/
def thread : Thread :=
  { Thread.new 0 0 none 0 0 0x10000 0 with
    cue := .issuing
    regs := [(1, Cell.ofTw (.data 5)), (2, Cell.ofTw (.data 3)), (4, Cell.ofTw (.data 0x20000)), (5, Cell.ofTw (.data 0))] }

/-- Context 0 enabled, slot 0 of cluster 0 holding one thread, its code and a page of data translated. -/
def state (t : Thread) : State :=
  { State.reset with
    threads := [(0, t)]
    slots := [(0, { Slot.init with lanes := [some 0], pc := t.pc })]
    ctxs := [(0, { Ctx.init with ctl := 0x8000000000000000 })]
    rows := [(0, { Row.init with tlb := [⟨0, 0x10000, false, 0x10000, 2, false, false, 2 ^ 16, none⟩, ⟨0, 0x20000, false, 0x20000, 1, true, false, 2 ^ 16, none⟩] })] }

/-- A group at base slot 0 of cluster 0, with an access slice, queues and scratchpad. -/
def group : Group :=
  { ctx := 0, act := 0, gid := 0, index := 0, ens := 0, cluster := 0, base := 0, size := 1, row0 := 0, scr := 4096, mirror := 0, swz := 0
    nacc := 256, nfifo := 4, qbind := 0xF, asl := true, memb := false, k := List.replicate 16 Tw.zero, kPrev := none, q := [], fifos := []
    acc := [], pad := [], bars := [], mq := [], mxDog := 0
    slice := some { pc := 0x10000, running := true, wait := 0, since := 0, streams := [], walks := [] }
    lastIssue := 0, enabled := true, exited := 0 }

def anchored (t : Thread) (g : Group) : State := { state { t with group := some 0 } with groups := [(0, g)] }

/-- The access slice of the group about to issue. -/
def sliced (g : Group) : State :=
  { anchored thread g with
    cur := .slice 0
    threads := (List.range 32).map fun l => (laneKey 0 l, { thread with group := some 0, tid := BitVec.ofNat 32 l }) }

theorem roomless {s : State} {w : Warp} {srcs : List Src} {d : Dst} (h : d.push w.slice = none) : HasRoom s w srcs d := by
  intro q wide h'
  rw [h] at h'
  cases h'

theorem walked {s : State} {w : Warp} {m : MemDo}
    (h : ((s.memAsks w m).all fun a => match a.aim with | .miss _ => false | .ats _ => false | _ => true) = true) :
    ∀ a ∈ s.memAsks w m, a.lane.acts = true → (∀ va, a.aim ≠ .miss va) ∧ (∀ va, a.aim ≠ .ats va) := by
  intro a ha _
  have := List.all_eq_true.1 h a ha
  constructor <;> (intro va e; simp [e] at this)

/-! Lane instructions. -/

def addH : HForm := ⟨2, 1, false⟩

theorem witness_LaneInstructionsComplete : ∃ i L s w, s.warp L.head = some w ∧ Starts s w L.srcs L.dst ∧ HasRoom s w L.srcs L.dst
    ∧ laneRule i = some L := by
  refine ⟨.iaddH addH, _, state thread, _, rfl, ?_, roomless rfl, rfl⟩
  unfold Starts; decide

def dform (mod : BitVec 10) (d s1 s2 s3 : Byte) : DForm := ⟨mod, 0, s3, 0, s2, 0, s1, d, false, 7, 0⟩

theorem witness_LaneInstructionsComplete_fp64 : ∃ i L s w k, s.warp L.head = some w ∧ Starts s w L.srcs L.dst ∧ HasRoom s w L.srcs L.dst
    ∧ laneRule64 i = some L ∧ s.cur = .slot k ∧ ((s.laneDone w L.head L.srcs L.dst L.checked L.results).slot k).wait = 0 := by
  refine ⟨.daddD (dform 0 6 4 4 0xF0), _, state thread, _, 0, rfl, ?_, roomless rfl, rfl, rfl, ?_⟩
  · unfold Starts; decide
  · decide

/-- A lane instruction that leaves its result in the destination d, of a warp with one executing thread. -/
def Leaves (i : Instr) (d : Dst) : Prop :=
  ∃ L w, (laneRule i = some L ∨ laneRule64 i = some L) ∧ (state thread).warp L.head = some w ∧ L.dst = d ∧ L.dst.push w.slice = none
    ∧ Starts (state thread) w L.srcs L.dst ∧ Sound (state thread) w L.checked
    ∧ ∃ l o, (l, o) ∈ w.executing.zip (L.results ((state thread).laneIns w L.srcs)) ∧ Lone w l

/-- A register; a pair; the consecutive registers of UNPACK; a predicate, last of those that are written. -/
theorem witness_LaneResults : Leaves (.iaddH addH) (.reg 1 false) := by
  refine ⟨_, _, .inl rfl, rfl, rfl, rfl, ?_, ?_, _, _, List.mem_cons_self, ?_⟩
  · unfold Starts; decide
  · unfold Sound; decide
  · unfold Lone; decide

theorem witness_LaneResults_wide : Leaves (.daddD (dform 0x2C0 6 4 4 0xF0)) (.reg 6 true) := by
  refine ⟨_, _, .inr rfl, rfl, rfl, rfl, ?_, ?_, _, _, List.mem_cons_self, ?_⟩
  · unfold Starts; decide
  · unfold Sound; decide
  · unfold Lone; decide

theorem witness_LaneResults_many : Leaves (.unpackD (dform 0x201 8 1 2 0xF0)) (.many 8 2) := by
  refine ⟨_, _, .inl rfl, rfl, rfl, rfl, ?_, ?_, _, _, List.mem_cons_self, ?_⟩
  · unfold Starts; decide
  · unfold Sound; decide
  · unfold Lone; decide

theorem witness_LaneResults_predicate : Leaves (.icmpD (dform 0x108 6 1 2 0xF0)) (.pred 6) := by
  refine ⟨_, _, .inl rfl, rfl, rfl, rfl, ?_, ?_, _, _, List.mem_cons_self, ?_⟩
  · unfold Starts; decide
  · unfold Sound; decide
  · unfold Lone; decide

/-- A slot with a thread whose guard p0 is false beside one that executes. -/
def twoThreads : State :=
  { state thread with
    threads := [(0, thread), (1, { thread with preds := List.replicate 7 { PCell.false with val := true } })]
    slots := [(0, { Slot.init with lanes := [some 0, some 1], pc := 0x10000 })] }

theorem witness_LaneFrame : ∃ i L s w, laneRule i = some L ∧ s.warp L.head = some w ∧ w.slice = false ∧ w.queues L.srcs L.dst = []
    ∧ Starts s w L.srcs L.dst ∧ Sound s w L.checked ∧ ∃ l ∈ w.lanes, Lone w l := by
  refine ⟨.iaddH addH, _, state thread, _, rfl, rfl, rfl, rfl, ?_, ?_, _, List.mem_cons_self, ?_⟩
  · unfold Starts; decide
  · unfold Sound; decide
  · unfold Lone; decide

theorem witness_QueuePush : ∃ i L s w q g gr, laneRule i = some L ∧ s.warp L.head = some w ∧ w.slice = false ∧ L.dst.push w.slice = some (q, false)
    ∧ q ≠ 14 ∧ w.group = some g ∧ s.group? g = some gr ∧ L.srcs.filterMap (Src.pops w.slice) = [] ∧ Guarded w ∧ Starts s w L.srcs L.dst
    ∧ HasRoom s w L.srcs L.dst ∧ Sound s w L.checked := by
  refine ⟨.movD (dform 0x080 0xDC 1 0xF0 0xF0), _, anchored thread group, _, 12, _, _, rfl, rfl, rfl, rfl, by decide, rfl, rfl, by decide, ?_, ?_, ?_, ?_⟩
  · unfold Guarded; decide
  · unfold Starts; decide
  · intro q wide h; cases h; decide
  · unfold Sound; decide

theorem witness_FalseGuardChangesNothing : ∃ i L s w, laneRule i = some L ∧ s.warp L.head = some w ∧ w.slice = false ∧ L.head.cue ≠ 2
    ∧ Starts s w L.srcs L.dst ∧ HasRoom s w L.srcs L.dst ∧ L.dst.push w.slice = none ∧ Sound s w L.checked
    ∧ ∃ l ∈ w.lanes, l.guard = .off ∧ Lone w l := by
  refine ⟨.iaddW ⟨2, 1, 6, 0, 0⟩, _, twoThreads, _, rfl, rfl, rfl, by decide, ?_, roomless rfl, rfl, ?_, _, List.mem_cons_self, by decide, ?_⟩
  · unfold Starts; decide
  · unfold Sound; decide
  · unfold Lone; decide

/-- g2 is dead, in the second source; or the guard p0 is a token. -/
theorem witness_FirstTokenIsTheResult :
    let s := state { thread with regs := [(1, Cell.ofTw (.data 5))] }
    ∃ L w k, laneRule (.iaddH addH) = some L ∧ byThread (.iaddH addH) = true ∧ s.warp L.head = some w ∧ L.dst.push w.slice = none
      ∧ Starts s w L.srcs L.dst ∧ Sound s w L.checked ∧ ∃ l ∈ w.executing, Lone w l ∧ l.badTok = none
      ∧ ∃ before after, s.sourceVals w L.srcs l = before ++ Val.tok k :: after ∧ ∀ v ∈ before, v.tok? = none := by
  refine ⟨_, _, token 0x30 (originOf 0x10000), rfl, rfl, rfl, rfl, ?_, ?_, _, List.mem_cons_self, ?_, rfl, [.dat 5], [], by decide, by decide⟩
  · unfold Starts; decide
  · unfold Sound; decide
  · unfold Lone; decide

theorem witness_FirstTokenIsTheResult_guard :
    let s := state { thread with preds := List.replicate 7 ⟨false, true, 7, false⟩ }
    ∃ L w, laneRule (.iaddW ⟨2, 1, 6, 0, 0⟩) = some L ∧ byThread (.iaddW ⟨2, 1, 6, 0, 0⟩) = true ∧ s.warp L.head = some w
      ∧ L.dst.push w.slice = none ∧ Starts s w L.srcs L.dst ∧ Sound s w L.checked ∧ ∃ l ∈ w.executing, Lone w l ∧ l.badTok = some 7 := by
  refine ⟨_, _, rfl, rfl, rfl, rfl, ?_, ?_, _, List.mem_cons_self, ?_, rfl⟩
  · unfold Starts; decide
  · unfold Sound; decide
  · unfold Lone; decide

/-- TypedArithmetic: a value inside the range of .i8, above it, below it. -/
theorem witness_TypedArithmetic_range : (intMin 0 ≤ -128 ∧ (-128 : Int) ≤ intMax 0) ∧ intMax 0 < 128 ∧ (-129 : Int) < intMin 0 := by decide

theorem witness_TypedArithmetic : ∃ i L ty sat g rd wide s w, exactInt i = some (ty, sat, g) ∧ laneRule i = some L ∧ L.dst = .reg rd wide
    ∧ s.warp L.head = some w ∧ L.dst.push w.slice = none ∧ Starts s w L.srcs L.dst ∧ Sound s w L.checked
    ∧ ∃ l ∈ w.acting, Lone w l ∧ ∃ xs : List Dword, s.sourceVals w L.srcs l = xs.map Val.dat := by
  refine ⟨.iaddD (dform 0x100 6 1 2 0xF0), _, _, _, _, _, _, state thread, _, rfl, rfl, rfl, rfl, rfl, ?_, ?_, _, List.mem_cons_self, ?_, [5, 3], by decide⟩
  · unfold Starts; decide
  · unfold Sound; decide
  · unfold Lone; decide

/-- The DP form reads its sources in pairs of registers of 32 bits. -/
theorem witness_TypedArithmetic_dp : ∃ f ty sat g, exactInt (.imaxDp f) = some (ty, sat, g) ∧ ∃ L rd, laneRule (.imaxDp f) = some L
    ∧ L.dst = .reg rd false ∧ ∃ w, (state thread).warp L.head = some w :=
  ⟨⟨0, 0, 0, 0, 0xF0, 2, 1, 0, 2, 8, false, 7, 0⟩, _, _, _, rfl, _, _, rfl, rfl, _, rfl⟩

theorem witness_WordArithmetic : ∃ i L g r s w, wordOp i = some g ∧ laneRule i = some L ∧ s.warp L.head = some w ∧ L.dst = .reg r false
    ∧ L.dst.push w.slice = none ∧ Starts s w L.srcs L.dst ∧ Sound s w L.checked
    ∧ ∃ l ∈ w.acting, Lone w l ∧ ∃ xs : List Word, s.sourceVals w L.srcs l = xs.map fun x => Val.dat (zx x) := by
  refine ⟨.iaddH addH, _, _, _, state thread, _, rfl, rfl, rfl, rfl, rfl, ?_, ?_, _, List.mem_cons_self, ?_, [5, 3], by decide⟩
  · unfold Starts; decide
  · unfold Sound; decide
  · unfold Lone; decide

/-- 1.0 in g1 and 2.0 in g2. -/
def floats : State := state { thread with regs := [(1, Cell.ofTw (.data 0x3F800000)), (2, Cell.ofTw (.data 0x40000000))] }

theorem value_one : HasValue f32 0x3F800000 1 := by
  have h : f32.decode 0x3F800000 = .fin false (2 ^ 23) (-23) := by decide
  simp only [HasValue, h, exactValue]; norm_num

theorem value_two : HasValue f32 0x40000000 2 := by
  have h : f32.decode 0x40000000 = .fin false (2 ^ 23) (-22) := by decide
  simp only [HasValue, h, exactValue]; norm_num

theorem value_three : HasValue f32 0x40400000 3 := by
  have h : f32.decode 0x40400000 = .fin false (3 * 2 ^ 22) (-22) := by decide
  simp only [HasValue, h, exactValue]; norm_num

theorem witness_WordArithmetic_float : ∃ i L f mode g r wide w, exactFlt i = some (f, mode, g) ∧ laneRule i = some L ∧ floats.warp L.head = some w
    ∧ L.dst = .reg r wide ∧ L.dst.push w.slice = none ∧ Starts floats w L.srcs L.dst ∧ Sound floats w L.checked
    ∧ floats.headerBit w.ctx w.act 2 = false ∧ ∃ l ∈ w.acting, Lone w l ∧ ∃ (xs : List Dword) (vs : List ℚ), floats.sourceVals w L.srcs l = xs.map Val.dat
      ∧ xs.map (fun x => exactValue (f.decode x.toNat)) = vs.map some ∧ InRange f (g vs) := by
  refine ⟨.faddW ⟨2, 1, 6, 7, 0⟩, _, _, _, _, _, _, _, rfl, rfl, rfl, rfl, rfl, ?_, ?_, by decide, _, List.mem_cons_self, ?_, [0x3F800000, 0x40000000],
    [1, 2], by decide, ?_, 0x40400000, 3, value_three, by norm_num⟩
  · unfold Starts; decide
  · unfold Sound; decide
  · unfold Lone; decide
  · exact congrArg₂ List.cons value_one (congrArg₂ List.cons value_two rfl)

theorem witness_WordArithmetic_compare : ∃ i L f cond p w, exactCmp i = some (f, cond) ∧ laneRule i = some L ∧ floats.warp L.head = some w
    ∧ L.dst = .pred p ∧ Starts floats w L.srcs L.dst ∧ Sound floats w L.checked ∧ floats.headerBit w.ctx w.act 2 = false
    ∧ ∃ l ∈ w.acting, Lone w l ∧ p ≠ 7 ∧ p < l.t.preds.length ∧ ∃ (x y : Dword) (vx vy : ℚ), floats.sourceVals w L.srcs l = [.dat x, .dat y]
      ∧ HasValue f x.toNat vx ∧ HasValue f y.toNat vy := by
  refine ⟨.fcmpD (dform 0x288 6 1 2 0xF0), _, _, _, _, _, rfl, rfl, rfl, rfl, ?_, ?_, by decide, _, List.mem_cons_self, ?_, by decide, by decide,
    0x3F800000, 0x40000000, 1, 2, by decide, value_one, value_two⟩
  · unfold Starts; decide
  · unfold Sound; decide
  · unfold Lone; decide

/-! Registers. -/

/-- RegisterReads: a register of a block that the thread does not hold, and one that it holds. -/
theorem witness_RegisterReads : thread.blocks < blockOf 64 ∧ blockOf 63 ≤ thread.blocks := by decide

theorem witness_RegisterReads_pending : ∃ (t : Thread) (r : Byte), r.toNat < 0xC0 ∧ blockOf r.toNat ≤ t.blocks := ⟨thread, 63, by decide, by decide⟩

/-! Memory instructions. -/

def ldform (d : Byte) : DMForm := ⟨0, 0, 0, 0, 5, 0xF0, 0, 4, d, false, 7, 0⟩

theorem witness_MemoryInstructionsComplete : ∃ i f m s w, memRule i = some (f, m) ∧ s.warp (dmHead f) = some w ∧ AccessStarts s w m
    ∧ s.memRaises w m = [] := by
  refine ⟨.ldDm (ldform 6), _, _, state thread, _, rfl, rfl, ⟨by decide, ?_, by decide, walked (by decide), by decide, by decide, by decide, ?_⟩, by decide⟩
  · unfold Starts; decide
  · intro q wide h; cases h

theorem witness_MemoryOperationsSent : ∃ i f m s w, memRule i = some (f, m) ∧ m.pad = false ∧ m.special.isNone = true
    ∧ s.warp (dmHead f) = some w ∧ w.slice = false ∧ AccessStarts s w m ∧ s.memRaises w m = []
    ∧ ∃ a ∈ s.memSends w m, a.lane.guard = .on ∧ Lone w a.lane ∧ ∃ p va pa attr, a.aim = .at p va pa attr := by
  refine ⟨.ldDm (ldform 6), _, _, state thread, _, rfl, rfl, rfl, rfl, rfl, ⟨by decide, ?_, by decide, walked (by decide), by decide, by decide, by decide, ?_⟩, by decide,
    _, List.mem_cons_self, by decide, ?_, .home 0, 0x20000, 0x20000, 1, by decide +kernel⟩
  · unfold Starts; decide
  · intro q wide h; cases h
  · unfold Lone; decide

theorem witness_MemoryIssueFrame : ∃ i f m s w, memRule i = some (f, m) ∧ s.warp (dmHead f) = some w ∧ AccessStarts s w m
    ∧ s.memRaises w m = [] ∧ NoOpenMessage s := by
  refine ⟨.stDm (ldform 1), _, _, state thread, _, rfl, rfl, ⟨by decide, ?_, by decide, walked (by decide), by decide, by decide, by decide, ?_⟩, by decide, ?_⟩
  · unfold Starts; decide
  · intro q wide h; cases h
  · unfold NoOpenMessage; decide

theorem witness_AddressFailures : (0x20002 : Dword).toNat % 4 ≠ 0 := by decide

/-- A store whose base is dead. -/
theorem witness_AddressFailures_token : ∃ w, (state thread).warp ⟨false, 7, 0, 8⟩ = some w
    ∧ (((state thread).memAsks w (storeDo { ldform 1 with base := 8 } false)).any fun a =>
      a.lane.badTok = none && (match a.aim with | .tok k => k = token 0x30 w.origin | _ => false)) = true := ⟨_, rfl, by decide⟩

/-! Memory at the points of order. -/

def op (work : Work) (place : Place) (pa : Nat) (dst : Dest) : Op :=
  { ctx := 0, act := 0, issuer := .thread 0, cluster := 0, slot := 0, tid := 0, batch := 0, pc := 0x10000, cls := 0, work := work, place := place
    va := pa, pa := pa, dst := dst, clock := Clock.zero, stamp := none, scope := 0, order := 0, rel := none, stage := .sent, reply := [], flags := 0
    seen := none, eg := none, sentAt := 0, retired := false }

def flying (o : Op) : State := { state thread with ops := [(1, o)] }

theorem witness_ReadAfterWrite : Memory.wf [(3, 1), (4, 9)] = true ∧ (1 : Nat) < [(7 : Byte), 0].length ∧ (5 : Nat) < 6 := by decide

theorem witness_ReadAfterWrite_pad : (anchored thread group).group? 0 = some group ∧ 8 % 4 = 0 := by decide

/-- An operation that its home may apply. -/
def AtHome (s : State) (k : Nat) (o : Op) : Prop :=
  find s.ops k = some o ∧ o.stage = .sent ∧ s.mayApply k o = true ∧ s.passes o = true ∧ s.movedOp o = none

def loadOp : Op := op (.load 5 false false) (.home 0) 0x20000 (.reg 6 false)

theorem witness_MseSteps_read : AtHome (flying loadOp) 1 loadOp ∧ loadOp.kind = some .read := by unfold AtHome; decide

theorem witness_MseSteps_write : ∃ s k o, AtHome s k o ∧ o.kind = some .write :=
  ⟨flying (op (.store 4 7) (.home 0) 0x20000 .none), 1, op (.store 4 7) (.home 0) 0x20000 .none, by unfold AtHome; decide, by decide⟩

theorem witness_MseSteps_atomic : ∃ s k o, AtHome s k o ∧ o.kind = some .atomic ∧ s.batchReady o = true :=
  ⟨flying (op (.atomic .add 5 1 0) (.home 0) 0x20000 .none), 1, op (.atomic .add 5 1 0) (.home 0) 0x20000 .none, by unfold AtHome; decide, by decide⟩

theorem witness_MseSteps_fill : ∃ s k o, AtHome s k o ∧ o.kind = some .fill :=
  ⟨flying (op (.load 5 true true) (.home 0) 0x20000 (.reg 6 false)), 1, op (.load 5 true true) (.home 0) 0x20000 (.reg 6 false), by unfold AtHome; decide, by decide⟩

theorem witness_LoadAtHome : AtHome (flying loadOp) 1 loadOp ∧ loadOp.kind = some .read ∧ loadOp.work = .load 5 false false
    ∧ loadOp.place = .home 0 ∧ 0 < loadOp.span ∧ Unmoved (flying loadOp) loadOp.pa loadOp.span := by unfold AtHome Unmoved; decide +kernel

theorem witness_StoreAtHome : ∃ s k o n v, AtHome s k o ∧ o.work = .store n v ∧ s.split o.pa n = false ∧ s.placed? o.pa % 2 ^ 16 + n ≤ 2 ^ 16 ∧ NoOpenMessage s :=
  ⟨flying (op (.store 4 7) (.home 0) 0x2FFFC .none), 1, op (.store 4 7) (.home 0) 0x2FFFC .none, 4, 7, by unfold AtHome; decide, rfl, by decide +kernel,
    by decide +kernel, by unfold NoOpenMessage; decide⟩

theorem witness_AtomicResults : (0xFFFFFFFF : Nat) < 2 ^ typeWidth 5 := by decide

theorem witness_AtomicResults_fadd : ∃ (m x : Nat) (vm vx : ℚ), HasValue (fmtOf 0xA) m vm ∧ HasValue (fmtOf 0xA) x vx ∧ InRange (fmtOf 0xA) (vm + vx) :=
  ⟨0x3F800000, 0x40000000, 1, 2, value_one, value_two, 0x40400000, 3, value_three, by norm_num⟩

/-- LADD: a sum at its limit, and one beyond it. -/
theorem witness_AtomicResults_ladd : 2 + 3 ≤ 5 ∧ 5 < 3 + 3 := by decide

/-! Control flow. -/

theorem witness_BranchesComplete : ∃ i B s w, branchRule i = some B ∧ s.warp B.head = some w ∧ Guarded w ∧ Starts s w B.srcs B.dst
    ∧ (∀ l ∈ w.acting, ∀ v ∈ s.sourceVals w B.srcs l, v.tok? = none) ∧ (∀ a ∈ w.lanes, ∀ b ∈ w.lanes, a.v = b.v → a = b)
    ∧ w.slice = false ∧ ∃ l ∈ w.lanes, Lone w l ∧ l.t.cue = .issuing ∧ l.acts = true := by
  refine ⟨.callDi ⟨4, 0xF0, 6, false, 7, 0⟩, _, state thread, _, rfl, rfl, ?_, ?_, by decide, by decide, rfl, _, List.mem_cons_self, ?_, by decide, by decide⟩
  · unfold Guarded; decide
  · unfold Starts; decide
  · unfold Lone; decide

theorem witness_BranchesComplete_slice : ∃ i B s w, branchRule i = some B ∧ s.warp B.head = some w ∧ Guarded w ∧ Starts s w B.srcs B.dst
    ∧ w.slice = true ∧ (∀ a ∈ w.lanes, ∀ b ∈ w.lanes, a.v = b.v → a = b) := by
  refine ⟨.braDi ⟨4, 0xF0, 0xF0, false, 7, 0⟩, _, sliced group, _, rfl, rfl, ?_, ?_, rfl, by decide⟩
  · unfold Guarded; decide
  · unfold Starts; decide

theorem witness_ThreadInstructionsComplete : ∃ (i : Instr) (R : ThreadRule) (s : State) (w : Warp), threadRule i = some R ∧ s.warp R.head = some w ∧ Guarded w ∧ R.fault w = false := by
  refine ⟨.holdD (dform 0 0xF0 0xF0 0xF0 0xF0), _, state thread, _, rfl, rfl, ?_, rfl⟩
  unfold Guarded; decide

/-- WAITC with one operation out: satisfied by n = 1, and not by n = 0. -/
theorem witness_ThreadInstructionsComplete_waitc : (flying loadOp).thread? 0 = some thread ∧ (flying loadOp).outstanding 0 0 ≤ 1
    ∧ 0 < (flying loadOp).outstanding 0 0
    ∧ (let s := { flying loadOp with threads := [(0, { thread with held := true })] }; s.outstanding 0 0 ≤ 1 ∧ s.longOut 0 = true) := by decide

theorem witness_RegionEntry : ∃ (f : DForm) (s : State) (w : Warp), s.warp (dHead f) = some w ∧ w.slice = false ∧ Guarded w ∧ w.someTxn = false := by
  refine ⟨dform 0 0xF0 0xF0 0xF0 0xF0, state thread, _, rfl, rfl, ?_, rfl⟩
  unfold Guarded; decide

/-- A thread in a transaction. -/
def held : Thread := { thread with txn := some ⟨[], thread.preds, 0x10008, 6, none, none, [], none, none⟩ }

theorem witness_RegionEntry_txn : ∃ (f : DForm) (s : State) (w : Warp), s.warp (dHead f) = some w ∧ w.slice = false ∧ Guarded w ∧ w.someTxn = true := by
  refine ⟨dform 0 0xF0 0xF0 0xF0 0xF0, state held, _, rfl, rfl, ?_, rfl⟩
  unfold Guarded; decide

theorem witness_CheckAndHomeComplete_checkW : ∃ (f : WForm) (s : State) (w : Warp), s.warp (wHead f) = some w ∧ Starts s w [src6 f.s1] .none
    ∧ s.checkRaises w (src6 f.s1) = [] := by
  refine ⟨⟨58, 1, 58, 7, 0⟩, state thread, _, rfl, ?_, by decide⟩
  unfold Starts; decide

theorem witness_CheckAndHomeComplete_checkD : ∃ (f : DForm) (s : State) (w : Warp), s.warp (dHead f) = some w
    ∧ Starts s w [src8 f.s1 f.s1lk] .none ∧ s.checkRaises w (src8 f.s1 f.s1lk) = [] := by
  refine ⟨dform 0 0xF0 1 0xF0 0xF0, state thread, _, rfl, ?_, by decide⟩
  unfold Starts; decide

theorem witness_CheckAndHomeComplete_home : ∃ (f : DForm) (s : State) (w : Warp), s.warp (dHead f) = some w
    ∧ Starts s w [pairS1 f] (.reg f.d false) ∧ HasRoom s w [pairS1 f] (.reg f.d false)
    ∧ (w.acting.all fun l => match s.readPair w l f.s1 with
        | .dat v => s.homeLook w.user w.cluster w.ctx v.toNat != .miss
        | _ => true) = true := by
  refine ⟨dform 0 6 4 0xF0 0xF0, state thread, _, rfl, ?_, roomless rfl, by decide⟩
  unfold Starts; decide

theorem witness_TrapAndBreakpoint : ∃ (f : DIForm) (s : State) (w : Warp), s.warp (diHead f) = some w ∧ Guarded w ∧ w.acting ≠ []
    ∧ (s.ctx w.ctx).debug = false ∧ (s.ctx w.ctx).low = false := by
  refine ⟨⟨0x77, 0xF0, 0xF0, false, 7, 0⟩, state thread, _, rfl, ?_, by decide, by decide, by decide⟩
  unfold Guarded; decide

/-- The same with debug enabled (CTXMODE.DBG). -/
def debugged : State := { state thread with ctxs := [(0, { Ctx.init with ctl := 0x8000000000000000, mode := 0xA00 })] }

theorem witness_TrapAndBreakpoint_debug : ∃ (f : DIForm) (w : Warp), debugged.warp (diHead f) = some w ∧ Guarded w
    ∧ (debugged.ctx w.ctx).debug = true ∧ w.slice = false ∧ ∃ l ∈ w.acting, Lone w l := by
  refine ⟨⟨0x77, 0xF0, 0xF0, false, 7, 0⟩, _, rfl, ?_, by decide, rfl, _, List.mem_cons_self, ?_⟩
  · unfold Guarded; decide
  · unfold Lone; decide

theorem witness_GroupRegisters_kmov : ∃ (f : DIForm) (s : State) (w : Warp) (l : Lane) (g : Nat) (gr : Group) (v : Word) (old : Tw),
    s.warp (diHead f) = some w ∧ w.elected = some l ∧ w.group = some g ∧ s.group? g = some gr ∧ l.badTok = none ∧ w.slice = false
    ∧ Starts s (only w l) [.reg f.s1 false 0 0] .none ∧ Src.pops w.slice (.reg f.s1 false 0 0) = none
    ∧ s.sourceVals (only w l) [.reg f.s1 false 0 0] l = [.dat (zx v)] ∧ f.d.toNat - 0xE0 < gr.k.length
    ∧ gr.k[f.d.toNat - 0xE0]? = some old ∧ old.tag = false := by
  refine ⟨⟨1, 1, 0xEF, false, 7, 0⟩, anchored thread group, _, _, _, _, 5, _, rfl, rfl, rfl, rfl, by decide, rfl, ?_, rfl, by decide, by decide, rfl, rfl⟩
  unfold Starts; decide

theorem witness_GroupRegisters_kld : ∃ (f : DMForm) (s : State) (w : Warp) (l : Lane), w.elected = some l ∧ w.group.isSome = true
    ∧ l.badTok = none ∧ s.acquirePending l.key = false ∧ s.warp (dmHead f) = some w ∧ Starts s (only w l) [dmBase f, dmIndex f] .none
    ∧ s.aim w 4 .read (dmAddr f (s.sourceVals (only w l) [dmBase f, dmIndex f] l)) = .at (.home 0) 0x20000 0x20000 1 := by
  refine ⟨ldform 0xE0, anchored thread group, _, _, rfl, by decide, by decide, by decide, rfl, ?_, by decide +kernel⟩
  unfold Starts; decide

theorem witness_GroupRegisters_tape : ∃ (f : DForm) (s : State) (w : Warp) (l : Lane), w.elected = some l ∧ w.group.isSome = true
    ∧ l.badTok = none ∧ (s.acquirePending l.key = false ∧ s.releasePending l.key = false) ∧ s.warp (dHead f) = some w ∧ w.someTxn = false
    ∧ Starts s (only w l) [pairS1 f, .pair f.s2 (f.s2lk.getLsbD 1)] .none
    ∧ (valAt (s.sourceVals (only w l) [pairS1 f, .pair f.s2 (f.s2lk.getLsbD 1)] l) 1).tok? = none
    ∧ s.aim w 16 .read (valAt (s.sourceVals (only w l) [pairS1 f, .pair f.s2 (f.s2lk.getLsbD 1)] l) 0) = .at (.home 0) 0x20000 0x20000 1 := by
  refine ⟨dform 0 0xE0 4 0xF0 0xF0, anchored thread group, _, _, rfl, by decide, by decide, by decide, rfl, by decide, ?_, by decide, by decide +kernel⟩
  unfold Starts; decide

theorem witness_Transactions_begin : ∃ (f : DForm) (s : State) (w : Warp), s.warp (dHead f) = some w ∧ Guarded w ∧ w.slice = false
    ∧ Starts s w [] (.reg f.d false) ∧ w.someTxn = false ∧ ∃ l ∈ w.acting, Lone w l := by
  refine ⟨dform 0 6 0xF0 0xF0 0xF0, state thread, _, rfl, ?_, rfl, ?_, rfl, _, List.mem_cons_self, ?_⟩
  · unfold Guarded; decide
  · unfold Starts; decide
  · unfold Lone; decide

theorem witness_Transactions_commit : ∃ (f : DForm) (s : State) (w : Warp), s.warp (dHead f) = some w ∧ Guarded w ∧ w.slice = false
    ∧ Starts s w [] (.reg f.d false) ∧ w.someNoTxn = false
    ∧ ∃ l ∈ w.acting, Lone w l ∧ ∃ x, l.t.txn = some x ∧ x.held = [] ∧ x.failed = none ∧ x.expired s.now = false := by
  refine ⟨dform 0 6 0xF0 0xF0 0xF0, state held, _, rfl, ?_, rfl, ?_, rfl, _, List.mem_cons_self, ?_, _, rfl, rfl, rfl, by decide⟩
  · unfold Guarded; decide
  · unfold Starts; decide
  · unfold Lone; decide

/-- Transactions that hold a packet, or have failed, or have run out of their time. -/
def heldBy (x : Txn) : State :=
  { state { thread with txn := some x } with ops := [(1, op (.packet ⟨1, 0, 0, 0, 0, 7, none, 0, (0, 0)⟩) (.home 0) 0x20000 (.reg 6 true))] }

theorem witness_Transactions_wait :
    let x : Txn := ⟨[], thread.preds, 0x10008, 6, some .self, some 0, [1], none, none⟩
    x.held ≠ [] ∧ x.failed = none ∧ x.expired (heldBy x).now = false ∧ (heldBy x).markedPacket x = none := by decide

theorem witness_Transactions_fails :
    (let x : Txn := ⟨[], thread.preds, 0x10008, 6, some .self, some 0, [1], some (3, 0), none⟩;
      (if x.expired 0 then some (4, 0) else x.failed) = some (3, 0) ∧ x.failed ≠ none)
    ∧ (let x : Txn := ⟨[], thread.preds, 0x10008, 6, some .self, some 0, [1], none, none⟩;
      (if x.expired (2 ^ 40) then some (4, 0) else x.failed) = some (4, 0) ∧ { heldBy x with now := 2 ^ 40 }.markedPacket x = none) := by decide

theorem witness_Transactions_abort : ∃ (f : DForm) (s : State) (w : Warp), s.warp (dHead f) = some w ∧ Guarded w ∧ w.slice = false
    ∧ Starts s w [src8 f.s1 f.s1lk] .none ∧ w.someNoTxn = false
    ∧ ∃ l ∈ w.acting, Lone w l ∧ ∃ x, l.t.txn = some x ∧ x.dst.toNat < 0xC0 ∧ s.sourceVals w [src8 f.s1 f.s1lk] l = [.dat 5] := by
  refine ⟨dform 0 0xF0 1 0xF0 0xF0, state held, _, rfl, ?_, rfl, ?_, rfl, _, List.mem_cons_self, ?_, _, rfl, by decide, by decide⟩
  · unfold Guarded; decide
  · unfold Starts; decide
  · unfold Lone; decide

/-! Waiting, barriers, engines, threads that move. -/

theorem witness_WordWaitsComplete_mwait : ∃ (f : DForm) (s : State) (w : Warp), s.warp (dHead f) = some w ∧ Guarded w
    ∧ (∀ l ∈ w.acting, s.acquirePending l.key = false) ∧ (∀ l ∈ w.acting, s.releasePending l.key = false)
    ∧ (Dst.reg f.d false).push w.slice = none ∧ (∀ a ∈ w.lanes, ∀ b ∈ w.lanes, a.v = b.v → a = b)
    ∧ Starts s w [.pair f.s1 (f.s1lk.getLsbD 1), src8 f.s2 f.s2lk] (.reg f.d false)
    ∧ ∀ l ∈ w.acting, s.aim w 4 .read (valAt (s.sourceVals w [.pair f.s1 (f.s1lk.getLsbD 1), src8 f.s2 f.s2lk] l) 0)
          = .at (.home 0) 0x20000 0x20000 1
        ∧ valAt (s.sourceVals w [.pair f.s1 (f.s1lk.getLsbD 1), src8 f.s2 f.s2lk] l) 1 = .dat 5 := by
  refine ⟨dform 0x1D0 6 4 1 0xF0, state thread, _, rfl, ?_, by decide, by decide, rfl, by decide, ?_, by decide +kernel⟩
  · unfold Guarded; decide
  · unfold Starts; decide

theorem witness_WordWaitsComplete_waita : ∃ (f : DForm) (s : State) (w : Warp), s.warp (dHead f) = some w ∧ Guarded w
    ∧ (∀ l ∈ w.acting, s.acquirePending l.key = false) ∧ (∀ l ∈ w.acting, s.releasePending l.key = false)
    ∧ (Dst.reg f.d false).push w.slice = none ∧ (∀ a ∈ w.lanes, ∀ b ∈ w.lanes, a.v = b.v → a = b)
    ∧ Starts s w [src8 f.s1 f.s1lk, src8 f.s2 f.s2lk] (.reg f.d false) ∧ w.group.isSome = true
    ∧ ∀ l ∈ w.acting, s.aimPad w 4 4 (valAt (s.sourceVals w [src8 f.s1 f.s1lk, src8 f.s2 f.s2lk] l) 0) = .at (.pad 0) 0 0 0
        ∧ valAt (s.sourceVals w [src8 f.s1 f.s1lk, src8 f.s2 f.s2lk] l) 1 = .dat 5 := by
  refine ⟨dform 0x050 6 0xF0 1 0xF0, anchored thread group, _, rfl, ?_, by decide, by decide, rfl, by decide, ?_, by decide, by decide⟩
  · unfold Guarded; decide
  · unfold Starts; decide

theorem witness_BarriersComplete : ∃ (f : DForm) (s : State) (w : Warp) (g : Nat) (gr : Group), s.warp (dHead f) = some w ∧ Guarded w
    ∧ w.someTxn = false ∧ w.group = some g ∧ s.group? g = some gr ∧ Starts s w [] .none ∧ f.mod.getLsbD 4 = false ∧ f.mod.getLsbD 3 = false
    ∧ (∀ a ∈ w.lanes, ∀ b ∈ w.lanes, a.v = b.v → a = b) ∧ (∀ l ∈ w.acting, s.releaseReady l.key w.cluster l.t.vc 7 false = true) := by
  refine ⟨dform 0 0xF0 0xF0 0xF0 0xF0, anchored thread group, _, _, _, rfl, ?_, rfl, rfl, rfl, ?_, rfl, rfl, by decide, by decide⟩
  · unfold Guarded; decide
  · unfold Starts; decide

/-- A thread of a group with the parameters of a matrix operation: g1 and g2 a tile of one element, g8 to g15 those of an MMA of
one row, column and block from scratchpad, g16 to g19 those of a SELC of one row and column. -/
def matrixThread : Thread :=
  { thread with regs := [(1, 0x10000), (2, 0x101), (8, 0x1010600), (9, 1), (10, 0x10000), (11, 0), (12, 0), (13, 0), (14, 0), (15, 0),
      (16, 0), (17, 0x10001), (18, 0x1000000), (19, 8), (20, 0), (21, 0)].map fun (n, v) => (n, Cell.ofTw (.data v)) }

/-- A matrix instruction whose parameters pass. -/
def Queues (f : DForm) (srcs : List Src) (go : State → Warp → Lane → Group → List Val → MxGo) : Prop :=
  let s := anchored matrixThread group
  ∃ (w : Warp) (l : Lane), s.warp (dHead f) = some w ∧ w.slice = false ∧ w.elected = some l ∧ l.badTok = none ∧ w.group = some 0
    ∧ s.group? 0 = some group ∧ Starts s (only w l) srcs .none ∧ (∀ x ∈ w.acting, s.outstanding x.key 2 < 255)
    ∧ (match go s w l group (s.sourceVals (only w l) srcs l) with | .op _ => true | _ => false) = true

theorem witness_MatrixInstructionsQueue_mma :
    let f := dform 0 0xF0 8 0xF0 0xF0
    Queues f [.many f.s1 8 false false] (mmaGo f false) := by
  refine ⟨_, _, rfl, rfl, rfl, by decide, rfl, rfl, ?_, by decide, by decide⟩
  unfold Starts; decide

theorem witness_MatrixInstructionsQueue_mmab :
    let f := dform 0 0xF0 8 0xF0 0xF0
    Queues f [.many f.s1 8 false false] (mmaGo f true) := by
  refine ⟨_, _, rfl, rfl, rfl, by decide, rfl, rfl, ?_, by decide, by decide⟩
  unfold Starts; decide

theorem witness_MatrixInstructionsQueue_mzero :
    let f := dform 0 0xF0 1 2 0xF0
    Queues f [src8 f.s1 f.s1lk, src8 f.s2 f.s2lk] mzeroGo := by
  refine ⟨_, _, rfl, rfl, rfl, by decide, rfl, rfl, ?_, by decide, by decide⟩
  unfold Starts; decide

theorem witness_MatrixInstructionsQueue_macc :
    let f := dform 0x140 0xF0 1 2 20
    Queues f [src8 f.s1 f.s1lk, src8 f.s2 f.s2lk, .pair f.s3 false] (maccGo f) := by
  refine ⟨_, _, rfl, rfl, rfl, by decide, rfl, rfl, ?_, by decide, by decide⟩
  unfold Starts; decide

theorem witness_MatrixInstructionsQueue_selc :
    let f := dform 0 0xF0 16 0xF0 0xF0
    Queues f [.many f.s1 4 false false] selcGo := by
  refine ⟨_, _, rfl, rfl, rfl, by decide, rfl, rfl, ?_, by decide, by decide⟩
  unfold Starts; decide

def regsOf (l : List (Nat × Word)) : Map Cell := l.map fun (n, v) => (n, Cell.ofTw (.data v))

/-- A thread with g4:g5 = 0x20000 and what a copy, a packet, a launch and a spawn read. -/
def busyThread : Thread :=
  { thread with regs := regsOf [(4, 0x20000), (5, 0), (6, 0x30000), (7, 0), (8, 1), (9, 0), (10, 0), (11, 0), (20, 16), (22, 0xFFFFFFFF),
      (23, 0xFFFFFFFF)] }

def copySrcs : List Src := [.pair 4 false, .pair 4 false, .reg 20 false 0 0, .many 22 2 false false]

theorem witness_CopiesComplete_cpy : ∃ (w : Warp) (l : Lane), (state busyThread).warp (dHead (dform 0 0xF0 4 4 20)) = some w ∧ w.elected = some l
    ∧ l.badTok = none ∧ pushes 0 = false ∧ (state busyThread).acquirePending l.key = false
    ∧ (∀ x ∈ w.acting, (state busyThread).outstanding x.key 1 < 255) ∧ ((state busyThread).engine (engineOf w.cluster)).cmds.length < 64
    ∧ Starts (state busyThread) (only w l) copySrcs .none
    ∧ ((state busyThread).sourceVals (only w l) copySrcs l).findSome? Val.tok? = none
    ∧ (match ((state busyThread).elect w l copySrcs w.acting).copyCheck w 0 0x20000 0x20000 ⟨allOnes, 0, 0, 0, 0, 1, 1, 16, 0, 0, 0⟩ false with
        | .go => true | _ => false) = true := by
  refine ⟨_, _, rfl, rfl, by decide, rfl, by decide, by decide, by decide, ?_, by decide, by decide⟩
  unfold Starts; decide

def tiledSrcs : List Src := [.pair 4 false, .pair 4 false, .pair 4 false]

theorem witness_CopiesComplete_cpyt : ∃ (w : Warp) (l : Lane), (state busyThread).warp (dHead (dform 0 0xF0 4 4 4)) = some w ∧ w.elected = some l
    ∧ l.badTok = none ∧ (state busyThread).acquirePending l.key = false
    ∧ (∀ x ∈ w.acting, (state busyThread).outstanding x.key 1 < 255) ∧ ((state busyThread).engine (engineOf w.cluster)).cmds.length < 64
    ∧ Starts (state busyThread) (only w l) tiledSrcs .none
    ∧ (let vals := (state busyThread).sourceVals (only w l) tiledSrcs l
      vals.findSome? Val.tok? = none ∧ (state busyThread).aim w 64 .read (valAt vals 2) = .at (.home 0) 0x20000 0x20000 1
        ∧ (match (state busyThread).readDescriptor w l (.home 0) 0x20000 0x20000 1 with
          | some (.ok ws, s') => (match { (state busyThread).elect w l tiledSrcs w.acting with free := s'.free }.copyCheck w 0 0x20000 0x20000
              (CopyPar.ofWords ws) true with | .go => true | _ => false)
          | _ => false) = true) := by
  refine ⟨_, _, rfl, rfl, by decide, by decide, by decide, by decide, ?_, by decide +kernel⟩
  unfold Starts; decide

def packetSrcs : List Src := [.pair 4 false, .many 8 4 false false, .pair 4 false]

theorem witness_PacketsLaunchesAndTravelComplete_opk : ∃ (w : Warp), (state busyThread).warp (dHead (dform 0x1C8 6 4 8 4)) = some w
    ∧ Guarded w ∧ (∀ a ∈ w.lanes, ∀ b ∈ w.lanes, a.v = b.v → a = b) ∧ Starts (state busyThread) w packetSrcs (.reg 6 true)
    ∧ (∀ l ∈ w.acting, (state busyThread).acquirePending l.key = false ∧ (state busyThread).releasePending l.key = false
      ∧ (match (state busyThread).packetAim w l ((state busyThread).sourceVals w packetSrcs l) with | .at _ _ _ _ => true | _ => false) = true
      ∧ (state busyThread).releaseReady l.key w.cluster l.t.vc 7 false = true ∧ (state busyThread).outstanding l.key 3 < 255
      ∧ (state busyThread).outstanding l.key 4 < 255) := by
  refine ⟨_, rfl, ?_, by decide, ?_, by decide⟩
  · unfold Guarded; decide
  · unfold Starts; decide

theorem witness_PacketsLaunchesAndTravelComplete_launch : ∃ (w : Warp), (state busyThread).warp (dHead (dform 0 0xF0 4 8 0xF0)) = some w
    ∧ Guarded w ∧ (∀ a ∈ w.lanes, ∀ b ∈ w.lanes, a.v = b.v → a = b) ∧ Starts (state busyThread) w [.pair 4 false, src8 8 0] .none
    ∧ w.someTxn = false ∧ ∀ l ∈ w.acting, (∀ v ∈ (state busyThread).sourceVals w [.pair 4 false, src8 8 0] l, v.tok? = none)
      ∧ (state busyThread).releaseReady l.key w.cluster l.t.vc 6 false = true := by
  refine ⟨_, rfl, ?_, by decide, ?_, by decide, by decide⟩
  · unfold Guarded; decide
  · unfold Starts; decide

theorem witness_PacketsLaunchesAndTravelComplete_spawn : ∃ (w : Warp), (state busyThread).warp (dHead (dform 2 0xF0 4 4 8)) = some w
    ∧ Guarded w ∧ (∀ a ∈ w.lanes, ∀ b ∈ w.lanes, a.v = b.v → a = b) ∧ Starts (state busyThread) w [.pair 4 false, .pair 4 false] .none
    ∧ w.group = none ∧ w.someTxn = false
    ∧ (∀ l ∈ w.acting, (state busyThread).course w (valAt ((state busyThread).sourceVals w [.pair 4 false, .pair 4 false] l) 0) = .to (.here 0)
      ∧ (valAt ((state busyThread).sourceVals w [.pair 4 false, .pair 4 false] l) 1).tok? = none
      ∧ (state busyThread).releaseReady l.key w.cluster l.t.vc 7 false = true ∧ (state busyThread).releaseReady l.key w.cluster l.t.vc 9 false = true)
    ∧ w.acting.length ≤ ((state busyThread).cluster w.cluster).credits := by
  refine ⟨_, rfl, ?_, by decide, ?_, by decide, by decide, by decide, by decide⟩
  · unfold Guarded; decide
  · unfold Starts; decide

/-- 0x30000 is a page of the physical address pa. -/
def faraway (pa : Nat) : State :=
  { state busyThread with rows := [(0, { Row.init with tlb := [⟨0, 0x30000, false, pa, 1, true, false, 2 ^ 16, none⟩] })] }

theorem witness_PacketsLaunchesAndTravelComplete_migr : ∃ (w : Warp), (faraway (5 * 2 ^ 30)).warp (dHead (dform 0 0xF0 6 0xF0 0xF0)) = some w
    ∧ Guarded w ∧ (∀ a ∈ w.lanes, ∀ b ∈ w.lanes, a.v = b.v → a = b) ∧ Starts (faraway (5 * 2 ^ 30)) w [.pair 6 false] .none
    ∧ w.group = none ∧ w.someTxn = false ∧ w.slice = false ∧ w.cluster ≠ 5
    ∧ ∃ l ∈ w.acting, Lone w l ∧ (faraway (5 * 2 ^ 30)).course w (valAt ((faraway (5 * 2 ^ 30)).sourceVals w [.pair 6 false] l) 0) = .to (.here 5) := by
  refine ⟨_, rfl, ?_, by decide, ?_, by decide, by decide, rfl, by decide, _, List.mem_cons_self, ?_, by decide⟩
  · unfold Guarded; decide
  · unfold Starts; decide
  · unfold Lone; decide

/-- Two threads of a group whose queues and scratchpad are empty. -/
def sliceThread : Thread := { thread with group := some 0, regs := regsOf [(1, 0), (2, 4), (3, 1), (4, 0x20000), (5, 0)] }

def slice2 : State :=
  { sliced group with threads := (List.range 2).map fun l => (laneKey 0 l, sliceThread) }

def streamSrcs : List Src := [.pair 4 false, .reg 2 false 0 0, .reg 3 false 0 0]

theorem witness_AccessInstructionsComplete_astr : ∃ (w : Warp) (l : Lane), slice2.warp (dHead (dform 0 0xD0 4 2 0xF0)) = some w ∧ w.slice = true ∧ w.unit = 0
    ∧ w.group = some 0 ∧ slice2.group? 0 = some group ∧ Guarded w ∧ w.elected = some l ∧ Starts slice2 (only w l) streamSrcs .none
    ∧ streamSrcs.filterMap (Src.pops w.slice) = [] ∧ (slice2.streams 0).length < 8
    ∧ (slice2.sourceVals (only w l) streamSrcs l).findSome? Val.tok? = none ∧ valAt (slice2.sourceVals (only w l) streamSrcs l) 2 = .dat 1 := by
  refine ⟨_, _, rfl, rfl, rfl, rfl, rfl, ?_, rfl, ?_, rfl, by decide, by decide, by decide⟩
  · unfold Guarded; decide
  · unfold Starts; decide

theorem witness_AccessInstructionsComplete_agat : ∃ (f : DMForm) (w : Warp), slice2.warp (dmHead f) = some w ∧ w.slice = true
    ∧ w.queues [padBase f, dmIndex f] (.reg f.d (dmWide f)) = [f.d.toNat - 0xD0]
    ∧ Starts slice2 w [padBase f, dmIndex f] (.reg f.d (dmWide f))
    ∧ slice2.roomFor w (f.d.toNat - 0xD0) (w.acting.length * (if dmWide f then 2 else 1)) = true ∧ f.d.toNat - 0xD0 ≠ 14 := by
  refine ⟨{ ldform 0xD0 with base := 1 }, _, rfl, rfl, by decide, ?_, by decide, by decide⟩
  unfold Starts; decide

/-- Queue q12 of the group, which its slice pops, holds two elements. -/
def fed : State := { slice2 with groups := [(0, { group with q := [(12, [.val (.data 8), .val (.data 9)])] })] }

theorem witness_AccessInstructionsComplete_asct : ∃ (f : DMForm) (w : Warp), fed.warp (dmHead f) = some w ∧ w.slice = true
    ∧ Starts fed w [padBase f, dmIndex f] .none ∧ fed.queueExists w (f.d.toNat - 0xD0) = true
    ∧ w.acting.length ≤ queueReady (fed.queue w (f.d.toNat - 0xD0))
    ∧ (∀ i ∈ List.range w.acting.length, (qelVal ((fed.queue w (f.d.toNat - 0xD0)).getD i (.val Tw.zero))).tag = false)
    ∧ (∀ l ∈ w.acting, (valAt (fed.sourceVals w [padBase f, dmIndex f] l) 1).tok? = none
      ∧ (match padAt (dmSize f) group.scr w.origin (dmAddr f (fed.sourceVals w [padBase f, dmIndex f] l)) with | .ok _ => true | .error _ => false) = true) := by
  refine ⟨{ ldform 0xDC with base := 1 }, _, rfl, rfl, ?_, by decide, by decide, by decide, by decide⟩
  unfold Starts; decide

/-! The steps of the other agents. -/

/-- One Runnable thread, in no slot. -/
def ready : State := { state thread with threads := [(0, { thread with cue := .runnable })], slots := [], now := 12 }

/-- That thread's transaction has been failed by a save. -/
def savedTxn : State :=
  { ready with threads := [(0, { thread with cue := .runnable, txn := some ⟨[], thread.preds, 0x10008, 6, none, none, [], some (6, 0), none⟩ })] }

theorem witness_NoSavedTxn : NoSavedTxn ready 0 ∧ savedTxn.cueTable 0 ≠ [] ∧ ¬NoSavedTxn savedTxn 0 := by
  refine ⟨?_, by decide, fun h => ?_⟩
  · intro head rest e x hx y hy
    have : head = (0, { thread with cue := Cue.runnable }) ∧ rest = [] := by
      have e' : ready.cueTable 0 = [(0, { thread with cue := Cue.runnable })] := by decide
      rw [e'] at e
      injection e with a b
      exact ⟨a.symm, b.symm⟩
    obtain ⟨rfl, rfl⟩ := this
    have hx' : x = (0, { thread with cue := Cue.runnable }) := by simpa [gather] using hx
    subst hx'
    cases hy
  · exact h _ [] rfl _ List.mem_cons_self _ rfl rfl

theorem witness_SchedulingSteps_formation : (0 < 768 ∧ 0 < 4 ∧ ready.slotFree 0 = true ∧ ready.siteDown 0 = false ∧ (ready.row (rowOf 0)).clkUntil = 0)
    ∧ ready.cueTable 0 ≠ [] ∧ ∀ x ∈ ready.cueTable 0, ready.overdue x.1 x.2 = false := by decide

theorem witness_RunStartsWithDeadLs : ready.slotFree 0 = true ∧ ready.siteDown 0 = false ∧ (ready.row (rowOf 0)).clkUntil = 0
    ∧ ∃ head rest, ready.cueTable 0 = head :: rest ∧ ∀ x ∈ head :: rest, ready.overdue x.1 x.2 = false :=
  ⟨by decide, by decide, by decide, _, [], rfl, by decide⟩

theorem witness_SchedulingSteps_promotion :
    let t := { thread with cue := Cue.runnable }
    let s := { ready with now := 2 ^ 40 }
    s.thread? 0 = some t ∧ t.cue = .runnable ∧ isLaneKey 0 = false ∧ s.overdue 0 t = true := by decide

/-- The slot waits for a queue element, reason 2; for room, reason 3. -/
def waiting (reason : Half) : State := { state thread with slots := [(0, { Slot.init with lanes := [some 0], wait := reason })] }

theorem witness_SchedulingSteps_resume : ((waiting 2).slot 0).wait = 2 ∧ ((waiting 3).slot 0).wait = 3 := by decide

/-- The bytes at the PC hold cue 11. -/
def misencoded : State := { state thread with mem := [(0x10000, 0xFD), (0x10001, 0x40), (0x10002, 0x20), (0x10003, 0x0C)] }

theorem witness_SchedulingSteps_fault : ∃ f cause code va, misencoded.front = some f ∧ misencoded.fetched f = .fault cause code va := ⟨_, _, _, _, rfl, rfl⟩

/-- A thread that waits for two register blocks. -/
def asking : Thread := { thread with cue := .waiting, wait := 11, waitOn := .pool 2 0 }

theorem witness_SchedulingSteps_grant : ∃ r rest key t, (state asking).poolRequests 0 = r :: rest ∧ r.thread = some key
    ∧ (state asking).thread? key = some t ∧ r.need ≤ (state asking).blocksFree 0 ∧ ((state asking).ctx t.ctx).low = false
    ∧ t.held = false ∧ t.grantBlocks.spilled = 0 :=
  ⟨_, _, 0, asking, rfl, rfl, rfl, by decide, by decide, rfl, by decide⟩

/-- Two blocks are asked for, and another thread that is parked holds the pool. The save area has no room (SFULL). -/
def crowded : State :=
  { state thread with
    now := 2 ^ 40
    slots := []
    ctxs := [(0, { Ctx.init with ctl := 0x8000000000000000 })]
    threads := [(0, asking), (1, { thread with cue := .parked, wait := 0x18, waitOn := .page 0x20000, blocks := 4096, tid := 1 })] }

theorem witness_SchedulingSteps_eviction : ∃ r rest, crowded.poolRequests 0 = r :: rest ∧ 16384 ≤ crowded.cyclesSince 0 r.since
    ∧ crowded.poolMet 0 ((r :: rest).foldl (fun n x => n + x.need) 0) = false ∧ crowded.changed (crowded.poolEvict 0) = true :=
  ⟨_, _, rfl, by decide, by decide, by decide⟩

/-- An operation that may retire. -/
def Retires (s : State) (k : Nat) (o : Op) : Prop :=
  find s.ops k = some o ∧ o.retired = false ∧ o.watches = false ∧ (s.ctx o.ctx).down = false ∧ (s.ctx o.ctx).low = false ∧ s.olderOut k o = false

theorem witness_RetirementSteps_long :
    let o := { loadOp with stage := .performed }
    Retires (flying o) 1 o ∧ o.returns = true ∧ (∀ n ∈ List.range 16, o.dst ≠ .k n) ∧ (flying o).replyTurn o = true := by unfold Retires; decide

theorem witness_RetirementSteps_long_out :
    let o := op (.load 5 false false) (.peer 1) (2 ^ 40) (.reg 6 false)
    Retires (flying o) 1 o ∧ o.returns = true ∧ (flying o).carries o = true ∧ o.element = true := by unfold Retires; decide

theorem witness_RetirementSteps_kld :
    let o := { op (.load 5 false false) (.home 0) 0x20000 (.k 15) with stage := .performed }
    let p := op (.load 5 false false) (.peer 1) (2 ^ 40) (.k 15)
    (Retires (flying o) 1 o ∧ o.returns = true ∧ o.dst = .k 15 ∧ (flying o).cycleStart 0 = true ∧ (flying o).replyTurn o = true) ∧ Retires (flying p) 1 p ∧ p.returns = true ∧ (flying p).carries p = true := by
  unfold Retires; decide

theorem witness_RetirementSteps_store :
    let o := { op (.store 4 7) (.home 0) 0x20000 .none with stage := .performed }
    let p := op (.store 4 7) (.peer 1) (2 ^ 40) .none
    (Retires (flying o) 1 o ∧ o.returns = false ∧ (flying o).replyTurn o = true) ∧ Retires (flying p) 1 p ∧ p.returns = false ∧ (flying p).carries p = true := by
  unfold Retires; decide

theorem witness_RetirementSteps_timeouts :
    (let o := op (.load 5 false false) (.cxl 0) (2 ^ 41) (.reg 6 false); find (flying o).ops 1 = some o ∧ o.stage = .sent)
    ∧ (let o := op (.load 5 false false) .host (2 ^ 41) (.reg 6 false)
      let s := { flying o with now := 50000 * ticksPerUs }
      find s.ops 1 = some o ∧ o.stage = .sent ∧ o.sentAt + 50000 * ticksPerUs ≤ s.now)
    ∧ (let o := op (.load 5 false false) (.fabric 0) (2 ^ 41) (.reg 6 false); find (flying o).ops 1 = some o ∧ o.stage = .sent) := by decide

theorem witness_OrderingSteps_gate :
    (let o := { loadOp with stage := .held };
      (flying o).mayApply 1 o = true ∧ (flying o).passes o = true ∧ (flying o).movedOp o = none ∧ o.kind = some .read)
    ∧ let o := { op (.store 4 7) (.home 0) 0x20000 .none with stage := .held };
      (flying o).mayApply 1 o = true ∧ (flying o).passes o = true ∧ (flying o).movedOp o = none ∧ o.kind = some .write := by decide

theorem witness_OrderingSteps_resend :
    let o := { loadOp with stage := .refused 64 }
    let s := { flying o with now := 64 }
    find s.ops 1 = some o ∧ 64 ≤ s.now := by decide

/-- Cluster 0 has forwarded 4 KiB from 0x20000 on to 0x60000; it holds 4 KiB frozen. -/
def forwarding (o : Op) : State := { flying o with clusters := [(0, { Cluster.init with fwds := [⟨0, 0x20000, 4096, 0x60000, false, 0, 0x20000⟩] })] }
def freezing (o : Op) : State := { flying o with clusters := [(0, { Cluster.init with frozen := [(0x20000, 4096)] })] }

theorem witness_OrderingSteps_forwarded :
    ((forwarding loadOp).mayApply 1 loadOp = true ∧ (forwarding loadOp).passes loadOp = true
      ∧ (match (forwarding loadOp).movedOp loadOp with | some (.to _) => true | _ => false) = true)
    ∧ (freezing loadOp).mayApply 1 loadOp = true ∧ (freezing loadOp).passes loadOp = true ∧ (freezing loadOp).movedOp loadOp = some .frozen
    ∧ (let o := { loadOp with stage := .frozen 0 }; (flying o).mayApply 1 o = true ∧ (flying o).movedOp o = none)
    ∧ let o := op (.atomic .add 5 1 0) (.home 0) 0x20000 .none;
      (forwarding o).mayApply 1 o = true ∧ o.isAtomic = true ∧ (forwarding o).togetherNow o = true := by decide

/-- An operation of a group's scratchpad. -/
def padded (o : Op) : State := { anchored thread group with ops := [(1, o)] }

theorem witness_OrderingSteps_bank :
    let o := op (.atomic .add 5 1 0) (.pad 0) 8 (.reg 6 false)
    let s := padded o
    o.stage = .sent ∧ (s.ctx o.ctx).treated = [] ∧ ∀ y ∈ s.batchOf o, s.earlier y.1 y.2 = [] ∧ y.2.sentAt ≤ s.now := by decide

/-- The group stands in an ensemble, its mirrored window at 0. -/
def mirrored (o : Op) : State :=
  { padded o with groups := [(0, { group with mirror := 4096 })], ensembles := [(0, ⟨0, 0, 0, 0, [0], [], 0, 0⟩)] }

theorem witness_OrderingSteps_stm :
    let o := op (.stm 1 4 7) (.pad 0) 8 .none
    let s := mirrored o
    o.stage = .sent ∧ (s.ctx o.ctx).treated = [] ∧ (stmSplit (s.ensGroups 0) 1 0).1 ≠ []
      ∧ ∀ y ∈ s.ops, y.1 < 1 → y.2.cluster = o.cluster → y.2.stage ≠ .sent := by decide

theorem witness_OrderingSteps_window :
    (let o := op (.ldw 5) .window 0 (.reg 6 false); o.stage = .sent ∧ (flying o).earlier 1 o = [] ∧ (flying o).inTurn 1 o = true
      ∧ ((flying o).ctx o.ctx).down = false)
    ∧ let o := op (.stw 5 7) .window 0 .none; o.stage = .sent ∧ (flying o).earlier 1 o = [] ∧ (flying o).inTurn 1 o = true
      ∧ ((flying o).ctx o.ctx).down = false := by decide

/-- A thread that re-reads a word of scratchpad. -/
def rechecking : Thread :=
  { thread with cue := .waiting, wait := 10, waitOn := .cond ⟨.pad 0 2, 0, 5, 1, 1, 6, false, 64, 64, 0x10000⟩, group := some 0 }

theorem witness_OrderingSteps_recheck :
    let s := { padded loadOp with threads := [(0, rechecking)], now := 64 * cycleOf 2 }
    0 < 2 ^ 32 ∧ s.thread? 0 = some rechecking ∧ 64 ≤ s.coreCycle (clusterOfKey 0) ∧ (s.ctx rechecking.ctx).low = false := by decide

/-- A compare and exchange packet (OP 1), at its home, and held by an open transaction. -/
def packet : Packet := ⟨1, 0, 0, 0, 0, 7, none, 0, (0, 0)⟩
def packetOp (stage : Stage) : Op := { op (.packet packet) (.home 0) 0x20000 (.reg 6 true) with stage := stage }

theorem witness_PacketSteps_packet :
    let o := packetOp .sent
    (flying o).mayApply 1 o = true ∧ (flying o).rowFree 1 o packet = true ∧ (flying o).passes o = true ∧ (flying o).movedOp o = none := by decide

/-- The thread's transaction holds that packet; the thread issues, or waits for its commit. -/
def openTxn (w : WaitOn) (target : Option Target) : Thread :=
  { held with cue := .waiting, waitOn := w, txn := some ⟨[], thread.preds, 0x10008, 6, target, none, [1], none, none⟩ }

/-- A packet for this package; one for a peer, whose answer comes over group 15. -/
theorem witness_PacketSteps_transaction :
    let t := openTxn .none none
    let o := packetOp .txn
    let s := { flying o with threads := [(0, t)] }
    find s.ops 1 = some o ∧ o.issuer = .thread 0 ∧ s.thread? 0 = some t ∧ (∃ x, t.txn = some x ∧ x.held.contains 1 = true) ∧ o.stage = .txn
      ∧ (s.ctx o.ctx).low = false ∧ o.place = .home 0 :=
  ⟨rfl, rfl, rfl, ⟨_, rfl, rfl⟩, rfl, by decide, rfl⟩

theorem witness_PacketSteps_transaction_away :
    let t := openTxn .none (some (.peer 1))
    let o := { packetOp .txn with place := .peer 1, eg := some 15 }
    let s := { flying o with threads := [(0, t)] }
    find s.ops 1 = some o ∧ o.issuer = .thread 0 ∧ s.thread? 0 = some t ∧ (∃ x, t.txn = some x ∧ x.held.contains 1 = true) ∧ o.stage = .txn
      ∧ (s.ctx o.ctx).low = false ∧ o.asks = true ∧ o.eg.isSome = true :=
  ⟨rfl, rfl, rfl, ⟨_, rfl, rfl⟩, rfl, by decide, by decide, rfl⟩

theorem witness_PacketSteps_commit :
    let t := openTxn (.commit 6 0x10000) (some .self)
    let s := { flying (packetOp .txn) with threads := [(0, t)] }
    s.thread? 0 = some t ∧ t.waitOn = .commit 6 0x10000 ∧ (s.ctx t.ctx).low = false
      ∧ (∃ x, t.txn = some x ∧ x.target = some .self ∧ s.commitReady x.held = true ∧ ∀ k ∈ x.held, ∃ o, find s.ops k = some o ∧ o.stage = .txn) :=
  ⟨rfl, rfl, by decide, _, rfl, rfl, by decide, fun k h => by rw [List.mem_singleton] at h; subst h; exact ⟨_, rfl, rfl⟩⟩

theorem witness_PacketSteps_commit_away :
    let x : Txn := ⟨[], thread.preds, 0x10008, 6, some (.peer 1), none, [1], none, some 15⟩
    let t := { openTxn (.commit 6 0x10000) none with txn := some x }
    let s := { flying { packetOp .txn with place := .peer 1, eg := some 15 } with threads := [(0, t)] }
    s.thread? 0 = some t ∧ t.waitOn = .commit 6 0x10000 ∧ t.txn = some x ∧ (s.ctx t.ctx).low = false ∧ x.target ≠ some .self
      ∧ [Reply.home].length = x.held.length ∧ x.eg.isSome = true ∧ ∀ k ∈ x.held, ∃ o, find s.ops k = some o ∧ o.stage = .txn :=
  ⟨rfl, rfl, rfl, by decide, by decide, rfl, rfl, fun k h => by rw [List.mem_singleton] at h; subst h; exact ⟨_, rfl, rfl⟩⟩

theorem witness_PacketSteps_reply :
    let t := openTxn (.commit 6 0x10000) (some .self)
    let s := { flying (packetOp .performed) with threads := [(0, t)] }
    s.thread? 0 = some t ∧ t.waitOn = .commit 6 0x10000 ∧ t.spilled = 0 ∧ (s.ctx t.ctx).low = false
      ∧ (∃ x, t.txn = some x ∧ ∀ k ∈ x.held, ∃ o, find s.ops k = some o ∧ o.stage = .performed) :=
  ⟨rfl, rfl, rfl, by decide, _, rfl, fun k h => by rw [List.mem_singleton] at h; subst h; exact ⟨_, rfl, rfl⟩⟩

/-- A copy of four bytes of memory, at its first element, and after it. -/
def copy (kind index : Nat) : CopyCmd :=
  { id := 1, serial := 1, ctx := 0, act := 0, cluster := 0, group := none, threads := [0], pc := 0x10000, kind := kind, scope := 7, order := 1
    src := 0x20000, dst := 0x20010, x := 4, y := 1, z := 1, sstr1 := 0, sstr2 := 0, dstr1 := 0, dstr2 := 0, dblk := 0, blist := 0, nblk := 0
    cw := allOnes, index := index, ec := Clock.zero, counted := false, entry := none, lines := [0x800], acks := [], walks := [] }

def copying (c : CopyCmd) : State := { state thread with engines := [(0, ⟨1, [c], []⟩)] }

theorem witness_EngineSteps_read :
    let s := copying (copy 0 0)
    let s1 := s.keepPages 0 1
    s1.copyCmd? 0 1 = some (copy 0 0) ∧ s1.copyRuns 0 (copy 0 0) = true ∧ (copy 0 0).ahead < (copy 0 0).total ∧ (copy 0 0).staged.length < 4096
      ∧ (copy 0 0).blist = 0 ∧ s1.sourceFree 0 (copy 0 0) ((copy 0 0).source (copy 0 0).ahead 0) = true
      ∧ (match s1.engineRead (.copy 0 1) 0 0 Clock.zero ((copy 0 0).source (copy 0 0).ahead 0) 4 1 .clean .home with | .got _ _ => true | _ => false) = true := by
  decide

/-- The same by a list of one block, which stands at 0x20000; and with its element read ahead. -/
def listed : CopyCmd := { copy 0 0 with blist := 0x20000, nblk := 1 }
def staged : CopyCmd := { copy 0 0 with staged := [.data 7] }

theorem witness_EngineSteps_entry :
    let s1 := (copying listed).keepPages 0 1
    s1.copyCmd? 0 1 = some listed ∧ s1.copyRuns 0 listed = true ∧ listed.ahead < listed.total ∧ listed.blist ≠ 0 ∧ listed.entry = none
      ∧ (match s1.engineRead (.copy 0 1) 0 0 Clock.zero listed.entryAt 8 1 .clean .home with | .got _ _ => true | _ => false) = true := by decide

theorem witness_EngineSteps_deliver :
    let s1 := (copying staged).keepPages 0 1
    s1.copyCmd? 0 1 = some staged ∧ s1.copyRuns 0 staged = true ∧ staged.staged = [.data 7]
      ∧ (match s1.deliverElement 0 staged (.data 7) with | .got _ _ => true | _ => false) = true := by decide

theorem witness_EngineSteps_completion :
    let c := copy 0 1
    let s := copying c
    s.copyCmd? 0 1 = some c ∧ c.left = false ∧ c.counted = false ∧ s.copyOps 0 1 = [] ∧ s.copyRuns 0 c = true ∧ c.kind ≠ 4 ∧ c.cw = allOnes
      ∧ (let c := { copy 4 1 with cw := 0x20000, acks := List.range 896 }; let s := copying c
        s.copyCmd? 0 1 = some c ∧ s.copyRuns 0 c = true ∧ cachePlaces ≤ c.acks.length ∧ c.cw ≠ allOnes
          ∧ (match s.completionAt 0 c with | .got _ _ => true | _ => false) = true) := by decide

theorem witness_EngineSteps_drop :
    let c := copy 4 1
    let s := copying c
    s.copyCmd? 0 1 = some c ∧ c.kind = 4 ∧ c.left = false ∧ 767 < 768 ∧ c.acks.contains 767 = false ∧ c.acks.contains 895 = false ∧ s.copyOps 0 1 = [] ∧ s.copyRuns 0 c = true := by decide

/-- A stream of two elements into q0, with or without a tagged address. -/
def stream (tok : Option Word) : Stream :=
  { id := 1, serial := 1, q := 0, base := 0x20000, stride := 4, count := 2, wide := false, index := 0, pc := 0x10000, tok := tok
    clock := Clock.zero, walks := [] }
def streaming (tok : Option Word) : State :=
  sliced { group with
    q := [(0, [.mark 1])]
    slice := some { pc := 0x10000, running := true, wait := 0, since := 0, streams := [stream tok], walks := [] } }

theorem witness_EngineSteps_stream :
    (let s := streaming (some 7); s.stream? 0 1 = some (stream (some 7)) ∧ (s.ctx 0).treated = [] ∧ (s.ctx 0).down = false
      ∧ (stream (some 7)).ahead < (stream (some 7)).count ∧ (stream (some 7)).staged.length < 32)
    ∧ (let s := streaming none; s.stream? 0 1 = some (stream none) ∧ (s.ctx 0).treated = [] ∧ (s.ctx 0).down = false
      ∧ (match s.engineRead (.stream 0 1) 0 0 Clock.zero (stream none).va 4 1 .clean .home with | .got _ (.ok _) => true | _ => false) = true)
    ∧ (streaming none).mayPush 0 false 0 1 1 = true := by decide

theorem witness_EngineSteps_access : ∃ f d n, let s1 := { sliced group with cur := .slice 0 }
    ((sliced group).row 0).clkUntil = 0 ∧ ((sliced group).cluster 0).access.1 ≠ (sliced group).coreCycle 0 + 1 ∧ (sliced group).slicesBefore 0 0 = []
      ∧ s1.front = some f ∧ s1.fetched f = .ok d n ∧ d.inSlice = true ∧ ∃ t, exec d.instr s1 = .next t :=
  ⟨_, _, _, by decide, by decide, by decide, rfl, rfl, rfl, _, rfl⟩

/-- The bytes at the slice's PC hold cue 11. -/
theorem witness_EngineSteps_accessFault : ∃ f cause code va,
    let s := { sliced group with mem := [(0x10000, 0xFD), (0x10001, 0x40), (0x10002, 0x20), (0x10003, 0x0C)] }
    s.front = some f ∧ s.fetched f = .fault cause code va ∧ (s.ctx f.ctx).low = false := ⟨_, _, _, _, rfl, rfl, by decide⟩

/-- A clear of one accumulator at the head of the group's matrix queue. -/
def clearing (started : Bool) : Group := { group with mq := [{ MxOp.empty .mzero [0x10000, 0x101] with started := started }] }

theorem witness_EngineSteps_matrix :
    (let o := { MxOp.empty .mzero [0x10000, 0x101] with started := false };
      (anchored thread (clearing false)).group? 0 = some (clearing false) ∧ (clearing false).mq = [o] ∧ o.started = false
        ∧ ((anchored thread (clearing false)).ctx 0).low = false)
    ∧ (let o := { MxOp.empty .mzero [0x10000, 0x101] with started := true };
      (anchored thread (clearing true)).group? 0 = some (clearing true) ∧ (clearing true).mq = [o] ∧ o.started = true ∧ o.fed = true
        ∧ ((anchored thread (clearing true)).ctx 0).low = false) := by decide

/-- A message of two values to port 0 of cluster 0, and spawns, in the outbox of cluster 0. -/
def travel : Travel := travelOf thread ⟨none, 5, true, 0x10000, 0x10008, false, 0, 0, 0, 0xF0, 0, 0, [], 128, none, false⟩ 0
def message (next : Nat) : Msg := ⟨1, 0, 0, 0, 0, 0x10000, .queue false 0 [.val (.data 1), .val (.data 2)] Clock.zero 3 0, next, 128, false⟩
def spawn (next : Nat) (acked : Bool) : Msg := ⟨1, 0, 0, 0, 5, 0x10000, .spawn travel none false none, next, 128, acked⟩
def posting (m : Msg) : State := { anchored thread group with clusters := [(0, { Cluster.init with outbox := [m] })] }

theorem witness_MessageSteps :
    (let s := { posting (message 0) with now := 64 };
      s.msg? 0 1 = some (message 0) ∧ (s.ctx 0).low = false ∧ s.inboxSaved (message 0) = false ∧ (message 0).dst ≠ 1023 ∧ s.behind 0 (message 0) = false
        ∧ s.inboxOf (message 0) false 0 = some [] ∧ queueUsed [] + 1 + 2 ≤ 256)
    ∧ (let s := { posting (message 64) with now := 64 * cycleOf 2 };
      s.msg? 0 1 = some (message 64) ∧ (message 64).next ≠ 0 ∧ (message 64).next ≤ s.coreCycle 0)
    ∧ (let s := posting (spawn 0 false);
      s.msg? 0 1 = some (spawn 0 false) ∧ s.behind 0 (spawn 0 false) = false ∧ (s.ctx 0).low = false
        ∧ (s.receive 5 { travel with since := s.now }).isSome = true)
    ∧ (let s := { posting (spawn 0 false) with ctxs := [] };
      s.msg? 0 1 = some (spawn 0 false) ∧ s.behind 0 (spawn 0 false) = false ∧ s.receive 5 { travel with since := s.now } = none)
    ∧ (posting (spawn 0 true)).msg? 0 1 = some (spawn 0 true)
    ∧ (let s := { posting (spawn 64 false) with now := 64 * cycleOf 2 };
      s.msg? 0 1 = some (spawn 64 false) ∧ (spawn 64 false).next ≠ 0 ∧ (spawn 64 false).next ≤ s.coreCycle 0)
    ∧ (let m := { spawn 0 false with cargo := .spawn travel (some 1) false (some 15) }; let s := posting m;
      s.msg? 0 1 = some m ∧ m.acked = false ∧ s.behind 0 m = false ∧ (s.ctx m.ctx).low = false) := by decide

/-- A thread on its way to cluster 5, by a MIGR or a load. -/
def leaving (migr : Bool) (answer : Option Bool) : Leave := ⟨none, 5, migr, 0x10000, 0x10008, false, 0x20000, 0x20000, 5, 6, 0, 0, [], 128, answer, false⟩
def traveller (cue : Cue) (w : WaitOn) : Thread := { thread with cue := cue, waitOn := w }
def travelling (cue : Cue) (w : WaitOn) : State := { state (traveller cue w) with now := 64 * cycleOf 2 }
/-- Its message in the outbox of cluster 0. -/
def carried (l : Leave) : Travel := travelOf (traveller .departed (.depart l)) l 0
def carrying (l : Leave) : State :=
  { travelling .departed (.depart l) with
    clusters := [(0, { Cluster.init with outbox := [⟨1, 0, 0, 0, 5, 0x10000, .travel (carried l) 0 none none, 0, 128, false⟩] })] }

theorem witness_TravelSteps :
    (let l := leaving true none; let t := traveller .waiting (.depart l); let s := travelling .waiting (.depart l);
      s.thread? 0 = some t ∧ s.idleThread 0 = true ∧ l.pkg.isNone = true ∧ (s.ctx t.ctx).low = false ∧ s.leaveRoute t 0 l = some 0)
    ∧ (let l := leaving true (some true); (travelling .departed (.depart l)).thread? 0 = some (traveller .departed (.depart l)))
    ∧ (let l := leaving false (some false); (travelling .departed (.depart l)).thread? 0 = some (traveller .departed (.depart l)) ∧ l.migr = false ∧ l.dst ≠ 0xDE)
    ∧ (let l := { leaving true (some false) with lost := true }; (travelling .departed (.depart l)).thread? 0 = some (traveller .departed (.depart l))
      ∧ l.migr = true ∧ (travelling .departed (.depart l)).leaveLost l = true)
    ∧ (let l := leaving true (some false); (travelling .departed (.depart l)).thread? 0 = some (traveller .departed (.depart l)) ∧ l.migr = true
      ∧ (travelling .departed (.depart l)).leaveLost l = false)
    ∧ (let l := leaving true none; let t := traveller .waiting (.arrival l 64); let s := travelling .waiting (.arrival l 64);
      s.thread? 0 = some t ∧ 64 ≤ s.coreCycle (clusterOfKey 0) ∧ (s.ctx t.ctx).low = false ∧ s.leaveRoute t 0 l = some 0)
    ∧ (let l := { leaving true none with pkg := some 1 }; let t := traveller .waiting (.depart l); let s := travelling .waiting (.depart l);
      s.thread? 0 = some t ∧ s.idleThread 0 = true ∧ s.releaseReady 0 (clusterOfKey 0) t.vc 9 false = true ∧ (s.ctx t.ctx).low = false
        ∧ s.leaveRoute t 0 l = none ∧ t.wait ≠ 0x17) := by decide

/-- The home admits, or does not where the context takes in nothing; a migration to a package answers from there. -/
theorem witness_TravelSteps_message :
    (let l := leaving true none; let s := carrying l; ∃ m, s.travelMsg 0 = some (m, carried l) ∧ s.behind 0 m = false ∧ l.pkg = none
      ∧ ((s.dropMsg 0 m.id).receive l.cluster { carried l with since := s.now }).isSome = true)
    ∧ (let l := leaving true none; let s := { carrying l with ctxs := [] }; ∃ m, s.travelMsg 0 = some (m, carried l) ∧ s.behind 0 m = false
      ∧ l.pkg = none ∧ (s.dropMsg 0 m.id).receive l.cluster { carried l with since := s.now } = none)
    ∧ (let l := { leaving true none with pkg := some 1 }; let s := carrying l; ∃ m, s.travelMsg 0 = some (m, carried l) ∧ s.behind 0 m = false
      ∧ l.pkg ≠ none) :=
  ⟨⟨_, rfl, by decide, rfl, by decide⟩, ⟨_, rfl, by decide, rfl, by decide⟩, _, rfl, by decide, by decide⟩

theorem witness_TravelSteps_arrival :
    let s := { state thread with clusters := [(0, { Cluster.init with arrivals := [travel] })] }
    (s.cluster 0).arrivals = [travel] ∧ (s.headSlot 0 travel).isSome = true := by decide

/-- An act with a header, and one that a callboard queues. -/
def act (h : Nat) : Act :=
  { ctx := 0, num := 0, board := 0, roaming := false, header := h, state := 0, err := 0, ovf := false, level := 0, k := [], live := 1, untrig := 1
    ctr := 0, remote := [(256, 1)], remoteUntrig := 1, signalled := false, fired := false, ready := false, placed := 0, retryAt := 0, retryGap := 128
    lastRow := 32, inbox := [], guest := none, preTrig := [], posted := 0 }
def acting (a : Act) : State := { state thread with acts := [(0, a)] }
def queued (a : Act) : State := { acting a with boards := [(0, { Board.init with queue := [0] })] }

theorem witness_ActSteps_notices :
    find (acting (act 0)).acts 0 = some (act 0) ∧ 0 < 1 ∧ 1 ≤ (act 0).remoteUntrig ∧ 1 ≤ get (act 0).remote 256 0 ∧ 1 ≤ (act 0).live
      ∧ (act 0).remote ≠ [] := by decide

theorem witness_ActSteps_retirement :
    let a := { act 0 with live := 0 }
    let s := acting a
    find s.acts 0 = some a ∧ a.live = 0 ∧ a.guest = none ∧ s.actQuiet a = true ∧ (s.ctx a.ctx).low = false ∧ ∀ x ∈ s.boards, 0 ∉ x.2.queue := by decide

/-- CBPOST and CBCTL_WRITE at the last callboard; a header address that is no multiple of 256. -/
theorem witness_ActSteps_boards : 255 < 256 ∧ (0x20080 : Dword).toNat % 256 ≠ 0 := by decide

theorem witness_ActSteps_ready : (((queued (act 0)).board 0).queue = [0] ∧ find (queued (act 0)).acts 0 = some (act 0) ∧ (act 0).ready = false
    ∧ ((queued (act 0)).ctx (act 0).ctx).low = false) ∧ hdrWaddr (act 0).header = 0 := ⟨by decide, (congrArg (· % _) (Nat.zero_div _)).trans (Nat.zero_mod _)⟩

/-- One ensemble of one group of 32 threads with 64 accumulators. -/
def header : Nat := 32 * 2 ^ 32 + 2 ^ 48 + 2 ^ 64 + 32 * 2 ^ 96 + 64 * 2 ^ 192 + 0x10000 * 2 ^ 256
def placing : State := { queued { act header with ready := true } with pkg := { Pkg.init with partmap := 0xFFFFFFFE } }

theorem witness_ActSteps_placement : ∃ key level a, placing.waiters 0 = [(key, level, .fresh a)] ∧ a.roaming = false ∧ hdrNens a.header ≠ 0
    ∧ ((placing.waiterRows (.fresh a)).findSome? (fun r => (placing.fits r (Waiter.fresh a).wants).map fun p => (r, p))).isSome = true :=
  ⟨_, _, _, rfl, rfl, by decide, by decide⟩

theorem witness_ActSteps_resend :
    let a := { act 1 with roaming := true, ready := true, retryAt := 64 }
    let s := { queued a with now := 64 * cycleOf 2 }
    find s.acts 0 = some a ∧ a.retryAt ≠ 0 ∧ a.retryAt ≤ s.coreCycle (s.launchCluster a.ctx a.placed) ∧ (∃ b, s.readyHead a.board = some b ∧ b.num = a.num) :=
  ⟨rfl, by decide, by decide, _, rfl, rfl⟩

/-- The row of that partition is full: 23 of its sites under repair, and an idle ensemble with every thread slot of the last. -/
def full : State :=
  { placing with
    now := 2 ^ 40
    threads := []
    slots := []
    ctxs := [(0, { Ctx.init with ctl := 0x8000000000000000, save := 256 })]
    groups := [(0, { group with act := 1, size := 2048, nacc := 0, nfifo := 0, scr := 0, slice := none, asl := false })]
    ensembles := [(ensKey 0 1 0, ⟨0, 1, 0, 0, [0], [], 0, 0⟩)]
    pkg := { Pkg.init with partmap := 0xFFFFFFFE, repairs := (List.range 23).map fun i => ⟨1, i + 1, 0, true, 0⟩ } }

theorem witness_ActSteps_swap :
    let w := Waiter.fresh { act header with ready := true }
    (full.waiters 0).map (fun x => x.2.2) = [w] ∧ (full.rowsOf 0).headD 0 = 0 ∧ 0 ∈ full.waiterRows w
      ∧ (∀ r ∈ full.waiterRows w, full.fits r w.wants = none)
      ∧ ((full.without [.ensemble (ensKey 0 1 0)]).fits 0 w.wants).isSome = true
      ∧ ((State.evictUntil (fun s => (s.fits 0 w.wants).isSome) [.ensemble (ensKey 0 1 0)] full).fits 0 w.wants).isSome = true
      ∧ (full.row 0).cycleAt (get (full.row 0).issued 0 0) + 65536 ≤ (full.row 0).cycleAt full.now := by decide +kernel

/-- A window of congestion has ended, its words not yet written. -/
theorem witness_ActSteps_congestion : { State.reset with pkg := { Pkg.init with shut := some [(0, 1)] } }.pkg.shut = some [(0, 1)] := rfl

/-! Contexts, translations, the host, the pod. -/

def withCtx (c : Ctx) : State := { State.reset with ctxs := [(0, c)] }
def enabled : State := withCtx { Ctx.init with ctl := 0x8000000000000000 }

/-- Rows 0 and 1 busy: a map that keeps their partition, one that splits it. -/
theorem witness_PartitionMapWrite :
    (∀ r ∈ enabled.busyRows, partitionFrom 0 r 5 1 0 32 = enabled.partition r)
    ∧ ∃ r ∈ enabled.busyRows, partitionFrom 0xFFFFFFFE r 5 1 0 32 ≠ enabled.partition r := by decide

theorem witness_ContextSteps_enable :
    let s := { State.reset with ctxs := [(63, { Ctx.init with save := 1 })] }
    bit (0x8000000000000000 : Dword).toNat 63 = true ∧ (s.ctx 63).en = false ∧ s.enableRefused 63 0x8000000000000000 = none := by decide

/-- A row cannot be the first of a partition where PARTMAP joins it to the row before. -/
theorem witness_ContextSteps_refused : ∃ (v : Dword) (e : Nat), bit v.toNat 63 = true ∧ State.reset.enableRefused 0 v = some e := ⟨0x8020000000000000, _, by decide, rfl⟩

theorem witness_ContextSteps_end :
    (enabled.ctx 0).en = true ∧ df (0x0020000000000000 : Dword) 57 53 ≠ (enabled.ctx 0).part
      ∧ df (0 : Dword) 57 53 = (enabled.ctx 0).part ∧ bit (0 : Dword).toNat 63 = false := by decide

/-- CTXMODE: a reserved code; a change of a fixed field while enabled; a change that is taken. -/
theorem witness_ContextSteps_mode :
    df (0x600 : Dword) 10 9 = 3 ∧ ((0x204 : Dword) ^^^ (enabled.ctx 0).mode) &&& 0xFC ≠ 0 ∧ ((0xA00 : Dword) ^^^ (enabled.ctx 0).mode) &&& 0xFC = 0 := by decide

theorem witness_ContextSteps_clock :
    let s := { State.reset with rows := [(31, { Row.init with clk := 1, clkUntil := 64 })] }
    (s.partition 0).1 = 0 ∧ 31 ∈ s.partRows 0 ∧ (s.row 31).clkUntil ≠ 0 := by decide

/-- A context that is busy, one that is out, one being switched out. -/
theorem witness_ContextSteps_switch :
    ((withCtx { Ctx.init with stat := 0x400 }).ctx 0).busy = true ∧ ((withCtx { Ctx.init with stat := 0x200 }).ctx 0).out = true
      ∧ ((withCtx { Ctx.init with stat := 0x200 }).ctx 0).busy = false
      ∧ (enabled.ctx 0).busy = false ∧ (enabled.ctx 0).out = false ∧ (enabled.ctx 0).swOut = false
      ∧ (let s1 := enabled.setCtx 0 { enabled.ctx 0 with stat := setD (enabled.ctx 0).stat 10 10 1, swOut := true, swIn := false };
        s1.areaFits 0 (s1.residentBytes 0) = true)
      ∧ (let s := { state thread with slots := [], threads := [(0, { thread with cue := .runnable })] };
        let s1 := s.setCtx 0 { s.ctx 0 with stat := setD (s.ctx 0).stat 10 10 1, swOut := true, swIn := false };
        (s.ctx 0).busy = false ∧ (s.ctx 0).out = false ∧ s1.areaFits 0 (s1.residentBytes 0) = false)
      ∧ ((withCtx { Ctx.init with stat := 0x400, swOut := true }).ctx 0).swOut = true
      ∧ (withCtx { Ctx.init with stat := 0x400, swOut := true }).residents 0 = [] := by decide

/-- FRAMEOWN: the last frame, from the host's 0x40 to context 0. -/
theorem witness_TranslationSteps_frame :
    let v : Dword := BitVec.ofNat 64 ((768 * 2 ^ 14 - 1) * 2 ^ 16)
    df v 39 16 < 768 * 2 ^ 14 ∧ df v 6 0 ≤ 0x40 ∧ get State.reset.owners (df v 39 16) 0x40 ≠ df v 6 0
      ∧ State.reset.frameBusy (df v 39 16) = false := by decide

theorem witness_TranslationSteps_zero : let s := { State.reset with zeroPend := [768 * 2 ^ 14 - 1] };
    768 * 2 ^ 14 - 1 ∈ s.zeroPend ∧ ∀ x ∈ s.clusters, ∀ m ∈ x.2.outbox, m.dst ≠ 1023 := by decide

theorem witness_TranslationSteps_invalidate :
    (bit (State.reset.ctx 63).invs.toNat 0 = false ∧ bit (0 : Dword).toNat 63 = false)
    ∧ bit ((withCtx { Ctx.init with invs := 1 }).ctx 0).invs.toNat 0 = true
    ∧ (let s := withCtx { Ctx.init with invs := 1, inv := some (0, 1) };
      (s.ctx 0).inv = some (0, 1) ∧ (s.ctx 0).invOps = [] ∧ s.travelling 0 0 1 = false) := by decide

theorem witness_TranslationSteps_walk :
    let w : Walk := ⟨0, 2, true, [.slot 0]⟩
    let s := { state thread with rows := [(0, { Row.init with walks := [w] })] }
    w ∈ (s.row 0).walks ∧ w.ctx = 0 ∧ w.granule = 2 ∧ w.started = true := by decide

/-- An ATS request, fresh and overtaken by an invalidation. -/
def ats (stale : List (Nat × Nat)) : AtsReq := ⟨1, 0, 2, true, [.slot 0], stale, 0⟩
def withPort (p : HostPort) : State := { enabled with now := 50000 * ticksPerUs, port := p }

theorem witness_HostSteps_ats :
    (let s := withPort { HostPort.init with ats := [ats []] };
      s.atsReq? 1 = some (ats []) ∧ (ats []).write = true ∧ (ats []).sentAt + 50000 * ticksPerUs ≤ s.now ∧ (ats []).covered ((ats []).span .abort) = false
        ∧ (ats []).covered ((ats []).span .unsupported) = false ∧ (ats []).covered ((ats []).span (.granted true true 2 16 true)) = false)
    ∧ (let r := ats [(0x2000, 0x1000)]; (withPort { HostPort.init with ats := [r] }).atsReq? 1 = some r ∧ r.covered (r.span .abort) = true) := by decide

theorem witness_HostSteps_invalidate :
    (enabled.port.invs.length < 32 ∧ (∀ x ∈ enabled.port.invs, x.1 ≠ 31) ∧ 0 ∈ enabled.ctxs.map Prod.fst ∧ (enabled.ctx 0).en = true)
    ∧ (∀ x ∈ State.reset.ctxs, x.2.en = false)
    ∧ (withPort { HostPort.init with invs := [(31, [])] }).port.invs.find? (fun x => x.1 = 31) = some (31, []) := by decide

theorem witness_HostSteps_prg :
    let r : PageReq := ⟨1, 0, 2, true, true, [0]⟩
    let t := { thread with cue := Cue.parked, wait := 0x1C, waitOn := WaitOn.host 0x20000 true }
    let s := { state t with port := { HostPort.init with pages := [r] } }
    s.port.pages.find? (fun r => r.id = 1 && r.sent) = some r ∧ 0 ∈ r.threads ∧ s.thread? 0 = some t ∧ (s.ctx t.ctx).low = false ∧ t.spilled = 0 := by decide

/-- BAR2: the last byte of the device's memory, and the one after it. -/
theorem witness_HostSteps_bar2 :
    (768 * 2 ^ 30 - 1 + 1 ≤ 768 * 2 ^ 30 ∧ State.reset.moving (768 * 2 ^ 30 - 1) 1 = false
      ∧ Unmoved State.reset (768 * 2 ^ 30 - 1) 1)
    ∧ 768 * 2 ^ 30 < 768 * 2 ^ 30 + 1 ∧ 768 * 2 ^ 30 + 1 ≤ 2 ^ 40 := by unfold Unmoved; decide

/-- Edge port groups at a step of a switch. -/
def switching (g : EdgeGroup) : State := { State.reset with now := 1000 * ticksPerUs, egs := [(15, g)] }
def podOn : State := { State.reset with pkg := { Pkg.init with podctl := 0x1000000 } }

theorem witness_EdgeGroupSteps_switch :
    bit (0x84 : Dword).toNat 7 = true ∧ 4 ≤ df (0x84 : Dword) 2 0 ∧ df (0x83 : Dword) 2 0 < 4 ∧ 2 ≤ df (0x82 : Dword) 2 0
      ∧ bit State.reset.pkg.podctl.toNat 24 = false ∧ (State.reset.eg 15).step = 0 ∧ bit podOn.pkg.podctl.toNat 24 = true
      ∧ ((switching { EdgeGroup.init with step := 2 }).eg 15).step ≠ 0 := by decide

/-- An operation over group 15. -/
def overEdge : Op := { op (.load 5 false false) (.peer 1) (2 ^ 41) (.reg 6 false) with eg := some 15 }

theorem witness_EdgeGroupSteps_drain :
    (let s := switching { EdgeGroup.init with step := 2 }; (s.eg 15).step = 2 ∧ s.drained 15 = true)
    ∧ (let s := { switching { EdgeGroup.init with step := 2 } with ops := [(1, overEdge)] };
      (s.eg 15).step = 2 ∧ s.drained 15 = false ∧ (s.eg 15).stepSince + 1000 * ticksPerUs ≤ s.now) := by decide

theorem witness_EdgeGroupSteps_light :
    (let s := switching { EdgeGroup.init with pers := 3 }; (s.eg 15).step = 0 ∧ 1 ≤ (s.eg 15).pers ∧ (s.eg 15).pers ≤ 3)
    ∧ (let s := { switching { EdgeGroup.init with step := 4 } with root := { Root.init with policy := true } }; (s.eg 15).step = 4 ∧ s.root.policy = true)
    ∧ (let s := switching { EdgeGroup.init with step := 7, goal := 2, ends := 1000 * ticksPerUs }; (s.eg 15).step = 7 ∧ (s.eg 15).ends ≤ s.now) := by decide

theorem witness_EdgeGroupSteps_exchange :
    let s := switching { EdgeGroup.init with step := 5, goal := 1 }
    (s.eg 15).step = 5 ∧ (s.eg 15).goal = 1 ∧ bit s.pkg.egpol.toNat 15 = false ∧ rangesOk (s.eg 15).valid [] = true := by decide

theorem witness_EdgeGroupSteps_keys :
    let s := { switching { EdgeGroup.init with pers := 1 } with pkg := { Pkg.init with egpol := 0x8000 } }
    bit s.pkg.egpol.toNat 15 = true ∧ 1 ≤ (s.eg 15).pers ∧ (s.eg 15).pers ≤ 3 := by decide

theorem witness_PodSteps_left : 255 < 256 ∧ 255 ≠ State.reset.ownPkg ∧ get State.reset.pkg.podrt 255 0 = 0
    ∧ get State.reset.pkg.unreach 255 0 + 10000 * ticksPerUs ≤ { State.reset with now := 10000 * ticksPerUs }.now := by decide

/-- A thread that waits for a route; the bound has passed. -/
def cutOff : Thread := { thread with cue := .parked, wait := 0x1A, waitOn := .link 0x20000 0 0x10000 2 0 }

theorem witness_PodSteps_link :
    let s := { state cutOff with now := 10000 * ticksPerUs }
    s.thread? 0 = some cutOff ∧ s.linkUp (clusterOfKey 0) cutOff.ctx 0x20000 = true ∧ (s.ctx cutOff.ctx).low = false
      ∧ 0 + 10000 * ticksPerUs ≤ s.now := by decide

/-- Tables that map the first GiB to package 1, to which no group leads (spec/18 R385, R386): three entries from 0x1000 on. -/
def abroad (t : Thread) : State :=
  { state t with
    ctxs := [(0, { Ctx.init with ctl := 0x8000000000000000, pt := 0x1000 })]
    mem := [(0x1000, 0x01), (0x1001, 0x20), (0x2000, 0x01), (0x2001, 0x30), (0x3000, 0x07), (0x3005, 0x01), (0x3006, 0x02)] }

def apart : State := { abroad cutOff with now := 10000 * ticksPerUs }

theorem witness_PodSteps_no_link :
    apart.thread? 0 = some cutOff ∧ apart.linkUp (clusterOfKey 0) cutOff.ctx 0x20000 = false ∧ (apart.ctx cutOff.ctx).low = false
      ∧ 0 + 10000 * ticksPerUs ≤ apart.now := by decide +kernel

theorem witness_PodSteps_fabric :
    let s := { acting (act 0) with now := 10000 * ticksPerUs }
    find s.acts 0 = some (act 0) ∧ (256 + 0, 1) ∈ (act 0).remote ∧ s.endpointGone 0 = true := by decide

/-- An act with no thread there, of which a load waits for a route to endpoint 0. -/
theorem witness_PodSteps_routed :
    let a := { act 0 with remote := [] }
    let s := { acting a with now := 10000 * ticksPerUs, ops := [(1, { op (.load 5 false false) (.fabric 0) 0 (.reg 6 false) with stage := .route })] }
    find s.acts 0 = some a ∧ (0 : Nat) ∈ s.endpointsOf a ∧ s.endpointGone 0 = true ∧ ∀ x ∈ a.remote, x.1 < 256 := by decide

/-- The last lane of the last link; the spare wavelength of the last fibre, in service. -/
theorem witness_PodSteps_flit : 2079 < 2080 ∧ 65535 < 65536 ∧ 63 < 64 ∧ get { State.reset with pkg := { Pkg.init with used := [(5063, 1)] } }.pkg.used (5000 + 63) 0 ≠ 0 := by
  decide

/-- Requests of a peer over group 15 and of an endpoint over group 14: one that its context refuses, and one that it takes. -/
def serving : State :=
  { State.reset with
    ctxs := [(0, { Ctx.init with ctl := 0x8000000000000000, pod := 0x10001 })], owners := [(0, 0)]
    egs := [(14, { EdgeGroup.init with pers := 3 }), (15, { EdgeGroup.init with pers := 2 })] }

theorem witness_PodSteps_refused :
    (let r : PeerReq := { src := 511, job := 2, op := .load 8 8, eg := 14 };
      r.src < 512 ∧ serving.linkOpen r = true ∧ 8 % 8 = 0 ∧ 1 ≤ 8 ∧ 8 ≤ 8 ∧ serving.peerRefused (serving.serving r.job) 8 8 = some 0x10)
    ∧ serving.linkOpen { src := 255, job := 2, op := .load 8 8, eg := 15 } = true := by decide

/-- A request for the last 8 bytes of a frame, which are not marked, or are. -/
theorem witness_PodSteps_taken :
    let seen (x : State × Nat) : Option Byte := (x.1.countMse (.home (x.2 / 2 ^ 30))).markNow 0xFFF8 8
    let marked := { serving with marks := [(0x7FF, 7)] }
    serving.peerRefused (serving.serving 1) 0xFFF8 8 = none ∧ marked.peerRefused (marked.serving 1) 0xFFF8 8 = none
    ∧ (serving.peerAt 0xFFF8 8).map seen = some none ∧ (marked.peerAt 0xFFF8 8).map seen = some (some 7) := by decide +kernel

/-! Stopping, upkeep, trust. -/

/-- A context whose curtain is being lowered (CTXCUR.LOW); a thread that waits. -/
def curtained (skid : Option Nat) : State :=
  { withCtx { Ctx.init with ctl := 0x8000000000000000, cur := 0x8000000000000000, lowAt := some 0, skid := skid } with now := 8 * ticksPerUs }

theorem witness_StoppingSteps_curtain :
    ((curtained none).ctx 0).lowering = true ∧ 767 < kindUnits .mse ∧ (kindNum .mse, 767) ∉ ((curtained none).ctx 0).treated
      ∧ ((curtained none).ctx 0).lowAt.getD 0 + 8 * ticksPerUs ≤ (curtained none).now
      ∧ ((curtained (some 0)).ctx 0).low = true ∧ ((curtained (some 0)).ctx 0).down = false ∧ ((curtained (some 0)).ctx 0).skid.isSome = true := by decide

/-- A thread, a slice and a matrix queue whose watchdogs have run out: CTXWD holds 10^6 us at reset. -/
def dogged : Nat := 1000000 * ticksPerUs
def barking : Thread := { thread with cue := .waiting, wait := 7, waitOn := .bar 0, dog := dogged }

theorem witness_StoppingSteps_watchdog :
    (let s := state barking; s.thread? 0 = some barking ∧ barking.cue ≠ .issuing ∧ isLaneKey 0 = false ∧ barking.wait ≠ 0
      ∧ s.bites barking.ctx barking.dog = true ∧ (s.ctx barking.ctx).low = false)
    ∧ (let sl : Slice := { pc := 0x10000, running := true, wait := 2, since := 0, streams := [], walks := [], dog := dogged };
      let gr := { group with slice := some sl };
      let s := sliced gr; s.group? 0 = some gr ∧ gr.slice = some sl ∧ sl.wait ≠ 0 ∧ s.bites gr.ctx sl.dog = true ∧ (s.ctx gr.ctx).low = false)
    ∧ (let gr := { group with mq := [{ MxOp.empty .mma [0x1010000, 1, 0x10000] with started := true }], mxDog := dogged };
      let s := anchored thread gr; s.group? 0 = some gr ∧ gr.mxWaits = true ∧ s.bites gr.ctx gr.mxDog = true ∧ (s.ctx gr.ctx).low = false) := by decide

def onPage : Thread := { thread with cue := .parked, wait := 0x18, waitOn := .page 0x20000 }

theorem witness_StoppingSteps_page : (state onPage).thread? 0 = some onPage ∧ onPage.ctx = 0 ∧ granule 0x20000 = 2 ∧ 2 < 2 ^ 40
    ∧ ((state onPage).ctx 0).low = false ∧ onPage.spilled = 0 := by decide

/-- A thread at a breakpoint, whose coordinate is that of slot 0 of cluster 0; nothing at another coordinate. -/
def atBrk : Thread := { thread with cue := .waiting, wait := 0x1B, waitOn := .brk, brk := some 0x77 }

theorem witness_StoppingSteps_debug :
    (state atBrk).atBreak 0 0 = true ∧ (state atBrk).thread? (coordOf 0).key = some atBrk ∧ atBrk.spilled = 0 ∧ atBrk.held = false
      ∧ (state thread).atBreak 0 0 = false ∧ ((state thread).ctx 0).down = false
      ∧ ((withCtx { Ctx.init with cur := 0x4000000000000000 }).ctx 0).down = true := by decide

theorem witness_UpkeepSteps_scrub : 767 < 768 ∧ 2 ^ 25 - 1 < 2 ^ 25 ∧ State.reset.mseDown 767 = false
    ∧ State.reset.unfilled (767 * 2 ^ 30 + (2 ^ 25 - 1) * 32) = false ∧ State.reset.checkSymbol (767 * 2 ^ 30) = false
    ∧ { State.reset with zeroPend := [0] }.unfilled 0 = true := by decide

/-- REPCMD: the last cluster site, the one after it, and a link lane, which no command names. -/
theorem witness_UpkeepSteps_repair :
    (bit (0x80000000000102FF : Dword).toNat 63 = true ∧ df (0x80000000000102FF : Dword) 15 0 < unitCount (df (0x80000000000102FF : Dword) 23 16))
    ∧ unitCount (df (0x8000000000010300 : Dword) 23 16) ≤ df (0x8000000000010300 : Dword) 15 0
    ∧ (let s := { State.reset with pkg := { Pkg.init with repairs := [⟨1, 0, 0, true, 0⟩] } };
      s.pkg.repairs.find? (fun x => x.started && x.kind = 1 && x.unit = 0) = some ⟨1, 0, 0, true, 0⟩ ∧ s.siteSavable 0 = true) := by decide

/-- A channel whose repair began 100 ms ago has copied its frames. -/
theorem witness_UpkeepSteps_channel : (⟨4, 0, 0, true, 0⟩ : Repair).started = true ∧ 2 ^ 14 ≤ (⟨4, 0, 0, true, 0⟩ : Repair).frame 0 (100000 * ticksPerUs) := by
  refine ⟨rfl, ?_⟩
  have h : ∀ d M T : Nat, 2 ^ 14 * M ≤ T → 1 < M → 2 ^ 14 ≤ 0 * 2 ^ 14 + (T - 0) / (1 + d % (M - 1)) := by
    intro d M T h hM
    have h2 := Nat.mod_lt d (show 0 < M - 1 by omega)
    rw [Nat.zero_mul, Nat.zero_add, Nat.sub_zero, Nat.le_div_iff_mul_le (by omega)]
    exact le_trans (Nat.mul_le_mul_left _ (by omega)) h
  exact h _ _ _ (by decide) (by decide)

/-- PWRCTL at both ends of its range, and outside it. -/
theorem witness_UpkeepSteps_power : (1200 ≤ df (1200 : Dword) 15 0 ∧ df (4800 : Dword) 15 0 ≤ 4800)
    ∧ ¬(1200 ≤ df (1199 : Dword) 15 0 ∧ df (1199 : Dword) 15 0 ≤ 4800) ∧ ¬(1200 ≤ df (4801 : Dword) 15 0 ∧ df (4801 : Dword) 15 0 ≤ 4800)
    ∧ 255 < regCount .fabep := by decide

theorem witness_TrustSteps_boot : ∃ a b c : BootIn, a.rootOk = true ∧ a.serviceOk = true ∧ b.rootOk = false ∧ c.serviceOk = false :=
  ⟨⟨true, 0, true⟩, ⟨false, 0, true⟩, ⟨true, 0, false⟩, rfl, rfl, rfl, rfl⟩

theorem witness_TrustSteps_image :
    let s := { State.reset with root := { Root.init with minVersion := 3 } }
    s.accepts { version := 3, good := true } = true ∧ s.accepts { version := 2, good := true } = false ∧ s.accepts { version := 3, good := false } = false := by
  decide

/-- The image that stands in the window, whose signature the root finds good, or not. -/
theorem witness_TrustSteps_window :
    (State.reset.windowImage true = State.reset.windowImage (State.reset.windowImage true).good ∧ State.reset.accepts (State.reset.windowImage true) = true)
    ∧ State.reset.windowImage false = State.reset.windowImage (State.reset.windowImage false).good
    ∧ State.reset.accepts (State.reset.windowImage false) = false :=
  ⟨⟨rfl, rfl⟩, rfl, rfl⟩

/-- ATTCMD: free with an index left, free with none, and busy. -/
theorem witness_TrustSteps_attest :
    bit (0x8000000000000000 : Dword).toNat 63 = true ∧ bit State.reset.pkg.attcmd.toNat 62 = false ∧ State.reset.root.index < 2 ^ 40
      ∧ 2 ^ 40 ≤ { State.reset with root := { Root.init with index := 2 ^ 40 } }.root.index
      ∧ bit { State.reset with pkg := { Pkg.init with attcmd := 0x4000000000000000 } }.pkg.attcmd.toNat 62 = true := by decide

/-! Faults. -/

theorem witness_RaiseLowersTheCurtain :
    (enabled.ctx 0).low = false ∧ ((curtained none).ctx 0).low = true
      ∧ [(⟨0, 0, token 0x12 0, 3⟩ : RaiseOf)].find? (fun r => isLaneKey r.key || !recoverable (tokCode r.tok)) = some ⟨0, 0, token 0x12 0, 3⟩ := by decide

/-- Threads whose load found its page absent, its page read-only, and a peer cut off. -/
theorem witness_RollbackParks :
    let t := { thread with rec1 := some (0x20000, .read), rec2 := some (0x20000, .write), rec3 := some (2 ^ 41) }
    let s := state t
    s.thread? 0 = some t ∧ t.rest ≠ .pending ∧ t.rec1 = some (0x20000, .read) ∧ t.rec2 = some (0x20000, .write) ∧ t.rec3 = some (2 ^ 41) := by decide

theorem witness_RollbackParks_link :
    let t := { thread with rec3 := some 0x20000 }
    (abroad t).thread? 0 = some t ∧ (abroad t).linkUp (clusterOfKey 0) t.ctx 0x20000 = false := by decide

theorem test_walk : (match (abroad thread).walk 0 0 0x20000 false with | .ok l => decide (l = ⟨2 ^ 49 + 2 ^ 40 + 0x20000, 1, 2 ^ 30, false⟩) | .error _ => false) = true := by decide

/-- A fetch whose translation found its page not resident, one of a page that is there, and one of an access slice. -/
theorem witness_InstructionFaults :
    let f : Front := ⟨false, .slot 0, 0, 0, 0x30000, 0, [0]⟩
    let s := { state thread with slots := [(0, { Slot.init with lanes := [some 0], pc := 0x30000, walks := [(3, .fault 1)] })] }
    (s.lookup f.user f.cluster f.ctx 0x30000 .fetch = .fault 1 ∧ f.slice = false) ∧ f.keys.Nodup ∧ s.thread? 0 = some thread
      ∧ (s.ctx f.ctx).low = false ∧ s.lookup f.user f.cluster f.ctx 0x10000 .fetch = .hit 0x10000 2 ∧ { f with slice := true }.slice = true := by decide

/-! Words written out from the tables of spec/05: each a list of fields, the highest first, as (bits, value). -/

def wordOf (fields : List (Nat × Nat)) : Nat := fields.foldl (fun w f => w * 2 ^ f.1 + f.2) 0

/-- What the decoder of a warp reads from n bytes. -/
noncomputable def reads (n : Nat) (fields : List (Nat × Nat)) : Option (Instr × Nat) :=
  match decode false (toBytes n (wordOf fields)) with
  | .ok (d, k) => some (d.instr, k)
  | .error _ => none

-- R109, R111: b [15:11], a [10:6], hop [5:2], e [1], 0
theorem test_decode_isubH : reads 2 [(5, 9), (5, 31), (4, 2), (1, 1), (1, 0)] = some (.isubH ⟨9, 31, true⟩, 2) := rfl
-- R112, R115: s2 [31:26], s1 [25:20], d [19:14], wop [13:7], predicate, cue, 01
theorem test_decode_andnW : reads 4 [(6, 63), (6, 1), (6, 46), (7, 0x0A), (3, 6), (2, 2), (2, 1)] = some (.andnW ⟨63, 1, 46, 6, 2⟩, 4) := rfl
theorem test_decode_imm6 : reads 4 [(6, 0x3F), (6, 2), (6, 1), (7, 0x31), (3, 7), (2, 0), (2, 1)] = some (.imulWimm ⟨0x3F, 2, 1, 7, 0⟩, 4) := rfl
theorem test_decode_imm12 : reads 4 [(12, 0x801), (6, 5), (7, 0x40), (3, 7), (2, 1), (2, 1)] = some (.moviWi ⟨0x801, 5, 7, 1⟩, 4) := rfl
theorem test_decode_braWi : reads 4 [(12, 0xFFE), (6, 58), (7, 0x48), (3, 0), (2, 0), (2, 1)] = some (.braWi ⟨0xFFE, 58, 0, 0⟩, 4) := rfl

/-- A D form with s1 = 2, s2 = 4, s3 = 6, d = 8 and its LK bits (R116, R117, R128). -/
def dWord (dop mod s3 s2 s1 d : Nat) : List (Nat × Nat) :=
  [(10, mod), (2, 0), (8, s3), (2, 0), (8, s2), (2, 0), (8, s1), (8, d), (8, dop), (1, 0), (3, 7), (2, 0), (2, 3)]

-- INT: type .i64 [63:60], sat [59]
theorem test_decode_imad : reads 8 (dWord 0x06 0b0110100000 6 4 2 8) = some (.imadD (dform 0x1A0 8 2 4 6), 8) := rfl
-- CMP: type .i32, condition 5
theorem test_decode_icmp : reads 8 (dWord 0x0B 0b0100010100 0xF0 4 2 3) = some (.icmpD (dform 0x114 3 2 4 0xF0), 8) := rfl
-- FLT: type .f32, rounding 4
theorem test_decode_ffma : reads 8 (dWord 0x24 0b1010100000 6 4 2 8) = some (.ffmaD (dform 0x2A0 8 2 4 6), 8) := rfl
-- CVT.f64 from .i32, and CVTS.e2m1 from .f32 with E = 8 and its seed in k1
theorem test_decode_cvt : reads 8 (dWord 0x4B 0b0100000000 0xF0 0xF0 2 8) = some (.cvtD 0xB (dform 0x100 8 2 0xF0 0xF0), 8) := rfl
theorem test_decode_cvts : reads 8 (dWord 0x5E 0b1010000011 0xF0 0xE1 8 4) = some (.cvtsD 0xE (dform 0x283 4 8 0xE1 0xF0), 8) := rfl
-- CVTS has no .f64
theorem test_decode_cvts_unassigned : reads 8 (dWord 0x5B 0b1010000000 0xF0 0xE1 8 4) = none := rfl
-- XL: type .n32, sub-op 1
theorem test_decode_shfl : reads 8 (dWord 0x60 0b0101000001 6 4 2 8) = some (.shflD (dform 0x141 8 2 4 6), 8) := rfl
-- LK of each source, a negated predicate and a cue
theorem test_decode_lk : reads 8 [(10, 0x100), (2, 1), (8, 6), (2, 2), (8, 4), (2, 3), (8, 2), (8, 8), (8, 0x06), (1, 1), (3, 5), (2, 2), (2, 3)]
    = some (.imadD ⟨0x100, 1, 6, 2, 4, 3, 2, 8, true, 5, 2⟩, 8) := rfl
-- DP: mod, s2 amount, pattern, LK, s2, s1 amount, pattern, LK, s1, d
theorem test_decode_dp : reads 8 [(4, 8), (5, 31), (3, 1), (2, 1), (8, 4), (5, 5), (3, 4), (2, 0), (8, 2), (8, 8), (8, 0x71), (1, 0), (3, 7), (2, 0), (2, 3)]
    = some (.iaddDp ⟨8, 31, 1, 1, 4, 5, 4, 0, 2, 8, false, 7, 0⟩, 8) := rfl
-- DI
theorem test_decode_kadd : reads 8 [(32, 0xFFFFFFFC), (8, 2), (8, 0xEF), (8, 0x92), (1, 0), (3, 7), (2, 0), (2, 3)]
    = some (.kaddDi ⟨0xFFFFFFFC, 2, 0xEF, false, 7, 0⟩, 8) := rfl
theorem test_decode_trap : reads 8 [(32, 0x77), (8, 0xF0), (8, 0xF0), (8, 0x94), (1, 1), (3, 0), (2, 0), (2, 3)]
    = some (.trapDi ⟨0x77, 0xF0, 0xF0, true, 0, 0⟩, 8) := rfl
-- control flow and system instructions, D form
theorem test_decode_retD : reads 8 (dWord 0x84 0 0xF0 0xF0 2 0xF0) = some (.retD (dform 0 0xF0 2 0xF0 0xF0), 8) := rfl
theorem test_decode_fabort : reads 8 (dWord 0x98 0 0xF0 0xF0 1 0xF0) = some (.fabortD (dform 0 0xF0 1 0xF0 0xF0), 8) := rfl

/-- A DM form (R117, R121): offset, cache policy, order, scope, type, index, base LK, base, d. -/
def dmWord (dop offset cache order scope type index base d : Nat) : List (Nat × Nat) :=
  [(9, offset), (2, cache), (3, order), (4, scope), (4, type), (8, index), (2, 0), (8, base), (8, d), (8, dop), (1, 0), (3, 7), (2, 0), (2, 3)]

theorem test_decode_ld : reads 8 (dmWord 0xA0 0x1FC 2 2 7 5 1 4 6) = some (.ldDm ⟨0x1FC, 2, 2, 7, 5, 1, 0, 4, 6, false, 7, 0⟩, 8) := rfl
theorem test_decode_st : reads 8 (dmWord 0xA1 0x0FF 0 3 9 7 0xF0 4 6) = some (.stDm ⟨0xFF, 0, 3, 9, 7, 0xF0, 0, 4, 6, false, 7, 0⟩, 8) := rfl
theorem test_decode_atom : reads 8 (dmWord 0xB8 0 0 4 11 0xB 6 4 8) = some (.atomFadd ⟨0, 0, 4, 11, 0xB, 6, 0, 4, 8, false, 7, 0⟩, 8) := rfl
theorem test_decode_atomq : reads 8 (dmWord 0xBF 0 0 1 7 5 1 4 6) = some (.atomqLadd ⟨0, 0, 1, 7, 5, 1, 0, 4, 6, false, 7, 0⟩, 8) := rfl
theorem test_decode_atoms : reads 8 (dmWord 0xC7 0 0 1 1 5 1 4 6) = some (.atomsCas ⟨0, 0, 1, 1, 5, 1, 0, 4, 6, false, 7, 0⟩, 8) := rfl
theorem test_decode_red : reads 8 (dmWord 0xD0 0 0 3 7 5 1 4 0xF0) = some (.redAdd ⟨0, 0, 3, 7, 5, 1, 0, 4, 0xF0, false, 7, 0⟩, 8) := rfl
theorem test_decode_kld : reads 8 (dmWord 0xAC 4 0 0 0 5 0xF0 4 0xE3) = some (.kldDm ⟨4, 0, 0, 0, 5, 0xF0, 0, 4, 0xE3, false, 7, 0⟩, 8) := rfl
-- copies, packets, waits, fences, barriers, streams, matrix operations
theorem test_decode_opk : reads 8 (dWord 0xE2 0b0111001000 6 8 4 2) = some (.opkD (dform 0x1C8 2 4 8 6), 8) := rfl
theorem test_decode_waitc : reads 8 (dWord 0xE5 0b1111110100 0xF0 0xF0 0xF0 0xF0) = some (.waitcD (dform 0x3F4 0xF0 0xF0 0xF0 0xF0), 8) := rfl
theorem test_decode_fence : reads 8 (dWord 0xE6 0b1011100000 0xF0 0xF0 0xF0 0xF0) = some (.fenceD (dform 0x2E0 0xF0 0xF0 0xF0 0xF0), 8) := rfl
theorem test_decode_bar : reads 8 (dWord 0xE7 0b1111000000 0xF0 0xF0 0xF0 0xF0) = some (.barD (dform 0x3C0 0xF0 0xF0 0xF0 0xF0), 8) := rfl
-- the access slice alone has ASTR (R201); a warp finds no such opcode, cause 3
theorem test_decode_astr : (decode true (toBytes 8 (wordOf (dWord 0xE9 1 0xF0 2 4 0xD7)))).map (fun x => (x.1.instr, x.2))
    = .ok (.astrD (dform 1 0xD7 4 2 0xF0), 8) := rfl
theorem test_decode_astr_warp : (decode false (toBytes 8 (wordOf (dWord 0xE9 1 0xF0 2 4 0xD7)))).map (fun x => x.2) = .error .opcode := rfl
theorem test_decode_mma : reads 8 (dWord 0xF0 0b0110101000 16 12 8 0xF0) = some (.mmaD (dform 0x1A8 0xF0 8 12 16), 8) := rfl

/-! WellFormed: for each condition of R107 a term that it refuses, by the cause's name. -/

def w0 : WForm := ⟨1, 2, 3, 7, 0⟩
def d0 : DForm := dform 0x100 6 2 4 0xF0
def m0 : DMForm := ldform 6

theorem test_cue : (Instr.iaddD { d0 with cue := 3 }).check false = some .cue := rfl
theorem test_cue_w : (Instr.iaddW { w0 with cue := 3 }).check false = some .cue := rfl
theorem test_reserved_mod : (Instr.iaddD { d0 with mod := 0x101 }).check false = some .reserved := rfl
theorem test_reserved_operand : (Instr.iaddD { d0 with s3 := 0 }).check false = some .reserved := rfl
theorem test_reserved_lk : (Instr.selD { d0 with s3 := 1, s3lk := 1 }).check false = some .reserved := rfl
theorem test_reserved_w : (Instr.popcW w0).check false = some .reserved := rfl
theorem test_reserved_dp : (Instr.andDp ⟨1, 0, 0, 0, 4, 0, 0, 0, 2, 8, false, 7, 0⟩).check false = some .reserved := rfl
theorem test_reserved_di : (Instr.braDi ⟨4, 1, 0xF0, false, 7, 0⟩).check false = some .reserved := rfl
theorem test_reserved_matrix_lk : (Instr.mzeroD { dform 0 0xF0 1 2 0xF0 with s1lk := 1 }).check false = some .reserved := rfl
theorem test_negate : (Instr.iaddD { d0 with neg := true }).check false = some .negate := rfl
theorem test_operand_source : (Instr.iaddD { d0 with s1 := 0xCA }).check false = some .operand := rfl
theorem test_operand_destination : (Instr.iaddD { d0 with d := 0xD0 }).check false = some .operand := rfl
theorem test_operand_slice : (Instr.iaddD { d0 with s1 := 0xD0 }).check true = some .operand := rfl
theorem test_operand_pair_zero : (Instr.iaddD { d0 with mod := 0x180, d := 0xF0 }).check false = some .operand := rfl
theorem test_operand_w : (Instr.iaddW { w0 with d := 57 }).check false = some .operand := rfl
theorem test_operand_ret : (Instr.retW ⟨58, 3, 58, 7, 0⟩).check false = some .operand := rfl
theorem test_operand_pair : (Instr.iaddD { d0 with mod := 0x180, s1 := 3 }).check false = some .operand := rfl
theorem test_operand_predicate : (Instr.icmpD { d0 with d := 8 }).check false = some .operand := rfl
theorem test_operand_k : (Instr.kmovDi ⟨0, 1, 1, false, 7, 0⟩).check false = some .operand := rfl
theorem test_operand_tape : (Instr.tapeD (dform 0 0xE2 4 0xF0 0xF0)).check false = some .operand := rfl
theorem test_operand_multiple : (Instr.packD (dform 0x002 6 2 0xF0 0xF0)).check false = some .operand := rfl
theorem test_operand_seed : (Instr.cvtsD 0xE (dform 0x283 4 8 1 0xF0)).check false = some .operand := rfl
theorem test_operand_pattern : (Instr.movDp ⟨0, 0, 0, 0, 0xF0, 6, 4, 0, 2, 8, false, 7, 0⟩).check false = some .operand := rfl
theorem test_operand_descriptor : (Instr.selcD (dform 0 0xF0 10 0xF0 0xF0)).check false = some .operand := rfl
theorem test_operand_scales : (Instr.mmaD (dform 0x020 0xF0 8 0xF0 0xF0)).check false = some .operand := rfl
theorem test_operand_base : (Instr.ldDm { m0 with base := 5 }).check false = some .operand := rfl
theorem test_operand_spawn : (Instr.spawnD (dform 2 0xF0 4 4 191)).check false = some .operand := rfl
theorem test_value_type : (Instr.iaddD { d0 with mod := 0x200 }).check false = some .value := rfl
theorem test_value_sat : (Instr.iminD { d0 with mod := 0x120 }).check false = some .value := rfl
theorem test_value_condition : (Instr.icmpD (dform 0x118 3 2 4 0xF0)).check false = some .value := rfl
theorem test_value_rounding : (Instr.faddD (dform 0x2A8 6 2 4 0xF0)).check false = some .value := rfl
theorem test_value_nearest : (Instr.fminD (dform 0x288 6 2 4 0xF0)).check false = some .value := rfl
theorem test_value_count : (Instr.cvtD 4 (dform 0x281 4 8 0xF0 0xF0)).check false = some .value := rfl
theorem test_value_memory : (Instr.ldDm { m0 with type := 0xE }).check false = some .value := rfl
theorem test_value_atomic : (Instr.atomAdd { m0 with type := 2, index := 1, order := 1 }).check false = some .value := rfl
theorem test_value_racq : (Instr.racqD (dform 0 0xF0 0xF0 0xF0 0xF0)).check false = some .value := rfl
theorem test_value_barrier : (Instr.ebarD (dform 0x100 0xF0 0xF0 0xF0 0xF0)).check false = some .value := rfl
theorem test_value_waitc : (Instr.waitcD (dform 0x00A 0xF0 0xF0 0xF0 0xF0)).check false = some .value := rfl
theorem test_value_stat : (Instr.statD (dform 3 6 1 0xF0 0xF0)).check false = some .value := rfl
theorem test_value_copy : (Instr.cpyD (dform 5 0xF0 2 4 8)).check false = some .value := rfl
theorem test_ordering_scope : (Instr.ldDm { m0 with scope := 12, order := 1 }).check false = some .ordering := rfl
theorem test_ordering_plain : (Instr.ldDm { m0 with scope := 7 }).check false = some .ordering := rfl
theorem test_ordering_load : (Instr.ldDm { m0 with scope := 7, order := 3 }).check false = some .ordering := rfl
theorem test_ordering_store : (Instr.stDm { m0 with scope := 7, order := 2 }).check false = some .ordering := rfl
theorem test_ordering_pad : (Instr.ldsDm { m0 with scope := 7, order := 1 }).check false = some .ordering := rfl
theorem test_ordering_acquire : (Instr.atomAdd { m0 with d := 0xF0, index := 1, scope := 7, order := 2 }).check false = some .ordering := rfl
theorem test_ordering_cache : (Instr.stDm { m0 with cache := 1 }).check false = some .ordering := rfl
theorem test_ordering_fence : (Instr.fenceD (dform 0x1C8 0xF0 0xF0 0xF0 0xF0)).check false = some .ordering := rfl
/-- An opcode outside the access subset (R232). -/
theorem test_slice_opcode : (Instr.faddW w0).inSlice = false := rfl

/-! Single instructions; the expected values are worked out by hand from the rules named. -/

def nextOf (r : Res) : Option State := match r with | .next s => some s | _ => none
/-- The state after an instruction of the one thread whose registers are listed. -/
noncomputable def doing (i : Instr) (regs : List (Nat × Word)) : Option State := nextOf (exec i (state { thread with regs := regsOf regs }))
noncomputable def threadAfter (i : Instr) (regs : List (Nat × Word)) : Option Thread := (doing i regs).bind fun s => s.thread? 0
noncomputable def regAfter (i : Instr) (regs : List (Nat × Word)) (n : Nat) : Option Tw := (threadAfter i regs).map fun t => t.readFile n 0

-- R144: W form, s2 [31:26] and s1 [25:20]
theorem test_isub_order : regAfter (.isubW ⟨2, 1, 3, 7, 0⟩) [(1, 3), (2, 5)] 3 = some (.data 0xFFFFFFFE) := by decide
theorem test_iadd_wraps : regAfter (.iaddW ⟨2, 1, 3, 7, 0⟩) [(1, 0xFFFFFFFF), (2, 2)] 3 = some (.data 1) := by decide
theorem test_imulh_signed : regAfter (.imulhW ⟨2, 1, 3, 7, 0⟩) [(1, 0xFFFFFFFF), (2, 2)] 3 = some (.data 0xFFFFFFFF) := by decide
-- R146: an amount of the width or more
theorem test_shl_width : regAfter (.shlW ⟨2, 1, 3, 7, 0⟩) [(1, 1), (2, 32)] 3 = some (.data 0) := by decide
theorem test_sar_width : regAfter (.sarW ⟨2, 1, 3, 7, 0⟩) [(1, 0x80000000), (2, 40)] 3 = some (.data 0xFFFFFFFF) := by decide
theorem test_andn : regAfter (.andnW ⟨2, 1, 3, 7, 0⟩) [(1, 0xF), (2, 0x3)] 3 = some (.data 0xC) := by decide
theorem test_clz_zero : regAfter (.clzW ⟨58, 1, 3, 7, 0⟩) [(1, 0)] 3 = some (.data 32) := by decide
theorem test_brev : regAfter (.brevW ⟨58, 1, 3, 7, 0⟩) [(1, 1)] 3 = some (.data 0x80000000) := by decide
-- a sign-extended immediate (R112)
theorem test_imm12 : regAfter (.moviWi ⟨0xFFF, 3, 7, 0⟩) [] 3 = some (.data 0xFFFFFFFF) := by decide
-- R54: .i8 with .sat: 127 + 1 is 127, and SAT
theorem test_sat : regAfter (.iaddD (dform 0x020 3 1 2 0xF0)) [(1, 127), (2, 1)] 3 = some (.data 127) := by decide
theorem test_sat_flag : (threadAfter (.iaddD (dform 0x020 3 1 2 0xF0)) [(1, 127), (2, 1)]).map (fun t => t.tsw &&& SAT) = some SAT := by decide
-- .i64 in pairs: a carry into the high word
theorem test_wide : regAfter (.iaddD (dform 0x180 6 2 4 0xF0)) [(2, 0xFFFFFFFF), (3, 0), (4, 1), (5, 0)] 7 = some (.data 1) := by decide
-- R148: 3 < 5 under .i32, condition lt is 2
theorem test_icmp : (threadAfter (.icmpD (dform 0x108 2 1 2 0xF0)) [(1, 3), (2, 5)]).map (fun t => (t.pred 2).val) = some true := by decide
-- R147: bit j of the table for j = s1 + 2 s2 + 4 s3: 0x02 holds where s1 alone is set
theorem test_tbl3 : regAfter (.tbl3D (dform 2 6 1 2 3)) [(1, 0b1111), (2, 0b0011), (3, 0b0101)] 6 = some (.data 0b1000) := by decide

-- R149, R150: 1.0 + 2.0 = 3.0; 1.0 / 0.0 = +infinity with DZ; the square root of 4.0
theorem test_fadd : regAfter (.faddW ⟨2, 1, 3, 7, 0⟩) [(1, 0x3F800000), (2, 0x40000000)] 3 = some (.data 0x40400000) := by decide
theorem test_fdiv_zero : (threadAfter (.fdivfixD (dform 0x280 3 1 2 0xF0)) [(1, 0x3F800000), (2, 0)]).map (fun t => (t.readFile 3 0, t.tsw &&& DZ))
    = some (.data 0x7F800000, DZ) := by decide
theorem test_fsqrt : regAfter (.fsqrtW ⟨58, 1, 3, 7, 0⟩) [(1, 0x40800000)] 3 = some (.data 0x40000000) := by decide
theorem test_dadd : regAfter (.daddD (dform 0x2C0 6 2 4 0xF0)) [(2, 0), (3, 0x3FF00000), (4, 0), (5, 0x3FF00000)] 7 = some (.data 0x40000000) := by decide
-- R155: 2.5 to .i32 rounds to the even 2
theorem test_cvt : regAfter (.cvtD 4 (dform 0x280 3 1 0xF0 0xF0)) [(1, 0x40200000)] 3 = some (.data 2) := by decide
-- R88, R42: a dead source gives its token, code 0x30, and a result that is one
theorem test_dead_source : (regAfter (.iaddW ⟨2, 1, 3, 7, 0⟩) [(1, 5)] 3).map (fun v => (v.tag, tokCode v.val)) = some (true, 0x30) := by decide
-- R148, R38: a false guard leaves the destination
theorem test_guard : (nextOf (exec (.iaddW ⟨2, 1, 1, 0, 0⟩) (state thread))).bind (fun s => (s.thread? 0).map fun t => t.readFile 1 0) = some (.data 5) := by decide

-- R160: one executing thread, whose predicate holds
theorem test_ballot : regAfter (.ballotD (dform 0 3 7 0xF0 0xF0)) [] 3 = some (.data 1) := by decide
-- R172: halfwords from the instruction's own address
theorem test_bra : (threadAfter (.braWi ⟨0xFFE, 58, 7, 0⟩) []).map Thread.pc = some 0xFFFC := by decide
theorem test_call : (threadAfter (.callDi ⟨4, 0xF0, 6, false, 7, 0⟩) []).map (fun t => (t.pc, t.readFile 6 0)) = some (0x10008, .data 0x10008) := by decide
-- R177: a roaming thread that exits is gone
theorem test_exit : (doing (.exitW ⟨58, 58, 58, 7, 0⟩) []).map (fun s => s.threads.length) = some 0 := by decide
-- R191: STAT 0 reads the status
theorem test_stat : regAfter (.statD (dform 0 3 0xF0 0xF0 0xF0)) [] 3 = some (.data 0) := by decide
-- R192: CONS 0x0B, CODE of the immediate, LOW
theorem test_trap : (doing (.trapDi ⟨0x77, 0xF0, 0xF0, false, 7, 0⟩) []).map (fun s => (s.ctx 0).low && df (s.ctx 0).cur 31 24 = 0x0B) = some true := by decide
-- R48, R203: a load leaves its destination pending; a store changes nothing at issue
theorem test_load_pending : (threadAfter (.ldDm (ldform 6)) [(4, 0x20000), (5, 0)]).map (fun t => (t.cell 6).st) = some .pending := by decide
theorem test_store_sent : (doing (.stDm (ldform 1)) [(1, 7), (4, 0x20000), (5, 0)]).map (fun s => (s.mem, s.ops.length)) = some ([], 1) := by decide
-- R209: at its home the store's bytes are in place, the least significant first (R2)
/-- The offsets of R377, with g3 a token. -/
theorem test_threadRecord :
    let r := ((Thread.new 0 0x1234 none 0 5 0x1000 0).setCell 3 (Cell.ofTw (.tok 0x21000007))).record (List.replicate 8 0)
    r.length = 1280 ∧ (r.drop 12).take 4 = [7, 0, 0, 0x21] ∧ (r.drop 0x320).take 2 = [0x22, 0x12]
      ∧ (r.drop 0x3A8).take 2 = [0, 0x10] ∧ (r.drop 0x41C).take 1 = [5] ∧ (r.drop 0x440).take 2 = [0x34, 0x12] := by
  decide +kernel
/-- R439: an error in a register file, with no room for a record. -/
theorem test_decay : (nextOf (step { State.reset with
      threads := [(0, (Thread.new 0 0 none 0 5 0x1000 0).setCell 3 (Cell.ofTw (.data 9)))], agenda := [⟨0, .decay (.reg 0 3) true⟩] })).bind
    (fun s => (s.thread? 0).map fun t => (t.cell 3).tag) = some true := by decide
theorem test_store_home : (nextOf (exec (.mseWrite 1) (flying (op (.store 4 0x1234) (.home 0) 0x20000 .none)))).map (fun s => s.mem)
    = some [(0x20000, 0x34), (0x20001, 0x12)] := by decide
-- R217: the old value returns, the sum stays
theorem test_atomic : (nextOf (exec (.mseAtomic 1 .clean) { flying (op (.atomic .add 5 3 0) (.home 0) 0x20000 (.reg 6 false)) with mem := [(0x20000, 0xFF)] })).map
    (fun s => (s.mem, (find s.ops 1).map Op.reply)) = some ([(0x20000, 2), (0x20001, 1)], some [.data 0xFF]) := by decide
-- R241: the one thread of a group completes the barrier
theorem test_bar : (nextOf (exec (.barD (dform 0 0xF0 0xF0 0xF0 0xF0)) (anchored thread group))).bind (fun s => (s.thread? 0).map Thread.cue) = some .runnable := by decide
-- R187: k15 := g1 + 1
theorem test_kmov : (nextOf (exec (.kmovDi ⟨1, 1, 0xEF, false, 7, 0⟩) (anchored thread group))).bind (fun s => (s.group? 0).bind fun g => g.k[15]?)
    = some (.data 6) := by decide
-- R39: a push into q12
theorem test_push : (nextOf (exec (.movD (dform 0x080 0xDC 1 0xF0 0xF0)) (anchored thread group))).bind (fun s => (s.group? 0).map fun g => get g.q 12 [])
    = some [.val (.data 5)] := by decide

/-! Decoding and the step. -/

theorem witness_LengthFromTheFirstHalfword : 2 ≤ ([0x44, 0x10] : List Byte).length ∧ ([0x44] : List Byte).length < 2 := by decide

/-- iadd.i32 g1, g1, g2 in the H form. -/
theorem witness_EncodeDecode : (Instr.iaddH addH).raw.isSome = true ∧ (Instr.iaddH addH).allowed true = true ∧ (Instr.iaddH addH).check true = none
    ∧ hasOpcode (.iaddH addH) = true := ⟨rfl, rfl, rfl, rfl⟩

/-- Cue 11; an opcode that no map assigns; an instruction outside the subset of access slices; one that breaks no condition. -/
theorem witness_DecodeChecksInOrder : (Raw.w 1 ⟨3, 2, 1, 7, 3⟩).cue = 3
    ∧ (Raw.w 0x7F ⟨3, 2, 1, 7, 0⟩).cue ≠ 3 ∧ (Raw.w 0x7F ⟨3, 2, 1, 7, 0⟩).decoded = none
    ∧ (∃ d, (Raw.w 0x20 ⟨3, 2, 1, 7, 0⟩).decoded = some d ∧ d.allowed true = false)
    ∧ ∃ d, decodeRaw false (Raw.h 1 addH) = .ok d := ⟨rfl, by decide, rfl, ⟨_, rfl, rfl⟩, _, rfl⟩

/-- The slot is about to issue iadd.i32 g1, g1, g2. -/
def issuing : State := { state thread with mem := [(0x10000, 0x44), (0x10001, 0x10)], agenda := [⟨0, .issue 0 []⟩] }

theorem witness_StepRunsTheDecodedInstruction :
    let s0 := ({ issuing with agenda := [] } : State).pass 0
    s0.pkg.powered = true ∧ s0.root.recovery = false ∧ (s0.row (rowOf 0)).clkUntil = 0
      ∧ ∃ f d n, (s0.beginIssue 0 []).front = some f ∧ (s0.beginIssue 0 []).fetched f = .ok d n ∧ (s0.beginIssue 0 []).answerWait f = none :=
  ⟨rfl, rfl, rfl, _, _, _, rfl, rfl, rfl⟩

/-- The same warp in a transaction whose target, package 1, has not answered a packet. -/
def unanswered : State :=
  let t := { thread with txn := some ⟨[], [], 0x10000, 0, some (.peer 1), none, [1], none, some 2⟩ }
  let held := { op (.packet ⟨3, 0, 8, 1, 0, 0, none, 0, (0, 0)⟩) (.peer 1) (2 ^ 49 + 2 ^ 40) .none with stage := .txn, eg := some 2 }
  { state t with mem := [(0x10000, 0x44), (0x10001, 0x10)], agenda := [⟨0, .issue 0 []⟩], ops := [(1, held)] }

theorem witness_StepRunsTheDecodedInstruction_asks :
    let s0 := ({ unanswered with agenda := [] } : State).pass 0
    s0.pkg.powered = true ∧ s0.root.recovery = false ∧ (s0.row (rowOf 0)).clkUntil = 0
      ∧ ∃ f d n, (s0.beginIssue 0 []).front = some f ∧ (s0.beginIssue 0 []).fetched f = .ok d n ∧ (s0.beginIssue 0 []).answerWait f = some 0x11 :=
  ⟨rfl, rfl, rfl, _, _, _, rfl, rfl, rfl⟩

/-- An event with power; a recovery load after a failed boot; a boot without power. -/
theorem witness_StepRunsTheEvent :
    ((({ State.reset with agenda := [] } : State).pass 3).pkg.powered = true ∧ (({ State.reset with agenda := [] } : State).pass 3).root.recovery = false)
    ∧ (let s := ({ State.reset with root := { Root.init with recovery := true } } : State).pass 3;
      s.root.recovery = true ∧ Instr.inRecovery (.recoveryLoad { version := 0, good := true }) = true)
    ∧ ∃ found, Instr.boot ⟨true, 0, true⟩ = .boot found := ⟨⟨rfl, rfl⟩, ⟨rfl, rfl⟩, _, rfl⟩

theorem witness_StepKeepsMemoryCanonical : MemoryOk issuing ∧ ∃ t, step issuing = .next t := ⟨by unfold MemoryOk; decide, _, rfl⟩

end Sys2Proof.Tests
end

section
/-! What the end of waits, the device's own writes and a late failure leave unchanged: the scratchpads, memory, the package's registers. -/

namespace Sys2Proof.Machine

open Sys2Proof.Safety

/-! Folds. -/

theorem foldl_keeps {σ ι β : Type} (f : σ → β) (g : σ → ι → σ) (h : ∀ s x, f (g s x) = f s) (l : List ι) (s : σ) :
    f (l.foldl g s) = f s := by
  induction l generalizing s with
  | nil => rfl
  | cons x r ih => exact (ih (g s x)).trans (h s x)

theorem foldl_related {σ ι : Type} {R : σ → σ → Prop} (refl : ∀ s, R s s) (trans : ∀ {a b c}, R a b → R b c → R a c)
    (g : σ → ι → σ) (h : ∀ s x, R s (g s x)) (l : List ι) (s : σ) : R s (l.foldl g s) := by
  induction l generalizing s with
  | nil => exact refl s
  | cons x r ih => exact trans (h s x) (ih (g s x))

theorem foldl_fixed_of_mem {σ ι : Type} (g : σ → ι → σ) (l : List ι) (s : σ) (h : ∀ x ∈ l, g s x = s) : l.foldl g s = s := by
  induction l with
  | nil => rfl
  | cons x r ih => rw [List.foldl_cons, h x List.mem_cons_self, ih fun y hy => h y (List.mem_cons_of_mem x hy)]

/-! Waits that no thread makes, and the device's own writes. -/

/-- What the end of such waits may change: the list of them, the readiness of acts, and what has gone out. -/
theorem foldl_farEnd_eq (ws : List FarWait) (s : State) : ∃ acts sent, ws.foldl State.farEnd s = { s with acts := acts, sent := sent } := by
  induction ws generalizing s with
  | nil => exact ⟨s.acts, s.sent, rfl⟩
  | cons w r ih =>
    have one : ∃ acts sent, s.farEnd w = { s with acts := acts, sent := sent } := by
      unfold State.farEnd
      split <;> split <;> exact ⟨_, _, rfl⟩
    obtain ⟨_, _, h⟩ := one
    obtain ⟨acts, sent, h'⟩ := ih (s.farEnd w)
    exact ⟨acts, sent, by rw [List.foldl_cons, h', h]⟩

theorem farWake_eq (s : State) (hit : Watched → Bool) :
    ∃ waits acts sent, s.farWake hit = { s with pkg := { s.pkg with waits := waits }, acts := acts, sent := sent } := by
  unfold State.farWake
  dsimp only
  split
  · exact ⟨_, _, _, rfl⟩
  · obtain ⟨acts, sent, h⟩ := foldl_farEnd_eq (s.pkg.waits.filter fun w => w.monitor && hit (.mem w.pa) && s.farOver w)
      { s with pkg := { s.pkg with waits := s.pkg.waits.filter fun w =>
        !(s.pkg.waits.filter fun w => w.monitor && hit (.mem w.pa) && s.farOver w).contains w } }
    exact ⟨_, acts, sent, h⟩

theorem noteWrite_eq (s : State) (pa n : Nat) :
    ∃ waits acts sent wrote woken, s.noteWrite pa n
      = { s with pkg := { s.pkg with waits := waits }, acts := acts, sent := sent, wrote := wrote, woken := woken } := by
  unfold State.noteWrite
  dsimp only
  obtain ⟨_, _, _, h⟩ := farWake_eq _ _
  exact ⟨_, _, _, _, _, h⟩

@[simp] theorem noteWrite_groups (s : State) (pa n : Nat) : (s.noteWrite pa n).groups = s.groups := by
  obtain ⟨_, _, _, _, _, h⟩ := noteWrite_eq s pa n
  rw [h]

@[simp] theorem noteWrite_clusters (s : State) (pa n : Nat) : (s.noteWrite pa n).clusters = s.clusters := by
  obtain ⟨_, _, _, _, _, h⟩ := noteWrite_eq s pa n
  rw [h]

@[simp] theorem noteWrite_zeroPend (s : State) (pa n : Nat) : (s.noteWrite pa n).zeroPend = s.zeroPend := by
  obtain ⟨_, _, _, _, _, h⟩ := noteWrite_eq s pa n
  rw [h]

@[simp] theorem noteWrite_done (s : State) (pa n : Nat) : (s.noteWrite pa n).pkg.done = s.pkg.done := by
  obtain ⟨_, _, _, _, _, h⟩ := noteWrite_eq s pa n
  rw [h]

@[simp] theorem noteWrite_podctl (s : State) (pa n : Nat) : (s.noteWrite pa n).pkg.podctl = s.pkg.podctl := by
  obtain ⟨_, _, _, _, _, h⟩ := noteWrite_eq s pa n
  rw [h]

@[simp] theorem fillFrame_groups (s : State) (f : Nat) : (s.fillFrame f).groups = s.groups := by simp [State.fillFrame]

@[simp] theorem fillFrame_done (s : State) (f : Nat) : (s.fillFrame f).pkg.done = s.pkg.done := by simp [State.fillFrame]

@[simp] theorem fillFrame_podctl (s : State) (f : Nat) : (s.fillFrame f).pkg.podctl = s.pkg.podctl := by simp [State.fillFrame]

@[simp] theorem fillFrame_zeroPend (s : State) (f : Nat) : (s.fillFrame f).zeroPend = s.zeroPend.filter fun x => x != f := by
  simp [State.fillFrame]

/-- Whatever a fill keeps, the reach of an address keeps: it fills the address's frame, or nothing. -/
theorem reach_keeps {β : Type} (g : State → β) (h : ∀ s f, g (s.fillFrame f) = g s) (s : State) (pa : Nat) : g (s.reach pa) = g s := by
  unfold State.reach
  split
  · exact h s _
  · rfl

@[simp] theorem putBytes_groups (s : State) (pa : Nat) (l : List Byte) : (s.putBytes pa l).groups = s.groups :=
  reach_keeps State.groups fillFrame_groups s pa

@[simp] theorem putBytes_done (s : State) (pa : Nat) (l : List Byte) : (s.putBytes pa l).pkg.done = s.pkg.done :=
  reach_keeps (fun s => s.pkg.done) fillFrame_done s pa

@[simp] theorem deviceWrite_groups (s : State) (pa : Nat) (l : List Byte) : (s.deviceWrite pa l).groups = s.groups :=
  foldl_keeps State.groups _ (by simp) _ s

@[simp] theorem deviceWrite_done (s : State) (pa : Nat) (l : List Byte) : (s.deviceWrite pa l).pkg.done = s.pkg.done :=
  foldl_keeps (fun s => s.pkg.done) _ (by simp) _ s

/-! Virtual writes and fault records. -/

/-- The claim of a frame changes its owner and its fill alone. -/
theorem ownerCheck_groups {s t : State} {ctx : Nat} {l : Leaf} (h : s.ownerCheck ctx l = .ok t) : t.groups = s.groups := by
  unfold State.ownerCheck at h
  dsimp only at h
  split at h
  · split at h
    · cases h; rfl
    · split at h <;> cases h
      rfl
  · cases h; rfl

theorem resolve_groups {s : State} {cluster ctx va : Nat} {a : Access} {r : State × Leaf} (h : s.resolve cluster ctx va a = .ok r) :
    r.1.groups = s.groups := by
  unfold State.resolve at h
  split at h
  · cases h
  · split at h
    · cases h
    · split at h
      · cases h
      · next hc => cases h; exact ownerCheck_groups hc

theorem resolveDevice_groups {s : State} {cluster ctx va : Nat} {r : State × Nat} (h : s.resolveDevice cluster ctx va = .ok r) :
    r.1.groups = s.groups := by
  unfold State.resolveDevice at h
  split at h
  · cases h
  · next hr =>
    split at h
    · split at h <;> cases h
      exact resolve_groups hr
    · cases h

@[simp] theorem writeVirtual_groups (s : State) (cluster ctx va : Nat) (l : List Byte) :
    (s.writeVirtual cluster ctx va l).1.groups = s.groups := by
  unfold State.writeVirtual
  split
  · rfl
  · split
    · rfl
    · next h => simpa using resolveDevice_groups h

@[simp] theorem putRecord_groups (s : State) (ctx cluster : Nat) (r : Record) : (s.putRecord ctx cluster r).groups = s.groups := by
  unfold State.putRecord
  dsimp only
  split
  · rfl
  · split
    · rfl
    · split
      · next h =>
        have := congrArg (fun x => x.1.groups) h
        split <;> simpa using this.symm
      · rfl

/-! The curtain. -/

@[simp] theorem notify_groups (s : State) (kind : Nat) (d : Sender) (count : Nat) : (s.notify kind d count).groups = s.groups := rfl

@[simp] theorem endGuests_groups (s : State) (ctx : Nat) : (s.endGuests ctx).groups = s.groups :=
  foldl_keeps State.groups _ (fun s _ => foldl_keeps State.groups _ (fun s _ => notify_groups s 2 _ 0) _ s) _ s

@[simp] theorem dropBegins_groups (s : State) (ctx : Nat) : (s.dropBegins ctx).groups = s.groups := rfl

@[simp] theorem sweepMonitors_groups (s : State) (c : Nat) : (s.sweepMonitors c).groups = s.groups := rfl

@[simp] theorem dropFar_groups (s : State) (p : FarWait → Bool) : (s.dropFar p).groups = s.groups := by
  unfold State.dropFar
  split
  · exact foldl_keeps State.groups _ (fun s (x : Nat × Cluster) => sweepMonitors_groups s x.1) _ _
  · rfl

@[simp] theorem setActState_groups (s : State) (ctx act st : Nat) : (s.setActState ctx act st).groups = s.groups := by
  unfold State.setActState
  split
  · rfl
  · dsimp only
    split <;> simp

/-- The words of every group's scratchpad stand as they were, and no group comes or goes. -/
def SamePads (s t : State) : Prop := ∀ k, (t.group? k).map Group.pad = (s.group? k).map Group.pad

theorem SamePads.refl (s : State) : SamePads s s := fun _ => rfl

theorem SamePads.trans {a b c : State} (h : SamePads a b) (h' : SamePads b c) : SamePads a c := fun k => (h' k).trans (h k)

theorem SamePads.of_groups {s t : State} (h : t.groups = s.groups) : SamePads s t := fun k => by rw [State.group?, State.group?, h]

theorem modGroup_samePads (s : State) (g : Nat) (f : Group → Group) (h : ∀ x, (f x).pad = x.pad) : SamePads s (s.modGroup g f) := by
  intro k
  rw [group_modGroup]
  split
  · next e => simp [e, Function.comp_def, h]
  · rfl

/-- A new number for an act stands in its groups, not in their scratchpads. -/
theorem renumberAct_samePads (s : State) (ctx old new : Nat) : SamePads s (s.renumberAct ctx old new) :=
  by
  intro k
  simp [State.group?, State.renumberAct, Function.comp_def]

theorem cancelOne_samePads (s : State) (k : Nat) : SamePads s (s.cancelOne k) := by
  have h := SamePads.of_groups (setActState_groups s (k / 65536) (k % 65536) 7)
  unfold State.cancelOne
  dsimp only
  split
  · exact h
  · split
    · exact h
    · exact h.trans (renumberAct_samePads _ _ _ _)

theorem lowerCurtain_samePads (s : State) (ctx cons code : Nat) : SamePads s (s.lowerCurtain ctx cons code) := by
  unfold State.lowerCurtain
  dsimp only
  split
  · exact SamePads.refl s
  · refine SamePads.trans (SamePads.of_groups (t := State.dropFar _ _) ?_)
      (foldl_related SamePads.refl SamePads.trans State.cancelOne cancelOne_samePads _ _)
    · simp

theorem lateFailure_samePads (s : State) (ctx : Nat) (pc : Dword) (cons code cluster slot : Nat) :
    SamePads s (s.lateFailure ctx pc cons code cluster slot) := by
  have curtain (n : Nat) (r : Record) : SamePads s (s.curtain ctx n r) := by
    unfold State.curtain
    split
    · exact SamePads.refl s
    · exact (SamePads.of_groups (putRecord_groups s ctx n _)).trans (lowerCurtain_samePads _ _ _ _)
  unfold State.lateFailure
  split
  · exact curtain _ _
  · exact curtain _ _

/-! The end of waits. -/

/-- What the end of waits keeps: the scratchpads; and, where no message is open, memory, with the frames that wait for their fill. An open
message that closes may lower a curtain, whose records and status words are bytes of memory. -/
structure KeepsData (s t : State) : Prop where
  pads : SamePads s t
  memory : NoOpenMessage s → NoOpenMessage t ∧ t.mem = s.mem ∧ t.zeroPend = s.zeroPend

theorem KeepsData.refl (s : State) : KeepsData s s := ⟨SamePads.refl s, fun h => ⟨h, rfl, rfl⟩⟩

theorem KeepsData.trans {a b c : State} (h : KeepsData a b) (h' : KeepsData b c) : KeepsData a c := by
  refine ⟨h.pads.trans h'.pads, fun ha => ?_⟩
  obtain ⟨hb, mem, pend⟩ := h.memory ha
  obtain ⟨hc, mem', pend'⟩ := h'.memory hb
  exact ⟨hc, mem'.trans mem, pend'.trans pend⟩

theorem KeepsData.of_fields {s t : State} (g : t.groups = s.groups) (c : t.clusters = s.clusters) (m : t.mem = s.mem)
    (z : t.zeroPend = s.zeroPend) : KeepsData s t :=
  ⟨SamePads.of_groups g, fun h => ⟨by rwa [NoOpenMessage, c], m, z⟩⟩

theorem noOpenMessage_cluster {s : State} (h : NoOpenMessage s) (c : Nat) : ∀ m ∈ (s.cluster c).outbox, m.dst ≠ 1023 := by
  have mem {l : Map Cluster} {v : Cluster} (hf : find l c = some v) : (c, v) ∈ l := by
    induction l with
    | nil => cases hf
    | cons x r ih =>
      obtain ⟨k, w⟩ := x
      simp only [find] at hf
      split at hf
      · next e => cases hf; simp [e]
      · exact List.mem_cons_of_mem _ (ih hf)
  unfold State.cluster get
  cases hf : find s.clusters c with
  | none => simp [Cluster.init]
  | some v => exact h _ (mem hf)

theorem noOpenMessage_modCluster {s : State} (h : NoOpenMessage s) (c : Nat) {f : Cluster → Cluster}
    (hf : ∀ v, ∀ m ∈ (f v).outbox, ∃ x ∈ v.outbox, m.dst = x.dst) : NoOpenMessage (s.modCluster c f) := by
  intro x hx m hm
  rcases mem_put _ _ _ _ hx with rfl | hx
  · obtain ⟨y, hy, e⟩ := hf _ m hm
    exact e ▸ noOpenMessage_cluster h c y hy
  · exact h x hx m hm

theorem modCluster_keepsData (s : State) (c : Nat) {f : Cluster → Cluster}
    (hf : ∀ v, ∀ m ∈ (f v).outbox, ∃ x ∈ v.outbox, m.dst = x.dst) : KeepsData s (s.modCluster c f) :=
  ⟨SamePads.of_groups rfl, fun h => ⟨noOpenMessage_modCluster h c hf, rfl, rfl⟩⟩

theorem modGroup_keepsData (s : State) (g : Nat) {f : Group → Group} (h : ∀ x, (f x).pad = x.pad) : KeepsData s (s.modGroup g f) :=
  ⟨modGroup_samePads s g f h, fun ho => ⟨by rwa [NoOpenMessage, State.modGroup_clusters], by simp, by simp⟩⟩

theorem resume_keepsData (s : State) (k : Nat) (t : Thread) : KeepsData s (s.resume k t) := by
  have set (u : State) (v : Thread) : KeepsData u (u.setThread k v) := .of_fields rfl rfl rfl rfl
  have hold (u : State) (pc : Dword) : KeepsData u (u.hold k pc) := by
    unfold State.hold
    split
    · exact .refl u
    · split <;> exact set u _
  unfold State.resume
  split
  · exact (set s t).trans (hold _ _)
  · exact set s _

/-- Where no message is open there is none to close. -/
theorem closeMessages_of_noOpen {s : State} (h : NoOpenMessage s) (c : Nat) : s.closeMessages c = s := by
  unfold State.closeMessages
  refine foldl_fixed_of_mem _ _ _ fun m hm => ?_
  have hd := noOpenMessage_cluster h c m hm
  dsimp only
  split
  · simp [hd]
  · rfl

/-- The message that closes is sent, or its late failure lowers a curtain; neither touches a scratchpad. -/
theorem closeMessages_samePads (s : State) (c : Nat) : SamePads s (s.closeMessages c) := by
  unfold State.closeMessages
  refine foldl_related SamePads.refl SamePads.trans _ (fun s m => ?_) _ s
  split
  · split
    · dsimp only
      split
      · exact (SamePads.of_groups (State.modCluster_groups s c _)).trans (lateFailure_samePads _ _ _ _ _ _ _)
      · refine SamePads.of_groups (Eq.trans (foldl_keeps State.groups _ (fun s x => ?_) _ _) (State.modCluster_groups s c _))
        split
        · split <;> simp
        · rfl
    · exact SamePads.refl s
  · exact SamePads.refl s

theorem closeMessages_keepsData (s : State) (c : Nat) : KeepsData s (s.closeMessages c) :=
  ⟨closeMessages_samePads s c, fun h => by rw [closeMessages_of_noOpen h]; exact ⟨h, rfl, rfl⟩⟩

/-- A value that comes back fills its places in queues and in messages. -/
theorem fill_keepsData (s : State) (cluster op : Nat) (hi : Bool) (v : Tw) : KeepsData s (s.fill cluster op hi v) := by
  refine KeepsData.trans (b := { s with groups := mapVals (fun _ g => { g with q := mapVals (fun _ l => fillHole op hi v l) g.q }) s.groups })
    ⟨fun k => by simp [State.group?, Function.comp_def], fun h => ⟨h, rfl, rfl⟩⟩ ?_
  refine KeepsData.trans (modCluster_keepsData _ cluster fun c m hm => ?_) (closeMessages_keepsData _ cluster)
  obtain ⟨x, hx, rfl⟩ := List.mem_map.1 hm
  refine ⟨x, hx, ?_⟩
  split <;> rfl

theorem endWait_keepsData (s : State) (key : Nat) (w : MonWait) (v : Tw) : KeepsData s (s.endWait key w v) := by
  unfold State.endWait
  split
  · exact .refl s
  · dsimp only
    split
    · exact (resume_keepsData s key _).trans (fill_keepsData _ _ _ _ _)
    · exact resume_keepsData s key _

theorem endTape_keepsData (s : State) (key k : Nat) (words : List Tw) (stamp : Option (Clock × Option Nat)) :
    KeepsData s (s.endTape key k words stamp) := by
  unfold State.endTape
  split
  · exact .refl s
  · dsimp only
    generalize hu : List.foldl _ s _ = u
    have resumed : KeepsData s u := by
      rw [← hu]
      refine foldl_related KeepsData.refl KeepsData.trans _ (fun s n => ?_) _ s
      split
      · exact resume_keepsData s n _
      · exact .refl s
    refine resumed.trans ?_
    · split
      · exact modGroup_keepsData _ _ fun x => foldl_keeps Group.pad _ (by intros; rfl) _ x
      · exact .refl _

theorem recheck_keepsData (s : State) (key : Nat) : KeepsData s (s.recheck key) := by
  unfold State.recheck
  split
  · exact .refl s
  · split
    · split
      · exact endWait_keepsData s key _ _
      · exact .refl s
    · split
      · exact endTape_keepsData s key _ _ _
      · exact .refl s
    · exact .refl s

theorem sweepMonitors_keepsData (s : State) (c : Nat) : KeepsData s (s.sweepMonitors c) := by
  unfold State.sweepMonitors
  refine modCluster_keepsData s c fun v m hm => ⟨m, ?_, rfl⟩
  split at hm <;> exact hm

theorem farWake_keepsData (s : State) (hit : Watched → Bool) : KeepsData s (s.farWake hit) := by
  obtain ⟨_, _, _, h⟩ := farWake_eq s hit
  rw [h]
  exact .of_fields rfl rfl rfl rfl

theorem touchSaved_keepsData (s : State) (hit : Watched → Bool) : KeepsData s (s.touchSaved hit) := by
  unfold State.touchSaved
  split
  · exact .of_fields rfl rfl rfl rfl
  · exact .refl s

/-- What follows from a write (R238) writes no byte of memory and no scratchpad word. -/
theorem touch_keepsData (s : State) (hit : Watched → Bool) : KeepsData s (s.touch hit) := by
  have woken := (touchSaved_keepsData s hit).trans (farWake_keepsData _ hit)
  unfold State.touch
  dsimp only
  split
  · exact woken
  · exact (woken.trans (foldl_related KeepsData.refl KeepsData.trans _ recheck_keepsData _ _)).trans
      (foldl_related KeepsData.refl KeepsData.trans _ sweepMonitors_keepsData _ _)

end Sys2Proof.Machine
end

section
/-! Reads after writes, in memory and in scratchpad (R2, R210). -/

namespace Sys2Proof.Machine

open Sys2Proof.Safety

/-! Memory. -/

theorem readByte_writeBytes_outside (l : List Byte) (m : List Host.Cell) (a b : Nat) (h : b < a ∨ a + l.length ≤ b) :
    readByte (writeBytes m a l) b = readByte m b := by
  induction l generalizing m a with
  | nil => rfl
  | cons x r ih =>
    rw [List.length_cons] at h
    rw [writeBytes, ih _ _ (by omega), readByte_writeByte_other m a b x (by omega)]

theorem readByte_writeBytes_inside (l : List Byte) (m : List Host.Cell) (a n : Nat) (h : n < l.length) :
    readByte (writeBytes m a l) (a + n) = l.getD n 0 := by
  induction l generalizing m a n with
  | nil => cases h
  | cons x r ih =>
    cases n with
    | zero =>
      rw [writeBytes, readByte_writeBytes_outside r _ _ _ (by omega)]
      simp
    | succ n =>
      rw [writeBytes, show a + (n + 1) = a + 1 + n by omega, ih _ _ _ (by simpa using h)]
      rfl

/-! Scratchpad. -/

@[simp] theorem get_putTw_self (m : Map Tw) (n : Nat) (v : Tw) : get (putTw m n v) n Tw.zero = v := by
  unfold putTw
  split
  · next h => simp [h]
  · simp

theorem get_putTw_other (m : Map Tw) (n k : Nat) (v : Tw) (h : k ≠ n) : get (putTw m n v) k Tw.zero = get m k Tw.zero := by
  unfold putTw
  split
  · exact get_drop_other m n k _ h
  · exact get_put_other m n k v _ h

/-- A scratchpad word that is written stands in its group, whatever waits its write ends. -/
theorem padWrite_pad {s : State} {g : Nat} {gr : Group} (h : s.group? g = some gr) (word : Nat) (v : Tw) :
    ∃ gr', (s.padWrite g word v).group? g = some gr' ∧ gr'.pad = putTw gr.pad word v := by
  have kept := (touch_keepsData (s.modGroup g fun x => { x with pad := putTw x.pad word v }) fun w => w = .pad g word).pads g
  rw [group_modGroup, if_pos rfl, h] at kept
  exact Option.map_eq_some_iff.1 kept

/-- A 32-bit unsigned value comes as it is (R139). -/
theorem loadOut_u32 (v : Word) : loadOut 5 v.toNat = [.data v] := by
  have lt := v.isLt
  have width : typeWidth 5 = 32 := by decide
  have value : wrap 32 (intRead 5 v.toNat) = v.toNat := by
    have unsigned : intRead 5 v.toNat = ((v.toNat % 2 ^ 32 : Nat) : Int) := rfl
    rw [unsigned, wrap]
    omega
  have low : lo32 (BitVec.ofNat 64 v.toNat) = v := by
    apply BitVec.eq_of_toNat_eq
    simp only [lo32, BitVec.extractLsb'_toNat, BitVec.toNat_ofNat, Nat.shiftRight_zero]
    omega
  unfold loadOut scalarOut extOut
  rw [width, value]
  exact congrArg (fun w => [Tw.data w]) low

/-- A load of 32 bits at a multiple of 4 is its word where that is untagged. -/
theorem padLoad_word {gr : Group} {a : Nat} {v : Word} (ha : a % 4 = 0) (h : get gr.pad (a / 4) Tw.zero = .data v) :
    gr.padLoad 5 a = [.data v] := by
  have bytes : typeBytes 5 = 4 := by decide
  have whole : v.toNat / 2 ^ (8 * (a % 4)) % 2 ^ (8 * 4) = v.toNat := by
    rw [ha]
    have := v.isLt
    omega
  unfold Group.padLoad
  simp only [bytes, h]
  rw [if_neg (by decide), if_neg (by simp [Tw.data]), ← loadOut_u32]
  exact congrArg (loadOut 5) whole

/-- Settles O22: a write by induction on its bytes; a scratchpad word, which outlives the waits that its write ends. -/
theorem readAfterWrite : Obligations.ReadAfterWrite := by
  unfold Obligations.ReadAfterWrite
  refine ⟨fun m a bytes wf => ⟨fun n => readByte_writeBytes_inside bytes m a n, fun b => readByte_writeBytes_outside bytes m a b,
    wf_writeBytes bytes m a wf⟩, fun s g a v gr hg ha => ?_⟩
  obtain ⟨gr', found, pad⟩ := padWrite_pad hg (a / 4) (.data (lo32 v))
  refine ⟨gr', found, padLoad_word ha ?_, fun b hb => ?_⟩
  · rw [pad, get_putTw_self]
  · rw [pad, get_putTw_other _ _ _ _ hb]

end Sys2Proof.Machine
end

section
/-! A store at its home (R2, R209, R226): its bytes where its address stands, every other byte as it was. -/

namespace Sys2Proof.Machine

open Sys2Proof.Safety

/-! Bytes as reads find them, and their frames. -/

theorem byteAt_eq (s : State) (a : Nat) : byteAt s a = if s.unfilled a then 0 else readByte s.mem a := by
  unfold byteAt State.bytesAt
  split <;> rfl

theorem byteAt_congr {s t : State} (m : t.mem = s.mem) (z : t.zeroPend = s.zeroPend) (a : Nat) : byteAt t a = byteAt s a := by
  rw [byteAt_eq, byteAt_eq, State.unfilled, State.unfilled, m, z]

theorem unfilled_fillFrame (s : State) (f a : Nat) : (s.fillFrame f).unfilled a = (s.unfilled a && a / 2 ^ 16 != f) := by
  rw [Bool.eq_iff_iff]
  simp [State.unfilled]

theorem readByte_keep (p : Nat → Bool) (m : List Host.Cell) (a : Nat) (h : p a = true) : readByte (keep (fun k _ => p k) m) a = readByte m a := by
  rw [readByte, readByte, get, get, find_keep _ _ _ fun _ _ => rfl]
  cases find m a <;> simp [Option.filter, h]

/-- A frame reads as zero before its fill and after it (R383). -/
theorem byteAt_fillFrame {s : State} {f : Nat} (h : s.zeroPend.contains f = true) (a : Nat) : byteAt (s.fillFrame f) a = byteAt s a := by
  rw [byteAt_eq, byteAt_eq, unfilled_fillFrame, fillFrame_mem]
  by_cases e : a / 2 ^ 16 = f
  · have unfilled : s.unfilled a = true := by rw [State.unfilled, e, h]
    have empty : readByte (keep (fun k _ => k / 2 ^ 16 != f) s.mem) a = 0 := by
      rw [readByte, get, find_keep _ _ _ fun _ _ => rfl]
      subst e
      cases find s.mem a <;> simp [Option.filter]
    simp only [unfilled, empty, e, bne_self_eq_false, Bool.and_false, Bool.false_eq_true, if_false, if_true]
  · have other : (a / 2 ^ 16 != f) = true := by simpa using e
    rw [readByte_keep (fun k => k / 2 ^ 16 != f) s.mem a other, other, Bool.and_true]

theorem byteAt_reach (s : State) (pa a : Nat) : byteAt (s.reach pa) a = byteAt s a := by
  unfold State.reach
  split
  · next h => exact byteAt_fillFrame h a
  · rfl

/-- A frame that has been reached is filled. -/
theorem unfilled_reach (s : State) (pa a : Nat) (h : a / 2 ^ 16 = pa / 2 ^ 16) : (s.reach pa).unfilled a = false := by
  unfold State.reach
  split
  · rw [unfilled_fillFrame, h, bne_self_eq_false, Bool.and_false]
  · next hf =>
    rw [State.unfilled, h]
    simpa [State.unfilled] using hf

theorem byteAt_putBytes_outside (s : State) (pa a : Nat) (l : List Byte) (h : a < pa ∨ pa + l.length ≤ a) :
    byteAt (s.putBytes pa l) a = byteAt s a := by
  rw [← byteAt_reach s pa a, byteAt_eq, byteAt_eq]
  exact congrArg (fun b => if (s.reach pa).unfilled a then 0 else b) (readByte_writeBytes_outside l _ pa a h)

theorem byteAt_putBytes_inside (s : State) (pa k : Nat) (l : List Byte) (h : k < l.length) (frame : pa % 2 ^ 16 + l.length ≤ 2 ^ 16) :
    byteAt (s.putBytes pa l) (pa + k) = l.getD k 0 := by
  have filled : (s.putBytes pa l).unfilled (pa + k) = false := unfilled_reach s pa (pa + k) (by omega)
  rw [byteAt_eq, filled]
  exact readByte_writeBytes_inside l _ pa k h

/-! What stands before a write: messages, bytes, and where each address stands. -/

/-- The bytes of memory, and where each address stands (R226), are the same, and no message has come to be open. -/
structure SameMemory (s t : State) : Prop where
  podctl : t.pkg.podctl = s.pkg.podctl
  frozen : ∀ c, (t.cluster c).frozen = (s.cluster c).frozen
  fwds : ∀ c, (t.cluster c).fwds = (s.cluster c).fwds
  mirrors : ∀ c, (t.cluster c).mirrors = (s.cluster c).mirrors
  bytes : ∀ a, byteAt t a = byteAt s a
  messages : NoOpenMessage s → NoOpenMessage t

theorem SameMemory.refl (s : State) : SameMemory s s := ⟨rfl, fun _ => rfl, fun _ => rfl, fun _ => rfl, fun _ => rfl, id⟩

theorem SameMemory.trans {a b c : State} (h : SameMemory a b) (h' : SameMemory b c) : SameMemory a c where
  podctl := h'.podctl.trans h.podctl
  frozen k := (h'.frozen k).trans (h.frozen k)
  fwds k := (h'.fwds k).trans (h.fwds k)
  mirrors k := (h'.mirrors k).trans (h.mirrors k)
  bytes k := (h'.bytes k).trans (h.bytes k)
  messages := h'.messages ∘ h.messages

theorem SameMemory.placed {s t : State} (h : SameMemory s t) (pa : Nat) : t.placed? pa = s.placed? pa := by
  have region (a : Nat) : t.region a = s.region a := by rw [State.region, State.region, State.ownPkg, State.ownPkg, h.podctl]
  have moved (c a n : Nat) : t.movedWhole c a n = s.movedWhole c a n := by
    unfold State.movedWhole State.frozenAt
    dsimp only
    rw [h.frozen, h.fwds, h.mirrors]
  have final (n : Nat) : ∀ a, t.finalPa a n = s.finalPa a n := by
    induction n with
    | zero => intro a; rfl
    | succ n ih => intro a; simp only [State.finalPa, region, moved, ih]
  exact final 64 pa

theorem SameMemory.split {s t : State} (h : SameMemory s t) (pa n : Nat) : t.split pa n = s.split pa n := by
  simp only [State.split, h.placed]

/-- A change of a cluster that leaves its outbox and what has moved there. -/
theorem modCluster_sameMemory (s : State) (c : Nat) {f : Cluster → Cluster}
    (h : ∀ v, (f v).frozen = v.frozen ∧ (f v).fwds = v.fwds ∧ (f v).mirrors = v.mirrors ∧ (f v).outbox = v.outbox) :
    SameMemory s (s.modCluster c f) := by
  have at' (k : Nat) : (s.modCluster c f).cluster k = f (s.cluster k) ∨ (s.modCluster c f).cluster k = s.cluster k := by
    by_cases e : k = c
    · exact .inl (by rw [e, cluster_modCluster])
    · exact .inr (cluster_setCluster_other s c k _ e)
  refine ⟨rfl, fun k => ?_, fun k => ?_, fun k => ?_, fun a => rfl, fun ho => noOpenMessage_modCluster ho c fun v m hm => ⟨m, ?_, rfl⟩⟩
  · rcases at' k with e | e <;> rw [e]
    obtain ⟨frozen, -, -, -⟩ := h (s.cluster k)
    exact frozen
  · rcases at' k with e | e <;> rw [e]
    obtain ⟨-, fwds, -, -⟩ := h (s.cluster k)
    exact fwds
  · rcases at' k with e | e <;> rw [e]
    obtain ⟨-, -, mirrors, -⟩ := h (s.cluster k)
    exact mirrors
  · obtain ⟨-, -, -, outbox⟩ := h v
    rwa [outbox] at hm

theorem countMse_sameMemory (s : State) (p : Place) : SameMemory s (s.countMse p) := by
  unfold State.countMse
  split
  · exact modCluster_sameMemory s _ fun _ => ⟨rfl, rfl, rfl, rfl⟩
  · exact .refl s

/-- A stamp stands in the table and the floor of its cluster (R297). -/
theorem stampLine_sameMemory (s : State) (pa : Nat) (clock : Clock) (scope : Nat) : SameMemory s (s.stampLine pa clock scope) := by
  unfold State.stampLine
  split
  · refine modCluster_sameMemory s _ fun v => ?_
    unfold Cluster.stamp
    split
    · exact ⟨rfl, rfl, rfl, rfl⟩
    · dsimp only
      split
      · exact ⟨rfl, rfl, rfl, rfl⟩
      · split <;> exact ⟨rfl, rfl, rfl, rfl⟩
  · exact .refl s

/-- A fill takes the stamps of its frame from the home's table; where an address stands, it leaves. -/
theorem fillFrame_sameMemory {s : State} {f : Nat} (h : s.zeroPend.contains f = true) : SameMemory s (s.fillFrame f) := by
  obtain ⟨u, g, hu, kept, clusters⟩ : ∃ (u : State) (g : Cluster → Cluster), s.fillFrame f = u.modCluster (f / 2 ^ 14) g
      ∧ (∀ v, (g v).frozen = v.frozen ∧ (g v).fwds = v.fwds ∧ (g v).mirrors = v.mirrors ∧ (g v).outbox = v.outbox)
      ∧ u.clusters = s.clusters := by
    unfold State.fillFrame
    refine ⟨_, _, rfl, ?_, ?_⟩
    · exact fun _ => ⟨rfl, rfl, rfl, rfl⟩
    · exact noteWrite_clusters _ _ _
  have cluster (c : Nat) : u.cluster c = s.cluster c := by rw [State.cluster, State.cluster, clusters]
  have stamps := hu ▸ modCluster_sameMemory u (f / 2 ^ 14) kept
  exact {
    podctl := fillFrame_podctl s f
    frozen := fun c => (stamps.frozen c).trans (congrArg Cluster.frozen (cluster c))
    fwds := fun c => (stamps.fwds c).trans (congrArg Cluster.fwds (cluster c))
    mirrors := fun c => (stamps.mirrors c).trans (congrArg Cluster.mirrors (cluster c))
    bytes := byteAt_fillFrame h
    messages := fun ho => stamps.messages (by rwa [NoOpenMessage, clusters]) }

theorem reach_sameMemory (s : State) (pa : Nat) : SameMemory s (s.reach pa) := by
  unfold State.reach
  split
  · next h => exact fillFrame_sameMemory h
  · exact .refl s

theorem leaveRel_sameMemory (s : State) (o : Op) : SameMemory s (s.leaveRel o) := by
  unfold State.leaveRel
  split
  · exact (reach_sameMemory s o.pa).trans (stampLine_sameMemory _ _ _ _)
  · exact .refl s

/-! The store. -/

@[simp] theorem length_toBytes (n v : Nat) : (toBytes n v).length = n := by
  induction n generalizing v with
  | zero => rfl
  | succ n ih => simp [toBytes, ih]

/-- Little-endian: byte k of a number is its k-th digit of base 256 (R2). -/
theorem getD_toBytes (n v k : Nat) (h : k < n) : (toBytes n v).getD k 0 = BitVec.ofNat 8 (v / 256 ^ k) := by
  induction n generalizing v k with
  | zero => cases h
  | succ n ih =>
    cases k with
    | zero => simp [toBytes]
    | succ k =>
      rw [toBytes, List.getD_cons_succ, ih _ _ (by omega), Nat.div_div_eq_div_mul, Nat.pow_succ, Nat.mul_comm]

/-- The waits that a write ends change no byte. -/
theorem byteAt_storeBytes {s : State} (h : NoOpenMessage s) (pa : Nat) (l : List Byte) (a : Nat) :
    byteAt (s.storeBytes pa l) a = byteAt (s.putBytes pa l) a := by
  have opened : NoOpenMessage (s.putBytes pa l) := (reach_sameMemory s pa).messages h
  obtain ⟨_, mem, pend⟩ := (touch_keepsData { s.putBytes pa l with marks := clearMarks (s.putBytes pa l).marks pa l.length } fun w =>
    match w with | .mem x => decide (x < pa + l.length ∧ pa < x + 4) | .pad _ _ => false).memory opened
  exact byteAt_congr mem pend a

theorem byteAt_performed (s : State) (k : Nat) (o : Op) (a : Nat) : byteAt (s.performed k o) a = byteAt s a := by
  unfold State.performed
  split <;> rfl

theorem writeAt_store {s : State} {k n : Nat} {o : Op} {v : Dword} (h : o.work = .store n v) :
    s.writeAt k o = (((s.countMse o.place).leaveRel o).storeNow o.pa (toBytes n v.toNat)).performed k o := by
  unfold State.writeAt
  rw [h]

/-- MSE_WRITE of a write that nothing holds back applies it. -/
theorem mseWrite_eq {s : State} {op : Nat} {o : Op} (ho : find s.ops op = some o) (kind : o.kind = some .write) (sent : o.stage = .sent)
    (may : s.mayApply op o = true) (pass : s.passes o = true) (still : s.movedOp o = none) (line : s.raggedHeld o = none) :
    exec (.mseWrite op) s = .next (s.writeAt op o) := by
  change s.arriveAt op (fun k => k = .write) .clean = _
  simp [State.arriveAt, ho, kind, sent, may, pass, still, line, State.applyKind]

/-- Settles O25: what precedes the write keeps every byte and where the address stands, and the waits that it ends change no byte. -/
theorem storeAtHome : Obligations.StoreAtHome := by
  unfold Obligations.StoreAtHome
  intro s op o n v ho work sent may pass still whole frame messages
  have kind : o.kind = some .write := by rw [Op.kind, work]
  have line : s.raggedHeld o = none := by rw [State.raggedHeld, work]
  refine ⟨_, mseWrite_eq ho kind sent may pass still line, ?_⟩
  rw [writeAt_store work]
  have same := (countMse_sameMemory s o.place).trans (leaveRel_sameMemory _ o)
  generalize (s.countMse o.place).leaveRel o = u at same ⊢
  have stored (a : Nat) : byteAt ((u.storeNow o.pa (toBytes n v.toNat)).performed op o) a
      = byteAt (u.putBytes (s.placed? o.pa) (toBytes n v.toNat)) a := by
    rw [byteAt_performed, State.storeNow, same.split, length_toBytes, whole, same.placed]
    exact byteAt_storeBytes (same.messages messages) _ _ a
  refine ⟨fun k hk => ?_, fun a ha => ?_⟩
  · rw [stored, byteAt_putBytes_inside _ _ _ _ (by simpa) (by simpa), getD_toBytes n _ k hk]
  · rw [stored, byteAt_putBytes_outside _ _ _ _ (by simpa), same.bytes]

end Sys2Proof.Machine
end

section
/-! Fields of numbers (R1): what a field reads after it, or another, is set. -/

namespace Sys2Proof.Machine

theorem testBit_fld (v hi lo i : Nat) : (fld v hi lo).testBit i = (decide (i < hi + 1 - lo) && v.testBit (lo + i)) := by
  rw [fld, Nat.testBit_mod_two_pow, Nat.testBit_div_two_pow, Nat.add_comm i lo]

theorem testBit_setFld (v x i : Nat) {hi lo : Nat} (h : lo ≤ hi) :
    (setFld v hi lo x).testBit i = if lo ≤ i ∧ i ≤ hi then x.testBit (i - lo) else v.testBit i := by
  have parts : setFld v hi lo x
      = 2 ^ lo * (2 ^ (hi + 1 - lo) * (v / 2 ^ lo / 2 ^ (hi + 1 - lo)) + x % 2 ^ (hi + 1 - lo)) + v % 2 ^ lo := by
    have low := Nat.div_add_mod v (2 ^ lo)
    have mid := congrArg (2 ^ lo * ·) (Nat.div_add_mod (v / 2 ^ lo) (2 ^ (hi + 1 - lo)))
    simp only [Nat.mul_add] at mid
    simp only [setFld, fld, Nat.mul_add, Nat.mul_comm _ (2 ^ lo)]
    omega
  have xlt : x % 2 ^ (hi + 1 - lo) < 2 ^ (hi + 1 - lo) := Nat.mod_lt _ (Nat.two_pow_pos _)
  rw [parts, Nat.testBit_two_pow_mul_add _ (Nat.mod_lt _ (Nat.two_pow_pos _)), Nat.testBit_two_pow_mul_add _ xlt,
    Nat.testBit_mod_two_pow, Nat.testBit_mod_two_pow, Nat.testBit_div_two_pow, Nat.testBit_div_two_pow]
  by_cases below : i < lo
  · rw [if_pos below, if_neg (by omega)]
    simp [below]
  · rw [if_neg below]
    by_cases inside : i ≤ hi
    · rw [if_pos (by omega), if_pos (by omega)]
      simp only [show i - lo < hi + 1 - lo by omega, decide_true, Bool.true_and]
    · rw [if_neg (by omega), if_neg (by omega)]
      exact congrArg v.testBit (by omega)

theorem testBit_setD (v : Dword) (x : Nat) {hi lo i : Nat} (h : lo ≤ hi) (hi' : i < 64) :
    (setD v hi lo x).toNat.testBit i = if lo ≤ i ∧ i ≤ hi then x.testBit (i - lo) else v.toNat.testBit i := by
  rw [setD, BitVec.toNat_ofNat, Nat.testBit_mod_two_pow, testBit_setFld _ _ _ h]
  simp [hi']

theorem df_setD_same (v : Dword) {hi lo x : Nat} (h : lo ≤ hi) (top : hi < 64) (hx : x < 2 ^ (hi + 1 - lo)) : df (setD v hi lo x) hi lo = x := by
  apply Nat.eq_of_testBit_eq
  intro i
  rw [df, testBit_fld]
  by_cases inside : i < hi + 1 - lo
  · rw [testBit_setD v x h (by omega), if_pos (by omega), Nat.add_sub_cancel_left]
    simp [inside]
  · have above : x.testBit i = false := Nat.testBit_lt_two_pow (hx.trans_le (Nat.pow_le_pow_right (by decide) (by omega)))
    simp [inside, above]

theorem df_setD_other (v : Dword) (x : Nat) {hi lo b a : Nat} (h : lo ≤ hi) (top : b < 64) (apart : b < lo ∨ hi < a) :
    df (setD v hi lo x) b a = df v b a := by
  apply Nat.eq_of_testBit_eq
  intro i
  rw [df, df, testBit_fld, testBit_fld]
  by_cases inside : i < b + 1 - a
  · rw [testBit_setD v x h (by omega), if_neg (by omega)]
  · simp [inside]

theorem df_lt (v : Dword) (hi lo : Nat) : df v hi lo < 2 ^ (hi + 1 - lo) := Nat.mod_lt _ (Nat.two_pow_pos _)

end Sys2Proof.Machine
end

section
/-! Reliability, repair, power and the registers (R6, R440 to R445, R449, R452, R453). -/

namespace Sys2Proof.Machine

/-! Repairs. -/

@[simp] theorem msix_done (s : State) (v : Nat) : (s.msix v).pkg.done = s.pkg.done := congrArg Pkg.done (State.msix_pkg s v)

theorem setRelrp_done (s : State) (p : Dword) : ({ s with pkg := { s.pkg with relrp := p } } : State).pkg.done = s.pkg.done := rfl

/-- The record of a repair counts no repair. -/
@[simp] theorem putReliability_done (s : State) (cls code unit kind ctx addr wear : Nat) :
    (s.putReliability cls code unit kind ctx addr wear).pkg.done = s.pkg.done := by
  unfold State.putReliability
  dsimp only
  split
  · exact setRelrp_done s _
  · split_ifs
    · exact setRelrp_done s _
    · exact (msix_done _ _).trans ((setRelrp_done _ _).trans (deviceWrite_done _ _ _))
    · exact (setRelrp_done _ _).trans (deviceWrite_done _ _ _)

theorem startRepair_done (st : State × List Nat) (r : Repair) : (State.startRepair st r).1.pkg.done = st.1.pkg.done := by
  unfold State.startRepair
  dsimp only
  split_ifs
  · rfl
  · rfl
  · exact putReliability_done _ _ _ _ _ _ _ _
  · exact putReliability_done _ _ _ _ _ _ _ _
  · rfl
  · rfl

/-- The repairs that begin are not done. -/
@[simp] theorem startRepairs_done (s : State) : s.startRepairs.pkg.done = s.pkg.done :=
  foldl_keeps (fun st : State × List Nat => st.1.pkg.done) State.startRepair startRepair_done _ (s, [])

/-- A repair that is not of a cluster's site ends without a change of the package's registers. -/
theorem repaired_pkg (s : State) {r : Repair} (h : r.kind ≠ 1) : (s.repaired r).pkg = s.pkg := by
  unfold State.repaired
  split
  · contradiction
  · rfl
  · rfl

/-- REPAIR_DONE of a repair in progress whose unit is ready counts it (R444). -/
theorem repairDone_next {s : State} {kind unit : Nat} {r : Repair}
    (h : s.pkg.repairs.find? (fun x => x.started && x.kind = kind && x.unit = unit) = some r)
    (site : kind = 1 → s.siteSavable unit = true) (copied : kind = 4 → 2 ^ 14 ≤ r.frame 0 s.now) :
    ∃ t, exec (.repairDone kind unit) s = .next t ∧ t.pkg.done = (s.repaired r).pkg.done + 1 := by
  change ∃ t, execRepairDone kind unit s = .next t ∧ _
  have ready : ((kind = 1 && !s.siteSavable unit) || (kind = 4 && decide (r.frame 0 s.now < 2 ^ 14))) = false := by
    simp only [Bool.or_eq_false_iff, Bool.and_eq_false_imp, decide_eq_true_eq, Bool.not_eq_false', decide_eq_false_iff_not, not_lt]
    exact ⟨site, copied⟩
  unfold execRepairDone
  simp only [h, ready]
  exact ⟨_, rfl, by simp⟩

/-! Power. -/

@[simp] theorem reclock_pkg (s : State) (part : Nat) : (s.reclock part).pkg = s.pkg := by
  unfold State.reclock
  split
  · rfl
  · refine foldl_keeps State.pkg _ (fun s r => ?_) _ s
    split <;> rfl

@[simp] theorem reclockAll_pkg (s : State) : s.reclockAll.pkg = s.pkg := by
  refine foldl_keeps State.pkg _ (fun s r => ?_) _ s
  split
  · exact reclock_pkg s r
  · rfl

/-- A cold plate above its limit holds STEP at 2 (R453). -/
theorem stepAfter_hot (step limit meas low hotLeft : Nat) : (stepAfter step limit meas low hotLeft true).1 = 2 := by simp [stepAfter]

theorem stepAfter_lt {step : Nat} (h : step < 4) (limit meas low hotLeft : Nat) (hot : Bool) : (stepAfter step limit meas low hotLeft hot).1 < 4 := by
  unfold stepAfter
  dsimp only
  generalize (if hot then 10 else hotLeft - 1) = left
  generalize (if meas * 10 < limit * 9 then min (low + 1) 10 else 0) = cool
  split_ifs <;> dsimp only <;> omega

/-- POWER_WINDOW leaves what it measured, and STEP (R452, R453). -/
theorem powerWindow_next (s : State) (measured : Half) (hot : Bool) :
    ∃ t, exec (.powerWindow measured hot) s = .next t ∧ df t.pkg.pwrctl 47 32 = measured.toNat
      ∧ df t.pkg.pwrctl 25 24 = (stepAfter (df s.pkg.pwrctl 25 24) (df s.pkg.pwrctl 15 0) measured.toNat s.pkg.low s.pkg.hot hot).1 := by
  refine ⟨_, rfl, ?_, ?_⟩
  · rw [reclockAll_pkg]
    exact (df_setD_other _ _ (by decide) (by decide) (by decide)).trans (df_setD_same _ (by decide) (by decide) measured.isLt)
  · rw [reclockAll_pkg]
    exact df_setD_same _ (by decide) (by decide) (stepAfter_lt (df_lt _ 25 24) _ _ _ _ _)

/-- PWRCTL_WRITE of a limit outside its bounds sets the error and keeps the limit (R452). -/
theorem pwrctlWrite_next (s : State) (v : Dword) :
    ∃ t, exec (.pwrctlWrite v) s = .next t
      ∧ (1200 ≤ df v 15 0 ∧ df v 15 0 ≤ 4800 → df t.pkg.pwrctl 15 0 = df v 15 0)
      ∧ (¬(1200 ≤ df v 15 0 ∧ df v 15 0 ≤ 4800) → df t.pkg.pwrctl 15 0 = df s.pkg.pwrctl 15 0 ∧ bit t.pkg.pwrctl.toNat 63 = true) := by
  refine ⟨_, rfl, fun ok => ?_, fun bad => ?_⟩
  · dsimp only
    rw [if_pos ok]
    exact df_setD_same _ (by decide) (by decide) (df_lt v 15 0)
  · dsimp only
    rw [if_neg bad]
    refine ⟨(df_setD_other _ _ (by decide) (by decide) (by decide)).trans ?_, ?_⟩
    · split
      · exact df_setD_other _ _ (by decide) (by decide) (by decide)
      · rfl
    · rw [bit, testBit_setD _ _ (by decide) (by decide)]
      rfl

/-! Registers. -/

/-- A register of the page whose write is no step of its own takes the value as its fields say (R6). -/
theorem registerWrite_plain {s : State} {reg : MgmtReg} {i : Nat} (v : BitVec 128) (hi : i < regCount reg)
    (h : ∀ r ∈ [MgmtReg.cbctl, .cbpost, .partmap, .ctxmode, .ctxinv, .frameown, .ctxpgdone, .repcmd, .pwrctl], reg ≠ r) :
    exec (.registerWrite reg i v) s = .next (s.writeReg reg i v) := by
  change execRegisterWrite reg i v s = _
  simp only [List.forall_mem_cons] at h
  unfold execRegisterWrite
  rw [if_neg (by omega)]
  split <;> simp_all

/-- SCRUB of a sector whose home's MSE is up: one that is not filled, or holds check symbols, is passed over (R440). -/
theorem scrub_eq {cluster sector pa : Nat} (s : State) (ecc : Ecc) (hc : cluster < 768) (hs : sector < 2 ^ 25)
    (up : s.mseDown cluster = false) (hpa : pa = cluster * 2 ^ 30 + sector * 32) :
    exec (.scrub cluster sector ecc) s = if s.unfilled pa || s.checkSymbol pa then .next s else .next (s.detect pa ecc) := by
  subst hpa
  change execScrub cluster sector ecc s = _
  unfold execScrub
  rw [if_neg (by simp [up]; omega)]

theorem repcmdRepair_eq (s : State) (v : Dword) :
    exec (.repcmdRepair v) s = if !bit v.toNat 63 ∨ unitCount (df v 23 16) ≤ df v 15 0 then .next s
      else .next (s.askRepair (df v 23 16) (df v 15 0)
        (if df v 23 16 = 5 ∨ df v 23 16 = 6 then s.wornLane (df v 23 16) (df v 15 0) else 0)) := rfl

/-- Settles O56, a clause for each step: what the step leaves, read from its own lemma. -/
theorem upkeepSteps : Obligations.UpkeepSteps := by
  unfold Obligations.UpkeepSteps
  intro s
  refine ⟨?relrp, ?scrub, ?repcmd, ?done, ?window, pwrctlWrite_next s, ?loss, ?write⟩
  case relrp =>
    have value : (s.regValue .relrp 0).extractLsb' 0 64 = s.pkg.relrp := by
      apply BitVec.eq_of_toNat_eq
      simpa [State.regValue, State.reg64] using s.pkg.relrp.isLt
    refine ⟨_, rfl, ?_, rfl⟩
    rw [value]
    rfl
  case scrub =>
    intro cluster sector ecc hc hs up pa
    rw [scrub_eq (pa := pa) s ecc hc hs up rfl]
    exact ⟨fun h => if_pos (by simpa using h), fun h h' => if_neg (by simp [h, h'])⟩
  case repcmd =>
    intro v
    rw [repcmdRepair_eq]
    refine ⟨fun h => if_pos (by simpa using h), fun go unit h5 h6 => ?_⟩
    rw [if_neg (by simp [go]; omega), if_neg (by omega)]
  case done =>
    intro kind unit r found site copied
    obtain ⟨t, next, count⟩ := repairDone_next found site copied
    refine ⟨t, next, fun h => ?_⟩
    obtain ⟨⟨_, same⟩, _⟩ : (r.started = true ∧ r.kind = kind) ∧ r.unit = unit := by simpa using List.find?_some found
    rw [count, repaired_pkg s (same ▸ h)]
  case window =>
    intro measured hot
    obtain ⟨t, next, meas, step⟩ := powerWindow_next s measured hot
    refine ⟨t, next, meas, fun h => ?_⟩
    rw [step, h, stepAfter_hot]
  case loss => exact ⟨_, rfl, rfl, rfl, rfl, rfl, rfl, rfl, rfl, rfl, rfl, rfl⟩
  case write =>
    intro reg i v hi w
    have own {r : MgmtReg} (e : reg = r) (t : Res) (h : execRegisterWrite r i v s = if regCount r ≤ i then .refused .notEnabled else t) :
        exec (.registerWrite reg i v) s = t := by
      subst e
      exact h.trans (if_neg (by omega))
    exact ⟨fun e => own e _ rfl, fun e => own e _ rfl, fun e => own e _ rfl, fun e => own e _ rfl, fun e => own e _ rfl,
      registerWrite_plain v hi⟩

end Sys2Proof.Machine
end

section
/-! The lane instructions as their rules say (spec/06 R138 to R142): each runs its rule, and what its results are made of. -/

namespace Sys2Proof.Machine

open Sys2Proof.Safety

/-! Every lane instruction runs its rule. -/

/-- The run of a rule. -/
def runRule (L : LaneRule) (s : State) : Res := runLane s L.head L.srcs L.dst L.checked L.results

theorem exec_eq_runRule {i : Instr} {L : LaneRule} (h : laneRule i = some L) (s : State) : exec i s = runRule L s := by
  cases i with
  | movD f =>
    cases h
    change execMovD f s = _
    unfold execMovD
    split <;> rfl
  | _ => cases h <;> rfl

theorem exec_eq_occupyFour {i : Instr} {L : LaneRule} (h : laneRule64 i = some L) (s : State) : exec i s = occupyFour s (runRule L s) := by
  cases i with
  | daddD f | dmulD f | dfmaD f | dcmpD f => cases h; rfl
  | _ => cases h

/-! What a rule's results are made of. -/

/-- A result beside which no check has failed and no status word is written. -/
def LaneOut.Plain (o : LaneOut) : Prop := o.failed = false ∧ o.tsw = none

def PlainResults (f : List LaneIn → List LaneOut) : Prop := ∀ ins, ∀ o ∈ f ins, o.Plain

theorem one_plain (v : Val) (flags : Word) : (LaneOut.one v flags).Plain := ⟨rfl, rfl⟩

theorem plain_of_map {ι : Type} {g : ι → LaneOut} (h : ∀ i, (g i).Plain) (l : List ι) : ∀ o ∈ l.map g, o.Plain := by
  intro o ho
  obtain ⟨i, _, rfl⟩ := List.mem_map.1 ho
  exact h i

theorem perLane_plain (g : LaneIn → List Dword → Dword × Word) : PlainResults (perLane g) :=
  plain_of_map fun i => by split <;> exact one_plain _ _

theorem movPair_plain : PlainResults movPair := plain_of_map fun i => by split <;> exact ⟨rfl, rfl⟩

theorem selLane_plain (t : Nat) : PlainResults (selLane t) :=
  plain_of_map fun i => by
    split
    · exact one_plain _ _
    · split <;> exact one_plain _ _
    · exact one_plain _ _
    · exact one_plain _ _

theorem packOut_plain (pc : Dword) (dt : Nat) (els : List (Option (Nat × Word))) : (packOut pc dt els).Plain := by
  unfold packOut
  split <;> exact one_plain _ _

theorem joinOut_plain (pc : Dword) (dt : Nat) (els : List (Option (Nat × Word))) : (joinOut pc dt els).Plain := by
  unfold joinOut
  split
  · exact one_plain _ _
  · exact packOut_plain pc dt els

theorem cvtLane_plain (f : DForm) (dt st : Nat) : PlainResults (cvtLane f dt st) :=
  plain_of_map fun i => by
    split
    · exact one_plain _ _
    · exact joinOut_plain _ _ _

theorem cvtsLane_plain (f : DForm) (dt st : Nat) : PlainResults (cvtsLane f dt st) :=
  plain_of_map fun i => by
    split
    · exact one_plain _ _
    · exact joinOut_plain _ _ _

theorem packLane_plain (f : DForm) (dt st : Nat) : PlainResults (packLane f dt st) :=
  plain_of_map fun i => by
    split
    · exact one_plain _ _
    · exact packOut_plain _ _ _

theorem unpackLane_plain (t e : Nat) : PlainResults (unpackLane t e) := plain_of_map fun i => by split <;> exact ⟨rfl, rfl⟩

theorem shflLane_plain (tid : Bool) : PlainResults (shflLane tid) := fun ls =>
  plain_of_map (fun i => by
    split
    · exact one_plain _ _
    · split <;> exact one_plain _ _) ls

theorem allLanes_plain (v : List LaneIn → LaneIn → Dword) : PlainResults fun ls => allLanes ls (v ls) := by
  intro ls
  dsimp only [allLanes]
  split <;> exact plain_of_map (fun i => one_plain _ _) ls

theorem nodeOut_plain (n : Node) : (nodeOut n).Plain := by
  unfold nodeOut
  split <;> exact one_plain _ _

theorem vredLane_plain (t sub mode : Nat) : PlainResults (vredLane t sub mode) := fun ls => plain_of_map (fun _ => nodeOut_plain _) ls

theorem vpfxLane_plain (t sub mode : Nat) : PlainResults (vpfxLane t sub mode) := fun _ => plain_of_map (fun _ => nodeOut_plain _) _

theorem xsectLane_plain (t : Nat) : PlainResults (xsectLane t) := by
  intro ls
  dsimp only [xsectLane]
  split
  · exact plain_of_map (fun _ => one_plain _ _) ls
  · exact plain_of_map (fun _ => one_plain _ _) _

theorem ispoiLane_plain : PlainResults ispoiLane := plain_of_map fun i => by split <;> exact one_plain _ _

/-- Only STAT and PCLR write a status word, and no rule's result has a failed check of its own. -/
theorem results_plain {i : Instr} {L : LaneRule} (h : laneRule i = some L) (hs : ∀ f, i ≠ .statD f) (hp : ∀ f, i ≠ .pclrD f) :
    PlainResults L.results := by
  cases i with
  | movD f =>
    cases h
    split
    · exact movPair_plain
    · exact perLane_plain _
  | selD f => cases h; exact selLane_plain _
  | cvtD dt f => cases h; exact cvtLane_plain _ _ _
  | cvtsD dt f => cases h; exact cvtsLane_plain _ _ _
  | packD f => cases h; exact packLane_plain _ _ _
  | unpackD f => cases h; exact unpackLane_plain _ _
  | shflD f => cases h; exact shflLane_plain _
  | ballotD f => cases h; exact allLanes_plain _
  | agreeD f => cases h; exact allLanes_plain _
  | vredD f => cases h; exact vredLane_plain _ _ _
  | vpfxD f => cases h; exact vpfxLane_plain _ _ _
  | matchD f => cases h; exact allLanes_plain _
  | conflD f => cases h; exact allLanes_plain _
  | xsectD f => cases h; exact xsectLane_plain _
  | ispoiD f => cases h; exact ispoiLane_plain
  | statD f => exact absurd rfl (hs f)
  | pclrD f => exact absurd rfl (hp f)
  | ffmaH f => cases h; dsimp only; exact perLane_plain _
  | _ => cases h <;> exact perLane_plain _

theorem results64_plain {i : Instr} {L : LaneRule} (h : laneRule64 i = some L) : PlainResults L.results := by
  cases i with
  | daddD f | dmulD f | dfmaD f | dcmpD f => cases h; exact perLane_plain _
  | _ => cases h

theorem results_unfailed {i : Instr} {L : LaneRule} (h : laneRule i = some L ∨ laneRule64 i = some L) (ins : List LaneIn) :
    ∀ o ∈ L.results ins, o.failed = false := by
  have of_map {g : LaneIn → LaneOut} (hg : ∀ i, (g i).failed = false) : ∀ o ∈ ins.map g, o.failed = false := by simpa using fun i _ => hg i
  rcases h with h | h
  · cases i with
    | statD f => cases h; exact of_map fun i => by split <;> rfl
    | pclrD f => cases h; exact of_map fun i => by split <;> rfl
    | _ => exact fun o ho => (results_plain h (by simp) (by simp) ins o ho).1
  · exact fun o ho => (results64_plain h ins o ho).1

/-! Consecutive registers are UNPACK's. -/

theorem dst_many {i : Instr} {L : LaneRule} (h : laneRule i = some L ∨ laneRule64 i = some L) {r : Byte} {n : Nat} (hd : L.dst = .many r n) :
    ∃ f, i = .unpackD f ∧ n = WellFormed.mCount f ∧ n ≠ 1 := by
  rcases h with h | h
  · cases i with
    | movD f => cases h; split at hd <;> cases hd
    | unpackD f =>
      cases h
      dsimp only at hd
      split at hd
      · cases hd
      · next e => cases hd; exact ⟨f, rfl, rfl, e⟩
    | _ => cases h <;> cases hd
  · cases i with
    | daddD f | dmulD f | dfmaD f | dcmpD f => cases h; cases hd
    | _ => cases h

theorem mCount_bounds (f : DForm) : 1 ≤ WellFormed.mCount f ∧ WellFormed.mCount f ≤ 8 := by
  have : (f.mod.extractLsb' 0 2).toNat ≤ 3 := by have := (f.mod.extractLsb' 0 2).isLt; omega
  exact ⟨Nat.one_le_two_pow, Nat.pow_le_pow_right (by norm_num) this⟩

theorem many_bounds {i : Instr} {L : LaneRule} (h : laneRule i = some L ∨ laneRule64 i = some L) {r : Byte} {n : Nat} (hd : L.dst = .many r n) :
    2 ≤ n ∧ n ≤ 8 := by
  obtain ⟨f, _, rfl, hn⟩ := dst_many h hd
  have := mCount_bounds f
  omega

theorem many_length {i : Instr} {L : LaneRule} (h : laneRule i = some L ∨ laneRule64 i = some L) {r : Byte} {n : Nat} (hd : L.dst = .many r n)
    (ins : List LaneIn) : ∀ o ∈ L.results ins, o.outs.length = n := by
  obtain ⟨f, rfl, rfl, _⟩ := dst_many h hd
  rcases h with h | h
  · cases h
    intro o ho
    obtain ⟨i, _, rfl⟩ := List.mem_map.1 ho
    split <;> simp
  · cases h

/-! A tagged input of an instruction that computes thread by thread (R88). -/

/-- The token in each of n destination registers, without a flag. -/
def LaneOut.tokens (n : Nat) (k : Word) : LaneOut := ⟨List.replicate n (.tok k), 0, none, false⟩

/-- Thread by thread, a tagged input is the result in n registers. -/
def TokensFirst (f : List LaneIn → List LaneOut) (n : Nat) : Prop :=
  ∃ g : LaneIn → LaneOut, (∀ ins, f ins = ins.map g) ∧ ∀ i k, i.poison = some k → g i = LaneOut.tokens n k

/-- The number of registers of a destination that take a value each of their own. -/
def Dst.places : Dst → Nat
  | .many _ n => n
  | _ => 1

theorem perLane_tokensFirst (g : LaneIn → List Dword → Dword × Word) : TokensFirst (perLane g) 1 :=
  ⟨_, fun _ => rfl, fun i k h => by simp only [h]; rfl⟩

theorem tokensFirst_of_byThread {i : Instr} {L : LaneRule} (h : laneRule i = some L ∨ laneRule64 i = some L) (hb : byThread i = true) :
    TokensFirst L.results L.dst.places := by
  rcases h with h | h
  · cases i with
    | movD f =>
      cases h
      rw [if_neg (by simpa [byThread] using hb)]
      exact perLane_tokensFirst _
    | selD f | ispoiD f | pclrD f | shflD f | ballotD f | agreeD f | vredD f | vpfxD f | matchD f | conflD f | xsectD f => cases hb
    | cvtD dt f | cvtsD dt f | packD f | statD f => cases h; exact ⟨_, fun _ => rfl, fun i k h => by simp only [h]; rfl⟩
    | unpackD f =>
      cases h
      have : TokensFirst (unpackLane (mTyN f) (WellFormed.mCount f)) (WellFormed.mCount f) :=
        ⟨_, fun _ => rfl, fun i k h => by simp only [h]; rfl⟩
      dsimp only
      split
      · next e => exact e ▸ this
      · exact this
    | ffmaH f => cases h; dsimp only; exact perLane_tokensFirst _
    | _ => cases h <;> exact perLane_tokensFirst _
  · cases i with
    | daddD f | dmulD f | dfmaD f | dcmpD f => cases h; exact perLane_tokensFirst _
    | _ => cases h

end Sys2Proof.Machine
end

section
/-! Registers of a thread (spec/02 R34 to R37, R44, R48, R51): what a write, a kill, a result and the end of a run leave of them. -/

namespace Sys2Proof.Machine

open Sys2Proof.Safety

/-! Cells. -/

/-- The registers stand in one file: a g or o register at its own number (R122). -/
theorem fileIndex_eq (r : Byte) : fileIndex r = r.toNat := by
  unfold fileIndex
  split <;> omega

@[simp] theorem cell_setCell (t : Thread) (i n : Nat) (c : Cell) : (t.setCell i c).cell n = if n = i then c else t.cell n := by
  split
  · next h => subst h; exact get_put_self _ _ _ _
  · next h => exact get_put_other _ _ _ _ _ h

@[simp] theorem cell_writeFile (t : Thread) (i n : Nat) (v : Tw) : (t.writeFile i v).cell n = if n = i then Cell.ofTw v else t.cell n :=
  cell_setCell t i n _

theorem cell_mapVals (t : Thread) (f : Cell → Cell) (n : Nat) :
    ({ t with regs := mapVals (fun _ c => f c) t.regs } : Thread).cell n = ((find t.regs n).map f).getD { Cell.dead with st := t.rest } := by
  simp [Thread.cell, get]

/-- No register holds a value that has come for it but does not stand yet (R48). -/
def Thread.NoneArrived (t : Thread) : Prop := (∀ x ∈ t.regs, x.2.arrived = false) ∧ t.l0.arrived = false ∧ t.l1.arrived = false

theorem noneArrived_setCell {t : Thread} (h : t.NoneArrived) (i : Nat) {c : Cell} (hc : c.arrived = false) : (t.setCell i c).NoneArrived := by
  refine ⟨fun x hx => ?_, h.2⟩
  rcases mem_put _ _ _ _ hx with rfl | hx
  · exact hc
  · exact h.1 x hx

/-! Kills (R44). -/

/-- What the start of a lane instruction may change in a thread: its clock, and the registers that its sources kill. -/
structure LaneBegun (killed : List Byte) (t u : Thread) : Prop where
  l0 : u.l0 = t.l0
  l1 : u.l1 = t.l1
  preds : u.preds = t.preds
  tsw : u.tsw = t.tsw
  blocks : u.blocks = t.blocks
  region : u.region = t.region
  txn : u.txn = t.txn
  cell : ∀ n, n ∉ killed.map fileIndex → u.cell n = t.cell n
  arrived : t.NoneArrived → u.NoneArrived

theorem LaneBegun.refl (ks : List Byte) (t : Thread) : LaneBegun ks t t := ⟨rfl, rfl, rfl, rfl, rfl, rfl, rfl, fun _ _ => rfl, id⟩

theorem LaneBegun.trans {ks : List Byte} {a b c : Thread} (h : LaneBegun ks a b) (h' : LaneBegun ks b c) : LaneBegun ks a c where
  l0 := h'.l0.trans h.l0
  l1 := h'.l1.trans h.l1
  preds := h'.preds.trans h.preds
  tsw := h'.tsw.trans h.tsw
  blocks := h'.blocks.trans h.blocks
  region := h'.region.trans h.region
  txn := h'.txn.trans h.txn
  cell n hn := (h'.cell n hn).trans (h.cell n hn)
  arrived ha := h'.arrived (h.arrived ha)

theorem killRegs_laneBegun (t : Thread) (rs : List Byte) : LaneBegun rs t (t.killRegs rs) := by
  unfold Thread.killRegs
  induction rs generalizing t with
  | nil => exact .refl [] t
  | cons r rs ih =>
    have one : LaneBegun (r :: rs) t (if r.toNat < 0xC8 then
        t.setCell (fileIndex r) { Cell.dead with tag := (t.cell (fileIndex r)).tag, val := (t.cell (fileIndex r)).val } else t) := by
      split
      · refine ⟨rfl, rfl, rfl, rfl, rfl, rfl, rfl, fun n hn => ?_, fun ha => noneArrived_setCell ha _ rfl⟩
        rw [cell_setCell, if_neg]
        rintro rfl
        exact hn (by simp)
      · exact .refl _ t
    have more := ih (if r.toNat < 0xC8 then
        t.setCell (fileIndex r) { Cell.dead with tag := (t.cell (fileIndex r)).tag, val := (t.cell (fileIndex r)).val } else t)
    refine one.trans { more with cell := fun n hn => more.cell n fun h => hn ?_ }
    rw [List.map_cons]
    exact List.mem_cons_of_mem _ h

theorem killRegs_vc (t : Thread) (rs : List Byte) : (t.killRegs rs).vc = t.vc :=
  foldl_keeps Thread.vc _ (fun s x => by dsimp only; split <;> rfl) rs t

/-! Results (R35, R37, R83). -/

/-- The values of consecutive registers, written one by one from a base on. -/
def Thread.writeMany (t : Thread) (base : Nat) (l : List (Nat × Val)) : Thread := l.foldl (fun t x => t.writeFile (base + x.1) x.2.lo) t

theorem writeMany_eq (t : Thread) (base : Nat) (l : List (Nat × Val)) : ∃ regs, t.writeMany base l = { t with regs := regs } := by
  induction l generalizing t with
  | nil => exact ⟨t.regs, rfl⟩
  | cons x l ih =>
    obtain ⟨regs, h⟩ := ih (t.writeFile (base + x.1) x.2.lo)
    exact ⟨regs, h⟩

theorem cell_writeMany_other (t : Thread) (base n : Nat) (l : List (Nat × Val)) (h : ∀ x ∈ l, n ≠ base + x.1) :
    (t.writeMany base l).cell n = t.cell n := by
  induction l generalizing t with
  | nil => rfl
  | cons x l ih =>
    refine (ih (t.writeFile (base + x.1) x.2.lo) fun y hy => h y (List.mem_cons_of_mem x hy)).trans ?_
    rw [cell_writeFile, if_neg (h x List.mem_cons_self)]

theorem cell_writeMany_mem (t : Thread) (base : Nat) (l : List (Nat × Val)) (hn : (l.map Prod.fst).Nodup) {k : Nat} {v : Val} (h : (k, v) ∈ l) :
    (t.writeMany base l).cell (base + k) = Cell.ofTw v.lo := by
  induction l generalizing t with
  | nil => cases h
  | cons x l ih =>
    obtain ⟨first, rest⟩ := List.nodup_cons.1 hn
    rcases List.mem_cons.1 h with rfl | h
    · refine (cell_writeMany_other _ base (base + k) l fun y hy e => first ?_).trans (by simp)
      exact List.mem_map.2 ⟨y, hy, by dsimp only at e ⊢; omega⟩
    · exact ih (t.writeFile (base + x.1) x.2.lo) rest h

theorem noneArrived_writeMany {t : Thread} (h : t.NoneArrived) (base : Nat) (l : List (Nat × Val)) : (t.writeMany base l).NoneArrived := by
  induction l generalizing t with
  | nil => exact h
  | cons x l ih => exact ih (noneArrived_setCell h _ rfl)

/-- The status word after a result. -/
def Thread.noted (t : Thread) (o : LaneOut) : Thread := { t with tsw := o.tsw.getD t.tsw ||| o.flags }

theorem writeOut_none (t : Thread) (o : LaneOut) : t.writeOut .none o = t.noted o := by
  unfold Thread.writeOut Thread.noted
  cases o.tsw <;> rfl

theorem writeOut_pred (t : Thread) (p : Nat) {o : LaneOut} (h : o.failed = false) :
    t.writeOut (.pred p) o = (t.noted o).setPred p (match o.outs.headD (.dat 0) with
      | .tok k => ⟨false, true, k, false⟩
      | .dat b => ⟨b != 0, false, 0, false⟩) := by
  unfold Thread.writeOut Thread.noted
  dsimp only
  rw [h]
  cases o.tsw <;> rfl

/-- What a register destination takes of a result (R37, R83). -/
def Thread.takeResult (t : Thread) (r : Byte) (wide : Bool) (o : LaneOut) : Thread :=
  if r.toNat < 0xC8 then
    (if wide then (t.writeFile (fileIndex r) (o.outs.headD (.dat 0)).lo).writeFile (fileIndex r + 1) o.hi
      else t.writeFile (fileIndex r) (o.outs.headD (.dat 0)).lo)
  else t

theorem takeResult_eq (t : Thread) (r : Byte) (wide : Bool) (o : LaneOut) : ∃ regs, t.takeResult r wide o = { t with regs := regs } := by
  unfold Thread.takeResult
  split
  · split <;> exact ⟨_, rfl⟩
  · exact ⟨t.regs, rfl⟩

theorem writeOut_reg (t : Thread) (r : Byte) (wide : Bool) (o : LaneOut) :
    t.writeOut (.reg r wide) o = (if wide then ((t.noted o).takeResult r wide o).setL (o.outs.headD (.dat 0)).lo o.hi
      else if r = 0xC8 then ((t.noted o).takeResult r wide o).setL0 (o.outs.headD (.dat 0)).lo
      else ((t.noted o).takeResult r wide o).pushL (o.outs.headD (.dat 0)).lo) := by
  unfold Thread.writeOut Thread.noted
  by_cases hr : r = 0xC8
  · subst hr
    cases o.tsw <;> cases wide <;> rfl
  · cases wide with
    | true => cases o.tsw <;> exact if_neg hr
    | false => cases o.tsw <;> exact (if_neg hr).trans (if_neg hr).symm

theorem writeOut_many (t : Thread) (r : Byte) {n : Nat} (o : LaneOut) (hn : n ≠ 1) :
    t.writeOut (.many r n) o = (if r.toNat < 0xC8 then (t.noted o).writeMany (fileIndex r) ((List.range n).zip o.outs) else t.noted o).setL
      (o.outs.headD (.dat 0)).lo (o.outs.getD 1 (.dat 0)).lo := by
  unfold Thread.writeOut Thread.noted
  cases o.tsw <;> exact if_neg hn

theorem setPred_pred (t : Thread) (p n : Nat) (c : PCell) (h : n ≠ p) : (t.setPred p c).pred n = t.pred n := by
  unfold Thread.setPred Thread.pred
  by_cases p7 : p = 7 <;> simp [p7, List.getD_eq_getElem?_getD, List.getElem?_set_ne (Ne.symm h)]

theorem setPred_eq (t : Thread) (p : Nat) (c : PCell) : ∃ preds, t.setPred p c = { t with preds := preds } := by
  unfold Thread.setPred
  split <;> exact ⟨_, rfl⟩

theorem setPred_pred_self (t : Thread) {p : Nat} (c : PCell) (h7 : p ≠ 7) (h : p < t.preds.length) : (t.setPred p c).pred p = c := by
  simp [Thread.setPred, Thread.pred, h7, h, List.getD_eq_getElem?_getD]

@[simp] theorem setL_cell (t : Thread) (lo hi : Tw) (n : Nat) : (t.setL lo hi).cell n = t.cell n := rfl

theorem takeResult_cell (t : Thread) {r : Byte} (wide : Bool) (o : LaneOut) (hr : r.toNat < 0xC8) :
    (t.takeResult r wide o).cell (fileIndex r) = Cell.ofTw (o.outs.headD (.dat 0)).lo
      ∧ (wide = true → (t.takeResult r wide o).cell (fileIndex r + 1) = Cell.ofTw o.hi) := by
  cases wide <;> simp [Thread.takeResult, hr]

theorem takeResult_l (t : Thread) (r : Byte) (wide : Bool) (o : LaneOut) :
    (t.takeResult r wide o).l0 = t.l0 ∧ (t.takeResult r wide o).l1 = t.l1 := by
  obtain ⟨regs, h⟩ := takeResult_eq t r wide o
  rw [h]
  exact ⟨rfl, rfl⟩

/-- The registers after n that a number of values names: the places do not wrap. -/
theorem mem_places {n k : Nat} {vs : List Val} (hk : k < n) (hv : vs.length = n) : (k, vs.getD k (.dat 0)) ∈ (List.range n).zip vs := by
  refine List.mem_iff_getElem.2 ⟨k, by simp; omega, ?_⟩
  simp [List.getD_eq_getElem?_getD, List.getElem?_eq_getElem (show k < vs.length by omega)]

theorem nodup_fst_zip {α β : Type} {l : List α} (h : l.Nodup) (m : List β) : ((l.zip m).map Prod.fst).Nodup := by
  induction l generalizing m with
  | nil => simp
  | cons x l ih =>
    obtain ⟨first, rest⟩ := List.nodup_cons.1 h
    cases m with
    | nil => simp
    | cons y m =>
      refine List.nodup_cons.2 ⟨fun hx => first ?_, ih rest m⟩
      obtain ⟨p, hp, rfl⟩ := List.mem_map.1 hx
      exact (List.of_mem_zip hp).1

/-- Where a result stands directly after it is written. -/
theorem writeOut_stands (t : Thread) {d : Dst} {o : LaneOut} (hf : o.failed = false)
    (hm : ∀ r n, d = .many r n → 2 ≤ n ∧ o.outs.length = n) : Stands d t (t.writeOut d o) o := by
  cases d with
  | none => trivial
  | pred p =>
    rw [writeOut_pred t p hf]
    refine ⟨fun h7 hp => setPred_pred_self _ _ h7 hp, fun _ _ => ?_⟩
    unfold Thread.setPred
    split <;> exact ⟨rfl, rfl⟩
  | reg r wide =>
    rw [writeOut_reg]
    obtain ⟨hl0, hl1⟩ := takeResult_l (t.noted o) r wide o
    have hc := fun hr => takeResult_cell (t.noted o) wide o (r := r) hr
    cases wide with
    | true => exact ⟨(nomatch ·), fun _ hr => ⟨(hc hr).1, (hc hr).2 rfl⟩, rfl, fun _ _ => rfl⟩
    | false =>
      by_cases hr : r = 0xC8
      · rw [if_neg (by decide), if_pos hr]
        exact ⟨fun _ hr' => absurd hr' (by simp [hr]), (nomatch ·), rfl, fun _ _ => hl1.trans (if_pos hr).symm⟩
      · rw [if_neg (by decide), if_neg hr]
        exact ⟨fun _ hr => (hc hr).1, (nomatch ·), rfl, fun _ _ => hl0.trans (if_neg hr).symm⟩
  | many r n =>
    obtain ⟨hn, hlen⟩ := hm r n rfl
    rw [writeOut_many t r o (by omega)]
    refine ⟨fun hr k hk => ?_, fun _ => ⟨rfl, rfl⟩⟩
    rw [setL_cell, if_pos hr]
    exact cell_writeMany_mem _ _ _ (nodup_fst_zip List.nodup_range o.outs) (mem_places hk hlen)

/-- Consecutive registers stand one after the other in the file (R122). -/
theorem fileIndex_nextReg {r : Byte} {k : Nat} (hr : r.toNat < 0xC8) (hk : k < 8) : fileIndex (nextReg r k) = fileIndex r + k := by
  have : r ≠ 0xF0 := by rintro rfl; exact absurd hr (by decide)
  rw [fileIndex_eq, fileIndex_eq, nextReg, if_neg this, BitVec.toNat_add, BitVec.toNat_ofNat]
  omega

/-- What a result leaves of a thread: all but its destination, l0 and l1, and the status word. -/
structure LaneWritten (d : Dst) (o : LaneOut) (t u : Thread) : Prop where
  blocks : u.blocks = t.blocks
  region : u.region = t.region
  vc : u.vc = t.vc
  txn : u.txn = t.txn
  tsw : u.tsw = o.tsw.getD t.tsw ||| o.flags
  cell : ∀ n, n ∉ d.regs.map fileIndex → u.cell n = t.cell n
  pred : ∀ p, d ≠ .pred p → u.pred p = t.pred p
  arrived : t.NoneArrived → u.NoneArrived

theorem takeResult_cell_other (t : Thread) {r : Byte} {wide : Bool} (o : LaneOut) {n : Nat} (h : n ∉ (Dst.reg r wide).regs.map fileIndex) :
    (t.takeResult r wide o).cell n = t.cell n := by
  unfold Thread.takeResult
  split
  · next hr =>
    have next : fileIndex (nextReg r 1) = fileIndex r + 1 := fileIndex_nextReg hr (by decide)
    cases wide with
    | true =>
      simp only [Dst.regs, if_true, List.map_cons, List.map_nil, List.mem_cons, List.not_mem_nil, or_false, not_or, next] at h
      rw [if_pos rfl, cell_writeFile, if_neg h.2, cell_writeFile, if_neg h.1]
    | false =>
      simp only [Dst.regs, Bool.false_eq_true, if_false, List.map_cons, List.map_nil, List.mem_singleton] at h
      rw [if_neg (by decide), cell_writeFile, if_neg h]
  · rfl

theorem noneArrived_takeResult {t : Thread} (h : t.NoneArrived) (r : Byte) (wide : Bool) (o : LaneOut) : (t.takeResult r wide o).NoneArrived := by
  unfold Thread.takeResult
  split
  · split
    · exact noneArrived_setCell (noneArrived_setCell h _ rfl) _ rfl
    · exact noneArrived_setCell h _ rfl
  · exact h

/-- A result of a register destination, with l0 and l1 as R35 has them follow it. -/
theorem writeOut_reg_l (t : Thread) (r : Byte) (wide : Bool) (o : LaneOut) : ∃ l0 l1 : Cell,
    t.writeOut (.reg r wide) o = { (t.noted o).takeResult r wide o with l0 := l0, l1 := l1 }
      ∧ l0.arrived = false ∧ (t.l0.arrived = false → t.l1.arrived = false → l1.arrived = false) := by
  obtain ⟨hl0, hl1⟩ := takeResult_l (t.noted o) r wide o
  rw [writeOut_reg]
  split
  · exact ⟨_, _, rfl, rfl, fun _ _ => rfl⟩
  · split
    · exact ⟨_, _, rfl, rfl, fun _ h => hl1 ▸ h⟩
    · exact ⟨_, _, rfl, rfl, fun h _ => hl0 ▸ h⟩

theorem writeOut_laneWritten (t : Thread) {d : Dst} {o : LaneOut} (hf : o.failed = false)
    (hm : ∀ r n, d = .many r n → 2 ≤ n ∧ n ≤ 8) : LaneWritten d o t (t.writeOut d o) := by
  cases d with
  | none =>
    rw [writeOut_none]
    exact ⟨rfl, rfl, rfl, rfl, rfl, fun _ _ => rfl, fun _ _ => rfl, id⟩
  | pred p =>
    rw [writeOut_pred t p hf]
    generalize (match o.outs.headD (.dat 0) with
      | .tok k => (⟨false, true, k, false⟩ : PCell)
      | .dat b => ⟨b != 0, false, 0, false⟩) = c
    have pred (q : Nat) (hq : Dst.pred p ≠ .pred q) : ((t.noted o).setPred p c).pred q = t.pred q :=
      setPred_pred _ _ _ _ fun e => hq (e ▸ rfl)
    obtain ⟨preds, e⟩ := setPred_eq (t.noted o) p c
    rw [e] at pred ⊢
    exact ⟨rfl, rfl, rfl, rfl, rfl, fun _ _ => rfl, pred, id⟩
  | reg r wide =>
    obtain ⟨l0, l1, e, h0, h1⟩ := writeOut_reg_l t r wide o
    obtain ⟨regs, e'⟩ := takeResult_eq (t.noted o) r wide o
    have cell := fun n => takeResult_cell_other (t.noted o) (r := r) (wide := wide) o (n := n)
    have arrived := fun h : (t.noted o).NoneArrived => noneArrived_takeResult h r wide o
    rw [e]
    rw [e'] at cell arrived ⊢
    exact ⟨rfl, rfl, rfl, rfl, rfl, cell, fun _ _ => rfl, fun h => ⟨(arrived h).1, h0, h1 h.2.1 h.2.2⟩⟩
  | many r n =>
    obtain ⟨hn, hn8⟩ := hm r n rfl
    rw [writeOut_many t r o (by omega)]
    split
    · next hr =>
      have cell (m : Nat) (h : m ∉ (Dst.many r n).regs.map fileIndex) :
          ((t.noted o).writeMany (fileIndex r) ((List.range n).zip o.outs)).cell m = t.cell m := by
        refine cell_writeMany_other _ _ m _ fun x hx e => h ?_
        have hk : x.1 < n := List.mem_range.1 (List.of_mem_zip hx).1
        have : fileIndex (nextReg r x.1) = m := by rw [e, fileIndex_nextReg hr (by omega)]
        exact this ▸ List.mem_map_of_mem (List.mem_map_of_mem (List.mem_range.2 hk))
      have arrived := fun h : (t.noted o).NoneArrived => noneArrived_writeMany h (fileIndex r) ((List.range n).zip o.outs)
      obtain ⟨regs, e⟩ := writeMany_eq (t.noted o) (fileIndex r) ((List.range n).zip o.outs)
      rw [e] at cell arrived ⊢
      exact ⟨rfl, rfl, rfl, rfl, rfl, cell, fun _ _ => rfl, fun h => ⟨(arrived h).1, rfl, rfl⟩⟩
    · exact ⟨rfl, rfl, rfl, rfl, rfl, fun _ _ => rfl, fun _ _ => rfl, fun h => ⟨h.1, rfl, rfl⟩⟩

/-! The end of a run (R31, R48, R50). -/

/-- What neither an instruction's end nor a run's touches but at a hold: the registers and what belongs to them. -/
structure SameRegs (t u : Thread) : Prop where
  regs : u.regs = t.regs
  rest : u.rest = t.rest
  l0 : u.l0 = t.l0
  l1 : u.l1 = t.l1
  preds : u.preds = t.preds
  tsw : u.tsw = t.tsw
  blocks : u.blocks = t.blocks
  region : u.region = t.region
  vc : u.vc = t.vc
  txn : u.txn = t.txn

theorem SameRegs.refl (t : Thread) : SameRegs t t := ⟨rfl, rfl, rfl, rfl, rfl, rfl, rfl, rfl, rfl, rfl⟩

theorem SameRegs.trans {a b c : Thread} (h : SameRegs a b) (h' : SameRegs b c) : SameRegs a c :=
  ⟨h'.regs.trans h.regs, h'.rest.trans h.rest, h'.l0.trans h.l0, h'.l1.trans h.l1, h'.preds.trans h.preds, h'.tsw.trans h.tsw,
    h'.blocks.trans h.blocks, h'.region.trans h.region, h'.vc.trans h.vc, h'.txn.trans h.txn⟩

theorem run_sameRegs (t : Thread) (now : Nat) : SameRegs t (t.run now) := by
  unfold Thread.run
  dsimp only
  split <;> exact ⟨rfl, rfl, rfl, rfl, rfl, rfl, rfl, rfl, rfl, rfl⟩

/-- What a hold may change beside: a register whose value has come stands, and its flags with it. -/
structure SettledRegs (t u : Thread) : Prop where
  cell : ∀ n, (t.cell n).arrived = false → u.cell n = t.cell n
  l0 : t.l0.arrived = false → u.l0 = t.l0
  l1 : t.l1.arrived = false → u.l1 = t.l1
  preds : u.preds = t.preds
  tsw : t.tsw &&& u.tsw = t.tsw
  blocks : u.blocks = t.blocks
  region : u.region = t.region
  vc : u.vc = t.vc
  txn : u.txn = t.txn
  still : t.NoneArrived → u.NoneArrived ∧ u.tsw = t.tsw

theorem SameRegs.settled {t u : Thread} (h : SameRegs t u) : SettledRegs t u where
  cell n _ := by rw [Thread.cell, Thread.cell, h.regs, h.rest]
  l0 _ := h.l0
  l1 _ := h.l1
  preds := h.preds
  tsw := by rw [h.tsw, BitVec.and_self]
  blocks := h.blocks
  region := h.region
  vc := h.vc
  txn := h.txn
  still ha := ⟨by rwa [Thread.NoneArrived, h.regs, h.l0, h.l1], h.tsw⟩

theorem SettledRegs.refl (t : Thread) : SettledRegs t t := (SameRegs.refl t).settled

theorem SettledRegs.trans {a b c : Thread} (h : SettledRegs a b) (h' : SettledRegs b c) : SettledRegs a c where
  cell n hn := (h'.cell n (by rwa [h.cell n hn])).trans (h.cell n hn)
  l0 hn := (h'.l0 (by rwa [h.l0 hn])).trans (h.l0 hn)
  l1 hn := (h'.l1 (by rwa [h.l1 hn])).trans (h.l1 hn)
  preds := h'.preds.trans h.preds
  tsw := by
    calc a.tsw &&& c.tsw = a.tsw &&& b.tsw &&& c.tsw := by rw [h.tsw]
      _ = a.tsw &&& (b.tsw &&& c.tsw) := BitVec.and_assoc _ _ _
      _ = a.tsw := by rw [h'.tsw, h.tsw]
  blocks := h'.blocks.trans h.blocks
  region := h'.region.trans h.region
  vc := h'.vc.trans h.vc
  txn := h'.txn.trans h.txn
  still ha := by
    obtain ⟨hb, eb⟩ := h.still ha
    obtain ⟨hc, ec⟩ := h'.still hb
    exact ⟨hc, ec.trans eb⟩

theorem and_or_absorb {n : Nat} (a b : BitVec n) : a &&& (a ||| b) = a := by
  ext i hi
  simp +contextual

/-- A register whose value has come stands with it, l0 and l1 then die; no other is touched. -/
theorem settle_settledRegs (t : Thread) (p : Cell → Bool) : SettledRegs t (t.settle p) := by
  have stays {c : Cell} (h : c.arrived = false) : (c.st = .pending && c.arrived && p c) = false := by rw [h, Bool.and_false, Bool.false_and]
  have l {c : Cell} (h : c.arrived = false) : (if c.st = .pending && c.arrived && p c then Cell.dead else c) = c := if_neg (by simp [h])
  refine ⟨fun n hn => ?_, l, l, rfl, and_or_absorb _ _, rfl, rfl, rfl, rfl, fun h => ⟨⟨?_, ?_, ?_⟩, ?_⟩⟩
  · refine (cell_mapVals t _ n).trans ?_
    unfold Thread.cell get at hn ⊢
    cases hf : find t.regs n with
    | none => rfl
    | some c =>
      rw [hf] at hn
      exact if_neg (by simpa using stays hn)
  · intro x hx
    obtain ⟨y, hy, rfl⟩ := List.mem_map.1 hx
    dsimp only
    split
    · rfl
    · exact h.1 y hy
  · exact (congrArg Cell.arrived (l h.2.1)).trans h.2.1
  · exact (congrArg Cell.arrived (l h.2.2)).trans h.2.2
  · have none : (t.l0 :: t.l1 :: t.regs.map fun (_, c) => c).filter (fun c => c.st = .pending && c.arrived && p c) = [] := by
      refine List.filter_eq_nil_iff.2 fun c hc => ?_
      rw [stays]
      · decide
      · rcases List.mem_cons.1 hc with rfl | hc
        · exact h.2.1
        · rcases List.mem_cons.1 hc with rfl | hc
          · exact h.2.2
          · obtain ⟨y, hy, rfl⟩ := List.mem_map.1 hc
            exact h.1 y hy
    unfold Thread.settle
    dsimp only
    rw [none]
    exact BitVec.or_zero

/-- A register that holds a result holds it after a hold. -/
theorem SettledRegs.holds {t u : Thread} (h : SettledRegs t u) {n : Nat} {v : Tw} (e : t.cell n = Cell.ofTw v) : u.cell n = Cell.ofTw v :=
  (h.cell n (by rw [e]; rfl)).trans e

theorem SettledRegs.l0_holds {t u : Thread} (h : SettledRegs t u) {v : Tw} (e : t.l0 = Cell.ofTw v) : u.l0 = Cell.ofTw v :=
  (h.l0 (by rw [e]; rfl)).trans e

theorem SettledRegs.l1_holds {t u : Thread} (h : SettledRegs t u) {v : Tw} (e : t.l1 = Cell.ofTw v) : u.l1 = Cell.ofTw v :=
  (h.l1 (by rw [e]; rfl)).trans e

theorem SettledRegs.pred {t u : Thread} (h : SettledRegs t u) (p : Nat) : u.pred p = t.pred p := by rw [Thread.pred, Thread.pred, h.preds]

/-- A result stands where it stood before the end of a run. -/
theorem SettledRegs.stands {d : Dst} {t u v : Thread} {o : LaneOut} (h : SettledRegs u v) (hs : Stands d t u o) : Stands d t v o := by
  cases d with
  | none => trivial
  | pred p =>
    obtain ⟨hp, hl⟩ := hs
    refine ⟨fun h7 hlen => (h.pred p).trans (hp h7 hlen), fun a0 a1 => ?_⟩
    obtain ⟨e0, e1⟩ := hl a0 a1
    exact ⟨(h.l0 (e0 ▸ a0)).trans e0, (h.l1 (e1 ▸ a1)).trans e1⟩
  | reg r wide =>
    obtain ⟨narrow, pair, hl0, hl1⟩ := hs
    refine ⟨fun hw hr => h.holds (narrow hw hr), fun hw hr => ⟨h.holds (pair hw hr).1, h.holds (pair hw hr).2⟩, h.l0_holds hl0,
      fun a0 a1 => ?_⟩
    have e := hl1 a0 a1
    refine (h.l1 ?_).trans e
    rw [e]
    split
    · rfl
    · split
      · exact a1
      · exact a0
  | many r n =>
    obtain ⟨cells, hl⟩ := hs
    exact ⟨fun hr k hk => h.holds (cells hr k hk), fun hn => ⟨h.l0_holds (hl hn).1, h.l1_holds (hl hn).2⟩⟩

/-- The start of an instruction touches neither l0 nor l1 nor a predicate. -/
theorem LaneBegun.stands {ks : List Byte} {d : Dst} {t u v : Thread} {o : LaneOut} (h : LaneBegun ks t u) (hs : Stands d u v o) : Stands d t v o := by
  unfold Stands at hs ⊢
  rw [h.l0, h.l1, h.preds] at hs
  exact hs

end Sys2Proof.Machine
end

section
/-! The shared course of a lane instruction (spec/06 R138 to R142): its warp, its pops and kills, its results, and the end of its run, thread by
thread. -/

namespace Sys2Proof.Machine

open Sys2Proof.Safety

/-! The warp (R30). -/

theorem slotLanes_thread {s : State} {k : Nat} {x : Nat × Nat × Thread} (h : x ∈ s.slotLanes k) :
    s.thread? x.2.1 = some x.2.2 ∧ some x.2.1 ∈ (s.slot k).lanes := by
  obtain ⟨⟨o, v⟩, ho, hx⟩ := List.mem_filterMap.1 h
  cases o with
  | none => cases hx
  | some key =>
    obtain ⟨t, ht, rfl⟩ := Option.map_eq_some_iff.1 hx
    exact ⟨ht, List.fst_mem_of_mem_zipIdx ho⟩

theorem slotLanes_key_mem {s : State} {k key : Nat} {t : Thread} (hl : some key ∈ (s.slot k).lanes) (ht : s.thread? key = some t) :
    ∃ v, (v, key, t) ∈ s.slotLanes k := by
  obtain ⟨v, hv⟩ := List.mem_iff_getElem?.1 hl
  exact ⟨v, List.mem_filterMap.2 ⟨(some key, v), List.mem_zipIdx_iff_getElem?.2 hv, by simp [ht]⟩⟩

theorem slotLanes_rising (s : State) (k : Nat) : (s.slotLanes k).Pairwise fun x y => x.1 < y.1 := by
  have places : (s.slot k).lanes.zipIdx.Pairwise fun x y => x.2 < y.2 := by
    have : ((s.slot k).lanes.zipIdx.map Prod.snd).Pairwise (· < ·) := by
      rw [List.zipIdx_map_snd]
      exact List.pairwise_lt_range'
    exact List.pairwise_map.1 this
  refine List.pairwise_filterMap.2 (places.imp ?_)
  rintro ⟨o, v⟩ ⟨o', v'⟩ h x hx y hy
  cases o with
  | none => cases hx
  | some key =>
    cases o' with
    | none => cases hy
    | some key' =>
      obtain ⟨_, _, rfl⟩ := Option.map_eq_some_iff.1 hx
      obtain ⟨_, _, rfl⟩ := Option.map_eq_some_iff.1 hy
      exact h

/-- What a lane of a warp is made of. -/
def Lane.entry (l : Lane) : Nat × Nat × Thread := (l.v, l.key, l.t)

/-- The lanes of a warp: the threads of its slot, or those of its slice's lanes, in ascending virtual lane. -/
structure WarpOf (s : State) (w : Warp) : Prop where
  thread : ∀ l ∈ w.lanes, s.thread? l.key = some l.t
  rising : w.lanes.Pairwise fun a b => a.v < b.v
  slot : w.slice = false → w.lanes.map Lane.entry = s.slotLanes w.unit

/-- The lanes that a slice's warp is built from. -/
theorem sliceLanes_thread {s : State} {g : Nat} {x : Nat × Nat × Thread}
    (h : x ∈ (List.range 32).filterMap fun v => (s.thread? (laneKey g v)).map fun t => (v, laneKey g v, t)) :
    s.thread? x.2.1 = some x.2.2 := by
  obtain ⟨v, _, hx⟩ := List.mem_filterMap.1 h
  obtain ⟨t, ht, rfl⟩ := Option.map_eq_some_iff.1 hx
  exact ht

theorem sliceLanes_rising (s : State) (g : Nat) :
    ((List.range 32).filterMap fun v => (s.thread? (laneKey g v)).map fun t => (v, laneKey g v, t)).Pairwise fun x y => x.1 < y.1 := by
  refine List.pairwise_filterMap.2 (List.pairwise_lt_range.imp fun {v v'} h x hx y hy => ?_)
  obtain ⟨_, _, rfl⟩ := Option.map_eq_some_iff.1 hx
  obtain ⟨_, _, rfl⟩ := Option.map_eq_some_iff.1 hy
  exact h

theorem warpOf_of_entries {s : State} {w : Warp} {ls : List (Nat × Nat × Thread)} (e : w.lanes.map Lane.entry = ls)
    (ht : ∀ x ∈ ls, s.thread? x.2.1 = some x.2.2) (hr : ls.Pairwise fun x y => x.1 < y.1) (hs : w.slice = false → ls = s.slotLanes w.unit) :
    WarpOf s w := by
  subst e
  exact ⟨fun l hl => ht _ (List.mem_map_of_mem hl), (List.pairwise_map (f := Lane.entry)).1 hr, hs⟩

theorem warp_of {s : State} {h : Head} {w : Warp} (hw : s.warp h = some w) : WarpOf s w := by
  have entries (pc : Dword) (ls : List (Nat × Nat × Thread)) :
      (ls.map fun x : Nat × Nat × Thread => (⟨x.1, x.2.1, x.2.2, guardOf h (originOf pc) x.2.2⟩ : Lane)).map Lane.entry = ls := by
    simp [Lane.entry, Function.comp_def]
  unfold State.warp at hw
  dsimp only at hw
  split at hw
  · split at hw
    · cases hw
    · split at hw
      · cases hw
      · cases hw
        exact warpOf_of_entries (entries _ _) (fun x hx => (slotLanes_thread hx).1) (slotLanes_rising s _) fun _ => rfl
  · split at hw
    · cases hw
    · split at hw
      · cases hw
      · split at hw
        · cases hw
        · split at hw
          · cases hw
          · split at hw
            · cases hw
            · cases hw
              exact warpOf_of_entries (entries _ _) (fun x hx => sliceLanes_thread hx) (sliceLanes_rising s _) fun h => nomatch h

theorem WarpOf.nodup {s : State} {w : Warp} (h : WarpOf s w) : w.lanes.Nodup :=
  h.rising.imp fun {a b} hab e => by subst e; omega

/-! Thread by thread. -/

/-- Every thread of s stands in t, related to what it was. -/
def EachThread (R : Thread → Thread → Prop) (s t : State) : Prop := ∀ k a, s.thread? k = some a → ∃ b, t.thread? k = some b ∧ R a b

section
variable {R : Thread → Thread → Prop} (rr : ∀ a, R a a) (rt : ∀ ⦃a b c⦄, R a b → R b c → R a c)

include rr in
theorem EachThread.of_threads {s t : State} (h : t.threads = s.threads) : EachThread R s t :=
  fun k a ha => ⟨a, by rwa [State.thread?, h], rr a⟩

include rt in
theorem EachThread.trans {s t u : State} (h : EachThread R s t) (h' : EachThread R t u) : EachThread R s u := by
  intro k a ha
  obtain ⟨b, hb, ab⟩ := h k a ha
  obtain ⟨c, hc, bc⟩ := h' k b hb
  exact ⟨c, hc, rt ab bc⟩

include rr in
theorem modThread_each {f : Thread → Thread} (h : ∀ a, R a (f a)) (s : State) (k : Nat) : EachThread R s (s.modThread k f) := by
  intro n a ha
  rw [thread_modThread]
  split
  · next e => subst e; exact ⟨f a, by rw [ha]; rfl, h a⟩
  · exact ⟨a, ha, rr a⟩

include rr in
theorem setThread_each {s : State} {k : Nat} {a b : Thread} (ha : s.thread? k = some a) (h : R a b) : EachThread R s (s.setThread k b) := by
  intro n c hc
  by_cases e : n = k
  · subst e
    cases ha.symm.trans hc
    exact ⟨b, by simp, h⟩
  · exact ⟨c, by rwa [thread_setThread_other _ _ _ _ e], rr c⟩

include rr rt in
theorem foldl_modThread_each {ι : Type} (key : ι → Nat) {f : ι → Thread → Thread} (h : ∀ x a, R a (f x a)) (l : List ι) (s : State) :
    EachThread R s (l.foldl (fun s x => s.modThread (key x) (f x)) s) :=
  foldl_related (fun _ => EachThread.of_threads rr rfl) (fun h h' => h.trans rt h') _ (fun s x => modThread_each rr (h x) s (key x)) l s

end

theorem EachThread.mono {R R' : Thread → Thread → Prop} {s t : State} (h : EachThread R s t) (hr : ∀ {a b}, R a b → R' a b) :
    EachThread R' s t := by
  intro k a ha
  obtain ⟨b, hb, ab⟩ := h k a ha
  exact ⟨b, hb, hr ab⟩

theorem thread_modThread_other (s : State) {k n : Nat} (f : Thread → Thread) (h : k ≠ n) : (s.modThread k f).thread? n = s.thread? n := by
  rw [thread_modThread, if_neg (Ne.symm h)]

/-- Changes of other threads leave a thread as it is. -/
theorem thread_foldl_other {ι : Type} (key : ι → Nat) (f : ι → Thread → Thread) {l : List ι} {k : Nat} (h : ∀ x ∈ l, key x ≠ k)
    (s : State) :
    (l.foldl (fun s x => s.modThread (key x) (f x)) s).thread? k = s.thread? k := by
  induction l generalizing s with
  | nil => rfl
  | cons x l ih =>
    exact (ih (fun y hy => h y (List.mem_cons_of_mem x hy)) _).trans (thread_modThread_other s (f x) (h x List.mem_cons_self))

/-- Of changes of which one alone names a thread, that one changes it. -/
theorem thread_foldl_one {ι : Type} (key : ι → Nat) (f : ι → Thread → Thread) {l : List ι} (hn : l.Nodup) {x : ι} (hx : x ∈ l)
    (alone : ∀ y ∈ l, key y = key x → y = x) (s : State) :
    (l.foldl (fun s x => s.modThread (key x) (f x)) s).thread? (key x) = (s.thread? (key x)).map (f x) := by
  induction l generalizing s with
  | nil => cases hx
  | cons y l ih =>
    obtain ⟨first, rest⟩ := List.nodup_cons.1 hn
    have alone' : ∀ z ∈ l, key z = key x → z = x := fun z hz => alone z (List.mem_cons_of_mem y hz)
    rcases List.mem_cons.1 hx with rfl | hx
    · refine (thread_foldl_other key f (l := l) (fun z hz e => first ?_) _).trans ?_
      · exact alone' z hz e ▸ hz
      · rw [thread_modThread, if_pos rfl]
    · refine (ih rest hx alone' _).trans (congrArg _ (thread_modThread_other s (f y) fun e => first ?_))
      exact (alone y List.mem_cons_self e) ▸ hx

/-! Nothing but threads and slots. -/

/-- Two states that differ in their threads and slots alone. -/
def OnlyThreads (s t : State) : Prop := ∃ threads slots, t = { s with threads := threads, slots := slots }

theorem OnlyThreads.refl (s : State) : OnlyThreads s s := ⟨s.threads, s.slots, rfl⟩

theorem OnlyThreads.trans {a b c : State} (h : OnlyThreads a b) (h' : OnlyThreads b c) : OnlyThreads a c := by
  obtain ⟨_, _, rfl⟩ := h
  obtain ⟨threads, slots, rfl⟩ := h'
  exact ⟨threads, slots, rfl⟩

theorem setThread_onlyThreads (s : State) (k : Nat) (a : Thread) : OnlyThreads s (s.setThread k a) := ⟨_, s.slots, rfl⟩

theorem setSlot_onlyThreads (s : State) (k : Nat) (a : Slot) : OnlyThreads s (s.setSlot k a) := ⟨s.threads, _, rfl⟩

theorem modThread_onlyThreads (s : State) (k : Nat) (f : Thread → Thread) : OnlyThreads s (s.modThread k f) := by
  unfold State.modThread
  split
  · exact setThread_onlyThreads s k _
  · exact .refl s

theorem foldl_onlyThreads {ι : Type} {g : State → ι → State} (h : ∀ s x, OnlyThreads s (g s x)) (l : List ι) (s : State) :
    OnlyThreads s (l.foldl g s) := foldl_related OnlyThreads.refl OnlyThreads.trans g h l s

/-! The end of an instruction (R31, R50, R174). -/

theorem hold_each (s : State) (k : Nat) (pc : Dword) : EachThread SettledRegs s (s.hold k pc) := by
  unfold State.hold
  split
  · exact .of_threads SettledRegs.refl rfl
  · next t ht =>
    split
    · exact setThread_each SettledRegs.refl ht (SameRegs.settled ⟨rfl, rfl, rfl, rfl, rfl, rfl, rfl, rfl, rfl, rfl⟩)
    · refine setThread_each SettledRegs.refl ht ?_
      have pc : SettledRegs t { t with pc := pc } := SameRegs.settled ⟨rfl, rfl, rfl, rfl, rfl, rfl, rfl, rfl, rfl, rfl⟩
      exact (pc.trans (settle_settledRegs _ _)).trans (run_sameRegs _ _).settled

theorem hold_onlyThreads (s : State) (k : Nat) (pc : Dword) : OnlyThreads s (s.hold k pc) := by
  unfold State.hold
  split
  · exact .refl s
  · split <;> exact setThread_onlyThreads s k _

theorem hold_thread_other (s : State) {k n : Nat} (pc : Dword) (h : n ≠ k) : (s.hold k pc).thread? n = s.thread? n := by
  unfold State.hold
  split
  · rfl
  · split <;> exact thread_setThread_other s k n _ h

/-- Where a thread goes when its run ends: to a hold, or to the Runnable ones. -/
def State.leaveRun (h : Head) (s : State) (k : Nat) (t : Thread) : State := if h.cue = 2 then s.hold k t.pc else s.setThread k (t.run s.now)

theorem leaveRun_onlyThreads (h : Head) (s : State) (k : Nat) (t : Thread) : OnlyThreads s (s.leaveRun h k t) := by
  unfold State.leaveRun
  split
  · exact hold_onlyThreads s k _
  · exact setThread_onlyThreads s k _

theorem leaveRun_thread_other (h : Head) (s : State) {k n : Nat} (t : Thread) (hn : n ≠ k) : (s.leaveRun h k t).thread? n = s.thread? n := by
  unfold State.leaveRun
  split
  · exact hold_thread_other s _ hn
  · exact thread_setThread_other s k n _ hn

theorem leaveRun_each {R : Thread → Thread → Prop} {h : Head} (same : ∀ {a b}, SameRegs a b → R a b)
    (held : h.cue = 2 → ∀ {a b}, SettledRegs a b → R a b) {s : State} {k : Nat} {t : Thread} (ht : s.thread? k = some t) :
    EachThread R s (s.leaveRun h k t) := by
  unfold State.leaveRun
  split
  · next hc => exact (hold_each s k _).mono (held hc)
  · exact setThread_each (fun a => same (.refl a)) ht (same (run_sameRegs t _))

/-- The end of a run, thread by thread. -/
def State.leaveAll (h : Head) (s : State) (ls : List (Nat × Nat × Thread)) : State :=
  ls.foldl (fun s x => match s.thread? x.2.1 with
    | some t => if t.cue = .issuing then s.leaveRun h x.2.1 t else s
    | none => s) s

theorem leaveAll_onlyThreads (h : Head) (s : State) (ls : List (Nat × Nat × Thread)) : OnlyThreads s (s.leaveAll h ls) := by
  refine foldl_onlyThreads (fun s x => ?_) ls s
  split
  · split
    · exact leaveRun_onlyThreads h s _ _
    · exact .refl s
  · exact .refl s

theorem leaveAll_thread_other (h : Head) (s : State) {ls : List (Nat × Nat × Thread)} {k : Nat} (hk : ∀ x ∈ ls, x.2.1 ≠ k) :
    (s.leaveAll h ls).thread? k = s.thread? k := by
  unfold State.leaveAll
  induction ls generalizing s with
  | nil => rfl
  | cons x ls ih =>
    refine (ih _ fun y hy => hk y (List.mem_cons_of_mem x hy)).trans ?_
    dsimp only
    split
    · split
      · exact leaveRun_thread_other h s _ (Ne.symm (hk x List.mem_cons_self))
      · rfl
    · rfl

theorem leaveAll_each {R : Thread → Thread → Prop} {h : Head} (same : ∀ {a b}, SameRegs a b → R a b)
    (trans : ∀ ⦃a b c⦄, R a b → R b c → R a c)
    (held : h.cue = 2 → ∀ {a b}, SettledRegs a b → R a b) (s : State) (ls : List (Nat × Nat × Thread)) : EachThread R s (s.leaveAll h ls) := by
  have refl (a : Thread) : R a a := same (.refl a)
  refine foldl_related (fun _ => EachThread.of_threads refl rfl) (fun h h' => h.trans trans h') _ (fun s x => ?_) ls s
  split
  · next t ht =>
    split
    · exact leaveRun_each same held ht
    · exact .of_threads refl rfl
  · exact .of_threads refl rfl

/-- The threads of a warp at their next instructions. -/
def State.nextPcs (s : State) (w : Warp) (next : Lane → Dword) : State :=
  w.lanes.foldl (fun s l => s.modThread l.key fun t => if t.cue = .issuing then { t with pc := next l, last := none } else { t with last := none }) s

theorem nextPcs_each (s : State) (w : Warp) (next : Lane → Dword) : EachThread SameRegs s (s.nextPcs w next) :=
  foldl_modThread_each SameRegs.refl (fun _ _ _ => SameRegs.trans) Lane.key
    (fun _ a => by split <;> exact ⟨rfl, rfl, rfl, rfl, rfl, rfl, rfl, rfl, rfl, rfl⟩) w.lanes s

theorem nextPcs_slots (s : State) (w : Warp) (next : Lane → Dword) : (s.nextPcs w next).slots = s.slots :=
  foldl_keeps State.slots _ (fun s _ => State.modThread_slots s _ _) w.lanes s

theorem nextPcs_onlyThreads (s : State) (w : Warp) (next : Lane → Dword) : OnlyThreads s (s.nextPcs w next) :=
  foldl_onlyThreads (fun s _ => modThread_onlyThreads s _ _) w.lanes s

/-- After an instruction of a slot the run goes on, or it ends in every thread that still issues. -/
theorem advance_slot {s : State} {w : Warp} (hw : w.slice = false) (h : Head) (next : Lane → Dword) (ends : Bool) :
    (∃ sl, s.advance w h next ends = (s.nextPcs w next).setSlot w.unit sl)
      ∨ ∃ sl, s.advance w h next ends
          = ((s.nextPcs w next).leaveAll h ((s.nextPcs w next).slotLanes w.unit)).setSlot w.unit sl := by
  unfold State.advance
  rw [hw, if_neg (by decide)]
  exact (ite_eq_or_eq _ _ _).imp (fun e => ⟨_, e⟩) fun e => ⟨_, e⟩

theorem advance_slice {s : State} {w : Warp} (hw : w.slice = true) (h : Head) (next : Lane → Dword) (ends : Bool) :
    (s.advance w h next ends).threads = s.threads := by
  unfold State.advance
  rw [hw, if_pos rfl]
  exact State.modGroup_threads s _ _

theorem advance_each {R : Thread → Thread → Prop} {h : Head} (same : ∀ {a b}, SameRegs a b → R a b)
    (trans : ∀ ⦃a b c⦄, R a b → R b c → R a c)
    (held : h.cue = 2 → ∀ {a b}, SettledRegs a b → R a b) (s : State) (w : Warp) (next : Lane → Dword) (ends : Bool) :
    EachThread R s (s.advance w h next ends) := by
  have refl (a : Thread) : R a a := same (.refl a)
  cases hw : w.slice with
  | true => exact .of_threads refl (advance_slice hw h next ends)
  | false =>
    have on := (nextPcs_each s w next).mono same
    rcases advance_slot hw h next ends (s := s) with ⟨sl, e⟩ | ⟨sl, e⟩
    · rw [e]
      exact on.trans trans (.of_threads refl rfl)
    · rw [e]
      exact (on.trans trans (leaveAll_each same trans held _ _)).trans trans (.of_threads refl rfl)

theorem advance_onlyThreads {s : State} {w : Warp} (hw : w.slice = false) (h : Head) (next : Lane → Dword) (ends : Bool) :
    OnlyThreads s (s.advance w h next ends) := by
  have on := nextPcs_onlyThreads s w next
  rcases advance_slot hw h next ends (s := s) with ⟨sl, e⟩ | ⟨sl, e⟩
  · rw [e]
    exact on.trans (setSlot_onlyThreads _ _ _)
  · rw [e]
    exact (on.trans (leaveAll_onlyThreads h _ _)).trans (setSlot_onlyThreads _ _ _)

/-- A thread that is in no lane of the warp, and not in its slot, is untouched. -/
theorem advance_thread_other {s : State} {w : Warp} (hw : w.slice = false) (h : Head) (next : Lane → Dword) (ends : Bool) {k : Nat}
    (hk : ∀ l ∈ w.lanes, l.key ≠ k) (hs : ∀ t, s.thread? k = some t → some k ∉ (s.slot w.unit).lanes) :
    (s.advance w h next ends).thread? k = s.thread? k := by
  have on : (s.nextPcs w next).thread? k = s.thread? k := thread_foldl_other Lane.key _ hk s
  rcases advance_slot hw h next ends (s := s) with ⟨sl, e⟩ | ⟨sl, e⟩
  · rw [e]
    exact on
  · rw [e]
    refine (leaveAll_thread_other h _ fun x hx ex => ?_).trans on
    obtain ⟨ht, hm⟩ := slotLanes_thread hx
    rw [ex] at ht hm
    rw [State.slot, nextPcs_slots] at hm
    exact hs _ (on ▸ ht) hm

end Sys2Proof.Machine
end

section
/-! The start, the results and the end of a lane instruction (spec/02 R35, R38, R39, R44, spec/06 R142), in the threads of its warp. -/

namespace Sys2Proof.Machine

open Sys2Proof.Safety

/-! Pops (R39): no thread, and where no source pops a queue, nothing at all. -/

@[simp] theorem setQueue_threads (s : State) (w : Warp) (q : Nat) (l : List QEl) : (s.setQueue w q l).threads = s.threads := by
  unfold State.setQueue
  split <;> simp

theorem takePops_threads (s : State) (w : Warp) (srcs : List Src) : (s.takePops w srcs).1.threads = s.threads := by
  induction srcs generalizing s with
  | nil => rfl
  | cons src r ih =>
    unfold State.takePops
    split
    · exact ih s
    · dsimp only
      split
      · rfl
      · exact (ih _).trans (setQueue_threads s w _ _)

theorem unpop_threads (s s1 : State) (w : Warp) (srcs : List Src) (raising : List Lane) : (s.unpop s1 w srcs raising).threads = s1.threads := by
  unfold State.unpop
  split
  · rfl
  · exact foldl_keeps State.threads _ (fun _ _ => setQueue_threads _ w _ _) _ s1

theorem takePops_of_no_pops (s : State) {w : Warp} {srcs : List Src} (h : srcs.filterMap (Src.pops w.slice) = []) :
    (s.takePops w srcs).1 = s ∧ (s.takePops w srcs).2.2.1 = w.acting.map fun l => (l.v, Clock.zero) := by
  induction srcs with
  | nil => exact ⟨rfl, rfl⟩
  | cons src r ih =>
    obtain ⟨hsrc, hr⟩ := List.forall_mem_cons.1 (List.filterMap_eq_nil_iff.1 h)
    unfold State.takePops
    rw [hsrc]
    exact ih (List.filterMap_eq_nil_iff.2 hr)

theorem unpop_of_no_pops (s s1 : State) {w : Warp} {srcs : List Src} (raising : List Lane) (h : srcs.filterMap (Src.pops w.slice) = []) :
    s.unpop s1 w srcs raising = s1 := by
  unfold State.unpop
  rw [h]
  split <;> rfl

/-- Without a pop no clock is merged. -/
theorem clock_of_no_pops (s : State) {w : Warp} {srcs : List Src} (h : srcs.filterMap (Src.pops w.slice) = []) (v : Nat) :
    get (s.takePops w srcs).2.2.1 v Clock.zero = Clock.zero := by
  rw [(takePops_of_no_pops s h).2]
  induction w.acting with
  | nil => rfl
  | cons l ls ih =>
    simp only [get, List.map_cons, find] at ih ⊢
    split
    · rfl
    · exact ih

theorem clock_max_zero (c : Clock) : c.max Clock.zero = c := by simp [Clock.max, Clock.zero]

/-! The start: pops and kills (R39, R44). -/

/-- The state after the pops alone, before any thread merges a clock. -/
def State.unpopped (s : State) (w : Warp) (srcs : List Src) (acting : List Lane) : State :=
  s.unpop (s.takePops w srcs).1 w srcs (w.acting.filter fun l => !(acting.any fun x => x.v = l.v))

theorem unpopped_threads (s : State) (w : Warp) (srcs : List Src) (acting : List Lane) : (s.unpopped w srcs acting).threads = s.threads :=
  (unpop_threads _ _ w srcs _).trans (takePops_threads s w srcs)

theorem unpopped_of_no_pops (s : State) {w : Warp} {srcs : List Src} (acting : List Lane) (h : srcs.filterMap (Src.pops w.slice) = []) :
    s.unpopped w srcs acting = s := (unpop_of_no_pops _ _ _ h).trans (takePops_of_no_pops s h).1

/-- A thread that pops merges the clock of what it pops. -/
theorem popped_eq (s : State) (w : Warp) (srcs : List Src) (acting : List Lane) :
    s.popped w srcs acting = acting.foldl (fun u l => u.modThread l.key fun t =>
      { t with vc := t.vc.max (get (s.takePops w srcs).2.2.1 l.v Clock.zero) }) (s.unpopped w srcs acting) := rfl

/-- And its sources' registers die. -/
theorem started_eq (s : State) (w : Warp) (srcs : List Src) (acting : List Lane) :
    s.started w srcs acting
      = acting.foldl (fun u l => u.modThread l.key fun t => t.killRegs (srcs.flatMap Src.kills)) (s.popped w srcs acting) := rfl

theorem started_each (s : State) (w : Warp) (srcs : List Src) (acting : List Lane) :
    EachThread (LaneBegun (srcs.flatMap Src.kills)) s (s.started w srcs acting) := by
  have rr := LaneBegun.refl (srcs.flatMap Src.kills)
  have rt := fun ⦃a b c : Thread⦄ => LaneBegun.trans (ks := srcs.flatMap Src.kills) (a := a) (b := b) (c := c)
  have unpopped := EachThread.of_threads rr (unpopped_threads s w srcs acting)
  have popped : EachThread (LaneBegun (srcs.flatMap Src.kills)) (s.unpopped w srcs acting) (s.popped w srcs acting) := by
    rw [popped_eq]
    refine foldl_modThread_each rr rt Lane.key (fun _ _ => ?_) acting _
    exact ⟨rfl, rfl, rfl, rfl, rfl, rfl, rfl, fun _ _ => rfl, id⟩
  rw [started_eq]
  exact (unpopped.trans rt popped).trans rt (foldl_modThread_each rr rt Lane.key (fun _ t => killRegs_laneBegun t _) acting _)

/-- Where no source pops a queue, every thread keeps its clock. -/
theorem started_vc {s : State} {w : Warp} {srcs : List Src} (acting : List Lane) (h : srcs.filterMap (Src.pops w.slice) = []) :
    EachThread (fun t u => u.vc = t.vc) s (s.started w srcs acting) := by
  have rr (t : Thread) : t.vc = t.vc := rfl
  have rt : ∀ ⦃a b c : Thread⦄, b.vc = a.vc → c.vc = b.vc → c.vc = a.vc := fun _ _ _ h h' => h'.trans h
  have popped : EachThread (fun t u => u.vc = t.vc) s (s.popped w srcs acting) := by
    rw [popped_eq, unpopped_of_no_pops s acting h]
    refine foldl_modThread_each rr rt Lane.key (fun l t => ?_) acting s
    rw [clock_of_no_pops s h, clock_max_zero]
  rw [started_eq]
  exact popped.trans rt (foldl_modThread_each rr rt Lane.key (fun _ t => killRegs_vc t _) acting _)

theorem started_thread_other (s : State) (w : Warp) (srcs : List Src) {acting : List Lane} {k : Nat} (h : ∀ l ∈ acting, l.key ≠ k) :
    (s.started w srcs acting).thread? k = s.thread? k := by
  have unpopped : (s.unpopped w srcs acting).thread? k = s.thread? k := by rw [State.thread?, unpopped_threads, State.thread?]
  have popped : (s.popped w srcs acting).thread? k = s.thread? k := by
    rw [popped_eq]
    exact (thread_foldl_other Lane.key _ h _).trans unpopped
  rw [started_eq]
  exact (thread_foldl_other Lane.key _ h _).trans popped

theorem started_onlyThreads (s : State) {w : Warp} {srcs : List Src} (acting : List Lane) (h : srcs.filterMap (Src.pops w.slice) = []) :
    OnlyThreads s (s.started w srcs acting) := by
  have popped : OnlyThreads s (s.popped w srcs acting) := by
    rw [popped_eq, unpopped_of_no_pops s acting h]
    exact foldl_onlyThreads (fun u _ => modThread_onlyThreads u _ _) acting s
  rw [started_eq]
  exact popped.trans (foldl_onlyThreads (fun u _ => modThread_onlyThreads u _ _) acting _)

/-! The results (R88, R142). -/

theorem map_zip_of_fst {α β γ : Type} (g : α → β) (F : α × β × γ → α × γ) {ls : List α} (h : ∀ l ∈ ls, ∀ o, F (l, g l, o) = (l, o))
    (os : List γ) :
    (ls.zip ((ls.map g).zip os)).map F = ls.zip os := by
  induction ls generalizing os with
  | nil => rfl
  | cons l ls ih =>
    cases os with
    | nil => rfl
    | cons o os => simp [h l List.mem_cons_self, ih fun x hx => h x (List.mem_cons_of_mem l hx)]

/-- Where no residue fails, every executing thread has the operation's own result. -/
theorem laneOuts_eq {s : State} {w : Warp} {checked : Bool} (h : Sound s w checked) (srcs : List Src) (f : List LaneIn → List LaneOut) :
    s.laneOuts w srcs checked f = w.executing.zip (f (s.laneIns w srcs)) := by
  refine map_zip_of_fst _ _ (fun l hl o => if_neg ?_) _
  cases hc : checked with
  | false => simp [State.laneFails]
  | true => simp [State.laneFails, h hc l hl]

theorem upsetEvents_of_unfailed (s : State) (w : Warp) {outs : List (Lane × LaneOut)} (h : ∀ x ∈ outs, x.2.failed = false) :
    s.upsetEvents w outs = s := foldl_fixed_of_mem _ _ _ fun x hx => if_neg (by simp [h x hx])

theorem zip_unfailed {α : Type} {ls : List α} {os : List LaneOut} (h : ∀ o ∈ os, o.failed = false) : ∀ x ∈ ls.zip os, x.2.failed = false :=
  fun _ hx => h _ (List.of_mem_zip hx).2

theorem pushing_none {w : Warp} {d : Dst} (h : d.push w.slice = none) : w.pushing d = none := by rw [Warp.pushing, h]

/-- A lane instruction without a queue destination: the start, the results, the end. -/
theorem laneDone_eq {s : State} {w : Warp} {srcs : List Src} {d : Dst} {checked : Bool} {f : List LaneIn → List LaneOut} (h : Head)
    (hp : d.push w.slice = none) (hs : Sound s w checked) (hf : ∀ o ∈ f (s.laneIns w srcs), o.failed = false) :
    s.laneDone w h srcs d checked f
      = ((s.started w srcs w.acting).laneWrites w d (w.executing.zip (f (s.laneIns w srcs)))).step1 w h := by
  unfold State.laneDone
  rw [pushing_none hp, laneOuts_eq hs]
  dsimp only
  rw [upsetEvents_of_unfailed _ w (zip_unfailed hf)]

theorem laneWrites_eq (s : State) {w : Warp} {d : Dst} (hp : d.push w.slice = none) (outs : List (Lane × LaneOut)) :
    s.laneWrites w d outs = outs.foldl (fun s x => s.modThread x.1.key fun t => t.writeOut d x.2) s := by
  unfold State.laneWrites
  rw [pushing_none hp]
  rfl

theorem laneWrites_onlyThreads (s : State) (w : Warp) (d : Dst) (outs : List (Lane × LaneOut)) : OnlyThreads s (s.laneWrites w d outs) :=
  foldl_onlyThreads (fun s _ => modThread_onlyThreads s _ _) outs s

theorem mem_lanes_of_executing {w : Warp} {l : Lane} (h : l ∈ w.executing) : l ∈ w.lanes := (List.mem_filter.1 h).1

theorem mem_lanes_of_zip {w : Warp} {os : List LaneOut} {x : Lane × LaneOut} (h : x ∈ w.executing.zip os) : x.1 ∈ w.lanes :=
  mem_lanes_of_executing (List.of_mem_zip h).1

/-- A thread that has a result takes that one. -/
theorem laneWrites_thread {s s' : State} {w : Warp} {d : Dst} (hw : WarpOf s w) (hp : d.push w.slice = none) {os : List LaneOut} {l : Lane}
    {o : LaneOut} (hm : (l, o) ∈ w.executing.zip os) (alone : Lone w l) :
    (s'.laneWrites w d (w.executing.zip os)).thread? l.key = (s'.thread? l.key).map fun t => t.writeOut d o := by
  have nodup : ((w.executing.zip os).map Prod.fst).Nodup := nodup_fst_zip (hw.nodup.filter _) os
  rw [laneWrites_eq s' hp]
  refine thread_foldl_one (fun x : Lane × LaneOut => x.1.key) (fun x t => t.writeOut d x.2) nodup.of_map hm (fun y hy e => ?_) s'
  exact List.inj_on_of_nodup_map nodup hy hm (alone y.1 (mem_lanes_of_zip hy) e)

theorem laneWrites_thread_other (s : State) {w : Warp} {d : Dst} (hp : d.push w.slice = none) {outs : List (Lane × LaneOut)} {k : Nat}
    (h : ∀ x ∈ outs, x.1.key ≠ k) : (s.laneWrites w d outs).thread? k = s.thread? k := by
  rw [laneWrites_eq s hp]
  exact thread_foldl_other (fun x : Lane × LaneOut => x.1.key) (fun x t => t.writeOut d x.2) h s

/-! The whole course, for one thread. -/

/-- What the end of an instruction with this head may change in a thread: at a hold cue what a hold does, else no register. -/
def EndsRun (h : Head) (t u : Thread) : Prop := SettledRegs t u ∧ (h.cue ≠ 2 → SameRegs t u)

theorem step1_each (s : State) (w : Warp) (h : Head) : EachThread (EndsRun h) s (s.step1 w h) :=
  advance_each (fun e => ⟨e.settled, fun _ => e⟩) (fun _ _ _ x y => ⟨x.1.trans y.1, fun hc => (x.2 hc).trans (y.2 hc)⟩)
    (fun hc _ _ e => ⟨e, fun hn => absurd hc hn⟩) s w _ false

section
variable {s : State} {w : Warp} {h : Head} {srcs : List Src} {d : Dst} {checked : Bool} {f : List LaneIn → List LaneOut}
  (hw : WarpOf s w) (hp : d.push w.slice = none) (hs : Sound s w checked) (hf : ∀ o ∈ f (s.laneIns w srcs), o.failed = false)

include hw hp hs hf in
/-- A thread with a result: its start, its result, the end of its run. -/
theorem laneDone_thread {l : Lane} {o : LaneOut} (hm : (l, o) ∈ w.executing.zip (f (s.laneIns w srcs))) (alone : Lone w l) :
    ∃ t u, (s.laneDone w h srcs d checked f).thread? l.key = some u ∧ (s.started w srcs w.acting).thread? l.key = some t
      ∧ LaneBegun (srcs.flatMap Src.kills) l.t t ∧ EndsRun h (t.writeOut d o) u := by
  obtain ⟨t, ht, begun⟩ := started_each s w srcs w.acting l.key l.t (hw.thread l (mem_lanes_of_zip hm))
  have written := laneWrites_thread (s' := s.started w srcs w.acting) hw hp hm alone
  rw [ht] at written
  obtain ⟨u, hu, ends⟩ := step1_each _ w h l.key _ written
  exact ⟨t, u, by rwa [laneDone_eq h hp hs hf], ht, begun, ends⟩

include hw hp hs hf in
/-- A thread without a result: its start and the end of its run. -/
theorem laneDone_thread_idle {l : Lane} (hl : l ∈ w.lanes) (hm : ∀ x ∈ w.executing.zip (f (s.laneIns w srcs)), x.1 ≠ l) (alone : Lone w l) :
    ∃ t u, (s.laneDone w h srcs d checked f).thread? l.key = some u ∧ (s.started w srcs w.acting).thread? l.key = some t
      ∧ LaneBegun (srcs.flatMap Src.kills) l.t t ∧ EndsRun h t u := by
  obtain ⟨t, ht, begun⟩ := started_each s w srcs w.acting l.key l.t (hw.thread l hl)
  have kept := laneWrites_thread_other (s.started w srcs w.acting) hp (outs := w.executing.zip (f (s.laneIns w srcs))) (k := l.key)
    fun x hx e => hm x hx (alone x.1 (mem_lanes_of_zip hx) e)
  obtain ⟨u, hu, ends⟩ := step1_each _ w h l.key t (kept.trans ht)
  exact ⟨t, u, by rwa [laneDone_eq h hp hs hf], ht, begun, ends⟩

end

end Sys2Proof.Machine
end

section
/-! The statements about lane instructions (spec/02 R35, R38, R39, R44, spec/04 R88). -/

namespace Sys2Proof.Machine

open Sys2Proof.Safety

/-! Each completes. -/

theorem runRule_next {L : LaneRule} {s : State} {w : Warp} (hw : s.warp L.head = some w) (hs : Starts s w L.srcs L.dst)
    (hr : HasRoom s w L.srcs L.dst) : runRule L s = .next (s.laneDone w L.head L.srcs L.dst L.checked L.results) :=
  runLane_eq hw (barred_none hs) (noRoom_none hr)

/-- In a slot that does not wait the slot is busy for 4 core cycles (R24). -/
theorem occupyFour_slot {s : State} {k : Nat} (h : s.cur = .slot k) (t : State) : occupyFour s (.next t)
    = if (t.slot k).wait = 0 then .next (t.modSlot k fun sl => { sl with busy := s.now + 4 * cycleOf (s.row (rowOf (k / 4))).clk })
      else .next t := by
  unfold occupyFour
  rw [h]
  by_cases idle : (t.slot k).wait = 0 <;> simp [idle]

/-- Settles O9: the rule's run, which nothing holds back; and of FP64 with the four core cycles of its slot. -/
theorem laneInstructionsComplete : Obligations.LaneInstructionsComplete := by
  unfold Obligations.LaneInstructionsComplete
  intro i L s w hw hs hr
  have done := runRule_next hw hs hr
  refine ⟨fun h => (exec_eq_runRule h s).trans done, fun k h hk idle => ?_⟩
  rw [exec_eq_occupyFour h, done, occupyFour_slot hk, if_pos idle]

/-- A register, a predicate or nothing as destination needs no room. -/
theorem hasRoom_of_no_push {s : State} {w : Warp} {srcs : List Src} {d : Dst} (h : d.push w.slice = none) : HasRoom s w srcs d := by
  intro q wide e
  rw [h] at e
  cases e

theorem occupyFour_next (s t : State) : ∃ u, occupyFour s (.next t) = .next u ∧ u.threads = t.threads := by
  cases hc : s.cur with
  | slot k =>
    rw [occupyFour_slot hc]
    split
    · exact ⟨_, rfl, rfl⟩
    · exact ⟨t, rfl, rfl⟩
  | slice g => exact ⟨t, by unfold occupyFour; rw [hc], rfl⟩

/-- A lane instruction that starts leaves in its threads what its rule's run leaves. -/
theorem exec_lane {i : Instr} {L : LaneRule} (h : laneRule i = some L ∨ laneRule64 i = some L) {s : State} {w : Warp}
    (hw : s.warp L.head = some w) (hs : Starts s w L.srcs L.dst) (hr : HasRoom s w L.srcs L.dst) :
    ∃ t, exec i s = .next t ∧ ∀ k, t.thread? k = (s.laneDone w L.head L.srcs L.dst L.checked L.results).thread? k := by
  have done := runRule_next hw hs hr
  rcases h with h | h
  · exact ⟨_, (exec_eq_runRule h s).trans done, fun _ => rfl⟩
  · obtain ⟨u, hu, threads⟩ := occupyFour_next s (s.laneDone w L.head L.srcs L.dst L.checked L.results)
    exact ⟨u, by rw [exec_eq_occupyFour h, done, hu], fun k => by rw [State.thread?, threads, State.thread?]⟩

/-! Where results stand. -/

/-- A thread that takes a result: it begins, takes the result, and its run may end. -/
structure LaneTook (L : LaneRule) (t : Thread) (o : LaneOut) (a u : Thread) : Prop where
  begun : LaneBegun (L.srcs.flatMap Src.kills) t a
  written : LaneWritten L.dst o a (a.writeOut L.dst o)
  settled : SettledRegs (a.writeOut L.dst o) u
  stands : Stands L.dst t u o

theorem exec_lane_laneTook {i : Instr} {L : LaneRule} (h : laneRule i = some L ∨ laneRule64 i = some L) {s : State} {w : Warp}
    (hw : s.warp L.head = some w) (hp : L.dst.push w.slice = none) (hs : Starts s w L.srcs L.dst) (sound : Sound s w L.checked) :
    ∃ t, exec i s = .next t ∧ ∀ l o, (l, o) ∈ w.executing.zip (L.results (s.laneIns w L.srcs)) → Lone w l →
      ∃ a u, t.thread? l.key = some u ∧ LaneTook L l.t o a u := by
  obtain ⟨t, next, threads⟩ := exec_lane h hw hs (hasRoom_of_no_push hp)
  refine ⟨t, next, fun l o hm alone => ?_⟩
  have unfailed := results_unfailed h (s.laneIns w L.srcs)
  have ho : o ∈ L.results (s.laneIns w L.srcs) := (List.of_mem_zip hm).2
  obtain ⟨a, u, hu, _, begun, settled, _⟩ := laneDone_thread (warp_of hw) hp sound unfailed hm alone (h := L.head)
  refine ⟨a, u, (threads l.key).trans hu, begun, writeOut_laneWritten a (unfailed o ho) fun r n hd => many_bounds h hd, settled, ?_⟩
  exact begun.stands (settled.stands (writeOut_stands a (unfailed o ho) fun r n hd => ⟨(many_bounds h hd).1, many_length h hd _ o ho⟩))

/-- Settles O10: the result is written after the kills, and nothing that follows moves it. -/
theorem laneResults : Obligations.LaneResults := by
  unfold Obligations.LaneResults
  intro i L s w h hw hp hs sound
  obtain ⟨t, next, took⟩ := exec_lane_laneTook h hw hp hs sound
  refine ⟨t, next, fun l o hm alone => ?_⟩
  obtain ⟨_, u, hu, ok⟩ := took l o hm alone
  exact ⟨u, hu, ok.stands⟩

/-! The first token (R88). -/

/-- What the operation sees of one lane. -/
def State.laneIn (s : State) (w : Warp) (srcs : List Src) (l : Lane) : LaneIn :=
  LaneIn.mk l.v (if w.slice then BitVec.ofNat 32 l.v else l.t.tid) (s.headerBit w.ctx w.act 2) (rngThread l.t) w.pc l.badTok l.t.tsw
    (s.sourceVals w srcs l)

theorem laneIns_eq (s : State) (w : Warp) (srcs : List Src) : s.laneIns w srcs = w.executing.map (s.laneIn w srcs) := rfl

theorem poison_laneIn {s : State} {w : Warp} {srcs : List Src} {l : Lane} {k : Word}
    (h : l.badTok = some k ∨ (l.badTok = none ∧ ∃ before after,
      s.sourceVals w srcs l = before ++ Val.tok k :: after ∧ ∀ v ∈ before, v.tok? = none)) :
    (s.laneIn w srcs l).poison = some k := by
  unfold LaneIn.poison State.laneIn
  rcases h with bad | ⟨good, before, after, vals, clean⟩
  · simp only [bad]
  · simp only [good, vals, List.findSome?_append, List.findSome?_eq_none_iff.2 clean]
    rfl

theorem mem_zip_map {α β : Type} (f : α → β) {x : α} {l : List α} (h : x ∈ l) : (x, f x) ∈ l.zip (l.map f) := by
  rw [← List.map_prod_left_eq_zip]
  exact List.mem_map.2 ⟨x, h, rfl⟩

theorem getD_tokens {n j : Nat} {k : Word} (h : j < n) : (LaneOut.tokens n k).outs.getD j (.dat 0) = .tok k := by
  simp [LaneOut.tokens, List.getD_eq_getElem?_getD, h]

theorem headD_tokens {n : Nat} {k : Word} (h : 0 < n) : (LaneOut.tokens n k).outs.headD (.dat 0) = .tok k := by
  cases n with
  | zero => cases h
  | succ n => rfl

theorem stands_tokens_reg {r : Byte} {wide : Bool} {t u : Thread} {k : Word} (h : Stands (.reg r wide) t u (LaneOut.tokens 1 k)) :
    u.l0 = Cell.ofTw (.tok k) ∧ (r.toNat < 0xC8 → u.cell (fileIndex r) = Cell.ofTw (.tok k)
      ∧ (wide = true → u.cell (fileIndex r + 1) = Cell.ofTw (.tok k))) := by
  obtain ⟨narrow, pair, hl0, _⟩ := h
  refine ⟨hl0, fun hr => ?_⟩
  cases wide with
  | false => exact ⟨narrow rfl hr, (nomatch ·)⟩
  | true => exact ⟨(pair rfl hr).1, fun _ => (pair rfl hr).2⟩

theorem stands_tokens_many {r : Byte} {n : Nat} {t u : Thread} {k : Word} (h : Stands (.many r n) t u (LaneOut.tokens n k)) (hn : 2 ≤ n) :
    u.l0 = Cell.ofTw (.tok k) ∧ u.l1 = Cell.ofTw (.tok k)
      ∧ (r.toNat < 0xC8 → ∀ j, j < n → u.cell (fileIndex r + j) = Cell.ofTw (.tok k)) := by
  obtain ⟨cells, hl⟩ := h
  obtain ⟨hl0, hl1⟩ := hl hn
  rw [headD_tokens (by omega)] at hl0
  rw [getD_tokens (by omega)] at hl1
  exact ⟨hl0, hl1, fun hr j hj => (cells hr j hj).trans (by rw [getD_tokens hj]; rfl)⟩

/-- The odd half of a pair is what l1 takes (R35). -/
theorem writeOut_pair_l1 (t : Thread) (r : Byte) (o : LaneOut) : (t.writeOut (.reg r true) o).l1 = Cell.ofTw o.hi := by
  rw [writeOut_reg]
  rfl

/-- Settles O14: the rule's result for a tagged input is the token in every place, so the token stands wherever a result does. -/
theorem firstTokenIsTheResult : Obligations.FirstTokenIsTheResult := by
  unfold Obligations.FirstTokenIsTheResult
  intro i L s w h hb hw hp hs sound
  obtain ⟨t, next, took⟩ := exec_lane_laneTook h hw hp hs sound
  obtain ⟨g, map, first⟩ := tokensFirst_of_byThread h hb
  refine ⟨t, next, fun l hl alone k hk => ?_⟩
  have result : (l, LaneOut.tokens L.dst.places k) ∈ w.executing.zip (L.results (s.laneIns w L.srcs)) := by
    rw [map, laneIns_eq, List.map_map, ← first _ k (poison_laneIn hk)]
    exact mem_zip_map (g ∘ s.laneIn w L.srcs) hl
  obtain ⟨a, u, hu, begun, written, settled, stands⟩ := took l _ result alone
  refine ⟨u, hu, fun r wide hd => ?_, fun r n hd => ?_, fun p hd h7 hlen => ?_, fun regs l0 l1 => ?_⟩
  · rw [hd] at stands settled
    obtain ⟨hl0, cells⟩ := stands_tokens_reg stands
    refine ⟨hl0, fun hwide => ?_, cells⟩
    subst hwide
    exact settled.l1_holds (writeOut_pair_l1 a r _)
  · rw [hd] at stands
    exact stands_tokens_many stands (many_bounds h hd).1
  · rw [hd] at stands
    exact stands.1 h7 hlen
  · obtain ⟨_, tsw⟩ := settled.still (written.arrived (begun.arrived ⟨regs, l0, l1⟩))
    calc u.tsw = (a.writeOut L.dst (LaneOut.tokens L.dst.places k)).tsw := tsw
      _ = a.tsw ||| 0 := written.tsw
      _ = l.t.tsw := BitVec.or_zero.trans begun.tsw

/-- Settles O13: a thread whose guard is off is in no step of the instruction, and without a hold cue the run's end moves none of its registers. -/
theorem falseGuardChangesNothing : Obligations.FalseGuardChangesNothing := by
  unfold Obligations.FalseGuardChangesNothing
  intro i L s w h hw _ hc hs hr hp sound
  obtain ⟨t, next, threads⟩ := exec_lane (.inl h) hw hs hr
  refine ⟨t, next, fun l hl off alone => ?_⟩
  have idle (x : Lane) (hx : x ∈ w.executing) : x ≠ l := by
    rintro rfl
    simp [Warp.executing, Lane.executes, off] at hx
  have hwarp := warp_of hw
  obtain ⟨a, u, hu, ha, _, _, same⟩ := laneDone_thread_idle hwarp hp sound (results_unfailed (.inl h) (s.laneIns w L.srcs)) hl
    (fun x hx => idle x.1 (List.of_mem_zip hx).1) alone (h := L.head)
  have start : (s.started w L.srcs w.acting).thread? l.key = some l.t := by
    refine (started_thread_other s w L.srcs fun x hx e => ?_).trans (hwarp.thread l hl)
    have := alone x (List.mem_filter.1 hx).1 e
    subst this
    simp [Warp.acting, Lane.acts, off] at hx
  cases ha.symm.trans start
  obtain ⟨regs, _, l0, l1, preds, tsw, _⟩ := same hc
  exact ⟨u, (threads l.key).trans hu, regs, l0, l1, preds, tsw⟩

/-! The frame (R34, R44). -/

/-- A destination that no result comes to takes nothing. -/
theorem LaneWritten.idle (d : Dst) (t : Thread) : LaneWritten d { outs := [], flags := 0, tsw := none } t t :=
  ⟨rfl, rfl, rfl, rfl, BitVec.or_zero.symm, fun _ _ => rfl, fun _ _ => rfl, id⟩

/-- What one thread of a lane instruction keeps: it begins at t as a, is b after its result, and u when its run has ended. -/
structure LanePassed (L : LaneRule) (t a b u : Thread) (o : LaneOut) : Prop where
  begun : LaneBegun (L.srcs.flatMap Src.kills) t a
  clock : a.vc = t.vc
  written : LaneWritten L.dst o a b
  settled : SettledRegs b u

theorem and_absorb_trans {n : Nat} {a b c : BitVec n} (h : a &&& b = a) (h' : b &&& c = b) : a &&& c = a := by
  calc a &&& c = a &&& b &&& c := by rw [h]
    _ = a &&& (b &&& c) := BitVec.and_assoc _ _ _
    _ = a := by rw [h', h]

theorem LanePassed.frame {L : LaneRule} {t a b u : Thread} {o : LaneOut} (h : LanePassed L t a b u o) :
    (∀ n, n ∉ (L.dst.regs ++ L.srcs.flatMap Src.kills).map fileIndex → (t.cell n).arrived = false → u.cell n = t.cell n)
      ∧ (∀ p, L.dst ≠ .pred p → u.pred p = t.pred p)
      ∧ (o.tsw = none → t.tsw &&& u.tsw = t.tsw)
      ∧ u.blocks = t.blocks ∧ u.region = t.region ∧ u.vc = t.vc ∧ u.txn = t.txn := by
  obtain ⟨begun, clock, written, settled⟩ := h
  refine ⟨fun n hn ha => ?_, fun p hp => ?_, fun ho => ?_, ?_, ?_, ?_, ?_⟩
  · rw [List.map_append, List.mem_append, not_or] at hn
    have same : b.cell n = t.cell n := (written.cell n hn.1).trans (begun.cell n hn.2)
    exact (settled.cell n (by rwa [same])).trans same
  · calc u.pred p = b.pred p := settled.pred p
      _ = a.pred p := written.pred p hp
      _ = t.pred p := by rw [Thread.pred, Thread.pred, begun.preds]
  · have noted : b.tsw = t.tsw ||| o.flags := by rw [written.tsw, ho, Option.getD_none, begun.tsw]
    exact and_absorb_trans (noted ▸ and_or_absorb _ _) settled.tsw
  · exact settled.blocks.trans (written.blocks.trans begun.blocks)
  · exact settled.region.trans (written.region.trans begun.region)
  · exact settled.vc.trans (written.vc.trans clock)
  · exact settled.txn.trans (written.txn.trans begun.txn)

theorem laneDone_lanePassed {L : LaneRule} {s : State} {w : Warp} (hw : WarpOf s w) (hp : L.dst.push w.slice = none)
    (hq : L.srcs.filterMap (Src.pops w.slice) = []) (hs : Sound s w L.checked)
    (hf : ∀ o ∈ L.results (s.laneIns w L.srcs), o.failed = false) (hm : ∀ r n, L.dst = .many r n → 2 ≤ n ∧ n ≤ 8) {l : Lane}
    (hl : l ∈ w.lanes) (alone : Lone w l) :
    ∃ a b u o, (s.laneDone w L.head L.srcs L.dst L.checked L.results).thread? l.key = some u ∧ LanePassed L l.t a b u o
      ∧ (o ∈ L.results (s.laneIns w L.srcs) ∨ o.tsw = none) := by
  have clock {a : Thread} (ha : (s.started w L.srcs w.acting).thread? l.key = some a) : a.vc = l.t.vc := by
    obtain ⟨a', ha', e⟩ := started_vc w.acting hq l.key l.t (hw.thread l hl)
    cases ha.symm.trans ha'
    exact e
  by_cases h : ∃ o, (l, o) ∈ w.executing.zip (L.results (s.laneIns w L.srcs))
  · obtain ⟨o, ho⟩ := h
    obtain ⟨a, u, hu, ha, begun, settled, _⟩ := laneDone_thread hw hp hs hf ho alone (h := L.head)
    have mem := (List.of_mem_zip ho).2
    exact ⟨a, _, u, o, hu, ⟨begun, clock ha, writeOut_laneWritten a (hf o mem) hm, settled⟩, .inl mem⟩
  · obtain ⟨a, u, hu, ha, begun, settled, _⟩ := laneDone_thread_idle hw hp hs hf hl
      (fun x hx e => h ⟨x.2, by rw [← e]; exact hx⟩) alone (h := L.head)
    exact ⟨a, a, u, _, hu, ⟨begun, clock ha, .idle L.dst a, settled⟩, .inr rfl⟩

theorem started_slots (s : State) {w : Warp} {srcs : List Src} (acting : List Lane) (h : srcs.filterMap (Src.pops w.slice) = []) :
    (s.started w srcs acting).slots = s.slots := by
  rw [started_eq, popped_eq, unpopped_of_no_pops s acting h]
  exact (foldl_keeps State.slots _ (fun u _ => State.modThread_slots u _ _) acting _).trans
    (foldl_keeps State.slots _ (fun u _ => State.modThread_slots u _ _) acting s)

theorem laneWrites_slots (s : State) (w : Warp) (d : Dst) (outs : List (Lane × LaneOut)) : (s.laneWrites w d outs).slots = s.slots :=
  foldl_keeps State.slots _ (fun u _ => State.modThread_slots u _ _) outs s

/-- A thread that no lane of a slot's warp names is not in that slot. -/
theorem WarpOf.not_in_slot {s : State} {w : Warp} (hw : WarpOf s w) (hc : w.slice = false) {k : Nat} (hk : ∀ l ∈ w.lanes, l.key ≠ k)
    {t : Thread} (ht : s.thread? k = some t) : some k ∉ (s.slot w.unit).lanes := by
  intro h
  obtain ⟨v, hv⟩ := slotLanes_key_mem h ht
  rw [← hw.slot hc] at hv
  obtain ⟨l, hl, e⟩ := List.mem_map.1 hv
  exact hk l hl (congrArg (fun x => x.2.1) e)

section
variable {L : LaneRule} {s : State} {w : Warp} (hp : L.dst.push w.slice = none) (hq : L.srcs.filterMap (Src.pops w.slice) = [])
  (hs : Sound s w L.checked) (hf : ∀ o ∈ L.results (s.laneIns w L.srcs), o.failed = false) (hc : w.slice = false)

include hp hq hs hf hc in
theorem laneDone_onlyThreads : OnlyThreads s (s.laneDone w L.head L.srcs L.dst L.checked L.results) := by
  rw [laneDone_eq L.head hp hs hf]
  exact ((started_onlyThreads s w.acting hq).trans (laneWrites_onlyThreads _ w L.dst _)).trans (advance_onlyThreads hc _ _ _)

include hp hq hs hf hc in
theorem laneDone_thread_other (hw : WarpOf s w) {k : Nat} (hk : ∀ l ∈ w.lanes, l.key ≠ k) :
    (s.laneDone w L.head L.srcs L.dst L.checked L.results).thread? k = s.thread? k := by
  have start : (s.started w L.srcs w.acting).thread? k = s.thread? k :=
    started_thread_other s w L.srcs fun l hl => hk l (List.mem_filter.1 hl).1
  have written := (laneWrites_thread_other (s.started w L.srcs w.acting) hp (outs := w.executing.zip (L.results (s.laneIns w L.srcs)))
    fun x hx => hk x.1 (mem_lanes_of_zip hx)).trans start
  rw [laneDone_eq L.head hp hs hf]
  refine (advance_thread_other hc L.head _ _ hk fun t ht => ?_).trans written
  rw [State.slot, laneWrites_slots, started_slots s w.acting hq]
  exact hw.not_in_slot hc hk (written ▸ ht)

end

/-- Settles O11: without a queue the instruction changes threads and slots alone, and of a thread what `LanePassed` says. -/
theorem laneFrame : Obligations.LaneFrame := by
  unfold Obligations.LaneFrame
  intro i L s w h hw hc queues hs sound
  obtain ⟨hq, push⟩ := List.append_eq_nil_iff.1 queues
  have hp : L.dst.push w.slice = none := by simpa using push
  have hf := results_unfailed (.inl h) (s.laneIns w L.srcs)
  have hwarp := warp_of hw
  refine ⟨_, (exec_eq_runRule h s).trans (runRule_next hw hs (hasRoom_of_no_push hp)), ?_⟩
  have other := fun k => laneDone_thread_other hp hq sound hf hc hwarp (k := k)
  have passed := fun l hl alone => laneDone_lanePassed hwarp hp hq sound hf (fun r n => many_bounds (.inl h)) (l := l) hl alone
  obtain ⟨threads, slots, e⟩ := laneDone_onlyThreads hp hq sound hf hc
  rw [e] at other passed ⊢
  refine ⟨fun _ => rfl, rfl, rfl, rfl, rfl, rfl, rfl, rfl, other, fun l hl alone => ?_⟩
  obtain ⟨a, b, u, o, hu, ok, ho⟩ := passed l hl alone
  obtain ⟨cells, preds, tsw, rest⟩ := ok.frame
  refine ⟨u, hu, cells, preds, fun stat pclr => tsw ?_, rest⟩
  exact ho.elim (fun mem => (results_plain h stat pclr _ o mem).2) id

end Sys2Proof.Machine
end

section
/-! A queue destination (spec/02 R39): what the warp's threads push, in ascending virtual lane. -/

namespace Sys2Proof.Machine

open Sys2Proof.Safety

theorem executing_eq_acting {w : Warp} (h : Guarded w) : w.executing = w.acting := by
  refine List.filter_congr fun l hl => ?_
  have good := h l hl
  unfold Lane.badTok at good
  unfold Lane.executes Lane.acts
  cases e : l.guard with
  | off => rfl
  | on => rfl
  | bad k => simp [e] at good

/-- Untagged guards push without a raise where no message goes out. -/
theorem pushRaises_nil {w : Warp} (h : Guarded w) {q : Nat} (hq : q ≠ 14) (outs : List (Lane × LaneOut)) : pushRaises w q outs = [] := by
  have guards : (w.executing.filterMap fun l => l.badTok.map fun k => (l, k, 0x0A)) = [] :=
    List.filterMap_eq_nil_iff.2 fun l hl => by rw [h l (mem_lanes_of_executing hl)]; rfl
  unfold pushRaises
  rw [guards]
  dsimp only
  split
  · rw [if_pos (by simpa using hq)]
    rfl
  · rfl

theorem pushing_some {w : Warp} {d : Dst} {q : Nat} {wide : Bool} (h : d.push w.slice = some (q, wide)) :
    w.pushing d = some (q, wide, w.acting.length * (if wide then 2 else 1)) := by rw [Warp.pushing, h]

/-- A push without a raise: the start, the results (which name no register), the push, the end. -/
theorem laneDone_push_eq {s : State} {w : Warp} {srcs : List Src} {d : Dst} {checked : Bool} {f : List LaneIn → List LaneOut} (h : Head)
    {q : Nat} {wide : Bool} (hp : d.push w.slice = some (q, wide)) (hq : q ≠ 14) (hg : Guarded w) (hs : Sound s w checked)
    (hf : ∀ o ∈ f (s.laneIns w srcs), o.failed = false) :
    let outs := w.acting.zip (f (s.laneIns w srcs))
    s.laneDone w h srcs d checked f = (((s.started w srcs w.acting).laneWrites w d outs).pushOuts w q wide outs).step1 w h := by
  have outs : s.laneOuts w srcs checked f = w.acting.zip (f (s.laneIns w srcs)) := by rw [laneOuts_eq hs, executing_eq_acting hg]
  have all : (w.acting.zip (f (s.laneIns w srcs))).filter (fun x => x.1.acts) = w.acting.zip (f (s.laneIns w srcs)) :=
    List.filter_eq_self.2 fun x hx => (List.mem_filter.1 (List.of_mem_zip hx).1).2
  have none : (w.acting.filter fun l => !(([] : List (Lane × Word × Nat)).any fun x => x.1.v = l.v)) = w.acting :=
    List.filter_eq_self.2 fun _ _ => rfl
  unfold State.laneDone
  rw [pushing_some hp, outs]
  dsimp only
  rw [pushRaises_nil hg hq, none, all, upsetEvents_of_unfailed _ w (zip_unfailed hf)]
  rfl

theorem OnlyThreads.group {s t : State} (h : OnlyThreads s t) (g : Nat) : t.group? g = s.group? g := by
  obtain ⟨_, _, rfl⟩ := h
  rfl

/-- A push of one place each puts the values behind what the queue holds. -/
theorem pushOuts_group {s : State} {w : Warp} {g q : Nat} {gr : Group} (hw : w.group = some g) (hg : s.group? g = some gr) (hq : q ≠ 14)
    (outs : List (Lane × LaneOut)) : ∃ gr', (s.pushOuts w q false outs).group? g = some gr'
      ∧ get gr'.q q [] = get gr.q q [] ++ outs.map fun x => QEl.val (x.2.outs.headD (.dat 0)).lo := by
  have queue : s.queue w q = get gr.q q [] := by rw [State.queue, hw]; dsimp only; rw [hg]
  unfold State.pushOuts State.setQueue
  rw [if_neg hq, hw]
  dsimp only
  rw [group_modGroup, if_pos rfl, hg, queue]
  refine ⟨_, rfl, (get_put_self _ _ _ _).trans (congrArg _ ?_)⟩
  exact List.flatMap_pure_eq_map _ outs

/-- Settles O12: with untagged guards no lane raises, and the push is one element for each acting thread. -/
theorem queuePush : Obligations.QueuePush := by
  unfold Obligations.QueuePush
  intro i L s w q g gr h hw hc hp hq hgroup hg pops guarded hs hr sound
  have start : (s.started w L.srcs w.acting).group? g = some gr := ((started_onlyThreads s w.acting pops).group g).trans hg
  have written := ((laneWrites_onlyThreads _ w L.dst (w.acting.zip (L.results (s.laneIns w L.srcs)))).group g).trans start
  obtain ⟨gr', hgr', pushed⟩ := pushOuts_group hgroup written hq (w.acting.zip (L.results (s.laneIns w L.srcs)))
  refine ⟨_, gr', (exec_eq_runRule h s).trans (runRule_next hw hs hr), ?_, pushed⟩
  rw [laneDone_push_eq L.head hp hq guarded sound (results_unfailed (.inl h) _)]
  exact ((advance_onlyThreads hc L.head _ _).group g).trans hgr'

end Sys2Proof.Machine
end

section
/-! What a read of a register delivers (spec/02 R34, R37, R42, R48, R51). -/

namespace Sys2Proof.Machine

/-- A g or o register of a long write is pending on its operation (R48). -/
theorem pend_eq (t : Thread) {r : Byte} (op cls : Nat) (hr : r.toNat < 0xC0) :
    ∃ c : Cell, t.pend r op cls = t.setCell (fileIndex r) c ∧ c.st = .pending ∧ c.owner = op := by
  have h8 : r ≠ 0xC8 := by rintro rfl; exact absurd hr (by decide)
  have h9 : r ≠ 0xC9 := by rintro rfl; exact absurd hr (by decide)
  exact ⟨_, (if_neg h8).trans ((if_neg h9).trans (if_pos (by omega))), rfl, rfl⟩

theorem readFile_held {t : Thread} {i : Nat} (h : blockOf i ≤ t.blocks) (o : Nat) : t.readFile i o = (t.cell i).read o := if_neg (by omega)

/-- Settles O17: the file, the pending registers, and the special operands. -/
theorem registerReads : Obligations.RegisterReads := by
  unfold Obligations.RegisterReads
  refine ⟨fun t i o => ⟨fun h => if_pos h, fun h => ?_⟩, fun t r op cls o hr held => ?_, fun s w v t o c => ?_⟩
  · rw [readFile_held h]
    rfl
  · obtain ⟨c, e, pending, owner⟩ := pend_eq t op cls hr
    rw [e]
    refine ⟨?_, by simpa using owner, fun n hn => by rw [cell_setCell, if_neg hn]⟩
    have blocks : blockOf (fileIndex r) ≤ (t.setCell (fileIndex r) c).blocks := by rwa [fileIndex_eq]
    rw [readFile_held blocks, cell_setCell, if_pos rfl, Cell.read, pending]
  · exact ⟨rfl, rfl, fun h => by change Tw.data (if w.slice then _ else _) = _; rw [h]; rfl, rfl, rfl, rfl, rfl⟩

end Sys2Proof.Machine
end

section
/-! The cue table and the register pool (spec/02 R25 to R36, spec/07 R185, spec/17 R372). -/

namespace Sys2Proof.Machine

open Sys2Proof.Safety

/-! Orders. -/

theorem mem_insertBy {α : Type} (le : α → α → Bool) (x y : α) (l : List α) : y ∈ insertBy le x l ↔ y = x ∨ y ∈ l := by
  induction l with
  | nil => simp [insertBy]
  | cons z r ih =>
    unfold insertBy
    split
    · rw [List.mem_cons, ih, List.mem_cons]
      tauto
    · rw [List.mem_cons]

theorem mem_sortBy {α : Type} (le : α → α → Bool) (y : α) (l : List α) : y ∈ sortBy le l ↔ y ∈ l := by
  have from_acc (acc : List α) : y ∈ l.foldl (fun acc x => insertBy le x acc) acc ↔ y ∈ acc ∨ y ∈ l := by
    induction l generalizing acc with
    | nil => simp
    | cons x r ih =>
      rw [List.foldl_cons, ih, mem_insertBy, List.mem_cons]
      tauto
  exact (from_acc []).trans (by simp)

/-! Warp formation (R28 to R30, R36). -/

/-- A save has failed the transaction of the thread (R196). -/
def savedTxn (x : Nat × Thread) : Bool := match x.2.txn with | some y => (y.failed.map Prod.fst) = some 6 | none => false

theorem savedTxn_eq_false {x : Nat × Thread} : savedTxn x = false ↔ ∀ y, x.2.txn = some y → y.failed.map Prod.fst ≠ some 6 := by
  unfold savedTxn
  cases x.2.txn <;> simp

/-- A slot is free for the head of the table, whose ages call for no promotion. -/
structure WarpForms (s : State) (cluster slot : Nat) (head : Nat × Thread) (rest : List (Nat × Thread)) : Prop where
  onPackage : cluster < 768
  ofCluster : slot < 4
  free : s.slotFree (cluster * 4 + slot) = true
  lowest : ∀ i, i < slot → s.slotFree (cluster * 4 + i) = false
  site : s.siteDown cluster = false
  clock : (s.row (rowOf cluster)).clkUntil = 0
  table : s.cueTable cluster = head :: rest
  due : ∀ x ∈ head :: rest, s.overdue x.1 x.2 = false

theorem warpFormation_eq {s : State} {cluster slot : Nat} {head : Nat × Thread} {rest : List (Nat × Thread)} (h : WarpForms s cluster slot head rest) :
    exec (.warpFormation cluster slot) s = if ((gather head (head :: rest)).filter savedTxn).isEmpty
      then .next (s.takeWarp (cluster * 4 + slot) (gather head (head :: rest)))
      else .next (((gather head (head :: rest)).filter savedTxn).foldl (fun s x => s.failTxn x.1 6 0 0) s) := by
  obtain ⟨hc, hs, free, lowest, site, clock, table, due⟩ := h
  change execWarpFormation cluster slot s = _
  unfold execWarpFormation
  have none : ((List.range slot).any fun i => s.slotFree (cluster * 4 + i)) = false :=
    List.any_eq_false.2 fun i hi => by simp [lowest i (List.mem_range.1 hi)]
  have prompt : ((head :: rest).any fun x => s.overdue x.1 x.2) = false := List.any_eq_false.2 fun x hx => by simp [due x hx]
  rw [if_neg (by omega), if_neg (by simp [free, none, site, clock]), table]
  dsimp only
  rw [if_neg (by rw [prompt]; decide)]
  rfl

theorem noSavedTxn_iff {s : State} {cluster : Nat} {head : Nat × Thread} {rest : List (Nat × Thread)} (h : s.cueTable cluster = head :: rest) :
    NoSavedTxn s cluster ↔ (gather head (head :: rest)).filter savedTxn = [] := by
  rw [List.filter_eq_nil_iff]
  constructor
  · intro hn x hx
    rw [savedTxn_eq_false.2 (hn head rest h x hx)]
    decide
  · intro hn head' rest' h' x hx
    cases h.symm.trans h'
    exact savedTxn_eq_false.1 (by simpa using hn x hx)

theorem warpFormation_takes {s : State} {cluster slot : Nat} {head : Nat × Thread} {rest : List (Nat × Thread)}
    (h : WarpForms s cluster slot head rest) (hn : NoSavedTxn s cluster) :
    exec (.warpFormation cluster slot) s = .next (s.takeWarp (cluster * 4 + slot) (gather head (head :: rest))) := by
  rw [warpFormation_eq h, (noSavedTxn_iff h.table).1 hn]
  rfl

theorem warpFormation_fails {s : State} {cluster slot : Nat} {head : Nat × Thread} {rest : List (Nat × Thread)}
    (h : WarpForms s cluster slot head rest) (hn : ¬NoSavedTxn s cluster) :
    exec (.warpFormation cluster slot) s
      = .next (((gather head (head :: rest)).filter savedTxn).foldl (fun s x => s.failTxn x.1 6 0 0) s) := by
  rw [noSavedTxn_iff h.table] at hn
  rw [warpFormation_eq h, if_neg (by simpa using hn)]

theorem head_mem_gather (head : Nat × Thread) (rest : List (Nat × Thread)) : head ∈ gather head (head :: rest) := by
  simp [gather]

/-- What is set in each of some threads stands in each of them. -/
theorem foldl_setThread {ι : Type} {P : Thread → Prop} (key : ι → Nat) (value : State → ι → Thread) (hP : ∀ s x, P (value s x)) (l : List ι)
    {s : State} {k : Nat} (h : (∃ u, s.thread? k = some u ∧ P u) ∨ ∃ x ∈ l, key x = k) :
    ∃ u, (l.foldl (fun s x => s.setThread (key x) (value s x)) s).thread? k = some u ∧ P u := by
  induction l generalizing s with
  | nil => simpa using h
  | cons x l ih =>
    refine ih ?_
    by_cases e : key x = k
    · subst e
      exact .inl ⟨_, thread_setThread _ _ _, hP s x⟩
    · rw [thread_setThread_other _ _ _ _ (Ne.symm e)]
      exact h.imp id fun ⟨y, hy, ey⟩ => ⟨y, (List.mem_cons.1 hy).resolve_left fun e' => e (e' ▸ ey), ey⟩

/-- A thread at the start of a run: it issues, and its l0 and l1 are dead (R30, R36). -/
def StartsRun (t : Thread) : Prop := t.cue = .issuing ∧ t.l0 = Cell.dead ∧ t.l1 = Cell.dead

theorem takeWarp_lanes (s : State) (k key : Nat) (warp : List (Nat × Thread)) :
    some key ∈ ((s.takeWarp k warp).slot k).lanes ↔ ∃ x ∈ warp, x.1 = key := by
  unfold State.takeWarp
  dsimp only
  rw [slot_setSlot]
  simp [mem_sortBy]

theorem takeWarp_thread {s : State} {k key : Nat} {warp : List (Nat × Thread)} (h : ∃ x ∈ warp, x.1 = key) :
    ∃ u, (s.takeWarp k warp).thread? key = some u ∧ StartsRun u := by
  obtain ⟨x, hx, e⟩ := h
  exact foldl_setThread (P := StartsRun) Prod.fst
    (fun s x => { x.2.enter s.now .issuing 0 .none with promoted := none, l0 := Cell.dead, l1 := Cell.dead })
    (fun _ _ => ⟨rfl, rfl, rfl⟩) _ (.inr ⟨x, (mem_sortBy _ _ _).2 hx, e⟩)

/-- Settles O40: the slot takes the head's warp, each thread of it with dead l0 and l1. -/
theorem runStartsWithDeadLs : Obligations.RunStartsWithDeadLs := by
  unfold Obligations.RunStartsWithDeadLs
  intro s cluster slot head rest hc hs free lowest site clock table due hn
  refine ⟨_, warpFormation_takes ⟨hc, hs, free, lowest, site, clock, table, due⟩ hn, ?_, fun key hkey => ?_⟩
  · exact (takeWarp_lanes s _ _ _).2 ⟨head, head_mem_gather head rest, rfl⟩
  · obtain ⟨u, hu, issuing, l0, l1⟩ := takeWarp_thread (s := s) (k := cluster * 4 + slot) ((takeWarp_lanes s _ _ _).1 hkey)
    refine ⟨u, hu, issuing, fun w v o ho => ?_⟩
    subst ho
    exact ⟨congrArg (fun c => c.read w.origin) l0, congrArg (fun c => c.read w.origin) l1⟩

/-! The other steps of the cue table and of the register pool. -/

theorem promotion_eq {s : State} {key : Nat} {t : Thread} (ht : s.thread? key = some t) (run : t.cue = .runnable) (own : isLaneKey key = false)
    (due : s.overdue key t = true) : exec (.promotion key) s
      = .next (s.setThread key { t with promoted := some ((s.row (rowOf (clusterOfKey key))).cycleAt t.since + t.paused + 8192) }) := by
  change execPromotion key s = _
  unfold execPromotion
  rw [ht]
  exact if_pos (by simp [run, own, due])

theorem queueWaitResume_eq {s : State} {cluster slot : Nat}
    (h : (s.slot (cluster * 4 + slot)).wait = 2 ∨ (s.slot (cluster * 4 + slot)).wait = 3) :
    exec (.queueWaitResume cluster slot) s = .next (s.setSlot (cluster * 4 + slot)
      { s.slot (cluster * 4 + slot) with wait := 0, again := true, was := (s.slot (cluster * 4 + slot)).wait }) := if_pos h

theorem instructionFault_eq {s : State} {cluster slot : Nat} {f : Front} {cause : Cause} {code : Byte} {va : Nat}
    (hf : ({ s with cur := .slot (cluster * 4 + slot) } : State).front = some f)
    (hx : ({ s with cur := .slot (cluster * 4 + slot) } : State).fetched f = .fault cause code va) :
    exec (.instructionFault cluster slot) s = .next (({ s with cur := .slot (cluster * 4 + slot) } : State).takeInstrFault f cause code va) := by
  change execInstructionFault cluster slot s = _
  unfold execInstructionFault
  dsimp only
  rw [hf]
  dsimp only
  rw [hx]

theorem racqGrant_eq {s : State} {c : Nat} {r : PoolReq} {rest : List PoolReq} {key : Nat} {t : Thread} (hr : s.poolRequests c = r :: rest)
    (hk : r.thread = some key) (ht : s.thread? key = some t) (room : r.need ≤ s.blocksFree c) (low : (s.ctx t.ctx).low = false) :
    exec (.racqGrant c) s = .next (s.resume key t.grantBlocks) := by
  change execRacqGrant c s = _
  unfold execRacqGrant
  rw [hr]
  dsimp only
  rw [hk]
  dsimp only
  rw [ht]
  exact if_neg (by simp [low]; omega)

theorem grantBlocks_held (t : Thread) : t.grantBlocks.held = t.held := by
  have grown (n : Nat) : (t.grow n).held = t.held := foldl_keeps Thread.held (fun u i => u.setCell i Cell.dead) (fun _ _ => rfl) _ t
  unfold Thread.grantBlocks
  split
  · exact grown _
  · rfl
  · rfl

/-- A thread that nothing holds and nothing has spilled is Runnable when its wait is over. -/
theorem resume_runnable (s : State) (key : Nat) {t : Thread} (held : t.held = false) (whole : t.spilled = 0) :
    ∃ u, (s.resume key t).thread? key = some u ∧ u.cue = .runnable ∧ u.blocks = t.blocks ∧ u.regs = t.regs := by
  obtain ⟨regs, _, _, _, _, _, blocks, _⟩ := run_sameRegs t s.now
  have cue : (t.run s.now).cue = .runnable := by
    unfold Thread.run
    rw [if_pos whole]
    rfl
  refine ⟨t.run s.now, ?_, cue, blocks, regs⟩
  rw [State.resume, held]
  exact thread_setThread _ _ _

theorem registerPoolEviction_eq {s : State} {c : Nat} {r : PoolReq} {rest : List PoolReq} (h : s.poolRequests c = r :: rest) :
    exec (.registerPoolEviction c) s
      = if s.cyclesSince c r.since < 16384 ∨ s.poolMet c ((r :: rest).foldl (fun n x => n + x.need) 0) then .refused .notEnabled
        else if !s.changed (s.poolEvict c) then .refused .notEnabled else .next (s.poolEvict c) := by
  change execRegisterPoolEviction c s = _
  unfold execRegisterPoolEviction
  rw [h]

/-- Settles O41, a clause for each step, from its own lemma. -/
theorem schedulingSteps : Obligations.SchedulingSteps := by
  unfold Obligations.SchedulingSteps
  refine ⟨fun s => ⟨?formation, ?promotion, ?resume, ?fault⟩, fun s c => ⟨?grant, ?evicts, ?evict⟩⟩
  case formation =>
    intro cluster slot head rest hc hs free lowest site clock table due
    have forms : WarpForms s cluster slot head rest := ⟨hc, hs, free, lowest, site, clock, table, due⟩
    exact ⟨warpFormation_takes forms, warpFormation_fails forms⟩
  case promotion => exact fun key t ht run own due => ⟨_, promotion_eq ht run own due, thread_setThread _ _ _⟩
  case resume =>
    intro cluster slot h
    refine ⟨_, queueWaitResume_eq h, ?_⟩
    rw [slot_setSlot]
    exact ⟨rfl, rfl⟩
  case fault => exact fun cluster slot f cause code va hf hx => instructionFault_eq hf hx
  case grant =>
    intro r rest key t hr hk ht room low
    exact ⟨racqGrant_eq hr hk ht room low, fun held whole => resume_runnable s key ((grantBlocks_held t).trans held) whole⟩
  case evicts =>
    intro t h
    cases hr : s.poolRequests c with
    | nil =>
      have : exec (.registerPoolEviction c) s = .refused .notEnabled := by
        change execRegisterPoolEviction c s = _
        rw [execRegisterPoolEviction, hr]
      rw [this] at h
      cases h
    | cons r rest =>
      rw [registerPoolEviction_eq hr] at h
      split at h
      · cases h
      · next late =>
        split at h
        · cases h
        · next changed =>
          cases h
          exact ⟨by simpa using changed, r, rest, rfl, by omega⟩
  case evict =>
    intro r rest hr late unmet changed
    rw [registerPoolEviction_eq hr, if_neg (by rw [unmet]; simp; omega), if_neg (by simp [changed])]

end Sys2Proof.Machine
end

section
/-! A step whose agenda names the issue of a slot (spec/02 R24, R30, spec/05 R106, R107). -/

namespace Sys2Proof.Machine

/-- An issue at the head of the agenda, of a powered package whose boot has not failed and whose clock does not change. -/
theorem step_issue {s : State} {k : Nat} {upset : List Nat} {wait : Nat} {r : List Agendum} (head : s.agenda = ⟨wait, .issue k upset⟩ :: r)
    (powered : (({ s with agenda := r } : State).pass wait).pkg.powered = true)
    (booted : (({ s with agenda := r } : State).pass wait).root.recovery = false) :
    step s = settleStep ((({ s with agenda := r } : State).pass wait).issueSlot k upset) := by
  unfold step
  rw [head]
  change settleStep (if _ then _ else _) = _
  rw [if_neg (by rw [powered]; decide), if_neg (by rw [booted]; decide)]

/-- What a slot does when its issue has begun, with the time of an issue that did not stay in the slot noted (log entry 1). -/
theorem issueSlot_eq {s : State} {k : Nat} (upset : List Nat) (clock : (s.row (rowOf (k / 4))).clkUntil = 0) :
    s.issueSlot k upset = match (s.beginIssue k upset).issueNow k, ((s.beginIssue k upset).slotLanes k).head? with
      | .next t, some x => .next (if (t.slot k).wait = 0 then t.noteIssue (k / 4) x.2.2 else t)
      | o, _ => o := by
  unfold State.issueSlot
  rw [if_neg (by rw [clock]; decide)]
  dsimp only
  cases (s.beginIssue k upset).issueNow k <;> cases ((s.beginIssue k upset).slotLanes k).head? <;> rfl

/-- A warp that waits for no answer runs what it has fetched and decoded. -/
theorem issueNow_ok {s : State} {k n : Nat} {f : Front} {d : Decoded} (hf : s.front = some f) (hd : s.fetched f = .ok d n)
    (ha : s.answerWait f = none) : s.issueNow k = exec d.instr s := by
  unfold State.issueNow
  rw [hf]
  dsimp only
  rw [ha]
  dsimp only
  rw [State.issueAt, hd]
  exact execDecoded_eq d s

theorem issueNow_waits {s : State} {k reason : Nat} {f : Front} (hf : s.front = some f) (ha : s.answerWait f = some reason) :
    s.issueNow k = .next (s.slotWait k reason) := by
  unfold State.issueNow
  rw [hf]
  dsimp only
  rw [ha]

theorem answerWait_reason {s : State} {f : Front} {reason : Nat} (h : s.answerWait f = some reason) : reason = 0x17 ∨ reason = 0x11 := by
  unfold State.answerWait at h
  dsimp only at h
  split at h
  · cases h
  · split at h <;> cases h
    · exact .inl rfl
    · exact .inr rfl

/-- A slot that waits shows why. -/
theorem slotWait_wait (s : State) (k reason : Nat) : ((s.slotWait k reason).slot k).wait = BitVec.ofNat 16 reason := by
  unfold State.slotWait
  dsimp only
  rw [slot_modSlot]
  split
  · assumption
  · rfl

/-- Settles O5: the step is the slot's issue, and the issue is exec of what is fetched, or a wait whose time is not noted. -/
theorem stepRunsTheDecodedInstruction : Obligations.StepRunsTheDecodedInstruction := by
  unfold Obligations.StepRunsTheDecodedInstruction
  intro s k upset wait r f d n head powered booted clock s1 hf hd
  rw [step_issue head powered booted, issueSlot_eq upset clock]
  change ((({ s with agenda := r } : State).pass wait).beginIssue k upset).front = some f at hf
  refine ⟨fun ha => ?_, fun reason ha => ?_⟩
  · rw [issueNow_ok hf hd ha]
    rfl
  · have busy : ((s1.slotWait k reason).slot k).wait ≠ 0 := by
      rw [slotWait_wait]
      rcases answerWait_reason ha with rfl | rfl <;> decide
    rw [issueNow_waits hf ha]
    refine congrArg settleStep ?_
    cases (s1.slotLanes k).head? with
    | none => rfl
    | some x => exact congrArg Host.Outcome.next (if_neg busy)

end Sys2Proof.Machine
end

section
/-! What an instruction that computes thread by thread leaves with untagged sources (spec/02 R35, R37, spec/04 R88). -/

namespace Sys2Proof.Machine

open Sys2Proof.Safety

theorem badTok_of_acting {w : Warp} {l : Lane} (h : l ∈ w.acting) : l.badTok = none := by
  have on := (List.mem_filter.1 h).2
  simp only [Lane.acts, decide_eq_true_eq] at on
  simp [Lane.badTok, on]

theorem mem_executing_of_acting {w : Warp} {l : Lane} (h : l ∈ w.acting) : l ∈ w.executing := by
  obtain ⟨mem, on⟩ := List.mem_filter.1 h
  refine List.mem_filter.2 ⟨mem, ?_⟩
  simp only [Lane.acts, decide_eq_true_eq] at on
  simp [Lane.executes, on]

theorem poison_laneIn_none {s : State} {w : Warp} {srcs : List Src} {l : Lane} {xs : List Dword} (good : l.badTok = none)
    (h : s.sourceVals w srcs l = xs.map Val.dat) : (s.laneIn w srcs l).poison = none := by
  simp [LaneIn.poison, State.laneIn, good, h, Val.tok?]

theorem bits_laneIn {s : State} {w : Warp} {srcs : List Src} {l : Lane} {xs : List Dword} (h : s.sourceVals w srcs l = xs.map Val.dat) :
    (s.laneIn w srcs l).ins.map Val.bits = xs := by
  simp [State.laneIn, h, Function.comp_def, Val.bits]

/-- With untagged sources a thread whose guard holds takes the operation's result (R88). -/
theorem exec_perLane_laneTook {i : Instr} {L : LaneRule} (h : laneRule i = some L ∨ laneRule64 i = some L) {F : Fn}
    (hF : L.results = perLane fun x => F x.ftz) {s : State} {w : Warp} (hw : s.warp L.head = some w) (hp : L.dst.push w.slice = none)
    (hs : Starts s w L.srcs L.dst) (sound : Sound s w L.checked) :
    ∃ t, exec i s = .next t ∧ ∀ l ∈ w.acting, Lone w l → ∀ xs : List Dword, s.sourceVals w L.srcs l = xs.map Val.dat →
      ∃ a u, t.thread? l.key = some u
        ∧ LaneTook L l.t (.one (.dat (F (s.headerBit w.ctx w.act 2) xs).1) (F (s.headerBit w.ctx w.act 2) xs).2) a u := by
  obtain ⟨t, next, took⟩ := exec_lane_laneTook h hw hp hs sound
  refine ⟨t, next, fun l hl alone xs vals => took l _ ?_ alone⟩
  rw [hF, laneIns_eq, perLane, List.map_map]
  convert mem_zip_map _ (mem_executing_of_acting hl) using 2
  rw [Function.comp_apply, poison_laneIn_none (badTok_of_acting hl) vals, bits_laneIn vals]
  rfl

section
variable {L : LaneRule} {t a u : Thread} {v : Dword} {flags : Word} (h : LaneTook L t (.one (.dat v) flags) a u)
include h

/-- A result of a register destination: the register or the pair, and l0 and l1 with it. -/
theorem LaneTook.reg {r : Byte} {wide : Bool} (hd : L.dst = .reg r wide) :
    u.l0 = Cell.ofTw (.data (lo32 v)) ∧ (wide = true → u.l1 = Cell.ofTw (.data (hi32 v)))
      ∧ (r.toNat < 0xC8 → u.cell (fileIndex r) = Cell.ofTw (.data (lo32 v))
        ∧ (wide = true → u.cell (fileIndex r + 1) = Cell.ofTw (.data (hi32 v)))) := by
  obtain ⟨_, _, settled, stands⟩ := h
  rw [hd] at settled stands
  obtain ⟨narrow, pair, hl0, _⟩ := stands
  cases wide with
  | false => exact ⟨hl0, (nomatch ·), fun hr => ⟨narrow rfl hr, (nomatch ·)⟩⟩
  | true => exact ⟨hl0, fun _ => settled.l1_holds (writeOut_pair_l1 a r _), fun hr => ⟨(pair rfl hr).1, fun _ => (pair rfl hr).2⟩⟩

/-- The flags are raised. -/
theorem LaneTook.raises : u.tsw &&& flags = flags := by
  have written : (a.writeOut L.dst (.one (.dat v) flags)).tsw = a.tsw ||| flags := h.written.tsw
  have kept := h.settled.tsw
  rw [written] at kept
  calc u.tsw &&& flags = u.tsw &&& ((a.tsw ||| flags) &&& flags) := by
        rw [BitVec.and_comm (a.tsw ||| flags), BitVec.or_comm, and_or_absorb]
    _ = flags &&& ((a.tsw ||| flags) &&& u.tsw) := by ac_rfl
    _ = flags := by rw [kept, BitVec.or_comm, and_or_absorb]

/-- And no other, where no long write that has arrived waits for the run's end (R50). -/
theorem LaneTook.tsw (regs : ∀ x ∈ t.regs, x.2.arrived = false) (l0 : t.l0.arrived = false) (l1 : t.l1.arrived = false) :
    u.tsw = t.tsw ||| flags :=
  calc u.tsw = (a.writeOut L.dst (.one (.dat v) flags)).tsw := (h.settled.still (h.written.arrived (h.begun.arrived ⟨regs, l0, l1⟩))).2
    _ = a.tsw ||| flags := h.written.tsw
    _ = t.tsw ||| flags := by rw [h.begun.tsw]

end

end Sys2Proof.Machine
end

section
/-! Integers (spec/03 R53, R54, spec/06 R144): an exact value under a type, and the typed instructions. -/

namespace Sys2Proof.Machine

open Sys2Proof.Safety

/-! Two's complement. -/

theorem intWidth_pos (t : Nat) : 0 < intWidth t := by
  unfold intWidth
  split <;> decide

/-- The ends of a type are 2^w − 1 apart. -/
theorem intMax_eq (t : Nat) : intMax t = intMin t + 2 ^ intWidth t - 1 := by
  have half : (2 : Int) ^ intWidth t = 2 * 2 ^ (intWidth t - 1) := by
    rw [← pow_succ', Nat.sub_add_cancel (intWidth_pos t)]
  unfold intMax intMin
  split <;> omega

theorem intMin_le_intMax (t : Nat) : intMin t ≤ intMax t := by
  have : (0 : Int) < 2 ^ intWidth t := by positivity
  rw [intMax_eq]
  omega

theorem intRead_zero (t : Nat) : intRead t 0 = 0 := by
  unfold intRead signed
  split <;> simp

theorem signed_modEq (w x : Nat) : signed w x ≡ x [ZMOD 2 ^ w] := by
  have low : ((x % 2 ^ w : Nat) : Int) ≡ x [ZMOD 2 ^ w] := by
    push_cast
    exact Int.mod_modEq _ _
  unfold signed
  dsimp only
  split
  · exact low
  · exact (Int.modEq_sub_modulus_iff.2 Int.ModEq.rfl).symm.trans low

theorem intRead_modEq (t x : Nat) : intRead t x ≡ x [ZMOD 2 ^ intWidth t] := by
  unfold intRead
  split
  · exact signed_modEq _ _
  · push_cast
    exact Int.mod_modEq _ _

theorem intRead_mem (t x : Nat) : intMin t ≤ intRead t x ∧ intRead t x ≤ intMax t := by
  have lt : x % 2 ^ intWidth t < 2 ^ intWidth t := Nat.mod_lt _ (Nat.two_pow_pos _)
  have half : 2 ^ intWidth t = 2 * 2 ^ (intWidth t - 1) := by rw [← pow_succ', Nat.sub_add_cancel (intWidth_pos t)]
  unfold intMin intMax intRead signed
  generalize x % 2 ^ intWidth t = y at lt ⊢
  have cast : (2 : Int) ^ intWidth t = ((2 ^ intWidth t : Nat) : Int) := by push_cast; rfl
  have castHalf : (2 : Int) ^ (intWidth t - 1) = ((2 ^ (intWidth t - 1) : Nat) : Int) := by push_cast; rfl
  rw [cast, castHalf]
  dsimp only
  split
  · split <;> omega
  · omega

/-- A type has one value in each class modulo 2^w. -/
theorem eq_of_modEq_of_mem {t : Nat} {x y : Int} (h : x ≡ y [ZMOD 2 ^ intWidth t]) (hx : intMin t ≤ x ∧ x ≤ intMax t)
    (hy : intMin t ≤ y ∧ y ≤ intMax t) : x = y := by
  rw [intMax_eq] at hx hy
  obtain ⟨k, hk⟩ := h.dvd
  have pos : (0 : Int) < 2 ^ intWidth t := by positivity
  have small : |k| < 1 := abs_lt.2 ⟨by nlinarith, by nlinarith⟩
  obtain rfl := Int.abs_lt_one_iff.1 small
  omega

theorem intRead_eq {t x : Nat} {v : Int} (h : (x : Int) ≡ v [ZMOD 2 ^ intWidth t]) (hv : intMin t ≤ v ∧ v ≤ intMax t) : intRead t x = v :=
  eq_of_modEq_of_mem ((intRead_modEq t x).trans h) (intRead_mem t x) hv

theorem wrap_cast (w : Nat) (v : Int) : (wrap w v : Int) = v % 2 ^ w := Int.toNat_of_nonneg (Int.emod_nonneg _ (by positivity))

theorem wrap_modEq (w : Nat) (v : Int) : (wrap w v : Int) ≡ v [ZMOD 2 ^ w] := by
  rw [wrap_cast]
  exact Int.mod_modEq _ _

theorem wrap_lt (w : Nat) (v : Int) : wrap w v < 2 ^ w := by
  have := Int.emod_lt_of_pos v (show (0 : Int) < 2 ^ w by positivity)
  rw [← wrap_cast] at this
  exact_mod_cast this

theorem intWidth_le_32 {t : Nat} (h : t < 6) : intWidth t ≤ 32 := by
  interval_cases t <;> decide

theorem intWidth_eq_64 {t : Nat} (h : 6 ≤ t) : intWidth t = 64 := by
  unfold intWidth
  split <;> omega

/-- A register holds a w-bit pattern in its low w bits (R139). -/
theorem extOut_modEq {t p : Nat} (hp : p < 2 ^ intWidth t) : ((extOut t p).toNat : Int) ≡ p [ZMOD 2 ^ intWidth t] := by
  unfold extOut
  split
  · next h =>
    rw [intWidth_eq_64 h] at hp
    rw [BitVec.toNat_ofNat, Nat.mod_eq_of_lt hp]
  · next h =>
    have narrow := intWidth_le_32 (by omega : t < 6)
    have lt : wrap 32 (intRead t p) < 2 ^ 64 := (wrap_lt _ _).trans (by norm_num)
    rw [BitVec.toNat_ofNat, Nat.mod_eq_of_lt lt]
    exact ((wrap_modEq 32 _).of_dvd (pow_dvd_pow 2 narrow)).trans (intRead_modEq t p)

theorem intRead_extOut {t : Nat} {v : Int} (hv : intMin t ≤ v ∧ v ≤ intMax t) : intRead t (extOut t (wrap (intWidth t) v)).toNat = v :=
  intRead_eq ((extOut_modEq (wrap_lt _ _)).trans (wrap_modEq _ _)) hv

/-! An exact value under a type (R54). -/

theorem fitInt_mem {t : Nat} {v : Int} (h : intMin t ≤ v ∧ v ≤ intMax t) (sat : Bool) :
    fitInt t sat v = (extOut t (wrap (intWidth t) v), 0) := by
  unfold fitInt
  rw [if_neg (by omega), if_neg (by omega)]

theorem fitInt_above {t : Nat} {v : Int} (h : intMax t < v) : fitInt t true v = (extOut t (wrap (intWidth t) (intMax t)), SAT) := by
  unfold fitInt
  rw [if_pos ⟨rfl, h⟩]

theorem fitInt_below {t : Nat} {v : Int} (h : v < intMin t) : fitInt t true v = (extOut t (wrap (intWidth t) (intMin t)), SAT) := by
  have := intMin_le_intMax t
  unfold fitInt
  rw [if_neg (by omega), if_pos ⟨rfl, h⟩]

theorem fitInt_wraps (t : Nat) (v : Int) : fitInt t false v = (extOut t (wrap (intWidth t) v), 0) := by
  unfold fitInt
  rw [if_neg (by simp), if_neg (by simp)]

theorem intRead_fitInt_false (t : Nat) (v : Int) : intRead t (fitInt t false v).1.toNat ≡ v [ZMOD 2 ^ intWidth t] := by
  rw [fitInt_wraps]
  exact (intRead_modEq _ _).trans ((extOut_modEq (wrap_lt _ _)).trans (wrap_modEq _ _))

/-! The typed instructions (R144). -/

/-- What an operation makes of its sources is the exact value of g under a type. -/
def Fits (ty : Nat) (sat : Bool) (g : List Int → Int) (F : Fn) : Prop :=
  ∀ z xs, F z xs = fitInt ty sat (g (xs.map fun x => intRead ty x.toNat))

theorem iarg_eq (t : Nat) (xs : List Dword) (n : Nat) : iarg t xs n = (xs.map fun x => intRead t x.toNat).getD n 0 := by
  have : intRead t (0 : Dword).toNat = 0 := intRead_zero t
  rw [iarg, arg, ← this, List.getD_map]

theorem fnAdd_fits (t : Nat) (sat : Bool) : Fits t sat (fun xs => xs.getD 0 0 + xs.getD 1 0) (fnAdd t sat) := fun _ _ => by
  simp only [fnAdd, iarg_eq]

theorem fnSub_fits (t : Nat) (sat : Bool) : Fits t sat (fun xs => xs.getD 0 0 - xs.getD 1 0) (fnSub t sat) := fun _ _ => by
  simp only [fnSub, iarg_eq]

theorem fnMul_fits (t : Nat) (sat : Bool) : Fits t sat (fun xs => xs.getD 0 0 * xs.getD 1 0) (fnMul t sat) := fun _ _ => by
  simp only [fnMul, iarg_eq]

theorem fnMad_fits (t : Nat) (sat : Bool) : Fits t sat (fun xs => xs.getD 0 0 * xs.getD 1 0 + xs.getD 2 0) (fnMad t sat) := fun _ _ => by
  simp only [fnMad, iarg_eq]

theorem fnAddx_fits (t : Nat) (sat : Bool) : Fits t sat (fun xs => xs.getD 0 0 + xs.getD 1 0 + xs.getD 2 0) (fnAddx t sat) := fun _ _ => by
  simp only [fnAddx, iarg_eq]

theorem fnAbs_fits (t : Nat) (sat : Bool) : Fits t sat (fun xs => |xs.getD 0 0|) (fnAbs t sat) := fun _ _ => by
  simp only [fnAbs, iarg_eq, Int.natCast_natAbs]

theorem fnNeg_fits (t : Nat) (sat : Bool) : Fits t sat (fun xs => -xs.getD 0 0) (fnNeg t sat) := fun _ _ => by
  simp only [fnNeg, iarg_eq]

theorem fnMin_fits (t : Nat) : Fits t false (fun xs => min (xs.getD 0 0) (xs.getD 1 0)) (fnMin t) := fun _ _ => by
  simp only [fnMin, iarg_eq]

theorem fnMax_fits (t : Nat) : Fits t false (fun xs => max (xs.getD 0 0) (xs.getD 1 0)) (fnMax t) := fun _ _ => by
  simp only [fnMax, iarg_eq]

theorem exactInt_fits {i : Instr} {L : LaneRule} {ty : Nat} {sat : Bool} {g : List Int → Int} (hi : exactInt i = some (ty, sat, g))
    (hL : laneRule i = some L) : ∃ F : Fn, (L.results = perLane fun x => F x.ftz) ∧ Fits ty sat g F := by
  cases i with
  | iaddD f | iaddDp f => cases hi; cases hL; exact ⟨_, rfl, fnAdd_fits _ _⟩
  | isubD f | isubDp f => cases hi; cases hL; exact ⟨_, rfl, fnSub_fits _ _⟩
  | imulD f | imulDp f => cases hi; cases hL; exact ⟨_, rfl, fnMul_fits _ _⟩
  | imadD f => cases hi; cases hL; exact ⟨_, rfl, fnMad_fits _ _⟩
  | iaddxD f => cases hi; cases hL; exact ⟨_, rfl, fnAddx_fits _ _⟩
  | iabsD f => cases hi; cases hL; exact ⟨_, rfl, fnAbs_fits _ _⟩
  | inegD f => cases hi; cases hL; exact ⟨_, rfl, fnNeg_fits _ _⟩
  | iminD f | iminDp f => cases hi; cases hL; exact ⟨_, rfl, fnMin_fits _⟩
  | imaxD f | imaxDp f => cases hi; cases hL; exact ⟨_, rfl, fnMax_fits _⟩
  | _ => cases hi

/-- Settles O15: the value of a type is the one of its class modulo 2^w in its range; and the instruction's result is the thread's. -/
theorem typedArithmetic : Obligations.TypedArithmetic := by
  unfold Obligations.TypedArithmetic
  refine ⟨fun t sat v _ => ⟨fun inside => ?_, fun hs above => ?_, fun hs below => ?_, fun hs => ?_⟩,
    fun i L ty sat g rd wide s w hi hL hd hw hp hs sound => ?_⟩
  · rw [fitInt_mem inside, fitInt_mem inside]
    exact ⟨intRead_extOut inside, rfl, rfl⟩
  · rw [hs, fitInt_above above]
    exact ⟨intRead_extOut ⟨intMin_le_intMax t, le_rfl⟩, rfl⟩
  · rw [hs, fitInt_below below]
    exact ⟨intRead_extOut ⟨le_rfl, intMin_le_intMax t⟩, rfl⟩
  · subst hs
    obtain ⟨low, high⟩ := intRead_mem t (fitInt t false v).1.toNat
    exact ⟨Int.emod_eq_zero_of_dvd (intRead_fitInt_false t v).dvd, low, high, by rw [fitInt_wraps]⟩
  · obtain ⟨F, hF, fits⟩ := exactInt_fits hi hL
    obtain ⟨t, next, took⟩ := exec_perLane_laneTook (.inl hL) hF hw hp hs sound
    refine ⟨t, next, fun l hl alone xs vals => ?_⟩
    obtain ⟨a, u, hu, ok⟩ := took l hl alone xs vals
    rw [fits] at ok
    obtain ⟨hl0, hl1, cells⟩ := ok.reg hd
    exact ⟨u, hu, hl0, hl1, cells, ok.raises, ok.tsw⟩

end Sys2Proof.Machine
end

section
/-! The arithmetic of 32-bit words (spec/06 R144 to R146): what the operations of type .i32 make of words. -/

namespace Sys2Proof.Machine

open Sys2Proof.Safety

/-- What an operation makes of words is g of them, and raises no flag. -/
def OnWords (g : List Word → Word) (F : Fn) : Prop := ∀ z xs, lo32 (F z (xs.map zx)).1 = g xs ∧ (F z (xs.map zx)).2 = 0

/-! Words as sources and as results. -/

theorem arg_words (xs : List Word) (n : Nat) : arg (xs.map zx) n = zx (xs.getD n 0) := by
  rw [arg, ← List.getD_map (f := zx)]
  rfl

theorem toNat_zx (x : Word) : (zx x).toNat = x.toNat := by
  rw [zx, BitVec.zeroExtend, BitVec.toNat_setWidth, Nat.mod_eq_of_lt (x.isLt.trans (by norm_num))]

theorem intRead_word (x : Word) : intRead 4 x.toNat = x.toInt := by
  change signed 32 x.toNat = _
  rw [signed, Nat.mod_eq_of_lt x.isLt, BitVec.toInt_eq_toNat_cond]
  rfl

theorem iarg_words (xs : List Word) (n : Nat) : iarg 4 (xs.map zx) n = (xs.getD n 0).toInt := by
  rw [iarg, arg_words, toNat_zx, intRead_word]

theorem barg_words (xs : List Word) (n : Nat) : barg 4 (xs.map zx) n = (xs.getD n 0).toNat := by
  rw [barg, arg_words, toNat_zx]
  exact Nat.mod_eq_of_lt (BitVec.isLt _)

theorem warg_words (xs : List Word) (n : Nat) : warg (xs.map zx) n = (xs.getD n 0).toNat := by
  rw [warg, arg_words, toNat_zx]
  exact Nat.mod_eq_of_lt (BitVec.isLt _)

theorem ofNat_eq_ofInt {w n : Nat} {v : Int} (h : (n : Int) ≡ v [ZMOD 2 ^ w]) : BitVec.ofNat w n = BitVec.ofInt w v := by
  apply BitVec.eq_of_toNat_eq
  have h : (n : Int) % 2 ^ w = v % 2 ^ w := h
  have cast : (n : Int) % 2 ^ w = ((n % 2 ^ w : Nat) : Int) := by push_cast; rfl
  rw [BitVec.toNat_ofNat, BitVec.toNat_ofInt]
  push_cast
  rw [← h, cast, Int.toNat_natCast]

theorem lo32_ofNat (n : Nat) : lo32 (BitVec.ofNat 64 n) = BitVec.ofNat 32 n := by
  apply BitVec.eq_of_toNat_eq
  simp only [lo32, BitVec.extractLsb'_toNat, BitVec.toNat_ofNat, Nat.shiftRight_zero]
  exact Nat.mod_mod_of_dvd n (by norm_num)

/-- A 32-bit pattern stands in the low word. -/
theorem lo32_extOut (p : Nat) : lo32 (extOut 4 p) = BitVec.ofNat 32 p := by
  rw [extOut, if_neg (by decide), lo32_ofNat, ofNat_eq_ofInt ((wrap_modEq 32 _).trans (intRead_modEq 4 p)), BitVec.ofInt_natCast]

theorem lo32_fitInt (v : Int) : lo32 (fitInt 4 false v).1 = BitVec.ofInt 32 v := by
  rw [fitInt_wraps, lo32_extOut]
  exact ofNat_eq_ofInt (wrap_modEq 32 v)

/-- An exact value that the word arithmetic gives modulo 2^32. -/
theorem onWords_fitInt {g : List Word → Word} {v : List Dword → Int} (h : ∀ xs : List Word, BitVec.ofInt 32 (v (xs.map zx)) = g xs) :
    OnWords g fun _ xs => fitInt 4 false (v xs) := fun _ xs => ⟨(lo32_fitInt _).trans (h xs), congrArg Prod.snd (fitInt_wraps 4 _)⟩

/-- A pattern that is the word's. -/
theorem onWords_extOut {g : List Word → Word} {p : List Dword → Nat} (h : ∀ xs : List Word, BitVec.ofNat 32 (p (xs.map zx)) = g xs) :
    OnWords g fun _ xs => (extOut 4 (p xs), 0) := fun _ xs => ⟨(lo32_extOut _).trans (h xs), rfl⟩

theorem onWords_count {g : List Word → Word} {n : List Dword → Nat} (h : ∀ xs : List Word, BitVec.ofNat 32 (n (xs.map zx)) = g xs) :
    OnWords g fun _ xs => (BitVec.ofNat 64 (n xs), 0) := fun _ xs => ⟨(lo32_ofNat _).trans (h xs), rfl⟩

theorem ofNat_eq_word {p : Nat} {x : Word} (h : p = x.toNat) : BitVec.ofNat 32 p = x := by rw [h, BitVec.ofNat_toNat, BitVec.setWidth_eq]

/-! Arithmetic (R144). -/

theorem fnMov_words : OnWords (un id) (fnMov 4) :=
  onWords_fitInt fun xs => by rw [iarg_words, BitVec.ofInt_toInt]; rfl

theorem fnAdd_words : OnWords (bin (· + ·)) (fnAdd 4 false) :=
  onWords_fitInt fun xs => by rw [iarg_words, iarg_words, BitVec.ofInt_add, BitVec.ofInt_toInt, BitVec.ofInt_toInt]; rfl

theorem fnNeg_words : OnWords (un fun x => -x) (fnNeg 4 false) :=
  onWords_fitInt fun xs => by rw [iarg_words, BitVec.ofInt_neg, BitVec.ofInt_toInt]; rfl

theorem fnSub_words : OnWords (bin (· - ·)) (fnSub 4 false) :=
  onWords_fitInt fun xs => by
    rw [iarg_words, iarg_words, Int.sub_eq_add_neg, BitVec.ofInt_add, BitVec.ofInt_neg, BitVec.ofInt_toInt, BitVec.ofInt_toInt]
    exact (BitVec.sub_eq_add_neg _ _).symm

theorem fnMul_words : OnWords (bin (· * ·)) (fnMul 4 false) :=
  onWords_fitInt fun xs => by rw [iarg_words, iarg_words, BitVec.ofInt_mul, BitVec.ofInt_toInt, BitVec.ofInt_toInt]; rfl

/-- The upper word of the product of two sign-extended words. -/
theorem extractLsb'_signExtend_mul (x y : Word) :
    (x.signExtend 64 * y.signExtend 64).extractLsb' 32 32 = BitVec.ofInt 32 (x.toInt * y.toInt / 2 ^ 32) := by
  rw [BitVec.signExtend, BitVec.signExtend, ← BitVec.ofInt_mul]
  generalize x.toInt * y.toInt = p
  apply BitVec.eq_of_toNat_eq
  simp only [BitVec.extractLsb'_toNat, BitVec.toNat_ofInt, Nat.shiftRight_eq_div_pow]
  omega

theorem fnMulh_words : OnWords (bin fun x y => (x.signExtend 64 * y.signExtend 64).extractLsb' 32 32) (fnMulh 4) :=
  onWords_fitInt fun xs => by rw [iarg_words, iarg_words, bin, extractLsb'_signExtend_mul]; rfl

theorem fnMin_words : OnWords (bin minS) (fnMin 4) :=
  onWords_fitInt fun xs => by
    rw [iarg_words, iarg_words, bin, minS, BitVec.slt_eq_decide]
    by_cases h : (xs.getD 0 0).toInt < (xs.getD 1 0).toInt
    · rw [min_eq_left h.le, BitVec.ofInt_toInt, if_pos (decide_eq_true h)]
    · rw [min_eq_right (not_lt.1 h), BitVec.ofInt_toInt, if_neg (by simpa using h)]

theorem fnMax_words : OnWords (bin maxS) (fnMax 4) :=
  onWords_fitInt fun xs => by
    rw [iarg_words, iarg_words, bin, maxS, BitVec.slt_eq_decide]
    by_cases h : (xs.getD 1 0).toInt < (xs.getD 0 0).toInt
    · rw [max_eq_left h.le, BitVec.ofInt_toInt, if_pos (decide_eq_true h)]
    · rw [max_eq_right (not_lt.1 h), BitVec.ofInt_toInt, if_neg (by simpa using h)]

theorem fnAbs_words : OnWords (un fun x => if x.msb then -x else x) (fnAbs 4 false) :=
  onWords_fitInt fun xs => by
    rw [iarg_words, Int.natCast_natAbs, un, BitVec.msb_eq_toInt]
    by_cases h : (xs.getD 0 0).toInt < 0
    · rw [abs_of_neg h, BitVec.ofInt_neg, BitVec.ofInt_toInt, if_pos (decide_eq_true h)]
    · rw [abs_of_nonneg (not_lt.1 h), BitVec.ofInt_toInt, if_neg (by simpa using h)]

/-! Logic and shifts (R145). -/

theorem fnAnd_words : OnWords (bin (· &&& ·)) (fnAnd 4) :=
  onWords_extOut fun xs => ofNat_eq_word (by rw [barg_words, barg_words, bin, BitVec.toNat_and])

theorem fnOr_words : OnWords (bin (· ||| ·)) (fnOr 4) :=
  onWords_extOut fun xs => ofNat_eq_word (by rw [barg_words, barg_words, bin, BitVec.toNat_or])

theorem fnXor_words : OnWords (bin (· ^^^ ·)) (fnXor 4) :=
  onWords_extOut fun xs => ofNat_eq_word (by rw [barg_words, barg_words, bin, BitVec.toNat_xor])

theorem fnAndn_words : OnWords (bin fun x y => x &&& ~~~y) (fnAndn 4) :=
  onWords_extOut fun xs => ofNat_eq_word (by rw [barg_words, barg_words, bin, BitVec.toNat_and, BitVec.toNat_not]; rfl)

theorem fnNot_words : OnWords (un fun x => ~~~x) (fnNot 4) :=
  onWords_extOut fun xs => ofNat_eq_word (by rw [barg_words, un, BitVec.toNat_not]; rfl)

theorem fnShl_words : OnWords (bin shiftL) (fnShl 4) :=
  onWords_extOut fun xs => ofNat_eq_word (by
    rw [barg_words, warg_words, bin, shiftL, apply_ite BitVec.toNat, BitVec.toNat_shiftLeft, Nat.shiftLeft_eq]
    rfl)

theorem fnShr_words : OnWords (bin shiftR) (fnShr 4) :=
  onWords_extOut fun xs => ofNat_eq_word (by
    rw [barg_words, warg_words, bin, shiftR, apply_ite BitVec.toNat, BitVec.toNat_ushiftRight, Nat.shiftRight_eq_div_pow]
    rfl)

/-- From 31 on an arithmetic shift leaves the sign alone. -/
theorem toInt_div_two_pow_min (x : Word) (n : Nat) : x.toInt / 2 ^ min n 32 = x.toInt / 2 ^ min n 31 := by
  by_cases h : n < 32
  · rw [min_eq_left (by omega), min_eq_left (by omega)]
  · have low := x.le_toInt
    have high := x.toInt_lt
    rw [min_eq_right (by omega), min_eq_right (by omega)]
    omega

theorem fnSar_words : OnWords (bin shiftS) (fnSar 4) :=
  onWords_extOut fun xs => by
    rw [barg_words, warg_words, bin, shiftS, BitVec.sshiftRight, Int.shiftRight_eq_div_pow]
    refine (ofNat_eq_ofInt (wrap_modEq 32 _)).trans (congrArg _ ?_)
    exact (congrArg (· / _) (intRead_word _)).trans (by exact_mod_cast toInt_div_two_pow_min _ _)

/-- What a rotation carries round stands below what it shifts. -/
theorem toNat_rotL (x n : Word) : (rotL x n).toNat = x.toNat * 2 ^ (n.toNat % 32) % 2 ^ 32 + x.toNat / 2 ^ (32 - n.toNat % 32) := by
  have lt : n.toNat % 32 < 32 := Nat.mod_lt _ (by decide)
  rw [rotL, BitVec.toNat_rotateLeft, Nat.mod_mod, Nat.shiftLeft_eq, Nat.shiftRight_eq_div_pow]
  generalize n.toNat % 32 = k at lt ⊢
  have whole : 2 ^ 32 = 2 ^ k * 2 ^ (32 - k) := by rw [← pow_add, Nat.add_sub_cancel' lt.le]
  have carried : x.toNat / 2 ^ (32 - k) < 2 ^ k := Nat.div_lt_of_lt_mul (by rw [mul_comm, ← whole]; exact x.isLt)
  rw [mul_comm x.toNat, whole, Nat.mul_mod_mul_left, Nat.two_pow_add_eq_or_of_lt carried]

theorem fnRot_words : OnWords (bin rotL) (fnRot 4) :=
  onWords_extOut fun xs => ofNat_eq_word (by
    rw [barg_words, warg_words, bin, toNat_rotL]
    rfl)

/-! Counts (R146). -/

theorem fnPopc_words : OnWords (un onesOf) (fnPopc 4) :=
  onWords_count fun xs => by
    rw [barg_words, bitsUp, List.filter_map, List.length_map]
    rfl

theorem leading_eq (l : List Bool) : leading l = (l.takeWhile fun b => !b).length := by
  induction l with
  | nil => rfl
  | cons b l ih => cases b <;> simp [leading, ih]

theorem fnCtz_words : OnWords (un zerosBelow) (fnCtz 4) :=
  onWords_count fun xs => by
    rw [barg_words, bitsUp, leading_eq, List.takeWhile_map, List.length_map]
    rfl

theorem leading_bitsUp_reverse {w x : Nat} (h : x < 2 ^ w) : leading (bitsUp w x).reverse = if x = 0 then w else w - 1 - Nat.log2 x := by
  induction w with
  | zero =>
    obtain rfl : x = 0 := by simpa using h
    rfl
  | succ w ih =>
    rw [bitsUp, List.range_succ, List.map_append, List.reverse_append]
    change leading (x.testBit w :: (bitsUp w x).reverse) = _
    by_cases low : x < 2 ^ w
    · rw [Nat.testBit_lt_two_pow low, leading, ih low]
      split
      · rfl
      · next h0 => have := (Nat.log2_lt h0).2 low; omega
    · have h0 : x ≠ 0 := fun e => low (e ▸ Nat.two_pow_pos w)
      have top : Nat.log2 x = w := (Nat.log2_eq_iff h0).2 ⟨not_lt.1 low, h⟩
      have set : x.testBit w = true := top ▸ Nat.testBit_log2 h0
      rw [set, leading, if_neg h0, top]
      · omega
      · simp

theorem fnClz_words : OnWords (un zerosAbove) (fnClz 4) :=
  onWords_count fun xs => by
    rw [barg_words, un, zerosAbove]
    refine congrArg _ ((leading_bitsUp_reverse (BitVec.isLt _)).trans ?_)
    exact if_congr (BitVec.toNat_inj (y := 0)) rfl rfl

theorem b2n_eq (b : Bool) : b2n b = b.toNat := by cases b <;> rfl

theorem fromBits_succ (n : Nat) (b : Nat → Bool) : fromBits (n + 1) b = 2 ^ n * (b n).toNat + fromBits n b := by
  simp [fromBits, List.range_succ, b2n_eq, Nat.add_comm, Nat.mul_comm]

theorem fromBits_lt (n : Nat) (b : Nat → Bool) : fromBits n b < 2 ^ n := by
  induction n with
  | zero => exact Nat.one_pos
  | succ n ih =>
    rw [fromBits_succ, pow_succ]
    have := Nat.mul_le_mul_left (2 ^ n) (Bool.toNat_le (b n))
    omega

theorem testBit_fromBits (n : Nat) (b : Nat → Bool) (i : Nat) : (fromBits n b).testBit i = (decide (i < n) && b i) := by
  induction n with
  | zero => simp [fromBits]
  | succ n ih =>
    rw [fromBits_succ, Nat.testBit_two_pow_mul_add _ (fromBits_lt n b), ih, Nat.testBit_bool_toNat]
    rcases Nat.lt_trichotomy i n with below | rfl | above
    · simp [below, Nat.lt_succ_of_lt below]
    · simp
    · simp [above.le.not_gt, show ¬ i < n + 1 by omega, show i - n ≠ 0 by omega]

theorem fnBrev_words : OnWords (un BitVec.reverse) (fnBrev 4) :=
  onWords_extOut fun xs => by
    rw [barg_words, un]
    apply BitVec.eq_of_getLsbD_eq
    intro i hi
    rw [BitVec.getLsbD_reverse, BitVec.getMsbD_eq_getLsbD, BitVec.getLsbD_ofNat]
    change (decide (i < 32) && (fromBits 32 _).testBit i) = _
    rw [testBit_fromBits, ← Bool.and_assoc, Bool.and_self]
    rfl

/-! The instructions. -/

theorem wordOp_onWords {i : Instr} {L : LaneRule} {g : List Word → Word} (hi : wordOp i = some g) (hL : laneRule i = some L) :
    ∃ F : Fn, (L.results = perLane fun x => F x.ftz) ∧ OnWords g F := by
  cases i with
  | movH _ | movW _ | moviWi _ | movDp _ => cases hi; cases hL; exact ⟨_, rfl, fnMov_words⟩
  | iaddH _ | iaddW _ | iaddWimm _ | iaddWi _ => cases hi; cases hL; exact ⟨_, rfl, fnAdd_words⟩
  | isubH _ | isubW _ => cases hi; cases hL; exact ⟨_, rfl, fnSub_words⟩
  | imulH _ | imulW _ | imulWimm _ | imulWi _ => cases hi; cases hL; exact ⟨_, rfl, fnMul_words⟩
  | imulhW _ => cases hi; cases hL; exact ⟨_, rfl, fnMulh_words⟩
  | andH _ | andW _ | andWimm _ | andWi _ | andDp _ => cases hi; cases hL; exact ⟨_, rfl, fnAnd_words⟩
  | orH _ | orW _ | orWimm _ | orWi _ | orDp _ => cases hi; cases hL; exact ⟨_, rfl, fnOr_words⟩
  | xorH _ | xorW _ | xorWimm _ | xorWi _ | xorDp _ => cases hi; cases hL; exact ⟨_, rfl, fnXor_words⟩
  | andnW _ => cases hi; cases hL; exact ⟨_, rfl, fnAndn_words⟩
  | notW _ => cases hi; cases hL; exact ⟨_, rfl, fnNot_words⟩
  | shlH _ | shlW _ | shlWimm _ | shlDp _ => cases hi; cases hL; exact ⟨_, rfl, fnShl_words⟩
  | shrH _ | shrW _ | shrWimm _ | shrDp _ => cases hi; cases hL; exact ⟨_, rfl, fnShr_words⟩
  | sarH _ | sarW _ | sarWimm _ => cases hi; cases hL; exact ⟨_, rfl, fnSar_words⟩
  | rotW _ | rotWimm _ => cases hi; cases hL; exact ⟨_, rfl, fnRot_words⟩
  | iminH _ | iminW _ | iminWimm _ | iminWi _ => cases hi; cases hL; exact ⟨_, rfl, fnMin_words⟩
  | imaxH _ | imaxW _ | imaxWimm _ | imaxWi _ => cases hi; cases hL; exact ⟨_, rfl, fnMax_words⟩
  | popcW _ => cases hi; cases hL; exact ⟨_, rfl, fnPopc_words⟩
  | clzW _ => cases hi; cases hL; exact ⟨_, rfl, fnClz_words⟩
  | ctzW _ => cases hi; cases hL; exact ⟨_, rfl, fnCtz_words⟩
  | brevW _ => cases hi; cases hL; exact ⟨_, rfl, fnBrev_words⟩
  | inegW _ => cases hi; cases hL; exact ⟨_, rfl, fnNeg_words⟩
  | iabsW _ => cases hi; cases hL; exact ⟨_, rfl, fnAbs_words⟩
  | _ => cases hi

end Sys2Proof.Machine
end

section
/-! The finite numbers of a format (spec/03 R56, R57), in the order of their magnitudes. -/

namespace Sys2Proof.Machine

open Sys2Proof.Safety

/-- What the rounding and the order of a format rest on: a sign, an exponent and a mantissa field, and which patterns are no finite numbers. -/
structure Fmt.Regular (f : Fmt) : Prop where
  width : f.w = f.mbits + f.ebits + 1
  expo : 2 ≤ f.ebits
  mant : 1 ≤ f.mbits
  kind : f.ieee = true ∧ f.code ≠ 0xC ∨ f = e4m3 ∨ f = e2m1

theorem f32_regular : f32.Regular := ⟨rfl, by decide, by decide, .inl ⟨rfl, by decide⟩⟩

theorem f64_regular : f64.Regular := ⟨rfl, by decide, by decide, .inl ⟨rfl, by decide⟩⟩

theorem fmtOf_regular (t : Nat) : (fmtOf t).Regular := by
  unfold fmtOf
  split
  · exact ⟨rfl, by decide, by decide, .inl ⟨rfl, by decide⟩⟩
  · exact ⟨rfl, by decide, by decide, .inl ⟨rfl, by decide⟩⟩
  · exact f64_regular
  · exact ⟨rfl, by decide, by decide, .inr (.inl rfl)⟩
  · exact ⟨rfl, by decide, by decide, .inl ⟨rfl, by decide⟩⟩
  · exact ⟨rfl, by decide, by decide, .inr (.inr rfl)⟩
  · exact f32_regular

/-- The sign as a factor. -/
def signOf (s : Bool) : ℚ := if s then -1 else 1

/-- The significand of the magnitude pattern n, with its hidden bit, and the exponent of its last place. -/
def Fmt.sig (f : Fmt) (n : Nat) : Nat := if n / 2 ^ f.mbits = 0 then n % 2 ^ f.mbits else 2 ^ f.mbits + n % 2 ^ f.mbits
def Fmt.lsb (f : Fmt) (n : Nat) : Int := (max (n / 2 ^ f.mbits) 1 : Nat) - (f.bias : Int) - f.mbits

/-- The magnitude that the pattern n stands for. -/
def Fmt.mag (f : Fmt) (n : Nat) : ℚ := f.sig n * (2 : ℚ) ^ f.lsb n

theorem exactValue_fin (s : Bool) (m : Nat) (e : Int) : exactValue (.fin s m e) = some (signOf s * (m * (2 : ℚ) ^ e)) := by
  rw [exactValue, signOf, mul_assoc]

theorem exactValue_eq_some {n : Num} {v : ℚ} (h : exactValue n = some v) :
    ∃ s m e, n = .fin s m e ∧ v = signOf s * (m * (2 : ℚ) ^ e) := by
  cases n with
  | fin s m e => exact ⟨s, m, e, rfl, by rw [exactValue_fin] at h; exact (Option.some.inj h).symm⟩
  | nan | inf => cases h

theorem hasValue_unique {f : Fmt} {b : Nat} {x y : ℚ} (hx : HasValue f b x) (hy : HasValue f b y) : x = y := Option.some.inj (hx.symm.trans hy)

theorem abs_signOf_mul (s : Bool) {x : ℚ} (h : 0 ≤ x) : |signOf s * x| = x := by
  cases s <;> simp [signOf, abs_of_nonneg h]

/-! Patterns. -/

theorem decode_mod (f : Fmt) (c : Nat) : f.decode (c % 2 ^ f.w) = f.decode c := by simp only [Fmt.decode, Nat.mod_mod]

theorem signBits_eq (f : Fmt) (s : Bool) : f.signBits s = 2 ^ (f.w - 1) * s.toNat := by cases s <;> simp [Fmt.signBits]

/-- Every pattern is a sign and a magnitude pattern. -/
theorem pattern_eq {f : Fmt} (hf : f.Regular) (c : Nat) :
    c % 2 ^ f.w = f.signBits (c / 2 ^ (f.w - 1) % 2 == 1) + c % 2 ^ (f.w - 1) := by
  have whole : f.w = f.w - 1 + 1 := by have := hf.width; omega
  rw [signBits_eq, whole, Nat.add_sub_cancel, pow_succ, Nat.mod_mul, Nat.add_comm]
  rcases Nat.mod_two_eq_zero_or_one (c / 2 ^ (f.w - 1)) with e | e <;> simp [e]

theorem pattern_magnitude (f : Fmt) (s : Bool) {n : Nat} (hn : n < 2 ^ (f.w - 1)) : (f.signBits s + n) % 2 ^ (f.w - 1) = n := by
  rw [signBits_eq, Nat.mul_add_mod, Nat.mod_eq_of_lt hn]

theorem pattern_sign (f : Fmt) (s : Bool) {n : Nat} (hn : n < 2 ^ (f.w - 1)) : (f.signBits s + n).testBit (f.w - 1) = s := by
  rw [signBits_eq, Nat.testBit_two_pow_mul_add _ hn]
  cases s <;> simp

theorem two_pow_width {f : Fmt} (hf : f.Regular) : 2 ^ (f.w - 1) = 2 ^ f.mbits * 2 ^ f.ebits := by rw [hf.width, Nat.add_sub_cancel, pow_add]

theorem two_pow_w {f : Fmt} (hf : f.Regular) : 2 ^ f.w = 2 * 2 ^ (f.w - 1) := by
  rw [← pow_succ', Nat.sub_add_cancel (by have := hf.width; omega)]

theorem pattern_lt {f : Fmt} (hf : f.Regular) (s : Bool) {n : Nat} (hn : n < 2 ^ (f.w - 1)) : f.signBits s + n < 2 ^ f.w := by
  have whole := two_pow_w hf
  unfold Fmt.signBits
  split <;> omega

/-- The fields of a pattern, decoded (R57). -/
theorem decode_pattern {f : Fmt} (hf : f.Regular) (s : Bool) {n : Nat} (hn : n < 2 ^ (f.w - 1)) : f.decode (f.signBits s + n) =
    if f.ieee ∧ n / 2 ^ f.mbits = 2 ^ f.ebits - 1 then
      (if n % 2 ^ f.mbits = 0 then .inf s else .nan s (n % 2 ^ f.mbits) (!(n % 2 ^ f.mbits).testBit (f.mbits - 1)))
    else if f.code = 0xC ∧ n / 2 ^ f.mbits = 15 ∧ n % 2 ^ f.mbits = 7 then .nan s (n % 2 ^ f.mbits) false
    else if n / 2 ^ f.mbits = 0 then .fin s (n % 2 ^ f.mbits) (1 - (f.bias : Int) - f.mbits)
    else .fin s (2 ^ f.mbits + n % 2 ^ f.mbits) (((n / 2 ^ f.mbits : Nat) : Int) - f.bias - f.mbits) := by
  have exponent : (f.signBits s + n) / 2 ^ f.mbits % 2 ^ f.ebits = n / 2 ^ f.mbits := by
    rw [signBits_eq, two_pow_width hf, Nat.mul_assoc, Nat.mul_add_div (Nat.two_pow_pos _), Nat.mul_add_mod,
      Nat.mod_eq_of_lt (Nat.div_lt_of_lt_mul (two_pow_width hf ▸ hn))]
  have mantissa : (f.signBits s + n) % 2 ^ f.mbits = n % 2 ^ f.mbits := by
    rw [signBits_eq, two_pow_width hf, Nat.mul_assoc, Nat.mul_add_mod]
  unfold Fmt.decode
  dsimp only
  rw [Nat.mod_eq_of_lt (pattern_lt hf s hn), pattern_sign f s hn, exponent, mantissa]

theorem maxBits_lt {f : Fmt} (hf : f.Regular) : f.maxBits < 2 ^ (f.w - 1) := by
  rcases hf.kind with ⟨ieee, _⟩ | rfl | rfl
  · have pos : 1 * 1 ≤ (2 ^ f.ebits - 1) * 2 ^ f.mbits := by
      refine Nat.mul_le_mul ?_ (Nat.two_pow_pos _)
      have := Nat.pow_le_pow_right (n := 2) (by decide) hf.expo
      omega
    rw [Fmt.maxBits, if_pos ieee, two_pow_width hf, Nat.mul_comm (2 ^ f.mbits)]
    have := Nat.mul_le_mul_right (2 ^ f.mbits) (Nat.sub_le (2 ^ f.ebits) 1)
    omega
  · decide
  · decide

/-- Up to the greatest the patterns are the finite numbers (R57). -/
theorem decode_finite {f : Fmt} (hf : f.Regular) (s : Bool) {n : Nat} (h : n ≤ f.maxBits) :
    f.decode (f.signBits s + n) = .fin s (f.sig n) (f.lsb n) := by
  have hn := h.trans_lt (maxBits_lt hf)
  have finite : (if n / 2 ^ f.mbits = 0 then Num.fin s (n % 2 ^ f.mbits) (1 - (f.bias : Int) - f.mbits)
      else .fin s (2 ^ f.mbits + n % 2 ^ f.mbits) (((n / 2 ^ f.mbits : Nat) : Int) - f.bias - f.mbits)) = .fin s (f.sig n) (f.lsb n) := by
    unfold Fmt.sig Fmt.lsb
    split
    · next e => rw [e]; rfl
    · next e => rw [max_eq_left (Nat.one_le_iff_ne_zero.2 e)]
  rw [decode_pattern hf s hn]
  refine Eq.trans ?_ finite
  rcases hf.kind with ⟨ieee, code⟩ | rfl | rfl
  · have : n / 2 ^ f.mbits ≠ 2 ^ f.ebits - 1 := by
      rw [Fmt.maxBits, if_pos ieee] at h
      refine ((Nat.div_lt_iff_lt_mul (Nat.two_pow_pos _)).2 ?_).ne
      have : 0 < (2 ^ f.ebits - 1) * 2 ^ f.mbits :=
        Nat.mul_pos (by have := Nat.pow_le_pow_right (n := 2) (by decide) hf.expo; omega) (Nat.two_pow_pos _)
      omega
    rw [if_neg (by tauto), if_neg (by tauto)]
  · rw [if_neg (by simp [e4m3]), if_neg]
    change n ≤ 0x7E at h
    change ¬ (_ ∧ n / 2 ^ 3 = 15 ∧ n % 2 ^ 3 = 7)
    omega
  · rw [if_neg (by simp [e2m1]), if_neg (by simp [e2m1])]

/-- The patterns above the greatest stand for no number. -/
theorem decode_not_finite {f : Fmt} (hf : f.Regular) (s : Bool) {n : Nat} (hn : n < 2 ^ (f.w - 1)) (h : f.maxBits < n) :
    exactValue (f.decode (f.signBits s + n)) = none := by
  rw [decode_pattern hf s hn]
  rcases hf.kind with ⟨ieee, _⟩ | rfl | rfl
  · have : n / 2 ^ f.mbits = 2 ^ f.ebits - 1 := by
      rw [Fmt.maxBits, if_pos ieee] at h
      rw [two_pow_width hf] at hn
      have := Nat.div_lt_of_lt_mul hn
      have := (Nat.le_div_iff_mul_le (Nat.two_pow_pos f.mbits)).2 (show (2 ^ f.ebits - 1) * 2 ^ f.mbits ≤ n by omega)
      omega
    rw [if_pos ⟨ieee, this⟩]
    split <;> rfl
  · change n < 128 at hn
    change 0x7E < n at h
    obtain rfl : n = 127 := by omega
    rfl
  · change n < 8 at hn
    change 7 < n at h
    omega

theorem hasValue_finite {f : Fmt} (hf : f.Regular) (s : Bool) {n : Nat} (h : n ≤ f.maxBits) :
    HasValue f (f.signBits s + n) (signOf s * f.mag n) := by
  rw [HasValue, decode_finite hf s h, exactValue_fin, Fmt.mag]

/-- A pattern with a value is a sign and a finite magnitude. -/
theorem hasValue_pattern {f : Fmt} (hf : f.Regular) {c : Nat} {y : ℚ} (h : HasValue f c y) :
    ∃ s n, n ≤ f.maxBits ∧ c % 2 ^ f.w = f.signBits s + n ∧ y = signOf s * f.mag n := by
  have parts := pattern_eq hf c
  have lt : c % 2 ^ (f.w - 1) < 2 ^ (f.w - 1) := Nat.mod_lt _ (Nat.two_pow_pos _)
  rw [HasValue, ← decode_mod, parts] at h
  have finite : c % 2 ^ (f.w - 1) ≤ f.maxBits := by
    by_contra above
    rw [decode_not_finite hf _ lt (not_le.1 above)] at h
    cases h
  exact ⟨_, _, finite, parts, hasValue_unique h (hasValue_finite hf _ finite)⟩

/-! The order of magnitudes. -/

theorem mag_nonneg (f : Fmt) (n : Nat) : 0 ≤ f.mag n := by
  unfold Fmt.mag
  positivity

/-- A significand a at the exponent field k, the hidden bit taken away: where a reaches the next binade, its first magnitude. -/
theorem mag_bits (f : Fmt) {k a : Nat} (hk : 1 ≤ k) (ha : a ≤ 2 * 2 ^ f.mbits) (norm : k = 1 ∨ 2 ^ f.mbits ≤ a) :
    f.mag (k * 2 ^ f.mbits + a - 2 ^ f.mbits) = a * (2 : ℚ) ^ ((k : Int) - f.bias - f.mbits) := by
  have pos : 0 < 2 ^ f.mbits := Nat.two_pow_pos _
  have split (c r : Nat) (hr : r < 2 ^ f.mbits) : (c * 2 ^ f.mbits + r) / 2 ^ f.mbits = c ∧ (c * 2 ^ f.mbits + r) % 2 ^ f.mbits = r := by
    rw [Nat.mul_comm, Nat.mul_add_div pos, Nat.mul_add_mod, Nat.div_eq_of_lt hr, Nat.mod_eq_of_lt hr]
    exact ⟨rfl, rfl⟩
  unfold Fmt.mag Fmt.sig Fmt.lsb
  rcases Nat.lt_or_ge a (2 ^ f.mbits) with sub | normal
  · obtain rfl : k = 1 := norm.resolve_right (by omega)
    rw [show 1 * 2 ^ f.mbits + a - 2 ^ f.mbits = a by omega, Nat.div_eq_of_lt sub, Nat.mod_eq_of_lt sub]
    rfl
  · rcases ha.lt_or_eq with below | rfl
    · obtain ⟨e, r⟩ := split k (a - 2 ^ f.mbits) (by omega)
      rw [show k * 2 ^ f.mbits + a - 2 ^ f.mbits = k * 2 ^ f.mbits + (a - 2 ^ f.mbits) by omega, e, r, if_neg (by omega), max_eq_left hk,
        Nat.add_sub_cancel' normal]
    · obtain ⟨e, r⟩ := split (k + 1) 0 pos
      rw [show k * 2 ^ f.mbits + 2 * 2 ^ f.mbits - 2 ^ f.mbits = (k + 1) * 2 ^ f.mbits + 0 by rw [Nat.succ_mul k]; omega, e, r,
        if_neg (by omega), max_eq_left (by omega)]
      push_cast
      rw [show (k : Int) + 1 - f.bias - f.mbits = (k - f.bias - f.mbits) + 1 by ring, zpow_add_one₀ (by norm_num)]
      ring

theorem mag_strictMono (f : Fmt) : StrictMono f.mag := by
  refine strictMono_nat_of_lt_succ fun n => ?_
  have pos : 0 < 2 ^ f.mbits := Nat.two_pow_pos _
  have lt : n % 2 ^ f.mbits < 2 ^ f.mbits := Nat.mod_lt _ pos
  have parts := Nat.div_add_mod n (2 ^ f.mbits)
  have field : 1 ≤ max (n / 2 ^ f.mbits) 1 := le_max_right _ _
  have shape : n = max (n / 2 ^ f.mbits) 1 * 2 ^ f.mbits + f.sig n - 2 ^ f.mbits ∧ f.sig n + 1 ≤ 2 * 2 ^ f.mbits
      ∧ (max (n / 2 ^ f.mbits) 1 = 1 ∨ 2 ^ f.mbits ≤ f.sig n) := by
    unfold Fmt.sig
    rw [Nat.mul_comm] at parts
    split
    · next e => rw [e] at parts ⊢; simp at parts ⊢; omega
    · next e => rw [max_eq_left (Nat.one_le_iff_ne_zero.2 e)]; omega
  obtain ⟨here, top, norm⟩ := shape
  have next : n + 1 = max (n / 2 ^ f.mbits) 1 * 2 ^ f.mbits + (f.sig n + 1) - 2 ^ f.mbits := by
    have := Nat.mul_le_mul_right (2 ^ f.mbits) field
    omega
  have value := mag_bits f field top (norm.imp_right Nat.le_succ_of_le)
  rw [← next] at value
  rw [value, Fmt.mag, Fmt.lsb]
  have place : (0 : ℚ) < 2 ^ (((max (n / 2 ^ f.mbits) 1 : Nat) : Int) - f.bias - f.mbits) := by positivity
  push_cast at place ⊢
  nlinarith

theorem mag_zero (f : Fmt) : f.mag 0 = 0 := by simp [Fmt.mag, Fmt.sig]

theorem hasValue_zero {f : Fmt} (hf : f.Regular) (s : Bool) : HasValue f (f.signBits s) 0 := by
  have := hasValue_finite hf s (Nat.zero_le f.maxBits)
  rwa [mag_zero, mul_zero] at this

/-- What is in range is at most the greatest magnitude. -/
theorem le_mag_maxBits {f : Fmt} (hf : f.Regular) {s : Bool} {x : ℚ} (hx : 0 ≤ x) (h : InRange f (signOf s * x)) : x ≤ f.mag f.maxBits := by
  obtain ⟨b, y, hy, le⟩ := h
  obtain ⟨s', n, hn, _, rfl⟩ := hasValue_pattern hf hy
  rw [abs_signOf_mul s hx, abs_signOf_mul s' (mag_nonneg f n)] at le
  exact le.trans ((mag_strictMono f).monotone hn)

end Sys2Proof.Machine
end

section
/-! Rounding (spec/03 R61, R62): an exact value between two neighbouring magnitudes is rounded to one of them by the code. -/

namespace Sys2Proof.Machine

open Sys2Proof.Safety

/-! Which neighbour. -/

/-- The rounding of a magnitude x between its neighbours goes up; `odd` is the last bit of the lower one (R61). -/
def PicksUp (mode : Nat) (s odd : Bool) (lo x hi : ℚ) : Prop :=
  match mode with
  | 0 => hi - x < x - lo ∨ (hi - x = x - lo ∧ odd = true)
  | 1 => False
  | 2 => lo ≠ x ∧ s = false
  | 3 => lo ≠ x ∧ s = true
  | _ => hi - x ≤ x - lo

theorem not_picksUp_exact {mode : Nat} {s odd : Bool} {lo hi : ℚ} (h : lo < hi) : ¬ PicksUp mode s odd lo lo hi := by
  unfold PicksUp
  split
  · rintro (lt | ⟨eq, _⟩) <;> linarith
  · exact id
  · exact fun up => up.1 rfl
  · exact fun up => up.1 rfl
  · intro up
    linarith

/-- The nearer neighbour is a nearest number, and another as near is the other neighbour of a tie. -/
theorem nearest_of_nearer {lo x hi v z : ℚ} (hlo : lo ≤ x) (hhi : x ≤ hi) (gap : z ≤ lo ∨ hi ≤ z)
    (nearer : v = lo ∧ x - lo ≤ hi - x ∨ v = hi ∧ hi - x ≤ x - lo) :
    |v - x| ≤ |z - x| ∧ (|v - x| = |z - x| → z = v ∨ hi - x = x - lo ∧ (z = lo ∨ z = hi)) := by
  have away : z ≤ lo ∧ |z - x| = x - z ∨ hi ≤ z ∧ |z - x| = z - x := gap.imp
    (fun h => ⟨h, by rw [abs_of_nonpos (by linarith)]; ring⟩) (fun h => ⟨h, abs_of_nonneg (by linarith)⟩)
  rcases nearer with ⟨rfl, near⟩ | ⟨rfl, near⟩
  · rw [show |v - x| = x - v by rw [abs_of_nonpos (by linarith)]; ring]
    rcases away with ⟨below, dist⟩ | ⟨above, dist⟩ <;> rw [dist]
    · exact ⟨by linarith, fun e => .inl (by linarith)⟩
    · exact ⟨by linarith, fun e => .inr ⟨by linarith, .inr (by linarith)⟩⟩
  · rw [abs_of_nonneg (show 0 ≤ v - x by linarith)]
    rcases away with ⟨below, dist⟩ | ⟨above, dist⟩ <;> rw [dist]
    · exact ⟨by linarith, fun e => .inr ⟨by linarith, .inl (by linarith)⟩⟩
    · exact ⟨by linarith, fun e => .inl (by linarith)⟩

/-- No number lies between two neighbours, of either sign. -/
theorem mag_gap (f : Fmt) (n : Nat) (s : Bool) (k : Nat) : signOf s * f.mag k ≤ f.mag n ∨ f.mag (n + 1) ≤ signOf s * f.mag k := by
  have nonneg := mag_nonneg f k
  have nonneg' := mag_nonneg f n
  cases s with
  | true => exact .inl (by simp only [signOf, if_true]; linarith)
  | false =>
    simp only [signOf, Bool.false_eq_true, if_false, one_mul]
    exact (Nat.lt_or_ge n k).symm.imp (fun le => (mag_strictMono f).monotone le) (fun lt => (mag_strictMono f).monotone lt)

/-- The neighbour n of the magnitude x, or the one above it, as the code picks. -/
structure Picked (f : Fmt) (mode : Nat) (s : Bool) (x : ℚ) (n b : Nat) : Prop where
  low : f.mag n ≤ x
  high : x < f.mag (n + 1)
  pick : b = n ∧ ¬ PicksUp mode s (n % 2 = 1) (f.mag n) x (f.mag (n + 1)) ∨ b = n + 1 ∧ PicksUp mode s (n % 2 = 1) (f.mag n) x (f.mag (n + 1))

section
variable {f : Fmt} {mode : Nat} {s : Bool} {x : ℚ} {n b : Nat} (h : Picked f mode s x n b)
include h

theorem Picked.mag_eq_iff : f.mag b = x ↔ f.mag n = x := by
  have step := mag_strictMono f n.lt_succ_self
  rcases h.pick with ⟨rfl, _⟩ | ⟨rfl, up⟩
  · exact Iff.rfl
  · refine ⟨fun e => absurd e h.high.ne', fun e => ?_⟩
    rw [← e] at up
    exact absurd up (not_picksUp_exact step)

theorem Picked.le_maxBits (range : x ≤ f.mag f.maxBits) : b ≤ f.maxBits := by
  have le : n ≤ f.maxBits := (mag_strictMono f).le_iff_le.1 (h.low.trans range)
  rcases h.pick with ⟨rfl, _⟩ | ⟨rfl, up⟩
  · exact le
  · refine lt_of_le_of_ne le fun e => ?_
    have : f.mag n = x := le_antisymm h.low (e ▸ range)
    rw [← this] at up
    exact not_picksUp_exact (mag_strictMono f n.lt_succ_self) up

end

theorem signOf_mul (s t : Bool) : signOf s * signOf t = signOf (s != t) := by cases s <;> cases t <;> norm_num [signOf]

theorem signOf_mul_signOf_mul (s : Bool) (x : ℚ) : signOf s * (signOf s * x) = x := by
  rw [← mul_assoc, signOf_mul]
  simp [signOf]

theorem abs_signOf_mul_eq (s : Bool) (x : ℚ) : |signOf s * x| = |x| := by cases s <;> simp [signOf]

theorem abs_signOf_mul_sub (s : Bool) (v x : ℚ) : |signOf s * v - signOf s * x| = |v - x| := by rw [← mul_sub, abs_signOf_mul_eq]

section
variable {f : Fmt} {s : Bool} {x : ℚ} {n b : Nat} {z : ℚ}

/-- The nearer neighbour (codes 0 and 4) leaves no number nearer. -/
theorem nearest_mag (gap : z ≤ f.mag n ∨ f.mag (n + 1) ≤ z) {mode : Nat} (h : Picked f mode s x n b)
    (up : PicksUp mode s (n % 2 = 1) (f.mag n) x (f.mag (n + 1)) → f.mag (n + 1) - x ≤ x - f.mag n)
    (down : ¬ PicksUp mode s (n % 2 = 1) (f.mag n) x (f.mag (n + 1)) → x - f.mag n ≤ f.mag (n + 1) - x) :
    |f.mag b - x| ≤ |z - x|
      ∧ (|f.mag b - x| = |z - x| → z = f.mag b ∨ f.mag (n + 1) - x = x - f.mag n ∧ (z = f.mag n ∨ z = f.mag (n + 1))) :=
  nearest_of_nearer h.low h.high.le gap (h.pick.imp (fun p => ⟨congrArg f.mag p.1, down p.2⟩) (fun p => ⟨congrArg f.mag p.1, up p.2⟩))

/-- The lower neighbour is the greatest number up to x. -/
theorem lower_mag {mode : Nat} (h : Picked f mode s x n b) (gap : z ≤ f.mag n ∨ f.mag (n + 1) ≤ z)
    (stays : ¬ PicksUp mode s (n % 2 = 1) (f.mag n) x (f.mag (n + 1))) : f.mag b ≤ x ∧ (z ≤ x → z ≤ f.mag b) := by
  obtain ⟨low, high, pick⟩ := h
  obtain ⟨rfl, _⟩ := pick.resolve_right fun p => stays p.2
  exact ⟨low, fun le => gap.resolve_right (by linarith)⟩

/-- The upper neighbour, or x itself, is the least number from x on. -/
theorem upper_mag {mode : Nat} (h : Picked f mode s x n b) (gap : z ≤ f.mag n ∨ f.mag (n + 1) ≤ z)
    (up : PicksUp mode s (n % 2 = 1) (f.mag n) x (f.mag (n + 1)) ↔ f.mag n ≠ x) : x ≤ f.mag b ∧ (x ≤ z → f.mag b ≤ z) := by
  obtain ⟨low, high, pick⟩ := h
  rcases pick with ⟨rfl, exact⟩ | ⟨rfl, inexact⟩
  · obtain rfl : f.mag b = x := not_not.1 fun ne => exact (up.2 ne)
    exact ⟨le_rfl, id⟩
  · have lt : f.mag n < x := low.lt_of_ne (up.1 inexact)
    exact ⟨high.le, fun le => gap.resolve_left (by linarith)⟩

end

/-- A picked magnitude is the rounded value. -/
theorem Picked.roundsTo {f : Fmt} (hf : f.Regular) {mode : Nat} {s : Bool} {x : ℚ} {n b : Nat} (h : Picked f mode s x n b)
    (finite : b ≤ f.maxBits) : RoundsTo f mode (signOf s * x) (f.signBits s + b) := by
  have even : (f.signBits s + b) % 2 = b % 2 := by
    obtain ⟨k, hk⟩ : 2 ∣ f.signBits s := by
      rw [signBits_eq]
      exact Dvd.dvd.mul_right (dvd_pow_self 2 (by have := hf.width; have := hf.mant; omega)) _
    omega
  refine ⟨pattern_lt hf s (finite.trans_lt (maxBits_lt hf)), _, hasValue_finite hf s finite, fun c y hy => ?_⟩
  obtain ⟨s', k, _, _, rfl⟩ := hasValue_pattern hf hy
  obtain ⟨z, hz, gap, size⟩ : ∃ z, signOf s' * f.mag k = signOf s * z ∧ (z ≤ f.mag n ∨ f.mag (n + 1) ≤ z) ∧ |z| = f.mag k := by
    refine ⟨signOf (s != s') * f.mag k, ?_, mag_gap f n _ k, abs_signOf_mul _ (mag_nonneg f k)⟩
    rw [← signOf_mul, mul_assoc, signOf_mul_signOf_mul]
  have x0 : 0 ≤ x := (mag_nonneg f n).trans h.low
  rw [hz, even]
  match mode, h with
  | 0, h =>
    obtain ⟨near, tie⟩ := nearest_mag gap h (fun up => up.elim le_of_lt fun t => t.1.le) fun down => not_lt.1 fun lt => down (.inl lt)
    simp only [abs_signOf_mul_sub]
    refine ⟨near, fun e => (tie e).imp (congrArg _) fun t => ?_⟩
    rcases h.pick with ⟨rfl, down⟩ | ⟨rfl, up⟩
    · have : ¬ b % 2 = 1 := fun odd => down (.inr ⟨t.1, decide_eq_true odd⟩)
      omega
    · have := of_decide_eq_true (up.resolve_left (by linarith [t.1])).2
      omega
  | 1, h =>
    have abs_gap : |z| ≤ f.mag n ∨ f.mag (n + 1) ≤ |z| := by simpa [size, signOf] using mag_gap f n false k
    obtain ⟨le, greatest⟩ := lower_mag h abs_gap id
    simp only [abs_signOf_mul_eq, abs_of_nonneg x0, abs_of_nonneg (mag_nonneg f b)]
    refine ⟨le, ?_, greatest⟩
    rw [mul_mul_mul_comm, signOf_mul]
    simpa [signOf] using mul_nonneg (mag_nonneg f b) x0
  | 2, h =>
    cases s with
    | false => simpa [signOf] using upper_mag h gap (and_iff_left rfl)
    | true => simpa [signOf] using lower_mag h gap fun up => nomatch up.2
  | 3, h =>
    cases s with
    | false => simpa [signOf] using lower_mag h gap fun up => nomatch up.2
    | true => simpa [signOf] using upper_mag h gap (and_iff_left rfl)
  | m + 4, h =>
    obtain ⟨near, tie⟩ := nearest_mag gap h id fun down => (not_le.1 down).le
    simp only [abs_signOf_mul_sub, abs_signOf_mul_eq, abs_of_nonneg (mag_nonneg f b)]
    refine ⟨near, fun e => ?_⟩
    rcases tie e with rfl | ⟨halfway, ends⟩
    · exact (abs_of_nonneg (mag_nonneg f b)).le
    · obtain ⟨rfl, _⟩ := h.pick.resolve_left fun p => p.2 halfway.le
      rcases ends with rfl | rfl
      · rw [abs_of_nonneg (mag_nonneg f n)]
        exact (mag_strictMono f n.lt_succ_self).le
      · exact (abs_of_nonneg (mag_nonneg f _)).le

end Sys2Proof.Machine
end

section
/-! Floating-point arithmetic on finite values (spec/06 R149, R150, R153, spec/03 R62). -/

namespace Sys2Proof.Machine

open Sys2Proof.Safety

/-! One rounding. -/

/-- The exact value x rounded once, with its flags: NX where it is inexact, UF beside it below the least normal number (R62). -/
structure Fmt.Rounded (f : Fmt) (mode : Nat) (x : ℚ) (r : Nat × Word) : Prop where
  rounds : RoundsTo f mode x r.1
  exact : HasValue f r.1 x → r.2 = 0
  inexact : ¬ HasValue f r.1 x → r.2 = NX ||| (if r.1 % 2 ^ (f.w - 1) < 2 ^ f.mbits then UF else 0)

theorem rounded_of_hasValue {f : Fmt} (mode : Nat) {v : ℚ} {b : Nat} (h : HasValue f b v) (hb : b < 2 ^ f.w) : f.Rounded mode v (b, 0) := by
  refine ⟨⟨hb, v, h, fun c y _ => ?_⟩, fun _ => rfl, fun ne => absurd h ne⟩
  have self : |v - v| = 0 := by rw [sub_self, abs_zero]
  have apart : |v - v| = |y - v| → y = v := fun e => sub_eq_zero.1 (abs_eq_zero.1 (e.symm.trans self))
  match mode with
  | 0 => exact ⟨self ▸ abs_nonneg _, fun e => .inl (apart e)⟩
  | 1 => exact ⟨le_rfl, mul_self_nonneg v, id⟩
  | 2 => exact ⟨le_rfl, id⟩
  | 3 => exact ⟨le_rfl, id⟩
  | m + 4 => exact ⟨self ▸ abs_nonneg _, fun e => (congrArg _ (apart e)).le⟩

/-- The remainder r of 2^k against one half, in the units of the exact value. -/
theorem roundsUp_iff (mode : Nat) (s odd : Bool) (r k : Nat) (lo : ℚ) {u : ℚ} (hu : 0 < u) :
    roundsUp mode s odd r k = true ↔ PicksUp mode s odd lo (lo + r * u) (lo + (2 ^ k : Nat) * u) := by
  have below : lo + r * u - lo = r * u := by ring
  have above : lo + (2 ^ k : Nat) * u - (lo + r * u) = ((2 ^ k : Nat) - r) * u := by ring
  have half : (2 : ℚ) * r = (2 * r : Nat) := by push_cast; rfl
  have lt : ((2 ^ k : Nat) - r) * u < r * u ↔ 2 ^ k < 2 * r := by
    rw [mul_lt_mul_iff_left₀ hu, sub_lt_iff_lt_add, ← two_mul, half, Nat.cast_lt]
  have eq : ((2 ^ k : Nat) - r) * u = r * u ↔ 2 * r = 2 ^ k := by
    rw [mul_left_inj' hu.ne', sub_eq_iff_eq_add, ← two_mul, half, Nat.cast_inj]
    exact eq_comm
  have le : ((2 ^ k : Nat) - r) * u ≤ r * u ↔ 2 ^ k ≤ 2 * r := by
    rw [mul_le_mul_iff_left₀ hu, sub_le_iff_le_add, ← two_mul, half, Nat.cast_le]
  have ne : lo ≠ lo + r * u ↔ r ≠ 0 := by simp [hu.ne']
  unfold roundsUp PicksUp
  rw [below, above, lt, eq, le, ne]
  dsimp only
  split <;> simp

/-- The multiple a of u, or the one above it, as the code picks for x; and whether x is no multiple. -/
structure PickedMultiple (mode : Nat) (s : Bool) (x u : ℚ) (a : Nat) (r : Nat × Bool) : Prop where
  low : a * u ≤ x
  high : x < (a + 1 : Nat) * u
  inexact : r.2 = true ↔ a * u ≠ x
  pick : r.1 = a ∧ ¬ PicksUp mode s (a % 2 = 1) (a * u) x ((a + 1 : Nat) * u)
    ∨ r.1 = a + 1 ∧ PicksUp mode s (a % 2 = 1) (a * u) x ((a + 1 : Nat) * u)

theorem roundTo_picks (mode : Nat) (s : Bool) (m : Nat) (e q : Int) :
    ∃ a, PickedMultiple mode s (m * 2 ^ e) (2 ^ q) a (roundTo mode s m e q) := by
  by_cases hq : q ≤ e
  · obtain ⟨k, rfl⟩ : ∃ k : Nat, e = k + q := ⟨(e - q).toNat, by omega⟩
    have value : (m : ℚ) * 2 ^ ((k : Int) + q) = (m * 2 ^ k : Nat) * 2 ^ q := by
      rw [zpow_add₀ two_ne_zero, zpow_natCast]
      push_cast
      ring
    have step : ((m * 2 ^ k : Nat) : ℚ) * 2 ^ q < (m * 2 ^ k + 1 : Nat) * 2 ^ q := by
      have : (0 : ℚ) < 2 ^ q := by positivity
      push_cast
      linarith
    have done : roundTo mode s m (k + q) q = (m * 2 ^ k, false) := by rw [roundTo, if_pos hq, Int.add_sub_cancel, Int.toNat_natCast]
    refine ⟨m * 2 ^ k, ?_⟩
    rw [done, value]
    exact ⟨le_rfl, step, by simp, .inl ⟨rfl, not_picksUp_exact step⟩⟩
  · obtain ⟨k, rfl⟩ : ∃ k : Nat, q = k + e := ⟨(q - e).toNat, by omega⟩
    have place : (0 : ℚ) < 2 ^ e := by positivity
    have r_lt : ((m % 2 ^ k : Nat) : ℚ) < (2 ^ k : Nat) := by exact_mod_cast Nat.mod_lt m (Nat.two_pow_pos k)
    have x_eq : (m : ℚ) * 2 ^ e = (m / 2 ^ k : Nat) * 2 ^ ((k : Int) + e) + (m % 2 ^ k : Nat) * 2 ^ e := by
      rw [zpow_add₀ two_ne_zero, zpow_natCast]
      have := congrArg (Nat.cast : Nat → ℚ) (Nat.div_add_mod m (2 ^ k))
      push_cast at this ⊢
      rw [← this]
      ring
    have hi_eq : ((m / 2 ^ k + 1 : Nat) : ℚ) * 2 ^ ((k : Int) + e) = (m / 2 ^ k : Nat) * 2 ^ ((k : Int) + e) + (2 ^ k : Nat) * 2 ^ e := by
      rw [zpow_add₀ two_ne_zero, zpow_natCast]
      push_cast
      ring
    have done : roundTo mode s m e (k + e)
        = (if roundsUp mode s (m / 2 ^ k % 2 = 1) (m % 2 ^ k) k then m / 2 ^ k + 1 else m / 2 ^ k, m % 2 ^ k != 0) := by
      rw [roundTo, if_neg hq, Int.add_sub_cancel, Int.toNat_natCast]
    have up := roundsUp_iff mode s (m / 2 ^ k % 2 = 1) (m % 2 ^ k) k ((m / 2 ^ k : Nat) * 2 ^ ((k : Int) + e)) place
    rw [← hi_eq, ← x_eq] at up
    rw [done]
    refine ⟨m / 2 ^ k, ?_, ?_, ?_, ?_⟩
    · rw [x_eq]
      exact le_add_of_nonneg_right (by positivity)
    · rw [x_eq, hi_eq]
      exact (add_lt_add_iff_left _).2 ((mul_lt_mul_iff_left₀ place).2 r_lt)
    · rw [x_eq]
      simp [place.ne']
    · rw [← up]
      split
      · next h => exact .inr ⟨rfl, h⟩
      · next h => exact .inl ⟨rfl, h⟩

/-- The place to which R62 rounds a magnitude, as an exponent field. -/
def Fmt.field (f : Fmt) (m : Nat) (e : Int) : Nat := (max (topExp m e) (1 - f.bias) + f.bias).toNat

theorem field_pos (f : Fmt) (m : Nat) (e : Int) : 1 ≤ f.field m e := by
  unfold Fmt.field
  omega

theorem field_cast (f : Fmt) (m : Nat) (e : Int) : (f.field m e : Int) - f.bias = max (topExp m e) (1 - f.bias) := by
  unfold Fmt.field
  omega

/-- The significand at that place fits, and is normal but in the lowest binade. -/
theorem field_significand {f : Fmt} {m : Nat} {e : Int} (hm : m ≠ 0) {a : Nat}
    (low : (a : ℚ) * 2 ^ ((f.field m e : Int) - f.bias - f.mbits) ≤ m * 2 ^ e)
    (high : (m : ℚ) * 2 ^ e < (a + 1 : Nat) * 2 ^ ((f.field m e : Int) - f.bias - f.mbits)) :
    a < 2 * 2 ^ f.mbits ∧ (f.field m e = 1 ∨ 2 ^ f.mbits ≤ a) := by
  have place : (0 : ℚ) < 2 ^ ((f.field m e : Int) - f.bias - f.mbits) := by positivity
  have scaled (c : Nat) : ((c * 2 ^ f.mbits : Nat) : ℚ) * 2 ^ ((f.field m e : Int) - f.bias - f.mbits)
      = c * 2 ^ ((f.field m e : Int) - f.bias) := by
    rw [zpow_sub₀ two_ne_zero _ (f.mbits : Int), zpow_natCast]
    push_cast
    field_simp
  have top : (m : ℚ) * 2 ^ e < 2 * 2 ^ topExp m e := by
    have : (m : ℚ) < 2 * 2 ^ Nat.log2 m := by exact_mod_cast (pow_succ' 2 (Nat.log2 m)) ▸ Nat.lt_log2_self
    rw [topExp, zpow_add₀ two_ne_zero, zpow_natCast, ← mul_assoc]
    exact (mul_lt_mul_iff_left₀ (by positivity)).2 this
  have bottom : (2 : ℚ) ^ topExp m e ≤ m * 2 ^ e := by
    have : (2 : ℚ) ^ Nat.log2 m ≤ m := by exact_mod_cast Nat.log2_self_le hm
    rw [topExp, zpow_add₀ two_ne_zero, zpow_natCast]
    exact (mul_le_mul_iff_left₀ (by positivity)).2 this
  have field := field_cast f m e
  constructor
  · have le : (2 : ℚ) ^ topExp m e ≤ 2 ^ ((f.field m e : Int) - f.bias) := zpow_le_zpow_right₀ one_le_two (by omega)
    have lt : (a : ℚ) * 2 ^ ((f.field m e : Int) - f.bias - f.mbits) < (2 * 2 ^ f.mbits : Nat) * 2 ^ ((f.field m e : Int) - f.bias - f.mbits) := by
      rw [scaled 2]
      push_cast
      linarith
    exact_mod_cast (mul_lt_mul_iff_left₀ place).1 lt
  · rcases (field_pos f m e).eq_or_lt with one | normal
    · exact .inl one.symm
    · have e_eq : topExp m e = f.field m e - f.bias := by omega
      have lt : (1 * 2 ^ f.mbits : Nat) * (2 : ℚ) ^ ((f.field m e : Int) - f.bias - f.mbits)
          < (a + 1 : Nat) * 2 ^ ((f.field m e : Int) - f.bias - f.mbits) := by
        rw [e_eq] at bottom
        rw [scaled 1, Nat.cast_one, one_mul]
        exact bottom.trans_lt high
      have : 1 * 2 ^ f.mbits < a + 1 := by exact_mod_cast (mul_lt_mul_iff_left₀ place).1 lt
      omega

/-- Rounding at that place picks one of two neighbouring magnitudes. -/
theorem roundTo_picked {f : Fmt} (hf : f.Regular) (mode : Nat) (s : Bool) {m : Nat} (hm : m ≠ 0) (e : Int) :
    let r := roundTo mode s m e ((f.field m e : Int) - f.bias - f.mbits)
    ∃ n, Picked f mode s (m * 2 ^ e) n (f.field m e * 2 ^ f.mbits + r.1 - 2 ^ f.mbits) ∧ (r.2 = true ↔ f.mag n ≠ m * 2 ^ e) := by
  obtain ⟨a, low, high, inexact, pick⟩ := roundTo_picks mode s m e ((f.field m e : Int) - f.bias - f.mbits)
  obtain ⟨small, normal⟩ := field_significand hm low high
  have field := field_pos f m e
  have scaled := Nat.mul_le_mul_right (2 ^ f.mbits) field
  have mag := mag_bits f field small.le normal
  have mag' := mag_bits f field (Nat.succ_le_of_lt small) (normal.imp_right Nat.le_succ_of_le)
  have next : f.field m e * 2 ^ f.mbits + (a + 1) - 2 ^ f.mbits = f.field m e * 2 ^ f.mbits + a - 2 ^ f.mbits + 1 := by omega
  have parity : (f.field m e * 2 ^ f.mbits + a - 2 ^ f.mbits) % 2 = a % 2 := by
    obtain ⟨k, hk⟩ : 2 ∣ 2 ^ f.mbits := dvd_pow_self 2 (by have := hf.mant; omega)
    have : f.field m e * 2 ^ f.mbits = 2 * (f.field m e * k) := by rw [hk]; ring
    omega
  rw [Nat.succ_eq_add_one, next] at mag'
  rw [← mag, ← mag'] at pick
  rw [← mag] at low inexact
  rw [← mag'] at high
  refine ⟨f.field m e * 2 ^ f.mbits + a - 2 ^ f.mbits, ⟨low, high, ?_⟩, inexact⟩
  rw [parity]
  exact pick.imp (fun p => ⟨by rw [p.1], p.2⟩) (fun p => ⟨by rw [p.1, next], p.2⟩)

theorem roundFull_rounded {f : Fmt} (hf : f.Regular) (mode : Nat) (s : Bool) (m : Nat) (e : Int) (range : InRange f (signOf s * (m * 2 ^ e))) :
    f.Rounded mode (signOf s * (m * 2 ^ e)) ((f.roundFull mode false s m e).1, (f.roundFull mode false s m e).2.1) := by
  by_cases hm : m = 0
  · subst hm
    have zero : f.roundFull mode false s 0 e = (f.signBits s, 0, false) := if_pos rfl
    rw [zero, Nat.cast_zero, zero_mul, mul_zero]
    exact rounded_of_hasValue mode (hasValue_zero hf s) (by simpa using pattern_lt hf s (Nat.two_pow_pos (f.w - 1)))
  · obtain ⟨n, picked, inexact⟩ := roundTo_picked hf mode s hm e
    have finite := picked.le_maxBits (le_mag_maxBits hf (by positivity) range)
    have place : max (topExp m e) (1 - f.bias) - f.mbits = (f.field m e : Int) - f.bias - f.mbits := by rw [field_cast]
    generalize hr : roundTo mode s m e ((f.field m e : Int) - f.bias - f.mbits) = r at picked inexact finite
    generalize hb : f.field m e * 2 ^ f.mbits + r.1 - 2 ^ f.mbits = b at picked finite
    have done : f.roundFull mode false s m e
        = (f.signBits s + b, when r.2 NX ||| when (r.2 && decide (b < 2 ^ f.mbits)) UF, decide (b < 2 ^ f.mbits)) := by
      have field : ((f.field m e : Int) - f.bias - f.mbits + f.mbits + f.bias).toNat = f.field m e := by omega
      unfold Fmt.roundFull
      rw [if_neg hm]
      dsimp only
      rw [place, hr, field, hb, if_neg (not_lt.2 finite)]
    have exact_iff : HasValue f (f.signBits s + b) (signOf s * (m * 2 ^ e)) ↔ r.2 = false := by
      rw [← Bool.not_eq_true, inexact, not_not, ← picked.mag_eq_iff]
      refine ⟨fun h => ?_, fun h => h ▸ hasValue_finite hf s finite⟩
      have := congrArg (signOf s * ·) (hasValue_unique h (hasValue_finite hf s finite))
      simpa only [signOf_mul_signOf_mul] using this.symm
    rw [done]
    refine ⟨picked.roundsTo hf finite, fun h => ?_, fun h => ?_⟩
    · simp [exact_iff.1 h, when]
    · have : r.2 = true := by simpa [exact_iff] using h
      simp [this, when, pattern_magnitude f s (finite.trans_lt (maxBits_lt hf))]

end Sys2Proof.Machine
end

section
/-! Floating-point arithmetic and comparison of finite values (spec/06 R149, R150, R153), outside flush-to-zero. -/

namespace Sys2Proof.Machine

open Sys2Proof.Safety

/-! Sums and products. -/

theorem addExact_value (a : Int) (ea : Int) (b : Int) (eb : Int) :
    ((addExact a ea b eb).1 : ℚ) * 2 ^ (addExact a ea b eb).2 = a * 2 ^ ea + b * 2 ^ eb := by
  have shift (x : Int) (h : min ea eb ≤ x) : (2 : ℚ) ^ (x - min ea eb).toNat * 2 ^ min ea eb = 2 ^ x := by
    rw [← zpow_natCast, ← zpow_add₀ two_ne_zero, Int.toNat_of_nonneg (by omega), Int.sub_add_cancel]
  rw [← shift ea (min_le_left _ _), ← shift eb (min_le_right _ _)]
  unfold addExact
  push_cast
  ring

theorem sm_cast (s : Bool) (m : Nat) : (sm s m : ℚ) = signOf s * m := by cases s <;> simp [sm, signOf]

theorem signOf_lt_zero_mul_natAbs (v : Int) : signOf (decide (v < 0)) * (v.natAbs : ℚ) = v := by
  rw [Nat.cast_natAbs]
  rcases lt_or_ge v 0 with neg | nonneg
  · simp [signOf, neg, abs_of_neg neg]
  · simp [signOf, not_lt.2 nonneg, abs_of_nonneg nonneg]

theorem sumNum_value (mode : Nat) (s1 : Bool) (m1 : Nat) (e1 : Int) (s2 : Bool) (m2 : Nat) (e2 : Int) :
    let r := sumNum mode s1 m1 e1 s2 m2 e2
    signOf r.1 * (r.2.1 * (2 : ℚ) ^ r.2.2) = signOf s1 * (m1 * 2 ^ e1) + signOf s2 * (m2 * 2 ^ e2) := by
  have value := addExact_value (sm s1 m1) e1 (sm s2 m2) e2
  rw [sm_cast, sm_cast, mul_assoc, mul_assoc] at value
  dsimp only
  rw [← value]
  unfold sumNum
  dsimp only
  split
  · next zero => simp [zero]
  · rw [← mul_assoc, signOf_lt_zero_mul_natAbs]

theorem mulNum_value {a b : Num} {x y : ℚ} (ha : exactValue a = some x) (hb : exactValue b = some y) :
    ∃ s m e, mulNum a b = some (.fin s m e) ∧ x * y = signOf s * (m * 2 ^ e) := by
  obtain ⟨s1, m1, e1, rfl, rfl⟩ := exactValue_eq_some ha
  obtain ⟨s2, m2, e2, rfl, rfl⟩ := exactValue_eq_some hb
  refine ⟨_, _, _, rfl, ?_⟩
  rw [← signOf_mul, zpow_add₀ two_ne_zero]
  push_cast
  ring

theorem exactValue_neg {a : Num} {x : ℚ} (h : exactValue a = some x) : exactValue a.neg = some (-x) := by
  obtain ⟨s, m, e, rfl, rfl⟩ := exactValue_eq_some h
  rw [Num.neg, exactValue_fin]
  cases s <;> simp [signOf]

theorem isNan_of_exactValue {a : Num} {x : ℚ} (h : exactValue a = some x) : a.isNan = false ∧ a.isSig = false := by
  obtain ⟨s, m, e, rfl, _⟩ := exactValue_eq_some h
  exact ⟨rfl, rfl⟩

/-! The operations of a format. -/

section
variable {f : Fmt} {z : Bool} (hz : (z && f.flushes) = false)
include hz

theorem source_unflushed (x : Nat) : f.source z x = (f.decode x, x % 2 ^ f.w, 0) := by
  have kept : f.flush z x = (x % 2 ^ f.w, 0) := by
    unfold Fmt.flush
    rw [hz]
    rfl
  rw [Fmt.source, kept, ← decode_mod f x]

variable (hf : f.Regular) {mode : Nat}
include hf

theorem finish_rounded {s : Bool} {m : Nat} {e : Int} (range : InRange f (signOf s * (m * 2 ^ e))) :
    f.Rounded mode (signOf s * (m * 2 ^ e)) (f.finish z mode s m e) := by
  have kept : f.finish z mode s m e = ((f.roundFull mode false s m e).1, (f.roundFull mode false s m e).2.1) := by
    unfold Fmt.finish
    rw [hz]
    rfl
  exact kept ▸ roundFull_rounded hf mode s m e range

theorem addNum_rounded {a b : Num} {x y : ℚ} (ha : exactValue a = some x) (hb : exactValue b = some y) (range : InRange f (x + y)) :
    f.Rounded mode (x + y) (f.addNum z mode a b) := by
  obtain ⟨s1, m1, e1, rfl, rfl⟩ := exactValue_eq_some ha
  obtain ⟨s2, m2, e2, rfl, rfl⟩ := exactValue_eq_some hb
  rw [← sumNum_value mode] at range ⊢
  exact finish_rounded hz hf range

variable {a b c : Nat} {x y w : ℚ} (ha : HasValue f a x) (hb : HasValue f b y) (hc : HasValue f c w)
include ha hb

theorem add_rounded (range : InRange f (x + y)) : f.Rounded mode (x + y) (f.add z mode false a b) := by
  have done : f.add z mode false a b = f.addNum z mode (f.decode a) (f.decode b) := by
    simp [Fmt.add, source_unflushed hz, (isNan_of_exactValue ha).1, (isNan_of_exactValue hb).1]
  exact done ▸ addNum_rounded hz hf ha hb range

theorem sub_rounded (range : InRange f (x - y)) : f.Rounded mode (x - y) (f.add z mode true a b) := by
  have done : f.add z mode true a b = f.addNum z mode (f.decode a) (f.decode b).neg := by
    simp [Fmt.add, source_unflushed hz, (isNan_of_exactValue ha).1, (isNan_of_exactValue hb).1]
  rw [sub_eq_add_neg] at range ⊢
  exact done ▸ addNum_rounded hz hf ha (exactValue_neg hb) range

theorem mul_rounded (range : InRange f (x * y)) : f.Rounded mode (x * y) (f.mul z mode a b) := by
  obtain ⟨s, m, e, product, value⟩ := mulNum_value ha hb
  have done : f.mul z mode a b = f.finish z mode s m e := by
    simp [Fmt.mul, source_unflushed hz, (isNan_of_exactValue ha).1, (isNan_of_exactValue hb).1, product]
  rw [value] at range ⊢
  exact done ▸ finish_rounded hz hf range

include hc in
theorem fma_rounded (range : InRange f (x * y + w)) : f.Rounded mode (x * y + w) (f.fma z mode a b c) := by
  obtain ⟨s, m, e, product, value⟩ := mulNum_value ha hb
  have done : f.fma z mode a b c = f.addNum z mode (.fin s m e) (f.decode c) := by
    simp [Fmt.fma, source_unflushed hz, (isNan_of_exactValue ha).1, (isNan_of_exactValue hb).1, (isNan_of_exactValue hc).1, product]
  exact done ▸ addNum_rounded hz hf (value ▸ exactValue_fin s m e) hc range

end

/-! The order of patterns (R150, R153). -/

/-- The order of the patterns is that of the values, −0 below +0. -/
theorem orderKey_pattern {f : Fmt} (hf : f.Regular) {c n : Nat} {s : Bool} (hn : n < 2 ^ (f.w - 1)) (h : c % 2 ^ f.w = f.signBits s + n) :
    f.orderKey c = if s then 2 ^ (f.w - 1) - 1 - n else n + 2 ^ (f.w - 1) := by
  unfold Fmt.orderKey
  dsimp only
  rw [h, pattern_sign f s hn, two_pow_w hf, Fmt.signBits]
  cases s
  · simp
  · simp only [if_true]
    omega

theorem value_le_of_orderKey_le {f : Fmt} (hf : f.Regular) {a b : Nat} {x y : ℚ} (ha : HasValue f a x) (hb : HasValue f b y)
    (h : f.orderKey a ≤ f.orderKey b) : x ≤ y := by
  obtain ⟨s, n, hn, ea, rfl⟩ := hasValue_pattern hf ha
  obtain ⟨t, k, hk, eb, rfl⟩ := hasValue_pattern hf hb
  have hn := hn.trans_lt (maxBits_lt hf)
  have hk := hk.trans_lt (maxBits_lt hf)
  rw [orderKey_pattern hf hn ea, orderKey_pattern hf hk eb] at h
  have mono {i j : Nat} (le : i ≤ j) : f.mag i ≤ f.mag j := (mag_strictMono f).monotone le
  have n0 := mag_nonneg f n
  have k0 := mag_nonneg f k
  cases s <;> cases t <;> simp only [signOf, Bool.false_eq_true, if_false, if_true] at h ⊢
  · have := mono (show n ≤ k by omega)
    linarith
  · omega
  · linarith
  · have := mono (show k ≤ n by omega)
    linarith

/-- Two patterns of one value are the same but for the sign of a zero. -/
theorem pattern_unique {f : Fmt} (hf : f.Regular) {a b : Nat} {x : ℚ} (ha : HasValue f a x) (hb : HasValue f b x) (h0 : x ≠ 0) :
    a % 2 ^ f.w = b % 2 ^ f.w := by
  obtain ⟨s, n, _, ea, rfl⟩ := hasValue_pattern hf ha
  obtain ⟨t, k, _, eb, e⟩ := hasValue_pattern hf hb
  have n0 : 0 < f.mag n := (mag_nonneg f n).lt_of_ne' (right_ne_zero_of_mul h0)
  have k0 := mag_nonneg f k
  obtain rfl : s = t := by
    cases s <;> cases t <;> simp only [signOf, Bool.false_eq_true, if_false, if_true] at e ⊢ <;> linarith
  have e' := congrArg (signOf s * ·) e
  simp only [signOf_mul_signOf_mul] at e'
  rw [ea, eb, (mag_strictMono f).injective e']

theorem isZero_iff {a : Num} {x : ℚ} (h : exactValue a = some x) : a.isZero = true ↔ x = 0 := by
  obtain ⟨s, m, e, rfl, rfl⟩ := exactValue_eq_some h
  have sign : signOf s ≠ 0 := by cases s <;> norm_num [signOf]
  have place : (2 : ℚ) ^ e ≠ 0 := by positivity
  cases m with
  | zero => simp [Num.isZero]
  | succ m => simp [Num.isZero, sign, place]; positivity

section
variable {f : Fmt} {z : Bool} (hz : (z && f.flushes) = false) (hf : f.Regular) {a b : Nat} {x y : ℚ} (ha : HasValue f a x) (hb : HasValue f b y)
include hz hf ha hb

theorem minmax_rounded (isMax : Bool) (mode : Nat) : f.Rounded mode (if isMax then max x y else min x y) (f.minmax z isMax a b) := by
  have quiet : f.minmax z isMax a b
      = (if isMax = decide (f.orderKey (b % 2 ^ f.w) ≤ f.orderKey (a % 2 ^ f.w)) then a % 2 ^ f.w else b % 2 ^ f.w, 0) := by
    simp [Fmt.minmax, source_unflushed hz, isNan_of_exactValue ha, isNan_of_exactValue hb, when]
  have ha' : HasValue f (a % 2 ^ f.w) x := by rwa [HasValue, decode_mod]
  have hb' : HasValue f (b % 2 ^ f.w) y := by rwa [HasValue, decode_mod]
  have first := rounded_of_hasValue mode ha' (Nat.mod_lt _ (Nat.two_pow_pos _))
  have second := rounded_of_hasValue mode hb' (Nat.mod_lt _ (Nat.two_pow_pos _))
  rw [quiet]
  by_cases h : f.orderKey (b % 2 ^ f.w) ≤ f.orderKey (a % 2 ^ f.w)
  · have le := value_le_of_orderKey_le hf hb' ha' h
    cases isMax <;> simp only [h, decide_true, if_true, if_false, Bool.false_eq_true, max_eq_left le, min_eq_right le, first, second]
  · have le := value_le_of_orderKey_le hf ha' hb' (not_le.1 h).le
    cases isMax <;> simp only [h, decide_false, reduceCtorEq, if_true, if_false, Bool.false_eq_true, max_eq_right le, min_eq_left le, first, second]

theorem compare_value (cond : Nat) : (f.compare z cond a b).1 = condOf cond x y := by
  have ha' : HasValue f (a % 2 ^ f.w) x := by rwa [HasValue, decode_mod]
  have hb' : HasValue f (b % 2 ^ f.w) y := by rwa [HasValue, decode_mod]
  have zero : ((f.decode a).isZero && (f.decode b).isZero) = true ↔ x = 0 ∧ y = 0 := by rw [Bool.and_eq_true, isZero_iff ha, isZero_iff hb]
  have eq : ((f.decode a).isZero && (f.decode b).isZero || decide (a % 2 ^ f.w = b % 2 ^ f.w)) = decide (x = y) := by
    rw [Bool.eq_iff_iff, Bool.or_eq_true, zero, decide_eq_true_iff, decide_eq_true_iff]
    refine ⟨fun h => h.elim (fun h => h.1.trans h.2.symm) fun h => hasValue_unique ha' (h ▸ hb'), ?_⟩
    rintro rfl
    by_cases h0 : x = 0
    · exact .inl ⟨h0, h0⟩
    · exact .inr (pattern_unique hf ha hb h0)
  have lt : (!((f.decode a).isZero && (f.decode b).isZero) && decide (f.orderKey (a % 2 ^ f.w) < f.orderKey (b % 2 ^ f.w))) = decide (x < y) := by
    rw [Bool.eq_iff_iff, Bool.and_eq_true, Bool.not_eq_true', ← Bool.not_eq_true, zero, decide_eq_true_iff, decide_eq_true_iff]
    constructor
    · rintro ⟨nonzero, below⟩
      refine (value_le_of_orderKey_le hf ha' hb' below.le).lt_of_ne ?_
      rintro rfl
      rw [pattern_unique hf ha hb fun h => nonzero ⟨h, h⟩] at below
      exact lt_irrefl _ below
    · intro less
      exact ⟨fun h => by linarith [h.1, h.2], not_le.1 fun above => (value_le_of_orderKey_le hf hb' ha' above).not_gt less⟩
  have le : (decide (x < y) || decide (x = y)) = decide (x ≤ y) := by simp [le_iff_lt_or_eq]
  unfold Fmt.compare
  rw [source_unflushed hz, source_unflushed hz]
  dsimp only
  rw [eq, lt, le, (isNan_of_exactValue ha).1, (isNan_of_exactValue hb).1]
  unfold condOf
  split <;> simp only [Bool.or_false, Bool.not_false, Bool.true_and, Bool.false_or, ← decide_not, not_le, not_lt, ne_eq]

end

end Sys2Proof.Machine
end

section
/-! The statements about word and floating-point arithmetic (spec/06 R144 to R153) and about atomic operations (spec/08 R217 to R220). -/

namespace Sys2Proof.Machine

open Sys2Proof.Safety

/-! The floating-point instructions. -/

/-- What an operation makes of finite values is the exact value of g, rounded once. -/
def OnValues (f : Fmt) (mode : Nat) (g : List ℚ → ℚ) (F : Fn) : Prop :=
  ∀ z, (z && f.flushes) = false → ∀ (xs : List Dword) (vs : List ℚ), xs.map (fun x => exactValue (f.decode x.toNat)) = vs.map some →
    InRange f (g vs) → ∃ r, F z xs = fltOut r ∧ f.Rounded mode (g vs) r

theorem hasValue_farg {f : Fmt} (hf : f.Regular) {xs : List Dword} {vs : List ℚ}
    (h : xs.map (fun x => exactValue (f.decode x.toNat)) = vs.map some) (n : Nat) : HasValue f (farg xs n) (vs.getD n 0) := by
  have zero : exactValue (f.decode (0 : Dword).toNat) = some 0 := hasValue_zero hf false
  have at_n := congrArg (fun l => l.getD n (some 0)) h
  rw [← zero, List.getD_map (f := fun x : Dword => exactValue (f.decode x.toNat)), zero, List.getD_map (f := some)] at at_n
  exact at_n

section
variable {f : Fmt} (hf : f.Regular) (mode : Nat)
include hf

theorem fnFadd_values : OnValues f mode (fun xs => xs.getD 0 0 + xs.getD 1 0) (fnFadd f mode) :=
  fun _ hz _ _ h range => ⟨_, rfl, add_rounded hz hf (hasValue_farg hf h 0) (hasValue_farg hf h 1) range⟩

theorem fnFsub_values : OnValues f mode (fun xs => xs.getD 0 0 - xs.getD 1 0) (fnFsub f mode) :=
  fun _ hz _ _ h range => ⟨_, rfl, sub_rounded hz hf (hasValue_farg hf h 0) (hasValue_farg hf h 1) range⟩

theorem fnFmul_values : OnValues f mode (fun xs => xs.getD 0 0 * xs.getD 1 0) (fnFmul f mode) :=
  fun _ hz _ _ h range => ⟨_, rfl, mul_rounded hz hf (hasValue_farg hf h 0) (hasValue_farg hf h 1) range⟩

theorem fnFma_values : OnValues f mode (fun xs => xs.getD 0 0 * xs.getD 1 0 + xs.getD 2 0) (fnFma f mode) :=
  fun _ hz _ _ h range => ⟨_, rfl, fma_rounded hz hf (hasValue_farg hf h 0) (hasValue_farg hf h 1) (hasValue_farg hf h 2) range⟩

theorem fnFmin_values : OnValues f mode (fun xs => min (xs.getD 0 0) (xs.getD 1 0)) (fnFmin f) :=
  fun _ hz _ _ h _ => ⟨_, rfl, minmax_rounded hz hf (hasValue_farg hf h 0) (hasValue_farg hf h 1) false mode⟩

theorem fnFmax_values : OnValues f mode (fun xs => max (xs.getD 0 0) (xs.getD 1 0)) (fnFmax f) :=
  fun _ hz _ _ h _ => ⟨_, rfl, minmax_rounded hz hf (hasValue_farg hf h 0) (hasValue_farg hf h 1) true mode⟩

end

/-- The H form's addend is its first source (R149). -/
theorem fmaH_values : OnValues f32 0 (fun xs => xs.getD 0 0 + xs.getD 1 0 * xs.getD 2 0)
    fun z xs => fltOut (execFfmaH.fmaH z (farg xs 0) (farg xs 1) (farg xs 2)) := by
  intro z hz xs vs h range
  have ha := hasValue_farg f32_regular h 0
  have hb := hasValue_farg f32_regular h 1
  have hc := hasValue_farg f32_regular h 2
  have done : execFfmaH.fmaH z (farg xs 0) (farg xs 1) (farg xs 2) = f32.fma z 0 (farg xs 1) (farg xs 2) (farg xs 0) := by
    simp [execFfmaH.fmaH, source_unflushed hz, (isNan_of_exactValue ha).1, (isNan_of_exactValue hb).1, (isNan_of_exactValue hc).1]
  dsimp only at range ⊢
  rw [add_comm] at range ⊢
  exact ⟨_, rfl, done ▸ fma_rounded hz f32_regular hb hc ha range⟩

theorem exactFlt_onValues {i : Instr} {L : LaneRule} {f : Fmt} {mode : Nat} {g : List ℚ → ℚ} (hi : exactFlt i = some (f, mode, g))
    (hL : laneRule i = some L ∨ laneRule64 i = some L) : ∃ F : Fn, (L.results = perLane fun x => F x.ftz) ∧ OnValues f mode g F := by
  cases i with
  | faddH _ | faddW _ | faddDp _ => cases hi; rcases hL with hL | hL <;> cases hL; exact ⟨_, rfl, fnFadd_values f32_regular _⟩
  | fsubW _ | fsubDp _ => cases hi; rcases hL with hL | hL <;> cases hL; exact ⟨_, rfl, fnFsub_values f32_regular _⟩
  | fmulH _ | fmulW _ | fmulDp _ => cases hi; rcases hL with hL | hL <;> cases hL; exact ⟨_, rfl, fnFmul_values f32_regular _⟩
  | ffmaH _ => cases hi; rcases hL with hL | hL <;> cases hL; exact ⟨_, rfl, fmaH_values⟩
  | fminW _ | fminDp _ => cases hi; rcases hL with hL | hL <;> cases hL; exact ⟨_, rfl, fnFmin_values f32_regular _⟩
  | fmaxH _ | fmaxW _ | fmaxDp _ => cases hi; rcases hL with hL | hL <;> cases hL; exact ⟨_, rfl, fnFmax_values f32_regular _⟩
  | faddD _ => cases hi; rcases hL with hL | hL <;> cases hL; exact ⟨_, rfl, fnFadd_values (fmtOf_regular _) _⟩
  | fsubD _ => cases hi; rcases hL with hL | hL <;> cases hL; exact ⟨_, rfl, fnFsub_values (fmtOf_regular _) _⟩
  | fmulD _ => cases hi; rcases hL with hL | hL <;> cases hL; exact ⟨_, rfl, fnFmul_values (fmtOf_regular _) _⟩
  | ffmaD _ => cases hi; rcases hL with hL | hL <;> cases hL; exact ⟨_, rfl, fnFma_values (fmtOf_regular _) _⟩
  | fminD _ => cases hi; rcases hL with hL | hL <;> cases hL; exact ⟨_, rfl, fnFmin_values (fmtOf_regular _) _⟩
  | fmaxD _ => cases hi; rcases hL with hL | hL <;> cases hL; exact ⟨_, rfl, fnFmax_values (fmtOf_regular _) _⟩
  | daddD _ => cases hi; rcases hL with hL | hL <;> cases hL; exact ⟨_, rfl, fnFadd_values f64_regular _⟩
  | dmulD _ => cases hi; rcases hL with hL | hL <;> cases hL; exact ⟨_, rfl, fnFmul_values f64_regular _⟩
  | dfmaD _ => cases hi; rcases hL with hL | hL <;> cases hL; exact ⟨_, rfl, fnFma_values f64_regular _⟩
  | _ => cases hi

theorem exactCmp_compares {i : Instr} {L : LaneRule} {f : Fmt} {cond : Nat} (hi : exactCmp i = some (f, cond))
    (hL : laneRule i = some L ∨ laneRule64 i = some L) : f.Regular ∧ L.results = perLane fun x => fnFcmp f cond x.ftz := by
  cases i with
  | fcmpD _ => cases hi; rcases hL with hL | hL <;> cases hL; exact ⟨fmtOf_regular _, rfl⟩
  | dcmpD _ => cases hi; rcases hL with hL | hL <;> cases hL; exact ⟨f64_regular, rfl⟩
  | _ => cases hi

/-- A result of a predicate destination. -/
theorem LaneTook.pred {L : LaneRule} {t a u : Thread} {b : Bool} {flags : Word} (h : LaneTook L t (.one (.dat (boolOut b)) flags) a u) {p : Nat}
    (hd : L.dst = .pred p) (h7 : p ≠ 7) (hp : p < t.preds.length) : u.pred p = ⟨b, false, 0, false⟩ := by
  have stands := h.stands
  rw [hd] at stands
  refine (stands.1 h7 hp).trans ?_
  cases b <;> rfl

theorem unflushed_of {z : Bool} {f : Fmt} (h : z = false ∨ f.flushes = false) : (z && f.flushes) = false := by rcases h with h | h <;> simp [h]

/-- Settles O16: of words the exact value modulo 2^32 is the word's own arithmetic; of finite values the exact one lies between two neighbouring
magnitudes, of which the code picks; and patterns are in the order of their values. -/
theorem wordArithmetic : Obligations.WordArithmetic := by
  unfold Obligations.WordArithmetic
  refine ⟨fun i L g r s w hi hL hw hd hp hs sound => ?_, fun i L f mode g r wide s w hi hL hw hd hp hs sound flush => ?_,
    fun i L f cond p s w hi hL hw hd hs sound flush => ?_⟩
  · obtain ⟨F, hF, words⟩ := wordOp_onWords hi hL
    obtain ⟨t, next, took⟩ := exec_perLane_laneTook (.inl hL) hF hw hp hs sound
    refine ⟨t, next, fun l hl alone xs vals => ?_⟩
    obtain ⟨a, u, hu, ok⟩ := took l hl alone (xs.map zx) (by rw [vals, List.map_map]; rfl)
    obtain ⟨value, flags⟩ := words (s.headerBit w.ctx w.act 2) xs
    obtain ⟨hl0, _, cells⟩ := ok.reg hd
    rw [value] at hl0 cells
    exact ⟨u, hu, hl0, fun hr => (cells hr).1, fun regs l0 l1 => by rw [ok.tsw regs l0 l1, flags]; exact BitVec.or_zero⟩
  · obtain ⟨F, hF, values⟩ := exactFlt_onValues hi hL
    obtain ⟨t, next, took⟩ := exec_perLane_laneTook hL hF hw hp hs sound
    refine ⟨t, next, fun l hl alone xs vs vals decoded range => ?_⟩
    obtain ⟨a, u, hu, ok⟩ := took l hl alone xs vals
    obtain ⟨⟨b, flags⟩, result, rounds, exact, inexact⟩ := values _ (unflushed_of flush) xs vs decoded range
    rw [result] at ok
    obtain ⟨hl0, hl1, cells⟩ := ok.reg hd
    refine ⟨u, b, hu, rounds, hl0, hl1, cells, fun regs l0 l1 => ⟨fun h => ?_, fun h => ?_⟩⟩
    · rw [ok.tsw regs l0 l1]
      exact (congrArg (l.t.tsw ||| ·) (exact h)).trans BitVec.or_zero
    · rw [ok.tsw regs l0 l1, BitVec.or_assoc]
      exact congrArg (l.t.tsw ||| ·) (inexact h)
  · obtain ⟨regular, hF⟩ := exactCmp_compares hi hL
    obtain ⟨t, next, took⟩ := exec_perLane_laneTook hL hF hw (by rw [hd]; rfl) hs sound
    refine ⟨t, next, fun l hl alone h7 hlen x y vx vy vals hx hy => ?_⟩
    obtain ⟨a, u, hu, ok⟩ := took l hl alone [x, y] vals
    exact ⟨u, hu, (ok.pred hd h7 hlen).trans (by rw [← compare_value (unflushed_of flush) regular hx hy cond]; rfl)⟩

/-! Atomic operations. -/

theorem intRead_atomVal_min (t m x c l : Nat) : intRead t (atomVal .min t m x c l).1 = min (intRead t m) (intRead t x) := by
  change intRead t (if intRead t x < intRead t m then x else m) = _
  split
  · next lt => exact (min_eq_right lt.le).symm
  · next ge => exact (min_eq_left (not_lt.1 ge)).symm

theorem intRead_atomVal_max (t m x c l : Nat) : intRead t (atomVal .max t m x c l).1 = max (intRead t m) (intRead t x) := by
  change intRead t (if intRead t m < intRead t x then x else m) = _
  split
  · next lt => exact (max_eq_right lt.le).symm
  · next ge => exact (max_eq_left (not_lt.1 ge)).symm

theorem atomVal_returns {op : AtomOp} (h : op ≠ .ladd) (t m x c l : Nat) : (atomVal op t m x c l).2.1 = m := by
  cases op with
  | ladd => exact absurd rfl h
  | _ => rfl

theorem atomVal_ladd (t m x c l : Nat) : atomVal .ladd t m x c l = if m + x ≤ l then (m + x, m, 0) else (m, 0xFFFFFFFF, 0) := rfl

/-- The key of the scores is that of their words (R220). -/
theorem scoreKey_eq (v : Word) : scoreKey v = (if v.msb then v ^^^ 0xFFFFFFFF else v + 0x80000000).toNat := by
  unfold scoreKey
  rw [BitVec.msb_eq_getLsbD_last]
  by_cases h : v.getLsbD 31 = true
  · rw [if_pos h, if_pos h]
    change _ = (v ^^^ BitVec.allOnes 32).toNat
    rw [BitVec.xor_allOnes, BitVec.toNat_not]
  · rw [if_neg h, if_neg h, BitVec.toNat_add]
    have low : v.toNat < 2 ^ 31 := BitVec.toNat_lt_of_msb_false (by rw [BitVec.msb_eq_getLsbD_last]; simpa using h)
    exact (Nat.mod_eq_of_lt (show v.toNat + 0x80000000 < 2 ^ 32 by omega)).symm

/-- Settles O26: each operation's own arm, with the rounded sum of O16 and the words' key. -/
theorem atomicResults : Obligations.AtomicResults := by
  unfold Obligations.AtomicResults
  refine ⟨fun t m x c l _ _ _ => ?_, fun t m x c l vm vx _ hm hx range => ?_, fun m x c l _ _ => ?_, fun m x c l _ _ => ?_⟩
  · exact ⟨rfl, rfl, rfl, rfl, rfl, rfl, intRead_atomVal_min t m x c l, intRead_atomVal_max t m x c l, fun op h => atomVal_returns h t m x c l⟩
  · have sum := add_rounded (z := false) (mode := 0) rfl (fmtOf_regular t) hm hx range
    exact ⟨sum.rounds, atomVal_returns (by decide) t m x c l⟩
  · refine ⟨rfl, rfl, ?_, fun fits => ?_, fun past => ?_⟩
    · change m - 1 = _
      split <;> omega
    · rw [atomVal_ladd, if_pos fits]
      exact ⟨rfl, rfl⟩
    · rw [atomVal_ladd, if_neg (not_le.2 past)]
      exact ⟨rfl, rfl⟩
  · have index (v : Nat) : fld v 31 0 = v % 2 ^ 32 := by rw [fld, Nat.pow_zero, Nat.div_one]
    refine ⟨?_, rfl⟩
    change pmaxOf m x = _
    unfold pmaxOf
    simp only [scoreKey_eq, index]

end Sys2Proof.Machine
end

section
/-! What is raised of an address (spec/08 R199, R200, R94, R99): its misalignment, and its token before the data. -/

namespace Sys2Proof.Machine

/-- Alignment comes before the translation (R200). -/
theorem aim_misaligned {s : State} {w : Warp} {align : Nat} {acc : Access} {a : Dword} (h : a.toNat % align ≠ 0) :
    s.aim w align acc (.dat a) = .code 0x12 := by simp [State.aim, h]

/-- A lane asks once. -/
theorem memAsks_lane_injective {s : State} {w : Warp} {m : MemDo} {a b : Ask} (ha : a ∈ s.memAsks w m) (hb : b ∈ s.memAsks w m)
    (h : a.lane = b.lane) : a = b := by
  obtain ⟨l, -, rfl⟩ := List.mem_map.1 ha
  obtain ⟨l', -, rfl⟩ := List.mem_map.1 hb
  cases show l = l' from h
  rfl

/-- A poisoned address is all that its lane raises: its data is not looked at (R99). -/
theorem mem_memRaises_of_tok {s : State} {w : Warp} {m : MemDo} {a : Ask} {k : Word} (store : m.loads = false) (ha : a ∈ s.memAsks w m)
    (guard : a.lane.badTok = none) (aim : a.aim = .tok k) (k' : Word) (c : Nat) :
    (a.lane, k', c) ∈ s.memRaises w m ↔ k' = k ∧ c = 3 := by
  unfold State.memRaises
  rw [store, if_neg Bool.false_ne_true, List.mem_filterMap]
  constructor
  · rintro ⟨b, hb, raised⟩
    have lane : a.lane = b.lane := by
      split at raised
      case h_4 =>
        obtain ⟨_, -, e⟩ := Option.map_eq_some_iff.1 raised
        exact (congrArg Prod.fst e).symm
      all_goals exact (congrArg Prod.fst (Option.some.inj raised)).symm
    obtain rfl := memAsks_lane_injective ha hb lane
    simp only [guard, aim, Option.some.injEq, Prod.mk.injEq] at raised
    obtain ⟨-, rfl, rfl⟩ := raised
    exact ⟨rfl, rfl⟩
  · rintro ⟨rfl, rfl⟩
    exact ⟨a, ha, by simp only [guard, aim]⟩

/-- Settles O21: alignment is the first test of an address, and a token of the address is raised before the data is looked at. -/
theorem addressFailures : Obligations.AddressFailures := by
  unfold Obligations.AddressFailures
  refine ⟨fun s w align acc a h => aim_misaligned h, fun s w f a k ha guard aim => ?_⟩
  have raised := mem_memRaises_of_tok (m := storeDo f false) rfl ha guard aim
  exact ⟨(raised k 3).2 ⟨rfl, rfl⟩, fun k' c => (raised k' c).1⟩

end Sys2Proof.Machine
end

section
/-! A load at its home (spec/08 R84, R206, R226): the bytes where its address stands now, or the token of a marked sector there. -/

namespace Sys2Proof.Machine

open Sys2Proof.Safety

theorem bytesAt_congr {s t : State} (mem : t.mem = s.mem) (pend : t.zeroPend = s.zeroPend) (pa n : Nat) : t.bytesAt pa n = s.bytesAt pa n := by
  rw [State.bytesAt, State.bytesAt, State.unfilled, State.unfilled, mem, pend]

theorem markAt_congr {s t : State} (marks : t.marks = s.marks) (pend : t.zeroPend = s.zeroPend) (pa : Nat) : t.markAt pa = s.markAt pa := by
  rw [State.markAt, State.markAt, State.unfilled, State.unfilled, marks, pend]

theorem readNow_congr {s t : State} (same : SameMemory s t) (mem : t.mem = s.mem) (pend : t.zeroPend = s.zeroPend) (pa n : Nat) :
    t.readNow pa n = s.readNow pa n := by
  simp only [State.readNow, State.readN, same.split, same.placed, bytesAt_congr mem pend]

theorem markNow_congr {s t : State} (same : SameMemory s t) (marks : t.marks = s.marks) (pend : t.zeroPend = s.zeroPend) (pa n : Nat) :
    t.markNow pa n = s.markNow pa n := by
  simp only [State.markNow, State.markIn, same.split, same.placed, markAt_congr marks pend]

/-! Where nothing has moved. -/

theorem split_of_unmoved {s : State} {pa n : Nat} (pos : 0 < n) (h : Unmoved s pa n) : s.split pa n = false := by
  have first : s.placed? pa = pa := h 0 pos
  simp only [State.split, wordsIn, List.any_map, List.any_eq_false, List.mem_range, Function.comp_apply]
  intro i hi
  rw [h (4 * i) (by omega), first]
  simp

theorem readNow_of_unmoved {s : State} {pa n : Nat} (pos : 0 < n) (h : Unmoved s pa n) : s.readNow pa n = s.readN pa n := by
  have first : s.placed? pa = pa := h 0 pos
  rw [State.readNow, split_of_unmoved pos h, if_neg Bool.false_ne_true, first]

theorem markNow_of_unmoved {s : State} {pa n : Nat} (pos : 0 < n) (h : Unmoved s pa n) : s.markNow pa n = s.markIn pa n := by
  have first : s.placed? pa = pa := h 0 pos
  rw [State.markNow, split_of_unmoved pos h, if_neg Bool.false_ne_true, first]

/-! The load. -/

/-- MSE_READ of a read that nothing holds back applies it. -/
theorem mseRead_eq {s : State} {op : Nat} {o : Op} {ecc : Ecc} (ho : find s.ops op = some o) (kind : o.kind = some .read) (sent : o.stage = .sent)
    (may : s.mayApply op o = true) (pass : s.passes o = true) (still : s.movedOp o = none) (line : s.raggedHeld o = none) :
    exec (.mseRead op ecc) s = .next (s.readAt op o ecc) := by
  change s.arriveAt op (fun k => k = .read || k = .watch) ecc = _
  simp [State.arriveAt, ho, kind, sent, may, pass, still, line, State.applyKind]

/-- An answer at a home waits for nothing but its turn to retire. -/
theorem answer_of_home {s : State} {k h : Nat} {o : Op} (ho : find s.ops k = some o) (place : o.place = .home h) (vals : List Tw) :
    s.answer k vals = s.setOp k { o with stage := .performed, reply := vals, flags := 0 } := by
  have here : o.abroad = false := by rw [Op.abroad, place]
  simp [State.answer, State.modOp, ho, here]

/-- What a load at its home replies with. -/
def State.homeReply (s : State) (o : Op) (type : Nat) : List Tw :=
  match s.markNow o.pa o.span with
  | some m => o.tokens m.toNat
  | none => loadOut type (s.readNow o.pa o.span)

theorem homeReply_data {s : State} {o : Op} {type : Nat} (h : s.markNow o.pa o.span = none) :
    s.homeReply o type = loadOut type (s.readNow o.pa o.span) := by rw [State.homeReply, h]

theorem homeReply_mark {s : State} {o : Op} {type : Nat} {m : Byte} (h : s.markNow o.pa o.span = some m) :
    s.homeReply o type = o.tokens m.toNat := by rw [State.homeReply, h]

theorem modOp_sameMemory (s : State) (k : Nat) (f : Op → Op) : SameMemory s (s.modOp k f) := by
  unfold State.modOp
  split
  · exact ⟨rfl, fun _ => rfl, fun _ => rfl, fun _ => rfl, fun _ => rfl, id⟩
  · exact .refl s

/-- The count of what an engine has applied is all that `countMse` changes. -/
theorem countMse_eq (s : State) (p : Place) : ∃ clusters, s.countMse p = { s with clusters := clusters } := by
  unfold State.countMse
  split
  · exact ⟨_, rfl⟩
  · exact ⟨_, rfl⟩

theorem detect_clean (s : State) (pa : Nat) : s.detect pa .clean = s := by
  unfold State.detect
  split
  · split <;> rfl
  · rfl

/-- The engine numbers the load (R81) and notes the stamp of its line; the reply is that of the state before both. -/
theorem readAt_load {s : State} {k h : Nat} {o : Op} {type : BitVec 4} {c i : Bool} (work : o.work = .load type c i) (place : o.place = .home h) :
    s.readAt k o .clean
      = ((s.countMse o.place).modOp k fun x => { x with seen := some ((s.countMse o.place).stampAt x.pa) }).answer k (s.homeReply o type.toNat) := by
  have same := (countMse_sameMemory s o.place).trans
    (modOp_sameMemory _ k fun x => { x with seen := some ((s.countMse o.place).stampAt x.pa) })
  obtain ⟨clusters, counted⟩ := countMse_eq s o.place
  have data := readNow_congr same (by rw [State.modOp_mem, counted]) (by rw [State.modOp_zeroPend, counted]) o.pa o.span
  have mark := markNow_congr same (by rw [State.modOp_marks, counted]) (by rw [State.modOp_zeroPend, counted]) o.pa o.span
  simp only [State.readAt, detect_clean]
  generalize (s.countMse o.place).modOp k _ = u at data mark ⊢
  simp only [work, State.readCode, place, mark, data, State.homeReply]
  cases s.markNow o.pa o.span <;> rfl

/-- A load at its home is performed, with the reply of its home, and writes no byte. -/
theorem readAt_load_performed {s : State} {k h : Nat} {o : Op} {type : BitVec 4} {c i : Bool} (ho : find s.ops k = some o)
    (work : o.work = .load type c i) (place : o.place = .home h) :
    ∃ o', find (s.readAt k o .clean).ops k = some o' ∧ o'.stage = .performed ∧ o'.reply = s.homeReply o type.toNat
      ∧ (s.readAt k o .clean).mem = s.mem := by
  obtain ⟨clusters, counted⟩ := countMse_eq s o.place
  rw [readAt_load work place, counted]
  have found : find (State.modOp { s with clusters := clusters } k
      fun x => { x with seen := some (State.stampAt { s with clusters := clusters } x.pa) }).ops k
    = some { o with seen := some (State.stampAt { s with clusters := clusters } o.pa) } := by simp [State.modOp, ho]
  rw [answer_of_home found place]
  exact ⟨_, find_put_self _ _ _, rfl, rfl, State.modOp_mem _ _ _⟩

/-- Settles O24: the reply of the home, where nothing has moved that of the address itself. -/
theorem loadAtHome : Obligations.LoadAtHome := by
  unfold Obligations.LoadAtHome
  rintro s op o type c i ho work kind sent may pass still ⟨h, place⟩
  have line : s.raggedHeld o = none := by rw [State.raggedHeld, work]
  obtain ⟨o', found, performed, reply, mem⟩ := readAt_load_performed ho work place
  refine ⟨_, o', mseRead_eq ho kind sent may pass still line, found, performed, fun whole => ?_, fun m marked => ?_,
    fun pos stays => ⟨fun whole => ?_, fun m marked => ?_⟩, fun a => by rw [mem]⟩
  · rw [reply, homeReply_data whole]
  · rw [reply, homeReply_mark marked]
  · rw [reply, homeReply_data ((markNow_of_unmoved pos stays).trans whole), readNow_of_unmoved pos stays]
  · rw [reply, homeReply_mark ((markNow_of_unmoved pos stays).trans marked)]

end Sys2Proof.Machine
end

section
/-! Raises and the curtain (spec/04 R100, R101, spec/20 R421, R428, R429): what the device's own writes and the end of acts may change, and the
context's word that the curtain leaves. -/

namespace Sys2Proof.Machine

/-! The device's own writes. -/

/-- What a write of the device's own may change: memory with its marks, owners and fills, the stamps of its lines, and who has waited for
the word. -/
def DeviceWrote (s t : State) : Prop :=
  ∃ mem marks owners zeroPend clusters pkg acts sent wrote woken,
    t = { s with mem := mem, marks := marks, owners := owners, zeroPend := zeroPend, clusters := clusters, pkg := pkg, acts := acts,
                 sent := sent, wrote := wrote, woken := woken }

theorem DeviceWrote.refl (s : State) : DeviceWrote s s := ⟨_, _, _, _, _, _, _, _, _, _, rfl⟩

theorem DeviceWrote.trans {a b c : State} (h : DeviceWrote a b) (h' : DeviceWrote b c) : DeviceWrote a c := by
  obtain ⟨_, _, _, _, _, _, _, _, _, _, rfl⟩ := h
  obtain ⟨_, _, _, _, _, _, _, _, _, _, rfl⟩ := h'
  exact ⟨_, _, _, _, _, _, _, _, _, _, rfl⟩

theorem DeviceWrote.ctxs {s t : State} (h : DeviceWrote s t) : t.ctxs = s.ctxs := by
  obtain ⟨_, _, _, _, _, _, _, _, _, _, rfl⟩ := h
  rfl

theorem noteWrite_deviceWrote (s : State) (pa n : Nat) : DeviceWrote s (s.noteWrite pa n) := by
  obtain ⟨_, _, _, _, _, h⟩ := noteWrite_eq s pa n
  rw [h]
  exact ⟨_, _, _, _, _, _, _, _, _, _, rfl⟩

theorem fillFrame_deviceWrote (s : State) (f : Nat) : DeviceWrote s (s.fillFrame f) := by
  have emptied : DeviceWrote s { s with
      mem := keep (fun a _ => a / 2 ^ 16 != f) s.mem
      marks := keep (fun k _ => k / 2 ^ 11 != f) s.marks
      zeroPend := s.zeroPend.filter fun x => x != f } := ⟨_, _, _, _, _, _, _, _, _, _, rfl⟩
  exact (emptied.trans (noteWrite_deviceWrote _ _ _)).trans ⟨_, _, _, _, _, _, _, _, _, _, rfl⟩

theorem putBytes_deviceWrote (s : State) (pa : Nat) (l : List Byte) : DeviceWrote s (s.putBytes pa l) := by
  have reached : DeviceWrote s (s.reach pa) := by
    unfold State.reach
    split
    · exact fillFrame_deviceWrote s _
    · exact .refl s
  exact reached.trans ⟨_, _, _, _, _, _, _, _, _, _, rfl⟩

theorem deviceWrite_deviceWrote (s : State) (pa : Nat) (l : List Byte) : DeviceWrote s (s.deviceWrite pa l) := by
  refine foldl_related DeviceWrote.refl DeviceWrote.trans _ (fun s x => (putBytes_deviceWrote s x.1 x.2).trans ?_) _ s
  have unmarked (u : State) (m : Map Byte) : DeviceWrote u { u with marks := m } := ⟨_, _, _, _, _, _, _, _, _, _, rfl⟩
  exact (unmarked _ _).trans (noteWrite_deviceWrote _ _ _)

/-- A translation may claim its frame (R389). -/
theorem ownerCheck_deviceWrote {s t : State} {ctx : Nat} {l : Leaf} (h : s.ownerCheck ctx l = .ok t) : DeviceWrote s t := by
  unfold State.ownerCheck at h
  dsimp only at h
  split at h
  · split at h
    · cases h; exact .refl _
    · split at h <;> cases h
      exact ⟨_, _, _, _, _, _, _, _, _, _, rfl⟩
  · cases h; exact .refl _

theorem resolve_deviceWrote {s : State} {cluster ctx va : Nat} {a : Access} {r : State × Leaf} (h : s.resolve cluster ctx va a = .ok r) :
    DeviceWrote s r.1 := by
  unfold State.resolve at h
  split at h
  · cases h
  · split at h
    · cases h
    · split at h
      · cases h
      · next hc => cases h; exact ownerCheck_deviceWrote hc

theorem resolveDevice_deviceWrote {s : State} {cluster ctx va : Nat} {r : State × Nat} (h : s.resolveDevice cluster ctx va = .ok r) :
    DeviceWrote s r.1 := by
  unfold State.resolveDevice at h
  split at h
  · cases h
  · next hr =>
    split at h
    · split at h <;> cases h
      exact resolve_deviceWrote hr
    · cases h

theorem writeVirtual_deviceWrote (s : State) (cluster ctx va : Nat) (l : List Byte) : DeviceWrote s (s.writeVirtual cluster ctx va l).1 := by
  unfold State.writeVirtual
  split
  · exact .refl s
  · split
    · exact .refl s
    · next h => exact (resolveDevice_deviceWrote h).trans (deviceWrite_deviceWrote _ _ _)

/-! Contexts whose curtain stays as it is. -/

/-- The word of every context that says whether its curtain is low, and why (R429), stands. -/
def SameCurtains (s t : State) : Prop := ∀ c, (t.ctx c).cur = (s.ctx c).cur

theorem SameCurtains.refl (s : State) : SameCurtains s s := fun _ => rfl

theorem SameCurtains.trans {a b c : State} (h : SameCurtains a b) (h' : SameCurtains b c) : SameCurtains a c := fun k => (h' k).trans (h k)

theorem SameCurtains.of_ctxs {s t : State} (h : t.ctxs = s.ctxs) : SameCurtains s t := fun c => by rw [State.ctx, State.ctx, h]

theorem SameCurtains.low {s t : State} (h : SameCurtains s t) (c : Nat) : (t.ctx c).low = (s.ctx c).low := by rw [Ctx.low, Ctx.low, h c]

theorem writeVirtual_sameCurtains (s : State) (cluster ctx va : Nat) (l : List Byte) : SameCurtains s (s.writeVirtual cluster ctx va l).1 :=
  .of_ctxs (writeVirtual_deviceWrote s cluster ctx va l).ctxs

theorem modCtx_sameCurtains (s : State) (c : Nat) {f : Ctx → Ctx} (h : ∀ v, (f v).cur = v.cur) : SameCurtains s (s.modCtx c f) := by
  intro k
  by_cases e : k = c
  · rw [e, ctx_modCtx, h]
  · rw [State.modCtx, ctx_setCtx_other s c k _ e]

/-- A fault record moves its ring's pointers alone (R427, R428). -/
theorem putRecord_sameCurtains (s : State) (ctx cluster : Nat) (r : Record) : SameCurtains s (s.putRecord ctx cluster r) := by
  have lost : SameCurtains s (s.setCtx ctx { s.ctx ctx with frp := ringLose (s.ctx ctx).frp }) :=
    modCtx_sameCurtains s ctx (f := fun v => { v with frp := ringLose v.frp }) fun _ => rfl
  unfold State.putRecord
  dsimp only
  split
  · exact lost
  · split
    · exact lost
    · split
      · next u written =>
        have wrote := writeVirtual_sameCurtains s cluster ctx (df (s.ctx ctx).fr 63 20 * 4096 + 16 * df (s.ctx ctx).frp 19 0) (toBytes 16 r.bits)
        rw [written] at wrote
        have moved (p : Dword → Dword) : SameCurtains s (u.modCtx ctx fun v => { v with frp := p v.frp }) :=
          wrote.trans (modCtx_sameCurtains u ctx fun _ => rfl)
        split
        · exact (moved fun p => setD p 19 0 _).trans (.of_ctxs (State.msix_ctxs _ _))
        · exact moved fun p => setD p 19 0 _
      · exact lost

theorem setActState_sameCurtains (s : State) (ctx act st : Nat) : SameCurtains s (s.setActState ctx act st) := by
  unfold State.setActState
  split
  · exact .refl s
  · dsimp only
    split
    · exact .of_ctxs rfl
    · exact (SameCurtains.of_ctxs rfl).trans (writeVirtual_sameCurtains _ _ _ _ _)

/-- A new number for an act stands in what a context has saved, not in its registers. -/
theorem renumberAct_sameCurtains (s : State) (ctx old new : Nat) : SameCurtains s (s.renumberAct ctx old new) := by
  intro k
  simp only [State.ctx, State.renumberAct, get, find_mapVals]
  cases find s.ctxs k <;> rfl

theorem cancelOne_sameCurtains (s : State) (k : Nat) : SameCurtains s (s.cancelOne k) := by
  have ended := setActState_sameCurtains s (k / 65536) (k % 65536) 7
  unfold State.cancelOne
  dsimp only
  split
  · exact ended
  · split
    · exact ended.trans (.of_ctxs rfl)
    · exact ended.trans (SameCurtains.trans (.of_ctxs rfl) (renumberAct_sameCurtains _ _ _ _))

theorem dropFar_sameCurtains (s : State) (p : FarWait → Bool) : SameCurtains s (s.dropFar p) := by
  unfold State.dropFar
  split
  · exact .of_ctxs (foldl_keeps State.ctxs (fun (s : State) (x : Nat × Cluster) => s.sweepMonitors x.1) (fun _ _ => rfl) _ _)
  · exact .refl s

theorem cancelActs_sameCurtains (s : State) (ctx : Nat) (p : Nat → Bool) : SameCurtains s (s.cancelActs ctx p) := by
  unfold State.cancelActs
  have unqueued (b : Map Board) : SameCurtains s { s with boards := b } := .of_ctxs rfl
  exact ((unqueued _).trans (dropFar_sameCurtains _ _)).trans
    (foldl_related SameCurtains.refl SameCurtains.trans State.cancelOne cancelOne_sameCurtains _ _)

theorem endGuests_ctxs (s : State) (ctx : Nat) : (s.endGuests ctx).ctxs = s.ctxs :=
  foldl_keeps State.ctxs _ (fun s _ => foldl_keeps State.ctxs (fun s d => s.notify 2 d 0) (fun _ _ => rfl) _ s) _ s

/-! The curtain. -/

theorem df_setD (v : Dword) (x : Nat) {hi lo : Nat} (h : lo ≤ hi) (top : hi < 64) : df (setD v hi lo x) hi lo = x % 2 ^ (hi + 1 - lo) := by
  apply Nat.eq_of_testBit_eq
  intro i
  rw [df, testBit_fld, Nat.testBit_mod_two_pow]
  by_cases inside : i < hi + 1 - lo
  · rw [testBit_setD v x h (by omega), if_pos (by omega), Nat.add_sub_cancel_left]
  · simp [inside]

theorem bit_setD_other (v : Dword) (x : Nat) {hi lo n : Nat} (h : lo ≤ hi) (top : n < 64) (apart : n < lo ∨ hi < n) :
    bit (setD v hi lo x).toNat n = bit v.toNat n := by
  rw [bit, testBit_setD v x h top, if_neg (by omega), bit]

theorem bit_setD_same (v : Dword) (x : Nat) {hi lo n : Nat} (low : lo ≤ n) (high : n ≤ hi) (top : hi < 64) :
    bit (setD v hi lo x).toNat n = bit x (n - lo) := by
  rw [bit, testBit_setD v x (by omega) (by omega), if_pos ⟨low, high⟩, bit]

/-- A context after the lowering of its curtain: LOW, CONS and CODE are set, and what the curtain has done (DOWN) is as before. -/
structure Lowered (c d : Ctx) (cons code : Nat) : Prop where
  low : d.low = true
  down : d.down = c.down
  cons : df d.cur 31 24 = cons % 256
  code : df d.cur 23 16 = code % 256

theorem lowered_of_cur {c d : Ctx} {cons code : Nat} (h : d.cur = setD (setD (setD c.cur 63 63 1) 31 24 cons) 23 16 code) :
    Lowered c d cons code where
  low := have set : d.low = bit 1 0 := by simp [Ctx.low, h, bit_setD_other, bit_setD_same]
    set
  down := by simp [Ctx.down, h, bit_setD_other]
  cons := by simp [h, df_setD_other, df_setD]
  code := by simp [h, df_setD]

/-- A curtain that is not low is lowered (R429). -/
theorem lowerCurtain_lowered {s : State} {ctx : Nat} (h : (s.ctx ctx).low = false) (cons code : Nat) :
    Lowered (s.ctx ctx) ((s.lowerCurtain ctx cons code).ctx ctx) cons code := by
  refine lowered_of_cur ?_
  unfold State.lowerCurtain
  dsimp only
  rw [if_neg (by simp [h])]
  refine (SameCurtains.trans (.of_ctxs (endGuests_ctxs _ ctx)) (SameCurtains.trans (cancelActs_sameCurtains _ ctx _) (.of_ctxs rfl)) ctx).trans ?_
  rw [ctx_setCtx]

theorem lowerCurtain_low (s : State) (ctx cons code : Nat) : ((s.lowerCurtain ctx cons code).ctx ctx).low = true := by
  cases h : (s.ctx ctx).low with
  | false => exact (lowerCurtain_lowered h cons code).low
  | true => rw [State.lowerCurtain, if_pos h, h]

theorem curtain_low (s : State) (ctx cluster : Nat) (r : Record) : ((s.curtain ctx cluster r).ctx ctx).low = true := by
  unfold State.curtain
  split
  · assumption
  · exact lowerCurtain_low _ _ _ _

theorem lateFailure_low (s : State) (ctx : Nat) (pc : Dword) (cons code cluster slot : Nat) :
    ((s.lateFailure ctx pc cons code cluster slot).ctx ctx).low = true := by
  unfold State.lateFailure
  split <;> exact curtain_low _ _ _ _

/-! Raises. -/

theorem putRecords_sameCurtains (s : State) (ctx cluster : Nat) (pc : Dword) (rs : List RaiseOf) :
    SameCurtains s (rs.foldl (fun s r => s.putRecord ctx cluster (r.record pc 1)) s) := by
  refine foldl_related SameCurtains.refl SameCurtains.trans _ (fun s r => ?_) rs s
  exact putRecord_sameCurtains s ctx cluster _

/-- Behind a low curtain a raise does nothing (R101, R429). -/
theorem raise_of_low {s : State} {ctx : Nat} (h : (s.ctx ctx).low = true) (pc : Dword) (rs : List RaiseOf) : s.raise ctx pc rs = s := by
  unfold State.raise
  split
  · rfl
  · rw [if_pos h]

/-- The first raise that is not recoverable lowers the curtain after the records of all have been written (R100, R421). -/
theorem raise_eq_lowerCurtain {s : State} {ctx : Nat} {pc : Dword} {rs : List RaiseOf} {bad : RaiseOf} (h : (s.ctx ctx).low = false)
    (first : rs.find? (fun r => isLaneKey r.key || !recoverable (tokCode r.tok)) = some bad) :
    ∃ u, SameCurtains s u ∧ s.raise ctx pc rs = u.lowerCurtain ctx bad.cons (tokCode bad.tok) := by
  cases rs with
  | nil => cases first
  | cons r0 rs =>
    refine ⟨_, putRecords_sameCurtains s ctx (clusterOfKey r0.key) pc (r0 :: rs), ?_⟩
    simp only [State.raise, h, first]
    rfl

theorem tokCode_lt (t : Word) : tokCode t < 256 := by
  unfold tokCode
  omega

/-- Settles O58: records leave every curtain as it is, so the first raise that is not recoverable finds it up. -/
theorem raiseLowersTheCurtain : Obligations.RaiseLowersTheCurtain := by
  unfold Obligations.RaiseLowersTheCurtain
  refine fun s ctx pc rs => ⟨fun low => raise_of_low low pc rs, fun bad high first => ?_⟩
  obtain ⟨u, same, raised⟩ := raise_eq_lowerCurtain (pc := pc) high first
  obtain ⟨low, down, cons, code⟩ := lowerCurtain_lowered ((same.low ctx).trans high) bad.cons (tokCode bad.tok)
  rw [raised]
  refine ⟨low, down.trans ?_, cons, code.trans (Nat.mod_eq_of_lt (tokCode_lt _))⟩
  rw [Ctx.down, Ctx.down, same ctx]

end Sys2Proof.Machine
end

section
/-! The pod and its links (spec/19 R410, R412, R413, R417, spec/13 R278, R313, spec/21 R439). -/

namespace Sys2Proof.Machine

/-! Packages, links and endpoints. -/

/-- PEER_LEFT_POD of a package without a route for 10 ms (R412). -/
theorem peerLeftPod_eq {s : State} {q : Nat} (package : q < 256) (other : q ≠ s.ownPkg) (routes : get s.pkg.podrt q 0 = 0)
    (time : get s.pkg.unreach q 0 + 10000 * ticksPerUs ≤ s.now) : exec (.peerLeftPod q) s = .next (s.leavePod q) := by
  change execPeerLeftPod q s = _
  rw [execPeerLeftPod, if_neg]
  simp [routes, other, package, time]

/-- LINK_RECOVERY_RESOLVED: a route to the target is back (R417). -/
theorem linkRecoveryResolved_eq {s : State} {key va since cons born : Nat} {pc : Dword} {t : Thread} (ht : s.thread? key = some t)
    (waits : t.waitOn = .link va since pc cons born) (up : s.linkUp (clusterOfKey key) t.ctx va = true) (high : (s.ctx t.ctx).low = false) :
    exec (.linkRecoveryResolved key) s = .next (s.setThread key (t.run s.now)) := by
  change execLinkRecoveryResolved key s = _
  simp [execLinkRecoveryResolved, ht, waits, up, high]

/-- LINK_RECOVERY_TIMEOUT: none is back after 10 ms (R417). -/
theorem linkRecoveryTimeout_eq {s : State} {key va since cons born : Nat} {pc : Dword} {t : Thread} (ht : s.thread? key = some t)
    (waits : t.waitOn = .link va since pc cons born) (time : since + 10000 * ticksPerUs ≤ s.now)
    (lost : s.linkUp (clusterOfKey key) t.ctx va = false) :
    exec (.linkRecoveryTimeout key) s = .next (s.lateFailure t.ctx pc cons 0x15 (clusterOfKey born) (slotOfKey born)) := by
  change execLinkRecoveryTimeout key s = _
  simp [execLinkRecoveryTimeout, ht, waits, time, lost]

/-- What a flit's error leaves: a corrected event, or, beyond the retries, one of class 6 and the repair of the lane (R439, log entry 53). -/
def State.flitError (s : State) (kind unit lane : Nat) (exhausted : Bool) : State :=
  if exhausted then (s.reliability 6 0 unit kind 0x40 lane).askRepair kind unit lane else s.reliability 1 0 unit kind 0x40 lane

/-- LINK_FLIT_ERROR of a link inside the package. -/
theorem linkFlitError_link {link lane : Nat} (hl : link < 2080) (h : lane < 65536) (s : State) (exhausted : Bool) :
    exec (.linkFlitError link lane exhausted) s = .next (s.flitError 5 link lane exhausted) := by
  change execLinkFlitError link lane exhausted s = _
  unfold execLinkFlitError
  dsimp only
  rw [if_neg (by simp; omega)]
  simp only [if_pos hl]
  cases exhausted <;> rfl

/-- LINK_FLIT_ERROR of a fibre, on a wavelength that carries traffic (R21). -/
theorem linkFlitError_fibre {s : State} {fibre lane : Nat} (hf : fibre < 64) (h : lane < 8 ∨ (lane = 8 ∧ get s.pkg.used (5000 + fibre) 0 ≠ 0))
    (exhausted : Bool) : exec (.linkFlitError (2080 + fibre) lane exhausted) s = .next (s.flitError 6 fibre lane exhausted) := by
  change execLinkFlitError (2080 + fibre) lane exhausted s = _
  unfold execLinkFlitError
  dsimp only
  rw [Nat.add_sub_cancel_left, if_neg (by simp; omega)]
  simp only [if_neg (show ¬ 2080 + fibre < 2080 by omega)]
  cases exhausted <;> rfl

/-- The endpoints that an act has lost (R413). -/
def State.goneEndpoints (s : State) (a : Act) : List Nat := ((s.endpointsOf a).filter s.endpointGone).eraseDups

/-- What the loss of endpoints ends (R278). -/
def State.leaveEndpoints (s : State) (l : List Nat) : State := l.foldl (fun s e => s.leaveTarget (.fabric e)) s

theorem goneEndpoints_not_isEmpty {s : State} {a : Act} {e : Nat} (he : e ∈ s.endpointsOf a) (gone : s.endpointGone e = true) :
    (s.goneEndpoints a).isEmpty = false := by
  have : e ∈ s.goneEndpoints a := List.mem_eraseDups.2 (List.mem_filter.2 ⟨he, gone⟩)
  cases h : s.goneEndpoints a with
  | nil => rw [h] at this; cases this
  | cons x r => rfl

theorem mem_endpointsOf_of_remote {s : State} {a : Act} {e n : Nat} (h : (256 + e, n) ∈ a.remote) : e ∈ s.endpointsOf a := by
  unfold State.endpointsOf
  simp only [List.mem_append, List.mem_filterMap]
  exact .inl (.inl (.inl ⟨_, h, by simp⟩))

/-- Threads of the act are at an endpoint that is gone. -/
def State.strands (s : State) (a : Act) : Bool := a.remote.any fun x => decide (256 ≤ x.1) && s.endpointGone (x.1 - 256)

theorem strands_of_remote {s : State} {a : Act} {e n : Nat} (h : (256 + e, n) ∈ a.remote) (gone : s.endpointGone e = true) : s.strands a = true :=
  List.any_eq_true.2 ⟨_, h, by simp [gone]⟩

theorem strands_eq_false {s : State} {a : Act} (h : ∀ e n, (256 + e, n) ∈ a.remote → s.endpointGone e = false) : s.strands a = false := by
  rw [State.strands, List.any_eq_false]
  rintro ⟨k, n⟩ hk away
  obtain ⟨far, gone⟩ := Bool.and_eq_true_iff.1 away
  have far : 256 + (k - 256) = k := Nat.add_sub_cancel' (of_decide_eq_true far)
  have stands := h (k - 256) n (far.symm ▸ hk)
  exact Bool.false_ne_true (stands.symm.trans gone)

/-- FABRIC_UNREACHABLE_TIMEOUT: the act's work at the endpoints that are gone ends, and the act fails where threads of it are there (R278, R413). -/
theorem fabricUnreachable_eq {s : State} {k e : Nat} {a : Act} (ha : find s.acts k = some a) (he : e ∈ s.endpointsOf a)
    (gone : s.endpointGone e = true) :
    exec (.fabricUnreachableTimeout k) s = .next (if s.strands a then (s.leaveEndpoints (s.goneEndpoints a)).guestFailed a.ctx
      else s.leaveEndpoints (s.goneEndpoints a)) := by
  change execFabricUnreachableTimeout k s = _
  have nonempty : ((s.endpointsOf a).filter s.endpointGone).eraseDups.isEmpty = false := goneEndpoints_not_isEmpty he gone
  simp only [execFabricUnreachableTimeout, ha, nonempty]
  rfl

/-! Requests of peers (R410). -/

theorem peerAccess_refused {s : State} {ctx : Option Nat} {pa n e : Nat} (h : s.peerRefused ctx pa n = some e) :
    s.peerAccess ctx pa n = some (.error e) := by rw [State.peerAccess, h]

/-- An access that is not refused is served where its bytes stand, and the engine there numbers it (R81). -/
theorem peerAccess_served {s s1 : State} {ctx : Option Nat} {pa n a : Nat} (h : s.peerRefused ctx pa n = none) (at' : s.peerAt pa n = some (s1, a)) :
    s.peerAccess ctx pa n = some (.ok (s1.countMse (.home (a / 2 ^ 30)))) := by rw [State.peerAccess, h, at']; rfl

/-- A request that enters over an open link is served. -/
theorem peerRequest_eq {s : State} {r : PeerReq} (src : r.src < 512) (link : s.linkOpen r = true) : exec (.peerRequest r) s = s.servePeer r := by
  change execPeerRequest r s = _
  rw [execPeerRequest, if_neg]
  simp [src, link]

/-- A request for an aligned word of at most 8 bytes. -/
theorem peerWord_fits {pa n : Nat} (whole : pa % n = 0) (pos : 1 ≤ n) (word : n ≤ 8) : ¬((pa % n != 0) = true ∨ 8 < n ∨ n = 0) := by
  simp only [whole, bne_self_eq_false, Bool.false_eq_true, false_or]
  omega

section
variable {s u : State} {r : PeerReq} {pa n : Nat} (fits : ¬((pa % n != 0) = true ∨ 8 < n ∨ n = 0))
include fits

theorem servePeer_load_refused {e : Nat} (op : r.op = .load pa n) (h : s.peerAccess (s.serving r.job) pa n = some (.error e)) :
    s.servePeer r = .next (s.send (.peerReply r.src [] 0 (some (BitVec.ofNat 8 e)))) := by
  simp only [State.servePeer, op, if_neg fits, h]

theorem servePeer_load_data (op : r.op = .load pa n) (h : s.peerAccess (s.serving r.job) pa n = some (.ok u)) (mark : u.markNow pa n = none) :
    s.servePeer r = .next (u.send (.peerReply r.src (reply64 (u.readNow pa n)) 0 none)) := by
  simp only [State.servePeer, op, if_neg fits, h, mark]

theorem servePeer_load_mark {m : Byte} (op : r.op = .load pa n) (h : s.peerAccess (s.serving r.job) pa n = some (.ok u))
    (mark : u.markNow pa n = some m) : s.servePeer r = .next (u.send (.peerReply r.src [] 0 (some m))) := by
  simp only [State.servePeer, op, if_neg fits, h, mark]

theorem servePeer_store {v : Dword} (op : r.op = .store pa n v) (h : s.peerAccess (s.serving r.job) pa n = some (.ok u)) :
    s.servePeer r = .next ((u.storeNow pa (toBytes n v.toNat)).send (.peerReply r.src [] 0 none)) := by
  simp only [State.servePeer, op, if_neg fits, h]

end

/-- Settles O54, a clause for each step, from its own lemma. -/
theorem podSteps : Obligations.PodSteps := by
  unfold Obligations.PodSteps
  intro s
  refine ⟨fun q package other routes time => peerLeftPod_eq package other routes time, fun key t va since pc cons born ht waits => ⟨fun up high => ?_,
    fun time lost => ?_⟩, fun link lane hl h => ⟨?_, ?_⟩, fun fibre lane hf h => ⟨?_, ?_⟩, fun k a ha lost home => ?_, fun k a e n ha he gone => ?_,
    fun r pa n src link op whole pos word => ⟨fun e refused => ?_, fun s1 a served at' => ⟨fun mark => ?_, fun m mark => ?_⟩⟩,
    fun r pa n v src link op whole pos word s1 a served at' => ?_⟩
  · exact linkRecoveryResolved_eq ht waits up high
  · have next := linkRecoveryTimeout_eq ht waits time lost
    exact ⟨next, _, next, lateFailure_low _ _ _ _ _ _ _⟩
  · exact linkFlitError_link hl h s false
  · exact linkFlitError_link hl h s true
  · exact linkFlitError_fibre hf h false
  · exact linkFlitError_fibre hf h true
  · obtain ⟨e, he, gone⟩ := lost
    rw [fabricUnreachable_eq ha he gone, strands_eq_false home]
    rfl
  · refine ⟨_, fabricUnreachable_eq ha (mem_endpointsOf_of_remote he) gone, ?_⟩
    rw [strands_of_remote he gone, if_pos rfl, State.guestFailed]
    exact lateFailure_low _ _ _ _ _ _ _
  · exact (peerRequest_eq src link).trans (servePeer_load_refused (peerWord_fits whole pos word) op (peerAccess_refused refused))
  · exact (peerRequest_eq src link).trans (servePeer_load_data (peerWord_fits whole pos word) op (peerAccess_served served at') mark)
  · exact (peerRequest_eq src link).trans (servePeer_load_mark (peerWord_fits whole pos word) op (peerAccess_served served at') mark)
  · exact (peerRequest_eq src link).trans (servePeer_store (peerWord_fits whole pos word) op (peerAccess_served served at'))

end Sys2Proof.Machine
end

section
/-! The fields of an encoding where its layout puts them, and its length in its first byte (spec/05 R105, R109, R112, R116, R117). -/

namespace Sys2Proof

open BitVec

/-! Bytes (R2). -/

theorem ofBytes_toBytes {n v : Nat} (h : v < 256 ^ n) : ofBytes (toBytes n v) = v := by
  induction n generalizing v with
  | zero => simp only [ofBytes, toBytes]; omega
  | succ n ih =>
    have shorter : v / 256 < 256 ^ n := Nat.div_lt_of_lt_mul (by rwa [← Nat.pow_succ'])
    rw [toBytes, ofBytes, ih shorter, toNat_ofNat]
    exact Nat.mod_add_div v 256

/-- Each byte of a list stands in its own eight bits of the number. -/
theorem byte_ofBytes (l : List Byte) (i : Nat) : ofBytes l / 2 ^ (8 * i) % 256 = (l.getD i 0).toNat := by
  induction l generalizing i with
  | nil => simp [ofBytes]
  | cons b l ih =>
    have small : b.toNat < 256 := b.isLt
    cases i with
    | zero => simp [ofBytes, Nat.mod_eq_of_lt small]
    | succ i =>
      have tail : (b.toNat + 256 * ofBytes l) / 256 = ofBytes l := by omega
      have weight : 2 ^ (8 * (i + 1)) = 256 * 2 ^ (8 * i) := by rw [Nat.mul_succ, Nat.pow_add]; omega
      rw [ofBytes, weight, ← Nat.div_div_eq_div_mul, tail, ih, List.getD_cons_succ]

/-! The length (R105). -/

/-- The length by bits [1:0], each value of them assigned. -/
theorem lengthOf_eq (b : Byte) : lengthOf b = match (b.extractLsb' 0 2).toNat with | 0 => 2 | 1 => 4 | 2 => 2 | _ => 8 := by
  revert b
  decide

/-- The length that the first byte of an encoding states is that of the two lowest bits of the whole. -/
theorem lengthOf_firstByte {w : Nat} (v : BitVec w) :
    lengthOf (BitVec.ofNat 8 v.toNat) = if v.getLsbD 0 then (if v.getLsbD 1 then 8 else 4) else 2 := by
  have bit (i : Nat) (h : i < 8) : (BitVec.ofNat 8 v.toNat).getLsbD i = v.getLsbD i := by simp [h]
  rw [lengthOf, bit 0 (by decide), bit 1 (by decide)]

/-! The 16-bit form (R109). -/

theorem packH_op (op : BitVec 4) (f : HForm) : (packH op f).extractLsb' 2 4 = op := by
  simp (disch := decide) only [packH, extractLsb'_append_eq_of_le, Nat.reduceSub, extractLsb'_append_eq_right]

theorem hFields_packH (op : BitVec 4) (f : HForm) : hFields (packH op f) = f := by
  simp (disch := decide) only [hFields, packH, extractLsb'_append_eq_of_le, Nat.reduceSub, extractLsb'_append_eq_right, extractLsb'_eq_self,
    getLsbD_append, Nat.reduceLT, if_true, if_false, getLsbD_ofBool, decide_true, Bool.true_and]

/-! The 32-bit forms (R112). -/

theorem packW_op (op : BitVec 7) (f : WForm) : (packW op f).extractLsb' 7 7 = op := by
  simp (disch := decide) only [packW, extractLsb'_append_eq_of_le, Nat.reduceSub, extractLsb'_append_eq_right]

theorem wFields_packW (op : BitVec 7) (f : WForm) : wFields (packW op f) = f := by
  simp (disch := decide) only [wFields, packW, extractLsb'_append_eq_of_le, Nat.reduceSub, extractLsb'_append_eq_right, extractLsb'_eq_self]

theorem packWimm_op (op : BitVec 7) (f : WImmForm) : (packWimm op f).extractLsb' 7 7 = op := by
  simp (disch := decide) only [packWimm, extractLsb'_append_eq_of_le, Nat.reduceSub, extractLsb'_append_eq_right]

theorem wimmFields_packWimm (op : BitVec 7) (f : WImmForm) : wimmFields (packWimm op f) = f := by
  simp (disch := decide) only [wimmFields, packWimm, extractLsb'_append_eq_of_le, Nat.reduceSub, extractLsb'_append_eq_right,
    extractLsb'_eq_self]

theorem packWi_op (op : BitVec 7) (f : WIForm) : (packWi op f).extractLsb' 7 7 = op := by
  simp (disch := decide) only [packWi, extractLsb'_append_eq_of_le, Nat.reduceSub, extractLsb'_append_eq_right]

theorem wiFields_packWi (op : BitVec 7) (f : WIForm) : wiFields (packWi op f) = f := by
  simp (disch := decide) only [wiFields, packWi, extractLsb'_append_eq_of_le, Nat.reduceSub, extractLsb'_append_eq_right, extractLsb'_eq_self]

/-! The 64-bit forms (R116, R117): their 16 low bits alike, then each form's own. -/

section
variable (op : Byte) (neg : Bool) (p : BitVec 3) (cue : BitVec 2)

theorem packLow_op : (packLow op neg p cue).extractLsb' 8 8 = op := by
  simp (disch := decide) only [packLow, extractLsb'_append_eq_of_le, Nat.reduceSub, extractLsb'_eq_self]

theorem packLow_neg : (packLow op neg p cue).getLsbD 7 = neg := by
  simp only [packLow, getLsbD_append, Nat.reduceLT, Nat.reduceSub, if_true, if_false, getLsbD_ofBool, decide_true, Bool.true_and]

theorem packLow_p : (packLow op neg p cue).extractLsb' 4 3 = p := by
  simp (disch := decide) only [packLow, extractLsb'_append_eq_of_le, Nat.reduceSub, extractLsb'_append_eq_right]

theorem packLow_cue : (packLow op neg p cue).extractLsb' 2 2 = cue := by
  simp (disch := decide) only [packLow, extractLsb'_append_eq_of_le, Nat.reduceSub, extractLsb'_append_eq_right]

theorem packLow_length {i : Nat} (h : i < 2) : (packLow op neg p cue).getLsbD i = true := by
  rw [packLow, getLsbD_append, if_pos h]
  revert i
  decide

end

theorem packD_op (op : Byte) (f : DForm) : (packD op f).extractLsb' 8 8 = op := by
  simp (disch := decide) only [packD, extractLsb'_append_eq_of_add_le, packLow_op]

theorem dFields_packD (op : Byte) (f : DForm) : dFields (packD op f) = f := by
  simp (disch := decide) only [dFields, packD, extractLsb'_append_eq_of_le, extractLsb'_append_eq_of_add_le, Nat.reduceSub, extractLsb'_eq_self,
    getLsbD_append, Nat.reduceLT, if_true, packLow_neg, packLow_p, packLow_cue]

theorem packDP_op (op : Byte) (f : DPForm) : (packDP op f).extractLsb' 8 8 = op := by
  simp (disch := decide) only [packDP, extractLsb'_append_eq_of_add_le, packLow_op]

theorem dpFields_packDP (op : Byte) (f : DPForm) : dpFields (packDP op f) = f := by
  simp (disch := decide) only [dpFields, packDP, extractLsb'_append_eq_of_le, extractLsb'_append_eq_of_add_le, Nat.reduceSub,
    extractLsb'_eq_self, getLsbD_append, Nat.reduceLT, if_true, packLow_neg, packLow_p, packLow_cue]

theorem packDI_op (op : Byte) (f : DIForm) : (packDI op f).extractLsb' 8 8 = op := by
  simp (disch := decide) only [packDI, extractLsb'_append_eq_of_add_le, packLow_op]

theorem diFields_packDI (op : Byte) (f : DIForm) : diFields (packDI op f) = f := by
  simp (disch := decide) only [diFields, packDI, extractLsb'_append_eq_of_le, extractLsb'_append_eq_of_add_le, Nat.reduceSub,
    extractLsb'_eq_self, getLsbD_append, Nat.reduceLT, if_true, packLow_neg, packLow_p, packLow_cue]

theorem packDM_op (op : Byte) (f : DMForm) : (packDM op f).extractLsb' 8 8 = op := by
  simp (disch := decide) only [packDM, extractLsb'_append_eq_of_add_le, packLow_op]

theorem dmFields_packDM (op : Byte) (f : DMForm) : dmFields (packDM op f) = f := by
  simp (disch := decide) only [dmFields, packDM, extractLsb'_append_eq_of_le, extractLsb'_append_eq_of_add_le, Nat.reduceSub,
    extractLsb'_eq_self, getLsbD_append, Nat.reduceLT, if_true, packLow_neg, packLow_p, packLow_cue]

/-! The length of every form, in its first byte and in its bits. -/

/-- The two lowest bits of the encoding state its length (R105). -/
theorem lengthOf_bits (r : Raw) : lengthOf (BitVec.ofNat 8 r.bits.2) = r.bits.1 := by
  cases r with
  | h op f => simp only [Raw.bits, lengthOf_firstByte, packH, getLsbD_append]; rfl
  | w op f => simp only [Raw.bits, lengthOf_firstByte, packW, getLsbD_append]; rfl
  | wimm op f => simp only [Raw.bits, lengthOf_firstByte, packWimm, getLsbD_append]; rfl
  | wi op f => simp only [Raw.bits, lengthOf_firstByte, packWi, getLsbD_append]; rfl
  | d op f => simp only [Raw.bits, lengthOf_firstByte, packD, getLsbD_append, Nat.reduceLT, if_true, packLow_length]
  | dp op f => simp only [Raw.bits, lengthOf_firstByte, packDP, getLsbD_append, Nat.reduceLT, if_true, packLow_length]
  | di op f => simp only [Raw.bits, lengthOf_firstByte, packDI, getLsbD_append, Nat.reduceLT, if_true, packLow_length]
  | dm op f => simp only [Raw.bits, lengthOf_firstByte, packDM, getLsbD_append, Nat.reduceLT, if_true, packLow_length]

theorem bits_pos (r : Raw) : 0 < r.bits.1 := by cases r <;> exact Nat.succ_pos _

theorem bits_lt (r : Raw) : r.bits.2 < 256 ^ r.bits.1 := by
  cases r with
  | h op f => exact (packH op f).isLt
  | w op f => exact (packW op f).isLt
  | wimm op f => exact (packWimm op f).isLt
  | wi op f => exact (packWi op f).isLt
  | d op f => exact (packD op f).isLt
  | dp op f => exact (packDP op f).isLt
  | di op f => exact (packDI op f).isLt
  | dm op f => exact (packDM op f).isLt

end Sys2Proof
end

section
/-! For every instruction of the table: what the opcode maps find under the opcode that its encoding carries, from its own lemma in
`Laws.Encodable`. -/

namespace Sys2Proof.Laws.Encodable

theorem encodable (i : Instr) : Statement i := by
  cases i
  exacts [
    movH _, iaddH _, isubH _, imulH _, andH _, orH _, xorH _, shlH _, shrH _, sarH _, iminH _, imaxH _, faddH _, fmulH _, fmaxH _, ffmaH _,
    movW _, iaddW _, isubW _, imulW _, imulhW _, iminW _, imaxW _, andW _, orW _, xorW _, andnW _, notW _, shlW _, shrW _, sarW _, rotW _,
    popcW _, clzW _, ctzW _, brevW _, inegW _, iabsW _, faddW _, fsubW _, fmulW _, fminW _, fmaxW _, frcpW _, frsqW _, fsqrtW _, fexp2W _,
    flog2W _, fsinW _, fcosW _, ftanhW _, hpaddW _, hpmulW _, hpmaxW _, iaddWimm _, imulWimm _, andWimm _, orWimm _, xorWimm _, shlWimm _,
    shrWimm _, sarWimm _, rotWimm _, iminWimm _, imaxWimm _, moviWi _, iaddWi _, imulWi _, andWi _, orWi _, xorWi _, iminWi _, imaxWi _,
    braWi _, checkW _, nopW _, exitW _, holdW _, yieldW _, retW _, movD _, iaddD _, iaddxD _, isubD _, imulD _, imulhD _, imadD _, iabsD _,
    inegD _, iminD _, imaxD _, icmpD _, selD _, andD _, orD _, xorD _, notD _, andnD _, tbl3D _, shlD _, shrD _, sarD _, rotD _, funnelD _,
    bfxD _, bfiD _, popcD _, clzD _, ctzD _, brevD _, leaD _, dp4D _, dp8D _, faddD _, fsubD _, fmulD _, ffmaD _, fminD _, fmaxD _,
    fcmpD _, fclassD _, frcpD _, frsqD _, fsqrtD _, fexp2D _, flog2D _, fsinD _, fcosD _, ftanhD _, fscaleD _, frndD _, fdivfixD _,
    daddD _, dmulD _, dfmaD _, dcmpD _, hpaddD _, hpmulD _, hpfmaD _, hpmaxD _, packD _, unpackD _, cvtD _ _, cvtsD _ _, shflD _,
    ballotD _, agreeD _, vpfxD _, vredD _, matchD _, xsectD _, conflD _, ptblD _, pmovD _, checkD _, ispoiD _, pclrD _, movDp _, iaddDp _,
    isubDp _, imulDp _, iminDp _, imaxDp _, andDp _, orDp _, xorDp _, shlDp _, shrDp _, faddDp _, fsubDp _, fmulDp _, fminDp _, fmaxDp _,
    braDi _, brxD _, callDi _, callxD _, retD _, exitD _, nopD _, holdD _, yieldD _, regionD _, spawnD _, migrD _, homeD _, racqD _,
    rrelD _, statD _, moviDi _, kmovDi _, kaddDi _, tapeD _, trapDi _, brkDi _, fbeginD _, fcommitD _, fabortD _, launchD _, trigD _,
    ldDm _, stDm _, ldfDm _, ldsDm _, stsDm _, stmDm _, ldwDm _, stwDm _, ldgDm _, pmaxDm _, agatDm _, asctDm _, kldDm _, atomAdd _,
    atomMin _, atomMax _, atomAnd _, atomOr _, atomXor _, atomXchg _, atomCas _, atomFadd _, atomqBinc _, atomqWinc _, atomqCdec _,
    atomqLadd _, atomsAdd _, atomsMin _, atomsMax _, atomsAnd _, atomsOr _, atomsXor _, atomsXchg _, atomsCas _, atomsFadd _, redAdd _,
    redMin _, redMax _, redAnd _, redOr _, redXor _, redFadd _, cpyD _, cpytD _, opkD _, mwaitD _, waitaD _, waitcD _, fenceD _, barD _,
    ebarD _, astrD _, mmaD _, mmabD _, mzeroD _, maccD _, selcD _, warpFormation _ _, promotion _, longWriteReturn _ _,
    storeAcknowledgement _ _, queueWaitResume _ _, translationWalkEnd _ _ _ _, mseRead _ _, mseWrite _, mseAtomic _ _, bankAtomic _,
    opkPacket _ _, forwardedOperation _, stmCopy _ _, registerWindowAccess _, monitorRecheck _, gateRelease _, frontierUpdate _,
    gateResend _, copyElementRead _ _ _ _, copyCompletion _ _, cacheDrop _ _ _, sliceFill _, accessIssue _, streamElementReturn _ _ _ _,
    matrixOperationStart _, matrixOperationComplete _ _, messageDelivery _ _, messageResend _ _, departure _, migrationMessage _ _,
    migrationAcknowledgement _, migrationRefusal _, migrResend _, arrivalAdmission _, spawnMessage _ _ _, spawnResend _ _,
    triggerNotice _ _, completionNotice _ _ _, failureNotice _, racqGrant _, registerPoolEviction _, swapOut _ _, kldReply _ _,
    transactionPacket _ _, fcommitCommit _ _, fcommitReply _ _, actRetirement _, cbpost _ _, cbctlWrite _ _, actReady _, placement _,
    roamingReleaseResend _, congestionWindow _ _, partmapWrite _, contextEnable _ _, contextEnd _ _, ctxmodeWrite _ _, clockChangeDone _, switchOut _,
    switchIn _, frameownWrite _, zeroFillDone _, ctxinvRange _ _, ctxinvAll _, invalidationComplete _, atsCompletion _ _, atsTimeout _,
    atsInvalidateRequest _ _ _ _ _, invalidateCompletion _, prgResponse _ _, bar2Read _ _, bar2Write _ _, personalitySwitch _ _,
    quiesceNotice _, switchDrainEnd _, switchDrainBound _ _, switchRetrainDone _ _, switchExchangeDone _ _, lossOfLight _ _, peerLeftPod _,
    peerRequest _, cxlTimeout _, fabricAckTimeout _, keyRotation _, linkRecoveryResolved _, linkRecoveryTimeout _, linkFlitError _ _ _,
    curtainSignal _ _ _, curtainSkidDeadline _, curtainDone _, watchdogExpiry _, ctxpgdoneGranule _ _, ctxpgdoneAll _, ctxdbgRd _ _,
    ctxdbgWr _ _, ctxdbgRes _ _, ctxfrpRead _, relrpRead, egstatRead _, scrub _ _ _, repcmdRepair _, repairDone _ _, boot _,
    firmwareUpdate _, recoveryLoad _, attestationRequest _, attestationReportDone _, powerWindow _ _, pwrctlWrite _, registerWrite _ _ _,
    instructionFault _ _, spawnAcknowledgement _ _, hostCompletionTimeout _, fabricUnreachableTimeout _, powerLoss]

end Sys2Proof.Laws.Encodable
end

section
/-! Decoding (spec/05 R105, R107): the form that each opcode has, the order of the conditions, and the decoding of an encoding. -/

namespace Sys2Proof

/-! The opcode maps (R111, R115, R128): each names opcodes of its own form alone, and the conditions of every instruction that it
names begin with the cue (R107). -/

/-- The cue is the first of the conditions on the fields. -/
theorem cue_of_conds {cue : BitVec 2} {neg : Bool} {p : BitVec 3} {c4 c6 c7 c8 : Bool}
    (h : WellFormed.conds cue neg p c4 c6 c7 c8 = none) : cue ≠ 3 := by
  rintro rfl
  cases h

/-- The opcodes of the DI form (R128). -/
abbrev DiOpcode (n : Nat) : Prop := n = 0x80 ∨ n = 0x82 ∨ n = 0x90 ∨ n = 0x91 ∨ n = 0x92 ∨ n = 0x94 ∨ n = 0x95

section
variable {n : Nat} {d : Decoded}

theorem wopMap_some {f : WForm} (h : wopMap n f = some d) :
    (¬(0x30 ≤ n ∧ n < 0x40) ∧ ¬(0x40 ≤ n ∧ n < 0x50)) ∧ ∀ sl, d.check sl = none → f.cue ≠ 3 := by
  unfold wopMap at h
  split at h <;> cases h
  all_goals exact ⟨by decide, fun _ => cue_of_conds⟩

theorem wimmMap_some {f : WImmForm} (h : wimmMap n f = some d) :
    (0x30 ≤ n ∧ n < 0x40) ∧ ∀ sl, d.check sl = none → f.cue ≠ 3 := by
  unfold wimmMap at h
  split at h <;> cases h
  all_goals exact ⟨by decide, fun _ => cue_of_conds⟩

theorem wiMap_some {f : WIForm} (h : wiMap n f = some d) :
    (¬(0x30 ≤ n ∧ n < 0x40) ∧ 0x40 ≤ n ∧ n < 0x50) ∧ ∀ sl, d.check sl = none → f.cue ≠ 3 := by
  unfold wiMap at h
  split at h <;> cases h
  all_goals exact ⟨by decide, fun _ => cue_of_conds⟩

theorem dMap_some {f : DForm} (h : dMap n f = some d) :
    (¬(0x70 ≤ n ∧ n < 0x80) ∧ ¬DiOpcode n ∧ ¬(0xA0 ≤ n ∧ n < 0xE0)) ∧ ∀ sl, d.check sl = none → f.cue ≠ 3 := by
  unfold dMap at h
  split at h <;> cases h
  all_goals exact ⟨by decide, fun _ => cue_of_conds⟩

theorem dpMap_some {f : DPForm} (h : dpMap n f = some d) :
    (0x70 ≤ n ∧ n < 0x80) ∧ ∀ sl, d.check sl = none → f.cue ≠ 3 := by
  unfold dpMap at h
  split at h <;> cases h
  all_goals exact ⟨by decide, fun _ => cue_of_conds⟩

theorem diMap_some {f : DIForm} (h : diMap n f = some d) :
    (¬(0x70 ≤ n ∧ n < 0x80) ∧ DiOpcode n) ∧ ∀ sl, d.check sl = none → f.cue ≠ 3 := by
  unfold diMap at h
  split at h <;> cases h
  all_goals exact ⟨by decide, fun _ => cue_of_conds⟩

theorem dmMap_some {f : DMForm} (h : dmMap n f = some d) :
    (¬(0x70 ≤ n ∧ n < 0x80) ∧ ¬DiOpcode n ∧ 0xA0 ≤ n ∧ n < 0xE0) ∧ ∀ sl, d.check sl = none → f.cue ≠ 3 := by
  unfold dmMap at h
  split at h <;> cases h
  all_goals exact ⟨by decide, fun _ => cue_of_conds⟩

end

/-- An instruction whose fields break no condition has another cue than 11; the H form has none (R109). -/
theorem cue_of_check {r : Raw} {d : Decoded} (h : r.decoded = some d) {sl : Bool} (fields : d.check sl = none) : r.cue ≠ 3 := by
  cases r with
  | h op f => exact show (0 : BitVec 2) ≠ 3 by decide
  | w op f => exact (wopMap_some h).2 sl fields
  | wimm op f => exact (wimmMap_some h).2 sl fields
  | wi op f => exact (wiMap_some h).2 sl fields
  | d op f => exact (dMap_some h).2 sl fields
  | dp op f => exact (dpMap_some h).2 sl fields
  | di op f => exact (diMap_some h).2 sl fields
  | dm op f => exact (dmMap_some h).2 sl fields

/-! The fields of an encoding, split (R109, R112, R117). -/

theorem split_two (w : Half) : split 2 w.toNat = .h (w.extractLsb' 2 4) (hFields w) := by
  rw [split, if_pos rfl, BitVec.ofNat_toNat, BitVec.setWidth_eq]

theorem split_four (w : Word) : split 4 w.toNat = splitWord w := by
  rw [split, if_neg (by decide), if_pos rfl, BitVec.ofNat_toNat, BitVec.setWidth_eq]

theorem split_eight (w : Dword) : split 8 w.toNat = splitDword w := by
  rw [split, if_neg (by decide), if_neg (by decide), BitVec.ofNat_toNat, BitVec.setWidth_eq]

theorem splitWord_form (w : Word) :
    (∃ op f, splitWord w = .w op f) ∨ (∃ op f, splitWord w = .wimm op f) ∨ ∃ op f, splitWord w = .wi op f := by
  unfold splitWord
  dsimp only
  split
  · exact .inr (.inl ⟨_, _, rfl⟩)
  · split
    · exact .inr (.inr ⟨_, _, rfl⟩)
    · exact .inl ⟨_, _, rfl⟩

theorem splitDword_form (w : Dword) :
    (∃ op f, splitDword w = .d op f) ∨ (∃ op f, splitDword w = .dp op f) ∨ (∃ op f, splitDword w = .di op f)
      ∨ ∃ op f, splitDword w = .dm op f := by
  unfold splitDword
  dsimp only
  split
  · exact .inr (.inl ⟨_, _, rfl⟩)
  · split
    · exact .inr (.inr (.inl ⟨_, _, rfl⟩))
    · split
      · exact .inr (.inr (.inr ⟨_, _, rfl⟩))
      · exact .inl ⟨_, _, rfl⟩

/-- What splits the bits of an encoding finds its opcode and its fields, where the maps know the opcode in its form. -/
theorem split_bits {r : Raw} {d : Decoded} (h : r.decoded = some d) : split r.bits.1 r.bits.2 = r := by
  cases r with
  | h op f => rw [Raw.bits, split_two, packH_op, hFields_packH]
  | w op f =>
    obtain ⟨⟨notImm, notWi⟩, -⟩ := wopMap_some h
    rw [Raw.bits, split_four, splitWord, packW_op, wFields_packW]
    exact (if_neg notImm).trans (if_neg notWi)
  | wimm op f =>
    rw [Raw.bits, split_four, splitWord, packWimm_op, wimmFields_packWimm]
    exact if_pos (wimmMap_some h).1
  | wi op f =>
    obtain ⟨⟨notImm, isWi⟩, -⟩ := wiMap_some h
    rw [Raw.bits, split_four, splitWord, packWi_op, wiFields_packWi]
    exact (if_neg notImm).trans (if_pos isWi)
  | d op f =>
    obtain ⟨⟨notDp, notDi, notDm⟩, -⟩ := dMap_some h
    rw [Raw.bits, split_eight, splitDword, packD_op, dFields_packD]
    exact (if_neg notDp).trans ((if_neg notDi).trans (if_neg notDm))
  | dp op f =>
    rw [Raw.bits, split_eight, splitDword, packDP_op, dpFields_packDP]
    exact if_pos (dpMap_some h).1
  | di op f =>
    obtain ⟨⟨notDp, isDi⟩, -⟩ := diMap_some h
    rw [Raw.bits, split_eight, splitDword, packDI_op, diFields_packDI]
    exact (if_neg notDp).trans (if_pos isDi)
  | dm op f =>
    obtain ⟨⟨notDp, notDi, isDm⟩, -⟩ := dmMap_some h
    rw [Raw.bits, split_eight, splitDword, packDM_op, dmFields_packDM]
    exact (if_neg notDp).trans ((if_neg notDi).trans (if_pos isDm))

/-! The order of the conditions (R107). -/

section
variable {sl : Bool} {r : Raw} {d : Decoded}

theorem decodeRaw_cue (h : r.cue = 3) : decodeRaw sl r = .error .cue := if_pos h

theorem decodeRaw_unknown (cue : r.cue ≠ 3) (h : r.decoded = none) : decodeRaw sl r = .error .opcode := by
  simp only [decodeRaw, if_neg cue, h]

theorem decodeRaw_elsewhere (cue : r.cue ≠ 3) (h : r.decoded = some d) (place : d.allowed sl = false) : decodeRaw sl r = .error .opcode := by
  simp only [decodeRaw, if_neg cue, h, place, Bool.not_false, if_true]

theorem decodeRaw_broken {c : Cause} (cue : r.cue ≠ 3) (h : r.decoded = some d) (place : d.allowed sl = true) (fields : d.check sl = some c) :
    decodeRaw sl r = .error c := by
  simp only [decodeRaw, if_neg cue, h, place, Bool.not_true, Bool.false_eq_true, if_false, fields]

theorem decodeRaw_met (cue : r.cue ≠ 3) (h : r.decoded = some d) (place : d.allowed sl = true) (fields : d.check sl = none) :
    decodeRaw sl r = .ok d := by
  simp only [decodeRaw, if_neg cue, h, place, Bool.not_true, Bool.false_eq_true, if_false, fields]

/-- What is delivered breaks no condition. -/
theorem conditions_of_decodeRaw (h : decodeRaw sl r = .ok d) :
    r.cue ≠ 3 ∧ r.decoded = some d ∧ d.check sl = none ∧ d.allowed sl = true := by
  have cue : r.cue ≠ 3 := fun e => by rw [decodeRaw_cue e] at h; cases h
  cases found : r.decoded with
  | none => rw [decodeRaw_unknown cue found] at h; cases h
  | some x =>
    cases place : x.allowed sl with
    | false => rw [decodeRaw_elsewhere cue found place] at h; cases h
    | true =>
      cases fields : x.check sl with
      | none => rw [decodeRaw_met cue found place fields] at h; cases h; exact ⟨cue, rfl, fields, place⟩
      | some c => rw [decodeRaw_broken cue found place fields] at h; cases h

end

/-! Bytes that hold a whole instruction (R105). -/

/-- The first byte states how many bytes are decoded. -/
theorem decode_cons {sl : Bool} {b : Byte} {l : List Byte} (h : lengthOf b ≤ (b :: l).length) :
    decode sl (b :: l) = (decodeRaw sl (split (lengthOf b) (ofBytes ((b :: l).take (lengthOf b))))).map fun d => (d, lengthOf b) := by
  simp only [decode, if_neg (not_lt.2 h)]
  cases decodeRaw sl (split (lengthOf b) (ofBytes ((b :: l).take (lengthOf b)))) <;> rfl

theorem decode_short {sl : Bool} {b : Byte} {l : List Byte} (h : (b :: l).length < lengthOf b) : decode sl (b :: l) = .error .fetch := by
  simp only [decode, if_pos h]

/-- The bytes of an encoding, whatever follows them, are split into its own fields. -/
theorem decode_bits {r : Raw} {d : Decoded} (h : r.decoded = some d) (sl : Bool) (rest : List Byte) :
    decode sl (toBytes r.bits.1 r.bits.2 ++ rest) = (decodeRaw sl r).map fun d => (d, r.bits.1) := by
  obtain ⟨n, hn⟩ : ∃ n, r.bits.1 = n + 1 := ⟨_, (Nat.succ_pred_eq_of_pos (bits_pos r)).symm⟩
  have whole : (toBytes r.bits.1 r.bits.2 ++ rest).take r.bits.1 = toBytes r.bits.1 r.bits.2 :=
    List.take_left' (Machine.length_toBytes _ _)
  have enough : r.bits.1 ≤ (toBytes r.bits.1 r.bits.2 ++ rest).length := by rw [List.length_append, Machine.length_toBytes]; omega
  have first : toBytes r.bits.1 r.bits.2 ++ rest = BitVec.ofNat 8 r.bits.2 :: (toBytes n (r.bits.2 / 256) ++ rest) := by
    rw [hn, toBytes, List.cons_append]
  rw [first] at enough whole ⊢
  rw [decode_cons (by rwa [lengthOf_bits]), lengthOf_bits, whole, ofBytes_toBytes (bits_lt r), split_bits h]

/-! The statements. -/

/-- Settles O1: each word is decoded. -/
theorem wordsDecode : Obligations.WordsDecode := ⟨rfl, rfl, rfl, rfl, rfl, rfl⟩

/-- Settles O2: the lengths of a first byte, the bytes of a number, and the forms that each length has. -/
theorem lengthFromTheFirstHalfword : Obligations.LengthFromTheFirstHalfword := by
  unfold Obligations.LengthFromTheFirstHalfword
  refine ⟨fun sl b r => ?_, fun l i _ => byte_ofBytes l i, fun v => ⟨⟨_, _, rfl⟩, splitWord_form _, splitDword_form _⟩⟩
  have stated := And.intro (decode_cons (sl := sl) (b := b) (l := r)) (decode_short (sl := sl) (b := b) (l := r))
  rw [lengthOf_eq] at stated
  exact stated

/-- Settles O3, from what decodeRaw answers where each condition is the first that fails. -/
theorem decodeChecksInOrder : Obligations.DecodeChecksInOrder := by
  unfold Obligations.DecodeChecksInOrder
  exact fun sl r => ⟨decodeRaw_cue, decodeRaw_unknown, fun _ => decodeRaw_elsewhere, fun _ => conditions_of_decodeRaw⟩

/-- Settles O4: the bits of an encoding are split into its fields, its opcode is found as the instruction itself, and the conditions that
it meets are the decoder's. -/
theorem encodeDecode : Obligations.EncodeDecode := by
  unfold Obligations.EncodeDecode
  intro sl i rest table place fields opcode
  obtain ⟨r, raw⟩ := Option.isSome_iff_exists.1 table
  obtain ⟨d, found, same, conditions⟩ := Laws.Encodable.encodable i r raw opcode
  obtain ⟨check, allowed⟩ := conditions sl
  have met : d.check sl = none := check.trans fields
  have delivered : decodeRaw sl r = .ok d := decodeRaw_met (cue_of_check found met) found (allowed.trans place) met
  refine ⟨d, ?_, same⟩
  simp only [encode, Instr.length, raw]
  rw [decode_bits found, delivered]
  rfl

end Sys2Proof
end

section
/-! What an instruction fault leaves (spec/05 R106, spec/20 R424): every thread of the warp parked at its own region entry, or the curtain. -/

namespace Sys2Proof.Machine

/-! Records and rollbacks, in the threads (R423, R428). -/

theorem writeVirtual_threads (s : State) (cluster ctx va : Nat) (l : List Byte) : (s.writeVirtual cluster ctx va l).1.threads = s.threads := by
  obtain ⟨_, _, _, _, _, _, _, _, _, _, h⟩ := writeVirtual_deviceWrote s cluster ctx va l
  rw [h]

/-- A fault record changes no thread. -/
theorem putRecord_threads (s : State) (ctx cluster : Nat) (r : Record) : (s.putRecord ctx cluster r).threads = s.threads := by
  unfold State.putRecord
  dsimp only
  split
  · rfl
  · split
    · rfl
    · split
      · next u written =>
        have kept : u.threads = s.threads := by
          have h := writeVirtual_threads s cluster ctx (df (s.ctx ctx).fr 63 20 * 4096 + 16 * df (s.ctx ctx).frp 19 0) (toBytes 16 r.bits)
          rwa [written] at h
        split <;> simpa using kept
      · rfl

/-- A rollback is of one thread. -/
theorem rollback_thread_other (s : State) {k n : Nat} (code : Nat) (pc : Dword) (cons : Nat) (h : n ≠ k) :
    (s.rollback k code pc cons).thread? n = s.thread? n := by
  unfold State.rollback
  split
  · rfl
  · have kept (u : Thread) : (s.setThread k u).thread? n = s.thread? n := thread_setThread_other s k n u h
    dsimp only
    split
    · split <;> exact kept _
    · split <;> exact kept _
    · split
      · exact kept _
      · split <;> exact kept _

/-- A rollback with code 0x01 parks its thread, until the page is there (R423, R426). -/
theorem rollback_page {s : State} {k va : Nat} {t : Thread} {a : Access} (ht : s.thread? k = some t) (need : t.rec1 = some (va, a))
    (pc : Dword) (cons : Nat) :
    (s.rollback k 1 pc cons).thread? k =
      some (({ t.abandon (originOf pc) with pc := t.region, held := false } : Thread).enter s.now .parked 0x18 (.page va)) := by
  have need' : (t.abandon (originOf pc)).rec1 = some (va, a) := need
  simp only [State.rollback, ht, need']
  exact thread_setThread _ _ _

/-! The threads of the warp (R424). -/

/-- One thread of a warp whose fetch found a page not resident: its recovery address is that of the fetch, and it rolls back. -/
def State.refetchLater (s : State) (pc : Dword) (va k : Nat) : State :=
  (s.modThread k fun t => { t with rec1 := some (va, .fetch) }).rollback k 1 pc 0x0C

theorem refetchLater_thread_other (s : State) (pc : Dword) (va : Nat) {k n : Nat} (h : n ≠ k) :
    (s.refetchLater pc va k).thread? n = s.thread? n :=
  (rollback_thread_other _ _ _ _ h).trans (thread_modThread_other s _ h.symm)

/-- Parked at its region entry until the page of a fetch is there. -/
def AwaitsFetch (t u : Thread) (va : Nat) : Prop :=
  u.pc = t.region ∧ u.rec1 = some (va, .fetch) ∧ u.cue = .parked ∧ u.wait = 0x18 ∧ u.waitOn = .page va

theorem refetchLater_thread {s : State} {k : Nat} {t : Thread} (ht : s.thread? k = some t) (pc : Dword) (va : Nat) :
    ∃ u, (s.refetchLater pc va k).thread? k = some u ∧ AwaitsFetch t u va := by
  have addressed : (s.modThread k fun t => { t with rec1 := some (va, .fetch) }).thread? k = some { t with rec1 := some (va, .fetch) } := by
    rw [thread_modThread, if_pos rfl, ht, Option.map_some]
  exact ⟨_, rollback_page addressed rfl pc 0x0C, rfl, rfl, rfl, rfl, rfl⟩

/-- Where each element of a list changes its own thread alone, the one that names a thread finds it as it was before them all. -/
theorem foldl_thread_one (g : State → Nat → State) (other : ∀ s x k, k ≠ x → (g s x).thread? k = s.thread? k) {l : List Nat} (hn : l.Nodup)
    {k : Nat} (hk : k ∈ l) (s : State) : ∃ u, u.thread? k = s.thread? k ∧ (l.foldl g s).thread? k = (g u k).thread? k := by
  have untouched {r : List Nat} (h : k ∉ r) (s : State) : (r.foldl g s).thread? k = s.thread? k := by
    induction r generalizing s with
    | nil => rfl
    | cons x r ih =>
      obtain ⟨hx, hr⟩ := not_or.1 (mt List.mem_cons.2 h)
      exact (ih hr _).trans (other s x k hx)
  induction l generalizing s with
  | nil => cases hk
  | cons x l ih =>
    obtain ⟨first, rest⟩ := List.nodup_cons.1 hn
    by_cases e : k = x
    · subst e
      exact ⟨s, rfl, untouched first _⟩
    · obtain ⟨u, hu, done⟩ := ih rest (List.mem_of_ne_of_mem e hk) (g s x)
      exact ⟨u, hu.trans (other s x k e), done⟩

/-- The threads after an instruction fault of a page that is not resident: after the record each has been rolled back; the slot is left. -/
theorem takeInstrFault_threads {s : State} {f : Front} {cause : Cause} {va : Nat}
    (absent : cause = .fetch ∧ s.lookup f.user f.cluster f.ctx va .fetch = .fault 1 ∧ f.slice = false) (code : Byte) :
    ∃ u : State, u.threads = s.threads ∧
      (s.takeInstrFault f cause code va).threads = (f.keys.foldl (fun s k => State.refetchLater s f.pc va k) u).threads := by
  refine ⟨_, putRecord_threads s f.ctx f.cluster ⟨f.pc.toNat, 0x0C, code.toNat, cause.num * 2 ^ 16, f.cluster, f.slot, 0⟩, ?_⟩
  unfold State.takeInstrFault
  rw [if_pos (by simpa using absent)]
  dsimp only
  split <;> rfl

/-! The curtain (R106, R429). -/

/-- A fault's record leaves every curtain as it is, so the curtain is lowered from up, with the record's consumer and code. -/
theorem curtain_lowered {s : State} {ctx : Nat} (h : (s.ctx ctx).low = false) (cluster : Nat) (r : Record) :
    ∃ c, Lowered c ((s.curtain ctx cluster r).ctx ctx) r.cons r.code := by
  have same := putRecord_sameCurtains s ctx cluster { r with path := 1 }
  rw [State.curtain, if_neg (by simp [h])]
  exact ⟨_, lowerCurtain_lowered ((same.low ctx).trans h) _ _⟩

/-- Settles O60: the threads of a warp are rolled back one by one, each by itself; every other fault is the curtain's. -/
theorem instructionFaults : Obligations.InstructionFaults := by
  unfold Obligations.InstructionFaults
  intro s f cause code va
  refine ⟨fun absent alone k hk t ht => ?_, fun present high => ?_⟩
  · obtain ⟨u, before, after⟩ := takeInstrFault_threads absent code
    obtain ⟨v, same, one⟩ := foldl_thread_one (fun s k => s.refetchLater f.pc va k) (fun s x k h => refetchLater_thread_other s f.pc va h)
      alone hk u
    have found : v.thread? k = some t := by rw [same, State.thread?, before]; exact ht
    obtain ⟨w, hw, parked⟩ := refetchLater_thread found f.pc va
    exact ⟨w, by rw [State.thread?, after]; exact one.trans hw, parked⟩
  · have lowers : s.takeInstrFault f cause code va = s.instrFault f.ctx f.cluster f.slot f.pc code.toNat cause.num := by
      unfold State.takeInstrFault
      exact if_neg (by simpa using present)
    rw [lowers, State.instrFault]
    obtain ⟨c, low, _, cons, reason⟩ := curtain_lowered high f.cluster ⟨f.pc.toNat, 0x0C, code.toNat, cause.num * 2 ^ 16, f.cluster, f.slot, 1⟩
    exact ⟨low, cons, reason.trans (Nat.mod_eq_of_lt code.isLt)⟩

end Sys2Proof.Machine
end

section
/-! CHECK and HOME complete (spec/06 R164, spec/07 R183, spec/18 R390). -/

namespace Sys2Proof.Machine

open Sys2Proof.Safety

/-! CHECK. -/

/-- An instruction that raises nothing goes on to the next. -/
theorem finish_nil (s : State) (w : Warp) (h : Head) (ends : Bool) : s.finish w h [] ends = .next (s.step1 w h ends) := rfl

/-- CHECK that starts and finds no tag reads its operand in every acting lane, and goes on. -/
theorem runCheck_untagged {s : State} {w : Warp} {h : Head} {src : Src} (hw : s.warp h = some w) (hs : Starts s w [src] .none)
    (untagged : s.checkRaises w src = []) : runCheck s h src = .next ((s.started w [src] w.acting).step1 w h) := by
  have all_lanes : (w.acting.filter fun l => !(([] : List (Lane × Word × Nat)).any fun x => x.1.v = l.v)) = w.acting :=
    List.filter_eq_self.mpr fun _ _ => rfl
  simp only [runCheck, hw, barred_none hs, untagged, all_lanes, finish_nil]

/-! HOME. -/

/-- The page that HOME of a lane has still to walk to. -/
def State.homeMiss (s : State) (w : Warp) (r : Byte) (l : Lane) : Option Nat :=
  match s.readPair w l r with
  | .dat v => (match s.homeLook w.user w.cluster w.ctx v.toNat with | .miss => some (homeKey v.toNat) | _ => none)
  | .tok _ => none

/-- What HOME gives one thread: the token of its guard or address, or the home word (R88, R183). -/
def State.homeOut (s : State) (w : Warp) (i : LaneIn) : LaneOut :=
  match i.poison with
  | some k => .one (.tok k)
  | none => .one (s.homeOf w (i.ins.getD 0 (.dat 0)).bits)

/-- HOME asks for the walks that its acting lanes miss, unless a block of its destination is missing (R42); else it is a lane instruction. -/
theorem execHomeD_eq {f : DForm} {s : State} {w : Warp} (hw : s.warp (dHead f) = some w) :
    execHomeD f s =
      if !w.missingBlock (.reg f.d false) ∧ !(w.acting.filterMap (s.homeMiss w f.s1)).isEmpty then
        .next (s.seek w (w.acting.filterMap (s.homeMiss w f.s1)) [] false)
      else runLane s (dHead f) [pairS1 f] (.reg f.d false) false fun ls => ls.map (s.homeOut w) := by
  simp only [execHomeD, hw]
  rfl

theorem homeMiss_none {s : State} {w : Warp} {r : Byte} {l : Lane}
    (translated : ∀ v, s.readPair w l r = .dat v → s.homeLook w.user w.cluster w.ctx v.toNat ≠ .miss) : s.homeMiss w r l = none := by
  unfold State.homeMiss
  split
  case h_1 v read =>
    split
    case h_1 miss => exact absurd miss (translated v read)
    case h_2 => rfl
  case h_2 => rfl

/-- HOME whose addresses are all translated is a lane instruction. -/
theorem execHomeD_translated {f : DForm} {s : State} {w : Warp} (hw : s.warp (dHead f) = some w)
    (translated : ∀ l ∈ w.acting, ∀ v, s.readPair w l f.s1 = .dat v → s.homeLook w.user w.cluster w.ctx v.toNat ≠ .miss) :
    execHomeD f s = runLane s (dHead f) [pairS1 f] (.reg f.d false) false fun ls => ls.map (s.homeOut w) := by
  have no_miss : w.acting.filterMap (s.homeMiss w f.s1) = [] :=
    List.filterMap_eq_nil_iff.mpr fun l hl => homeMiss_none (translated l hl)
  rw [execHomeD_eq hw, no_miss]
  exact if_neg fun ⟨_, misses⟩ => absurd misses (by decide)

/-- Settles O30: CHECK raises nothing, and HOME has no walk to wait for, so it runs as a lane instruction. -/
theorem checkAndHomeComplete : Obligations.CheckAndHomeComplete := by
  unfold Obligations.CheckAndHomeComplete
  intro s w
  refine ⟨fun f hw hs untagged => ?checkW, fun f hw hs untagged => ?checkD, fun f hw hs room translated => ?home⟩
  case checkW => exact runCheck_untagged hw hs untagged
  case checkD => exact runCheck_untagged hw hs untagged
  case home =>
    calc exec (.homeD f) s
        = execHomeD f s := rfl
      _ = runLane s (dHead f) [pairS1 f] (.reg f.d false) false fun ls => ls.map (s.homeOut w) := execHomeD_translated hw translated
      _ = .next (s.laneDone w (dHead f) [pairS1 f] (.reg f.d false) false fun ls => ls.map (s.homeOut w)) :=
        runLane_eq hw (barred_none hs) (noRoom_none room)

end Sys2Proof.Machine
end

section
/-! What an instruction without operands does in each thread, and an instruction fault at issue (spec/07 R171, R178). -/

namespace Sys2Proof.Machine

open Sys2Proof.Safety

/-- An instruction that stands where it may not is an instruction fault, whatever its operands hold. -/
theorem control_fault {s : State} {h : Head} {w : Warp} {srcs : List Src} {d : Dst} {fault : Warp → Bool}
    {body : Warp → (List (Lane × Word × Nat) → State) → List (Lane × List Val) → Res} (hw : s.warp h = some w) (bad : fault w = true) :
    Machine.control s h srcs d fault body = .next (s.issueFault w) := by
  have barred : s.barred w srcs d (fault w) = some (s.issueFault w) := if_pos (by rw [bad, Bool.or_true])
  simp only [Machine.control, hw, barred]

theorem simple_fault {s : State} {h : Head} {w : Warp} {ends : Bool} {fault : Warp → Bool} {act : Warp → State → Lane → State}
    (hw : s.warp h = some w) (bad : fault w = true) : simple s h ends fault act = .next (s.issueFault w) := control_fault hw bad

theorem mem_acting {w : Warp} {l : Lane} : l ∈ w.acting ↔ l ∈ w.lanes ∧ l.acts = true := List.mem_filter

theorem WarpOf.nodup_acting {s : State} {w : Warp} (hw : WarpOf s w) : w.acting.Nodup := hw.nodup.filter _

theorem lone_acting {w : Warp} {l : Lane} (alone : Lone w l) : ∀ x ∈ w.acting, x.key = l.key → x = l :=
  fun x hx => alone x (mem_acting.1 hx).1

/-- A change of each acting thread reaches a thread that one lane alone names if that lane acts, and no other. -/
theorem thread_foldl_acting {s u : State} {w : Warp} (hw : WarpOf s w) {l : Lane} (hl : l ∈ w.lanes) (alone : Lone w l)
    (f : Lane → Thread → Thread) :
    (w.acting.foldl (fun u x => u.modThread x.key (f x)) u).thread? l.key = (u.thread? l.key).map (if l.acts then f l else id) := by
  cases acts : l.acts with
  | true => exact thread_foldl_one Lane.key f hw.nodup_acting (mem_acting.2 ⟨hl, acts⟩) (lone_acting alone) u
  | false =>
    have idle : ∀ x ∈ w.acting, x.key ≠ l.key := by
      intro x hx e
      have same := lone_acting alone x hx e
      subst same
      exact Bool.false_ne_true (acts.symm.trans (mem_acting.1 hx).2)
    rw [thread_foldl_other Lane.key f idle u, if_neg (by decide)]
    exact Option.map_id'.symm

/-- Settles O29: each acting thread takes the PC as its region entry, which neither the start nor the end of the instruction moves. -/
theorem regionEntry : Obligations.RegionEntry := by
  unfold Obligations.RegionEntry
  intro f s w hw slot guarded
  refine ⟨fun outside => ⟨_, simple_eq hw guarded outside, fun l hl alone => ?_⟩, fun inside => simple_fault hw inside⟩
  have hwarp := warp_of hw
  obtain ⟨a, ha, begun⟩ := started_each s w [] w.acting l.key l.t (hwarp.thread l hl)
  have entered := thread_foldl_acting (u := s.started w [] w.acting) hwarp hl alone fun _ t => { t with region := w.pc }
  rw [ha, Option.map_some] at entered
  obtain ⟨u, hu, ends, _⟩ := step1_each _ w (dHead f) l.key _ entered
  refine ⟨u, hu, ends.region.trans ?_⟩
  cases l.acts with
  | true => rfl
  | false => exact begun.region

end Sys2Proof.Machine
end

section
/-! What the end of an instruction leaves of one thread and of the contexts (spec/02 R31, R50, spec/07 R174), and how TRAP and BRK complete (R192, R193). -/

namespace Sys2Proof.Machine

open Sys2Proof.Safety

/-! The end of an instruction, for one thread. -/

/-- A thread at its next instruction: one that waits or is parked already stays where it is. -/
def Thread.steppedTo (t : Thread) (pc : Dword) : Thread := if t.cue = .issuing then { t with pc := pc, last := none } else { t with last := none }

theorem nextPcs_thread {s u : State} {w : Warp} (hw : WarpOf s w) {l : Lane} (hl : l ∈ w.lanes) (alone : Lone w l) (next : Lane → Dword) :
    (u.nextPcs w next).thread? l.key = (u.thread? l.key).map fun t => t.steppedTo (next l) :=
  thread_foldl_one Lane.key (fun x t => t.steppedTo (next x)) hw.nodup hl alone u

/-- What the end of a run does to a thread: it stays at its PC, and one that does not issue is left as it is. -/
def Left (t u : Thread) : Prop := u.pc = t.pc ∧ (t.cue ≠ .issuing → u = t)

theorem Left.refl (t : Thread) : Left t t := ⟨rfl, fun _ => rfl⟩

theorem Left.trans {a b c : Thread} (h : Left a b) (h' : Left b c) : Left a c := by
  refine ⟨h'.1.trans h.1, fun still => ?_⟩
  have same := h.2 still
  subst same
  exact h'.2 still

theorem run_pc (t : Thread) (now : Nat) : (t.run now).pc = t.pc := by
  unfold Thread.run
  dsimp only
  split <;> rfl

theorem leaveRun_left (h : Head) {s : State} {k : Nat} {t : Thread} (ht : s.thread? k = some t) (issuing : t.cue = .issuing) :
    EachThread Left s (s.leaveRun h k t) := by
  have goes {u : Thread} (pc : u.pc = t.pc) : EachThread Left s (s.setThread k u) :=
    setThread_each Left.refl ht ⟨pc, fun still => absurd issuing still⟩
  unfold State.leaveRun
  split
  · simp only [State.hold, ht]
    split
    · exact goes rfl
    · exact goes (run_pc _ _)
  · exact goes (run_pc t _)

theorem leaveAll_left (h : Head) (s : State) (ls : List (Nat × Nat × Thread)) : EachThread Left s (s.leaveAll h ls) := by
  have trans : ∀ ⦃a b c : Thread⦄, Left a b → Left b c → Left a c := fun _ _ _ => Left.trans
  refine foldl_related (fun _ => .of_threads Left.refl rfl) (fun h h' => h.trans trans h') _ (fun s x => ?_) ls s
  split
  · next t ht =>
    split
    · next issuing => exact leaveRun_left h ht issuing
    · exact .of_threads Left.refl rfl
  · exact .of_threads Left.refl rfl

/-- One thread of a slot's warp at the end of an instruction: it steps to its next address, and its run may end. -/
theorem advance_thread {s u : State} {w : Warp} (hw : WarpOf s w) (slot : w.slice = false) {l : Lane} (hl : l ∈ w.lanes) (alone : Lone w l)
    (h : Head) (next : Lane → Dword) (ends : Bool) {t : Thread} (ht : u.thread? l.key = some t) :
    ∃ v, (u.advance w h next ends).thread? l.key = some v ∧ Left (t.steppedTo (next l)) v ∧ SettledRegs t v := by
  have stepped : (u.nextPcs w next).thread? l.key = some (t.steppedTo (next l)) := by rw [nextPcs_thread hw hl alone, ht, Option.map_some]
  obtain ⟨v, hv, settled⟩ := advance_each (h := h) SameRegs.settled (fun _ _ _ => SettledRegs.trans) (fun _ _ _ => id) u w next ends l.key t ht
  refine ⟨v, hv, ?_, settled⟩
  rcases advance_slot slot h next ends (s := u) with ⟨sl, e⟩ | ⟨sl, e⟩
  · have same : v = t.steppedTo (next l) := Option.some.inj (hv.symm.trans (e ▸ stepped))
    exact same ▸ Left.refl _
  · obtain ⟨v', hv', left⟩ := leaveAll_left h _ ((u.nextPcs w next).slotLanes w.unit) l.key _ stepped
    have same : v = v' := Option.some.inj (hv.symm.trans (e ▸ hv'))
    exact same ▸ left

/-- A thread that its instruction has made wait goes on waiting at the end of the instruction. -/
theorem advance_thread_waiting {s u : State} {w : Warp} (hw : WarpOf s w) (slot : w.slice = false) {l : Lane} (hl : l ∈ w.lanes)
    (alone : Lone w l) (h : Head) (next : Lane → Dword) (ends : Bool) {t : Thread} (ht : u.thread? l.key = some t) (waits : t.cue ≠ .issuing) :
    (u.advance w h next ends).thread? l.key = some { t with last := none } := by
  obtain ⟨v, hv, left, _⟩ := advance_thread hw slot hl alone h next ends ht
  rw [Thread.steppedTo, if_neg waits] at left
  rw [hv, left.2 waits]

theorem OnlyThreads.ctxs {s t : State} (h : OnlyThreads s t) : t.ctxs = s.ctxs := by
  obtain ⟨_, _, rfl⟩ := h
  rfl

/-- The end of an instruction changes no context, in a slot or in a slice. -/
theorem advance_ctxs (s : State) (w : Warp) (h : Head) (next : Lane → Dword) (ends : Bool) : (s.advance w h next ends).ctxs = s.ctxs := by
  cases slot : w.slice with
  | false => exact (advance_onlyThreads slot h next ends).ctxs
  | true =>
    unfold State.advance
    rw [slot, if_pos rfl]
    exact State.modGroup_ctxs s _ _

/-- Of changes each of its own thread, the one that names a thread finds it as it was before them all. -/
theorem thread_foldl_apart {ι : Type} {g : State → ι → State} (key : ι → Nat) (other : ∀ s x k, k ≠ key x → (g s x).thread? k = s.thread? k)
    {l : List ι} (hn : l.Nodup) {x : ι} (hx : x ∈ l) (alone : ∀ y ∈ l, key y = key x → y = x) (s : State) :
    ∃ u, u.thread? (key x) = s.thread? (key x) ∧ (l.foldl g s).thread? (key x) = (g u x).thread? (key x) := by
  have untouched {r : List ι} (h : ∀ y ∈ r, key x ≠ key y) (s : State) : (r.foldl g s).thread? (key x) = s.thread? (key x) := by
    induction r generalizing s with
    | nil => rfl
    | cons y r ih => exact (ih (fun z hz => h z (List.mem_cons_of_mem y hz)) _).trans (other s y _ (h y List.mem_cons_self))
  induction l generalizing s with
  | nil => cases hx
  | cons y l ih =>
    obtain ⟨first, rest⟩ := List.nodup_cons.1 hn
    have alone' : ∀ z ∈ l, key z = key x → z = x := fun z hz => alone z (List.mem_cons_of_mem y hz)
    by_cases e : y = x
    · subst e
      exact ⟨s, rfl, untouched (fun z hz same => first (alone' z hz same.symm ▸ hz)) _⟩
    · obtain ⟨u, hu, done⟩ := ih rest (List.mem_of_ne_of_mem (Ne.symm e) hx) alone' (g s y)
      exact ⟨u, hu.trans (other s y _ fun same => e (alone y List.mem_cons_self same.symm)), done⟩

/-! TRAP and BRK. -/

/-- Nothing bars an instruction without operands. -/
theorem starts_nil (s : State) (w : Warp) : Starts s w [] .none := by
  refine ⟨fun q hq => ?_, fun l _ r hr => ?_, rfl⟩
  · cases hq
  · cases hr

/-- What one thread's record of TRAP carries: its guard's token, or the immediate (R192, R101). -/
def trapWord (imm : Word) (l : Lane) : Nat × Word := match l.badTok with | some k => (0x0A, k) | none => (0x0B, imm)

def trapRecord (w : Warp) (imm : Word) (l : Lane) : Record :=
  ⟨w.pc.toNat, (trapWord imm l).1, tokCode (trapWord imm l).2, tokOrigin (trapWord imm l).2, w.cluster, slotOfKey l.key, 1⟩

/-- The records of a TRAP's threads. -/
def State.trapRecords (s : State) (w : Warp) (imm : Word) : State :=
  (w.executing.map (trapRecord w imm)).foldl (fun s r => s.putRecord w.ctx w.cluster r) s

theorem trapRecords_sameCurtains (s : State) (w : Warp) (imm : Word) : SameCurtains s (s.trapRecords w imm) :=
  foldl_related SameCurtains.refl SameCurtains.trans _ (fun s r => putRecord_sameCurtains s w.ctx w.cluster r) _ s

/-- The first record of a TRAP with untagged guards carries the immediate, with consumer code 0x0B. -/
theorem trapRecords_first {w : Warp} (guarded : Guarded w) (acts : w.acting ≠ []) (imm : Word) :
    ∃ r, (w.executing.map (trapRecord w imm)).find? (fun r => r.cons = 0x0B || !recoverable r.code) = some r
      ∧ r.cons = 0x0B ∧ r.code = tokCode imm := by
  rw [executing_eq_acting guarded]
  obtain ⟨l, ls, cons⟩ := List.exists_cons_of_ne_nil acts
  have mem : l ∈ w.acting := cons ▸ List.mem_cons_self
  have word : trapWord imm l = (0x0B, imm) := by rw [trapWord, guarded l (mem_acting.1 mem).1]
  refine ⟨trapRecord w imm l, ?_, by rw [trapRecord, word], by rw [trapRecord, word]⟩
  rw [cons, List.map_cons, List.find?_cons_of_pos]
  rw [trapRecord, word]
  rfl

/-- TRAP with untagged guards: each thread's record, then the curtain, then the end of the run. -/
theorem execTrapDi_eq {f : DIForm} {s : State} {w : Warp} (hw : s.warp (diHead f) = some w) (guarded : Guarded w) (acts : w.acting ≠ []) :
    execTrapDi f s = .next ((((s.started w [] w.acting).trapRecords w f.imm).lowerCurtain w.ctx 0x0B (tokCode f.imm)).step1 w (diHead f) true) := by
  obtain ⟨r, first, cons, code⟩ := trapRecords_first guarded acts f.imm
  have some_act : w.acting.isEmpty = false := by simpa using acts
  have runs : execTrapDi f s = (if w.acting.isEmpty then (s.started w [] (w.quiet [])).finish w (diHead f) (badGuards w)
      else
        let r := ((w.executing.map (trapRecord w f.imm)).find? fun r => r.cons = 0x0B || !recoverable r.code).getD ⟨0, 0x0B, 0, 0, 0, 0, 1⟩
        .next ((((s.started w [] (w.quiet [])).trapRecords w f.imm).lowerCurtain w.ctx r.cons r.code).step1 w (diHead f) true)) := by
    unfold execTrapDi
    rw [control_eq hw (barred_none (starts_nil s w))]
    rfl
  rw [runs, some_act, first, quiet_nil, if_neg (by decide), Option.getD_some]
  dsimp only
  rw [cons, code]

/-- BRK in one thread (R193). -/
def State.breakAt (w : Warp) (f : DIForm) (s : State) (l : Lane) : State :=
  (s.block l.key (w.after (diHead f)) 0x1B .brk (diHead f).holds).modThread l.key fun t => { t with brk := some f.imm }

/-- BRK with untagged guards does nothing where debug is disabled, and else stops each thread whose guard holds. -/
theorem execBrkDi_eq {f : DIForm} {s : State} {w : Warp} (hw : s.warp (diHead f) = some w) (guarded : Guarded w) :
    execBrkDi f s = .next (if (s.ctx w.ctx).debug then (w.acting.foldl (State.breakAt w f) (s.started w [] w.acting)).step1 w (diHead f) true
      else (s.started w [] w.acting).step1 w (diHead f)) := by
  have same : (s.started w [] w.acting).ctx w.ctx = s.ctx w.ctx := by rw [State.ctx, (started_onlyThreads s w.acting rfl).ctxs, State.ctx]
  unfold execBrkDi
  rw [control_eq hw (barred_none (starts_nil s w))]
  dsimp only
  rw [quiet_nil, same, badGuards_nil guarded]
  cases (s.ctx w.ctx).debug <;> rfl

theorem block_thread_other (s : State) {k n : Nat} (pc : Dword) (reason : Nat) (on : WaitOn) (hold : Bool) (h : n ≠ k) :
    (s.block k pc reason on hold).thread? n = s.thread? n := thread_modThread_other s _ (Ne.symm h)

theorem block_thread {s : State} {k : Nat} {t : Thread} (ht : s.thread? k = some t) (pc : Dword) (reason : Nat) (on : WaitOn) (hold : Bool) :
    (s.block k pc reason on hold).thread? k = some (({ t with pc := pc, held := hold } : Thread).enter s.now .waiting reason on) := by
  rw [State.block, thread_modThread, if_pos rfl, ht, Option.map_some]

theorem breakAt_thread_other (w : Warp) (f : DIForm) (s : State) (l : Lane) (k : Nat) (h : k ≠ l.key) :
    (s.breakAt w f l).thread? k = s.thread? k :=
  (thread_modThread_other _ _ (Ne.symm h)).trans (block_thread_other s _ _ _ _ h)

/-- Settles O31: records move no curtain before TRAP lowers it; BRK makes each thread wait, and the end of the run leaves a waiting thread. -/
theorem trapAndBreakpoint : Obligations.TrapAndBreakpoint := by
  unfold Obligations.TrapAndBreakpoint
  intro f s w hw guarded
  refine ⟨fun acts => ?trap, fun disabled => ?disabled, fun enabled slot => ?enabled⟩
  case trap =>
    refine ⟨_, execTrapDi_eq hw guarded acts, ?_⟩
    have records := (SameCurtains.of_ctxs (started_onlyThreads s (w := w) (srcs := []) w.acting rfl).ctxs).trans (trapRecords_sameCurtains _ w f.imm)
    rw [State.ctx, State.step1, advance_ctxs, ← State.ctx]
    refine ⟨lowerCurtain_low _ _ _ _, fun high => ?_⟩
    obtain ⟨_, _, cons, code⟩ := lowerCurtain_lowered ((records.low w.ctx).trans high) 0x0B (tokCode f.imm)
    exact ⟨cons, code.trans (Nat.mod_eq_of_lt (tokCode_lt _))⟩
  case disabled =>
    have := execBrkDi_eq hw guarded
    rwa [disabled, if_neg (by decide)] at this
  case enabled =>
    have next := execBrkDi_eq hw guarded
    rw [enabled, if_pos rfl] at next
    refine ⟨_, next, fun l hl alone => ?_⟩
    have hwarp := warp_of hw
    have mem := (mem_acting.1 hl).1
    obtain ⟨a, ha, _⟩ := started_each s w [] w.acting l.key l.t (hwarp.thread l mem)
    obtain ⟨u, hu, stopped⟩ := thread_foldl_apart Lane.key (breakAt_thread_other w f) hwarp.nodup_acting hl (lone_acting alone) (s.started w [] w.acting)
    rw [State.breakAt, thread_modThread, if_pos rfl, block_thread (hu.trans ha), Option.map_some] at stopped
    exact ⟨_, advance_thread_waiting hwarp slot mem alone _ _ true stopped (nomatch ·), rfl, rfl, rfl, rfl, rfl⟩

end Sys2Proof.Machine
end

section
/-! The instructions that act in each thread by itself complete (spec/07 R175 to R178, R184 to R186, R198, spec/08 R236, R239). -/

namespace Sys2Proof.Machine

open Sys2Proof.Safety

/-- An instruction of a thread rule does what the rule says in each acting thread. -/
theorem exec_threadRule {i : Instr} {R : ThreadRule} (h : threadRule i = some R) {s : State} {w : Warp} (hw : s.warp R.head = some w)
    (guarded : Guarded w) (free : R.fault w = false) :
    exec i s = .next ((w.acting.foldl (R.act w) (s.started w [] w.acting)).step1 w R.head R.ends) := by
  cases i with
  | nopW f | nopD f | holdW f | holdD f | yieldW f | yieldD f | exitW f | exitD f | regionD f | trigD f | racqD f | rrelD f | waitcD f | fenceD f =>
    cases h
    exact simple_eq hw guarded free
  | _ => cases h

/-! The end of a WAITC (R236). -/

theorem resume_thread_runs (s : State) (key : Nat) {t : Thread} (held : t.held = false) (whole : t.spilled = 0) :
    (s.resume key t).thread? key = some (({ t with held := false } : Thread).enter s.now .runnable 0 .none) := by
  rw [State.resume, if_neg (by simp [held]), thread_setThread, Thread.run]
  exact congrArg some (if_pos whole)

theorem resume_thread_parks {s : State} {key : Nat} {t : Thread} (held : t.held = true) (out : s.longOut key = true) :
    (s.resume key t).thread? key = some (({ t with held := false } : Thread).enter s.now .parked 1 .hold) := by
  have out' : (s.setThread key t).longOut key = true := out
  rw [State.resume, if_pos held]
  simp only [State.hold, thread_setThread, if_pos out']
  rfl

/-- A count that is low enough ends the wait, and the operations that it covers stop being pending (R48). -/
theorem endCount_of_le {s : State} {key cls n : Nat} {t : Thread} (ht : s.thread? key = some t) (low : s.outstanding key cls ≤ n) :
    ∃ p, s.endCount key cls n = s.resume key (t.settle p) := by
  simp only [State.endCount, ht, if_pos low]
  exact ⟨_, rfl⟩

theorem endCount_of_lt {s : State} {key cls n : Nat} (high : n < s.outstanding key cls) : s.endCount key cls n = s := by
  unfold State.endCount
  split
  · rfl
  · exact if_neg (Nat.not_le.2 high)

/-- Settles O28: each rule is its instruction's own; and a WAITC whose count is low enough ends as every wait does. -/
theorem threadInstructionsComplete : Obligations.ThreadInstructionsComplete := by
  unfold Obligations.ThreadInstructionsComplete
  refine ⟨fun i R s w h hw guarded free => exec_threadRule h hw guarded free, fun s key cls n t ht whole => ⟨fun low free => ?_,
    fun low held out => ?_, endCount_of_lt⟩⟩
  · obtain ⟨p, e⟩ := endCount_of_le ht low
    rw [e]
    exact ⟨_, resume_thread_runs s key (t := t.settle p) free whole, rfl, rfl⟩
  · obtain ⟨p, e⟩ := endCount_of_le ht low
    rw [e]
    exact ⟨_, resume_thread_parks (t := t.settle p) held out, rfl, rfl⟩

end Sys2Proof.Machine
end

section
/-! How operations retire and how those still out end (spec/02 R48 to R50, spec/07 R188, spec/08 R203, spec/18 R396, spec/19 R409, R413). -/

namespace Sys2Proof.Machine

/-! Values and acknowledgements. -/

section
variable {s : State} {op : Nat} {o : Op} (ho : find s.ops op = some o)
include ho

section
variable (quiet : o.watches = false) (gives : o.returns = true) (plain : ∀ n, o.dst ≠ .k n) (kept : o.retired = false)
  (up : (s.ctx o.ctx).down = false) (turn : s.olderOut op o = false)
include quiet gives plain kept up turn

/-- LONG_WRITE_RETURN in class order: what the operation has read, what its reply brings, or the code of its failure (R203). -/
theorem execLongWriteReturn_home (done : o.stage = .performed) (reply : s.replyTurn o = true) :
    execLongWriteReturn op .home s = .next (s.retire op o o.reply o.flags) := by
  simp [execLongWriteReturn, ho, quiet, gives, kept, up, turn, done, reply]

theorem execLongWriteReturn_value (carried : s.carries o = true) (element : o.element = true) (v : Dword) (fl : BitVec 5) :
    execLongWriteReturn op (.value v fl) s = .next (s.retire op o (o.shape v) fl) := by
  simp [execLongWriteReturn, ho, quiet, gives, kept, up, turn, carried, element]

theorem execLongWriteReturn_fail (carried : s.carries o = true) (c : Byte) :
    execLongWriteReturn op (.fail c) s = .next ((s.answerCode op c.toNat o.va).retire op o (o.tokens c.toNat) 0) := by
  simp [execLongWriteReturn, ho, quiet, gives, kept, up, turn, carried]

end

/-- KLD_REPLY where no slot of the cluster has issued in the core cycle (R188). -/
theorem execKldReply_home {n : Nat} (word : o.dst = .k n) (high : (s.ctx o.ctx).low = false) (first : s.cycleStart o.cluster = true)
    (done : o.stage = .performed) (reply : s.replyTurn o = true) : execKldReply op .home s = .next (s.retire op o o.reply 0) := by
  simp [execKldReply, ho, word, high, first, done, reply]

theorem execKldReply_value {n : Nat} (word : o.dst = .k n) (high : (s.ctx o.ctx).low = false) (first : s.cycleStart o.cluster = true)
    (carried : s.carries o = true) (v : Dword) (fl : BitVec 5) : execKldReply op (.value v fl) s = .next (s.retire op o (o.shape v) 0) := by
  simp [execKldReply, ho, word, high, first, carried]

/-- STORE_ACKNOWLEDGEMENT of an operation that returns nothing, by what reports its end. -/
theorem execStoreAcknowledgement_home (silent : o.returns = false) (kept : o.retired = false) (quiet : o.watches = false)
    (up : (s.ctx o.ctx).down = false) (turn : s.olderOut op o = false) (done : o.stage = .performed) (reply : s.replyTurn o = true) :
    execStoreAcknowledgement op .home s = .next (s.retire op o [] 0) := by
  simp [execStoreAcknowledgement, ho, silent, kept, quiet, up, turn, done, reply]

theorem execStoreAcknowledgement_value (silent : o.returns = false) (kept : o.retired = false) (quiet : o.watches = false)
    (up : (s.ctx o.ctx).down = false) (turn : s.olderOut op o = false) (carried : s.carries o = true) (v : Dword) (fl : BitVec 5) :
    execStoreAcknowledgement op (.value v fl) s = .next ((s.retire op o [] 0).recorded o v fl) := by
  simp [execStoreAcknowledgement, ho, silent, kept, quiet, up, turn, carried]

/-! Timeouts. -/

/-- What the end of a request without its reply leaves, with one code for reads and for writes. -/
theorem execCxlTimeout_eq {n : Nat} (place : o.place = .cxl n) (sent : o.stage = .sent) :
    execCxlTimeout op s = .next (if o.returns then s.endSent op o 0x14 0x14 else (s.endSent op o 0x14 0x14).writeFailed o 0x14) := by
  simp only [execCxlTimeout, ho, place, sent]

theorem execHostCompletionTimeout_eq (place : o.place = .host ∨ o.place = .hostRaw) (sent : o.stage = .sent)
    (asks : ∀ n v, o.work ≠ .store n v) (late : o.sentAt + 50000 * ticksPerUs ≤ s.now) :
    execHostCompletionTimeout op s
      = .next (if o.returns then s.endSent op o 0x14 0x14 else (s.endSent op o 0x14 0x14).writeFailed o 0x14) := by
  unfold execHostCompletionTimeout
  rw [ho]
  dsimp only
  rw [if_neg]
  simp only [sent, decide_eq_false (Nat.not_lt.2 late), Bool.or_false, bne_self_eq_false]
  rcases place with e | e <;> simp [e]

/-- FABRIC_ACK_TIMEOUT: the operation ends, and a packet or a store that nobody waits for leaves its failure elsewhere (R413). -/
theorem execFabricAckTimeout_next {e : Nat} (place : o.place = .fabric e) (sent : o.stage = .sent) :
    ∃ t, execFabricAckTimeout op s = .next t
      ∧ ((∀ p, o.work ≠ .packet p) → (∀ n v, o.work ≠ .store n v) → t = s.endSent op o 0x03 0x13) := by
  simp only [execFabricAckTimeout, ho, place, sent]
  split
  · next p work => exact ⟨_, rfl, fun packet => absurd work (packet p)⟩
  · next n v work => exact ⟨_, rfl, fun _ store => absurd work (store n v)⟩
  · exact ⟨_, rfl, fun _ _ => rfl⟩

end

/-- Settles O42, a clause for each step, from its own lemma. -/
theorem retirementSteps : Obligations.RetirementSteps := by
  unfold Obligations.RetirementSteps
  refine ⟨fun s op o ho kept quiet up high turn => ⟨fun gives plain => ?value, fun n word first => ?kload, fun silent => ?write⟩,
    fun s op o ho sent => ⟨?cxl, fun place asks late => execHostCompletionTimeout_eq ho place sent asks late, ?fabric⟩⟩
  case value =>
    exact ⟨execLongWriteReturn_home ho quiet gives plain kept up turn,
      fun v fl carried element => execLongWriteReturn_value ho quiet gives plain kept up turn carried element v fl,
      fun c carried => execLongWriteReturn_fail ho quiet gives plain kept up turn carried c⟩
  case kload =>
    exact ⟨execKldReply_home ho word high first, fun v fl carried => execKldReply_value ho word high first carried v fl⟩
  case write =>
    exact ⟨execStoreAcknowledgement_home ho silent kept quiet up turn,
      fun v fl carried => execStoreAcknowledgement_value ho silent kept quiet up turn carried v fl⟩
  case cxl =>
    rintro ⟨n, place⟩
    exact execCxlTimeout_eq ho place sent
  case fabric =>
    rintro ⟨e, place⟩
    exact execFabricAckTimeout_next ho place sent

end Sys2Proof.Machine
end

section
/-! The steps of a migration (spec/07 R180, spec/10 R270 to R274, spec/19 R411, R412). -/

namespace Sys2Proof.Machine

section
variable {s : State} {key : Nat} {t : Thread} {l : Leave} (ht : s.thread? key = some t)
include ht

/-! DEPARTURE of a thread with nothing out: it goes over a group, or waits for one (R412). -/

section
variable (cue : t.cue = .waiting) (waits : t.waitOn = .depart l) (idle : s.idleThread key = true)
  (ready : l.pkg.isNone = true ∨ s.releaseReady key (clusterOfKey key) t.vc 9 false = true) (high : (s.ctx t.ctx).low = false)
include cue waits idle ready high

theorem execDeparture_unrouted (route : s.leaveRoute t key l = none) (wait : t.wait ≠ 0x17) :
    execDeparture key s = .next (s.setThread key { t with wait := 0x17, since := s.now, dog := 0 }) := by
  simpa [execDeparture, ht, cue, waits, idle, Bool.or_eq_true_iff.2 ready, high, route] using wait

theorem execDeparture_routed {n : Nat} (route : s.leaveRoute t key l = some n) :
    execDeparture key s = .next (s.sendAway ({ t with vc := t.vc.max t.rs }.settle fun _ => true) key l n) := by
  simp [execDeparture, ht, cue, waits, idle, Bool.or_eq_true_iff.2 ready, high, route]

end

/-! MIGRATION_MESSAGE in its turn: the home in the package answers, or what the way to a peer does is the answer. -/

section
variable {m : Msg} {a : Travel} (waits : t.waitOn = .depart l) (found : s.travelMsg key = some (m, a))
  (turn : s.behind (clusterOfKey key) m = false) (high : (s.ctx t.ctx).low = false)
include waits found turn high

theorem execMigrationMessage_taken (peer : Admission) {s' : State} (here : l.pkg = none)
    (taken : (s.dropMsg (clusterOfKey key) m.id).receive l.cluster { a with since := s.now } = some s') :
    execMigrationMessage key peer s = .next (s'.answerLeave key l true) := by
  have taken' : (s.dropMsg (clusterOfKey key) m.id).receive l.cluster { a with since := (s.dropMsg (clusterOfKey key) m.id).now } = some s' := taken
  simp [execMigrationMessage, ht, found, waits, turn, high, here, taken']

theorem execMigrationMessage_turnedAway (peer : Admission) (here : l.pkg = none)
    (full : (s.dropMsg (clusterOfKey key) m.id).receive l.cluster { a with since := s.now } = none) :
    execMigrationMessage key peer s = .next ((s.dropMsg (clusterOfKey key) m.id).answerLeave key l false) := by
  have full' : (s.dropMsg (clusterOfKey key) m.id).receive l.cluster { a with since := (s.dropMsg (clusterOfKey key) m.id).now } = none := full
  simp [execMigrationMessage, ht, found, waits, turn, high, here, full']

variable {q : Nat} (away : l.pkg = some q)
include away

theorem execMigrationMessage_admitted :
    execMigrationMessage key .admitted s = .next ((s.dropMsg (clusterOfKey key) m.id).answerLeave key l true).routeHeld := by
  simp [execMigrationMessage, ht, found, waits, turn, high, away]

theorem execMigrationMessage_refused :
    execMigrationMessage key .refused s = .next ((s.dropMsg (clusterOfKey key) m.id).answerLeave key l false).routeHeld := by
  simp [execMigrationMessage, ht, found, waits, turn, high, away]

theorem execMigrationMessage_failed (code : Byte) :
    execMigrationMessage key (.failed code) s = .next ((s.dropMsg (clusterOfKey key) m.id).answerLeave key l false true).routeHeld := by
  simp [execMigrationMessage, ht, found, waits, turn, high, away]

end

/-- MIGRATION_ACKNOWLEDGEMENT of a thread that went to another cluster of the package. -/
theorem execMigrationAcknowledgement_here (cue : t.cue = .departed) (waits : t.waitOn = .depart l) (answer : l.answer = some true)
    (here : l.pkg = none) : execMigrationAcknowledgement key s = .next { s with threads := drop s.threads key } := by
  simp [execMigrationAcknowledgement, ht, cue, waits, answer, here]

/-! MIGRATION_REFUSAL: a load is fetched instead; a MIGR raises where its way is lost, and else asks again later. -/

section
variable (cue : t.cue = .departed) (waits : t.waitOn = .depart l) (answer : l.answer = some false) (high : (s.ctx t.ctx).low = false)
include cue waits answer high

theorem execMigrationRefusal_fetch (load : l.migr = false) (room : l.dst = 0xDE → (s.cluster (clusterOfKey key)).unseen < 16) :
    execMigrationRefusal key s = .next (s.fetchInstead key t l) := by
  simpa [execMigrationRefusal, ht, cue, waits, answer, high, load] using room

theorem execMigrationRefusal_lost (migr : l.migr = true) (lost : s.leaveLost l = true) :
    execMigrationRefusal key s = .next ((s.setThread key (t.run s.now)).raise t.ctx l.pc [⟨0, key, token 0x15 (originOf l.pc), 5⟩]) := by
  simp [execMigrationRefusal, ht, cue, waits, answer, high, migr, lost]

theorem execMigrationRefusal_again (migr : l.migr = true) (stands : s.leaveLost l = false) :
    execMigrationRefusal key s = .next (s.setThread key (t.enter s.now .waiting 0x12
      (.arrival { l with gap := min (2 * l.gap) 65536 } (s.cycles (clusterOfKey key) (min (2 * l.gap) 65536))))) := by
  simp [execMigrationRefusal, ht, cue, waits, answer, high, migr, stands]

end

/-! MIGR_RESEND when its interval is over. -/

section
variable {next : Nat} (waits : t.waitOn = .arrival l next) (time : next ≤ s.coreCycle (clusterOfKey key)) (high : (s.ctx t.ctx).low = false)
include waits time high

theorem execMigrResend_routed {n : Nat} (route : s.leaveRoute t key l = some n) : execMigrResend key s = .next (s.sendAway t key l n) := by
  simp [execMigrResend, ht, waits, high, route, time]

theorem execMigrResend_unrouted (route : s.leaveRoute t key l = none) :
    execMigrResend key s = .next (s.setThread key (t.enter s.now .waiting 0x17 (.depart l))) := by
  simp [execMigrResend, ht, waits, high, route, time]

end

end

/-- ARRIVAL_ADMISSION of the head of the buffer, for which a slot is free. -/
theorem execArrivalAdmission_head {s : State} {c k : Nat} {a : Travel} {rest : List Travel} (arrivals : (s.cluster c).arrivals = a :: rest)
    (slot : s.headSlot c a = some k) :
    execArrivalAdmission c s = .next ((s.modCluster c fun v => { v with arrivals := rest }).enterSlot c k a) := by
  simp [execArrivalAdmission, arrivals, slot]

/-- Settles O47, a clause for each step, from its own lemma. -/
theorem travelSteps : Obligations.TravelSteps := by
  unfold Obligations.TravelSteps
  intro s key t ht
  refine ⟨fun l n cue waits idle ready high => ?departure, fun l m a peer cue waits found turn high => ?message,
    fun l cue waits answer here => execMigrationAcknowledgement_here ht cue waits answer here,
    fun l cue waits answer load high room => execMigrationRefusal_fetch ht cue waits answer high load room,
    fun l cue waits answer migr lost high => execMigrationRefusal_lost ht cue waits answer high migr lost,
    fun l cue waits answer migr stands high => ?again,
    fun l next n waits time high => ⟨execMigrResend_routed ht waits time high, execMigrResend_unrouted ht waits time high⟩,
    fun c a rest k arrivals slot => execArrivalAdmission_head arrivals slot⟩
  case departure =>
    exact ⟨execDeparture_unrouted ht cue waits idle ready high, execDeparture_routed ht cue waits idle ready high⟩
  case message =>
    refine ⟨fun s' here taken => execMigrationMessage_taken ht waits found turn high peer here taken,
      fun here full => execMigrationMessage_turnedAway ht waits found turn high peer here full, fun away => ?_⟩
    obtain ⟨q, away⟩ := Option.ne_none_iff_exists'.1 away
    exact ⟨execMigrationMessage_admitted ht waits found turn high away, execMigrationMessage_refused ht waits found turn high away,
      execMigrationMessage_failed ht waits found turn high away⟩
  case again =>
    exact ⟨_, _, execMigrationRefusal_again ht cue waits answer high migr stands, thread_setThread _ _ _, rfl, rfl⟩

end Sys2Proof.Machine
end

section
/-! Operation packets at their home, and transactions at their target (spec/08 R222 to R226, spec/07 R194, R195, spec/19 R418, R419). -/

namespace Sys2Proof.Machine

/-- OPK_PACKET where nothing keeps the packet back. -/
theorem execOpkPacket_next {s : State} {op c : Nat} {o : Op} {p : Packet} (replies : List Reply) (ho : find s.ops op = some o)
    (place : o.place = .home c) (work : o.work = .packet p) (sent : o.stage = .sent) (may : s.mayApply op o = true)
    (free : s.rowFree op o p = true) (passes : s.passes o = true) (stands : s.movedOp o = none) :
    execOpkPacket op replies s = .next ((s.packetStep op c (s.seenBy o p) p replies).1.packetEnd op (s.seenBy o p)
      (s.packetStep op c (s.seenBy o p) p replies).2) := by
  simp [execOpkPacket, ho, place, work, sent, may, free, passes, stands]

/-! TRANSACTION_PACKET: the answer of a transaction's target. -/

/-- The packet goes to another package, which alone may refuse it. -/
def Op.away (o : Op) : Prop := (∃ q, o.place = .peer q) ∨ ∃ e, o.place = .fabric e

/-- A transaction whose target has one of its packets: the first starts its time (R196). -/
def Thread.packetTaken (t : Thread) (x : Txn) (now : Nat) : Thread := { t with txn := some { x with first := some (x.first.getD now) } }

section
variable {s : State} {op key : Nat} {o : Op} {t : Thread} {x : Txn} (ho : find s.ops op = some o) (issuer : o.issuer = .thread key)
  (ht : s.thread? key = some t) (txn : t.txn = some x) (stage : o.stage = .txn) (held : x.held.contains op = true)
  (high : (s.ctx o.ctx).low = false)
include ho issuer ht txn stage held high

theorem execTransactionPacket_home (home : ¬o.away) :
    execTransactionPacket op true s = .next ((s.setOp op o).modThread key fun t => t.packetTaken x s.now) := by
  have thread : o.threadKey = some key := by rw [Op.threadKey, issuer]
  have waits : (o.stage != .txn) = false := by rw [stage]; rfl
  cases place : o.place with
  | peer q => exact absurd (.inl ⟨q, place⟩) home
  | fabric e => exact absurd (.inr ⟨e, place⟩) home
  | _ =>
    simp only [execTransactionPacket, ho, thread, Option.bind_some, ht, txn, waits, held, high, place]
    rw [← place]
    rfl

theorem execTransactionPacket_away (away : o.away) (asks : o.asks = true) (route : o.eg.isSome = true) :
    execTransactionPacket op true s = .next ((s.setOp op { o with done := 1 }).modThread key fun t => t.packetTaken x s.now) := by
  have mem : op ∈ x.held := by simpa using held
  rcases away with ⟨n, place⟩ | ⟨n, place⟩ <;>
    simp [execTransactionPacket, ho, Op.threadKey, issuer, ht, txn, stage, mem, high, place, asks, Option.isSome_iff_ne_none.1 route, Thread.packetTaken]

theorem execTransactionPacket_refused (away : o.away) (asks : o.asks = true) (route : o.eg.isSome = true) :
    execTransactionPacket op false s = .next ((s.dropLane key).failTxn key 3 0 0) := by
  have mem : op ∈ x.held := by simpa using held
  rcases away with ⟨n, place⟩ | ⟨n, place⟩ <;>
    simp [execTransactionPacket, ho, Op.threadKey, issuer, ht, txn, stage, mem, high, place, asks, Option.isSome_iff_ne_none.1 route]

end

/-- A packet that its target holds: the operation as it is put back, and the transaction with the time of its first packet. -/
theorem setOp_modThread {s : State} {op key : Nat} {t : Thread} (ht : s.thread? key = some t) (o : Op) (f : Thread → Thread) :
    ((s.setOp op o).modThread key f).thread? key = some (f t) ∧ find ((s.setOp op o).modThread key f).ops op = some o := by
  refine ⟨?_, by simp⟩
  have same : (s.setOp op o).thread? key = some t := ht
  rw [thread_modThread, if_pos rfl, same, Option.map_some]

/-! FCOMMIT_COMMIT and FCOMMIT_REPLY. -/

/-- What holds of an operation at its stage holds of every packet of a transaction that stands there. -/
theorem all_held {s : State} {ks : List Nat} {stage : Stage} {q : Nat → Bool} (held : ∀ k ∈ ks, ∃ o, find s.ops k = some o ∧ o.stage = stage)
    (good : ∀ k o, find s.ops k = some o → o.stage = stage → q k = true) : ks.all q = true := by
  refine List.all_eq_true.2 fun k hk => ?_
  obtain ⟨o, ho, st⟩ := held k hk
  exact good k o ho st

section
variable {s : State} {key : Nat} {t : Thread} {x : Txn} {dst : Byte} {pc : Dword} (ht : s.thread? key = some t)
  (waits : t.waitOn = .commit dst pc) (txn : t.txn = some x) (high : (s.ctx t.ctx).low = false)
include ht waits txn high

section
variable (fresh : ∀ k ∈ x.held, ∃ o, find s.ops k = some o ∧ o.stage = .txn)
include fresh

/-- A commit in the own package applies the packets in issue order. -/
theorem execFcommitCommit_self (target : x.target = some .self) (ready : s.commitReady x.held = true) (replies : List Reply) :
    execFcommitCommit key replies s = .next (x.held.foldl State.commitOne s) := by
  simp only [execFcommitCommit, ht, waits, txn, high, target, ready, if_true]
  rw [if_neg]
  rw [Bool.or_false, Bool.not_eq_true', Bool.not_eq_false]
  exact all_held fresh fun k o ho stage => by simp only [ho, stage, decide_true]

/-- A target outside the package brings the values of the packets. -/
theorem execFcommitCommit_away {replies : List Reply} (target : x.target ≠ some .self) (length : replies.length = x.held.length)
    (route : x.eg.isSome = true) :
    execFcommitCommit key replies s = .next ((x.held.zip replies).foldl (fun st y => st.committed y.1 y.2) s) := by
  simp only [execFcommitCommit, ht, waits, txn, high, target, length, route, if_false]
  rw [if_neg]
  · rfl
  rw [Bool.or_false, Bool.not_eq_true', Bool.not_eq_false]
  exact all_held fresh fun k o ho stage => by simp only [ho, stage, decide_true]

end

/-- The commit's reply ends the transaction with d = 0 once every packet has been performed. -/
theorem execFcommitReply_home (done : ∀ k ∈ x.held, ∃ o, find s.ops k = some o ∧ o.stage = .performed) :
    execFcommitReply key .home s = .next (s.resume key ({ t with txn := none }.writeReg dst (.data 0))) := by
  simp only [execFcommitReply, ht, waits, txn, high]
  rw [if_neg (by decide), if_pos]
  exact all_held done fun k o ho stage => by simp only [ho, stage, decide_true]

end

theorem writeReg_left (t : Thread) (r : Byte) (v : Tw) : (t.writeReg r v).held = t.held ∧ (t.writeReg r v).spilled = t.spilled
    ∧ (t.writeReg r v).txn = t.txn := by
  unfold Thread.writeReg
  split <;> exact ⟨rfl, rfl, rfl⟩

theorem cell_writeReg {r : Byte} (file : r.toNat < 0xC8) (t : Thread) (v : Tw) : (t.writeReg r v).cell (fileIndex r) = Cell.ofTw v := by
  rw [Thread.writeReg, if_pos file, cell_writeFile, if_pos rfl]

/-- Settles O44, a clause for each step, from its own lemma. -/
theorem packetSteps : Obligations.PacketSteps := by
  unfold Obligations.PacketSteps
  intro s
  refine ⟨fun op o c p replies ho place work sent may free passes stands => execOpkPacket_next replies ho place work sent may free passes stands,
    fun op o key t x ho issuer ht txn stage held high asks => ⟨?accepted, fun go => ?refused⟩,
    fun key t x dst pc ht waits txn high fresh => ⟨fun target ready => ?self, fun replies target length route => ?other⟩,
    fun key t x dst pc ht waits txn high done whole free => ?reply⟩
  case accepted =>
    by_cases go : o.away
    · obtain ⟨thread, packet⟩ := setOp_modThread ht (op := op) { o with done := 1 } fun t => t.packetTaken x s.now
      exact ⟨_, execTransactionPacket_away ho issuer ht txn stage held high go (asks go).1 (asks go).2, ⟨_, thread, rfl⟩,
        fun home => absurd go home, fun _ => packet⟩
    · obtain ⟨thread, packet⟩ := setOp_modThread ht (op := op) o fun t => t.packetTaken x s.now
      exact ⟨_, execTransactionPacket_home ho issuer ht txn stage held high go, ⟨_, thread, rfl⟩, fun _ => packet, fun h => absurd h go⟩
  case refused => exact execTransactionPacket_refused ho issuer ht txn stage held high go (asks go).1 (asks go).2
  case self => exact execFcommitCommit_self ht waits txn high fresh target ready []
  case other => exact execFcommitCommit_away ht waits txn high fresh target length route
  case reply =>
    obtain ⟨holds, spills, ends⟩ := writeReg_left { t with txn := none } dst (.data 0)
    exact ⟨_, execFcommitReply_home ht waits txn high done, _, resume_thread_runs s key (holds.trans free) (spills.trans whole), ends, rfl,
      fun file => cell_writeReg file _ _⟩

end Sys2Proof.Machine
end

section
/-! Branches, calls and returns complete (spec/07 R170, R172 to R174). -/

namespace Sys2Proof.Machine

open Sys2Proof.Safety

/-! What a thread keeps. -/

theorem killRegs_cue (t : Thread) (rs : List Byte) : (t.killRegs rs).cue = t.cue :=
  foldl_keeps Thread.cue _ (fun s x => by dsimp only; split <;> rfl) rs t

/-- The start of an instruction leaves every thread's state of run. -/
theorem started_cue (s : State) (w : Warp) (srcs : List Src) (acting : List Lane) :
    EachThread (fun t u => u.cue = t.cue) s (s.started w srcs acting) := by
  have rr (t : Thread) : t.cue = t.cue := rfl
  have rt : ∀ ⦃a b c : Thread⦄, b.cue = a.cue → c.cue = b.cue → c.cue = a.cue := fun _ _ _ h h' => h'.trans h
  have unpopped := EachThread.of_threads (R := fun t u => u.cue = t.cue) rr (unpopped_threads s w srcs acting)
  have popped : EachThread (fun t u => u.cue = t.cue) (s.unpopped w srcs acting) (s.popped w srcs acting) := by
    rw [popped_eq]
    refine foldl_modThread_each rr rt Lane.key (fun _ _ => ?_) acting _
    rfl
  rw [started_eq]
  exact (unpopped.trans rt popped).trans rt (foldl_modThread_each rr rt Lane.key (fun _ t => killRegs_cue t _) acting _)

theorem EachThread.and {R R' : Thread → Thread → Prop} {s t : State} (h : EachThread R s t) (h' : EachThread R' s t) :
    EachThread (fun a b => R a b ∧ R' a b) s t := by
  intro k a ha
  obtain ⟨b, hb, ab⟩ := h k a ha
  obtain ⟨b', hb', ab'⟩ := h' k a ha
  rw [hb] at hb'
  cases hb'
  exact ⟨b, hb, ab, ab'⟩

/-! The link (R173). -/

/-- A pair that takes an address: nothing else of the thread but l0 and l1. -/
theorem writePair_eq (t : Thread) (r : Byte) (v : Dword) : ∃ regs l0 l1, t.writePair r v = { t with regs := regs, l0 := l0, l1 := l1 } := by
  unfold Thread.writePair
  split
  · exact ⟨t.regs, _, _, rfl⟩
  · split
    · exact ⟨_, t.l0, t.l1, rfl⟩
    · exact ⟨t.regs, t.l0, t.l1, rfl⟩

theorem cell_writePair_other (t : Thread) {r : Byte} (v : Dword) {n : Nat} (h : n ∉ (Dst.reg r true).regs.map fileIndex) :
    (t.writePair r v).cell n = t.cell n := by
  unfold Thread.writePair
  split
  · rfl
  · split
    · next file =>
      have next : fileIndex (nextReg r 1) = fileIndex r + 1 := fileIndex_nextReg file (by omega)
      simp only [Dst.regs, if_true, List.map_cons, List.map_nil, next, List.mem_cons, List.not_mem_nil, or_false, not_or] at h
      rw [cell_writeFile, if_neg h.2, cell_writeFile, if_neg h.1]
    · rfl

theorem cell_writePair (t : Thread) {r : Byte} (v : Dword) (file : r.toNat < 0xC0) :
    (t.writePair r v).cell (fileIndex r) = Cell.ofTw (.data (lo32 v)) ∧ (t.writePair r v).cell (fileIndex r + 1) = Cell.ofTw (.data (hi32 v)) := by
  have own : r ≠ 0xC8 := by
    rintro rfl
    exact absurd file (by decide)
  rw [Thread.writePair, if_neg own, if_pos (by omega)]
  exact ⟨by rw [cell_writeFile, if_neg (by omega), cell_writeFile, if_pos rfl], by rw [cell_writeFile, if_pos rfl]⟩

/-- The pair of a call, if the branch has one, takes the return address. -/
def Thread.linked (t : Thread) (link : Option Byte) (v : Dword) : Thread := link.elim t fun r => t.writePair r v

def State.linked (s : State) (w : Warp) (link : Option Byte) (v : Dword) : State :=
  link.elim s fun r => w.acting.foldl (fun s l => s.modThread l.key fun t => t.writePair r v) s

theorem linked_eq (t : Thread) (link : Option Byte) (v : Dword) : ∃ regs l0 l1, t.linked link v = { t with regs := regs, l0 := l0, l1 := l1 } := by
  cases link with
  | none => exact ⟨t.regs, t.l0, t.l1, rfl⟩
  | some r => exact writePair_eq t r v

/-- What a thread at the end of a branch keeps, whether it goes or not: all but the destination that the link names, l0 and l1. -/
theorem linked_keeps (t : Thread) (acts : Bool) {link : Option Byte} (v : Dword) {d : Dst} (pair : ∀ r, link = some r → d = .reg r true) :
    let u := if acts then t.linked link v else t
    u.preds = t.preds ∧ u.blocks = t.blocks ∧ u.region = t.region ∧ u.vc = t.vc ∧ ∀ n, n ∉ d.regs.map fileIndex → u.cell n = t.cell n := by
  cases acts with
  | false => exact ⟨rfl, rfl, rfl, rfl, fun _ _ => rfl⟩
  | true =>
    obtain ⟨regs, l0, l1, e⟩ := linked_eq t link v
    refine ⟨by rw [if_pos rfl, e], by rw [if_pos rfl, e], by rw [if_pos rfl, e], by rw [if_pos rfl, e], fun n hn => ?_⟩
    cases link with
    | none => rfl
    | some r => exact cell_writePair_other t v (pair r rfl ▸ hn)

theorem linked_onlyThreads (s : State) (w : Warp) (link : Option Byte) (v : Dword) : OnlyThreads s (s.linked w link v) := by
  cases link with
  | none => exact .refl s
  | some r => exact foldl_onlyThreads (fun u _ => modThread_onlyThreads u _ _) w.acting s

theorem linked_slots (s : State) (w : Warp) (link : Option Byte) (v : Dword) : (s.linked w link v).slots = s.slots := by
  cases link with
  | none => rfl
  | some r => exact foldl_keeps State.slots _ (fun u _ => State.modThread_slots u _ _) w.acting s

theorem linked_thread_other (s : State) {w : Warp} (link : Option Byte) (v : Dword) {k : Nat} (h : ∀ l ∈ w.acting, l.key ≠ k) :
    (s.linked w link v).thread? k = s.thread? k := by
  cases link with
  | none => rfl
  | some r => exact thread_foldl_other Lane.key (fun _ t => t.writePair r v) h s

theorem linked_thread {s u : State} {w : Warp} (hw : WarpOf s w) {l : Lane} (hl : l ∈ w.lanes) (alone : Lone w l) (link : Option Byte) (v : Dword) :
    (u.linked w link v).thread? l.key = (u.thread? l.key).map fun t => if l.acts then t.linked link v else t := by
  cases link with
  | none =>
    refine (Option.map_id' (x := u.thread? l.key)).symm.trans (congrArg (Option.map · _) (funext fun t => ?_))
    exact (ite_self t).symm
  | some r =>
    refine (thread_foldl_acting hw hl alone fun _ t => t.writePair r v).trans (congrArg (Option.map · _) (funext fun t => ?_))
    cases l.acts <;> rfl

/-! The end of a branch. -/

/-- Only the lanes' own next addresses matter. -/
theorem advance_congr (s : State) {w : Warp} (h : Head) {next next' : Lane → Dword} (ends : Bool) (same : ∀ l ∈ w.lanes, next l = next' l) :
    s.advance w h next ends = s.advance w h next' ends := by
  have head : w.lanes.head?.map next = w.lanes.head?.map next' := by
    cases e : w.lanes with
    | nil => rfl
    | cons l ls => exact congrArg some (same l (e ▸ List.mem_cons_self))
  have threads : s.nextPcs w next = s.nextPcs w next' := by
    refine List.foldl_ext _ _ s fun u l hl => ?_
    rw [same l hl]
  have pcs (p : Lane → Bool) : (w.lanes.filter p).map next = (w.lanes.filter p).map next' :=
    List.map_congr_left fun l hl => same l (List.mem_of_mem_filter hl)
  unfold State.nextPcs at threads
  unfold State.advance
  simp only [head, threads, pcs]

/-- What a branch does where each acting lane's target is untagged, and the lanes of a slice go to one place. -/
theorem runBranch_eq {s : State} {w : Warp} {h : Head} {srcs : List Src} {d : Dst} {link : Option Byte} {target : Warp → List Val → Val}
    {next : Lane → Dword} (hw : s.warp h = some w) (guarded : Guarded w) (starts : Starts s w srcs d)
    (apart : ∀ a ∈ w.lanes, ∀ b ∈ w.lanes, a.v = b.v → a = b) (goesTo : ∀ l ∈ w.acting, target w (s.sourceVals w srcs l) = .dat (next l))
    (stays : ∀ l ∈ w.lanes, l.acts = false → next l = w.after h) (together : w.slice = true → ∀ a ∈ w.lanes, ∀ b ∈ w.lanes, next a = next b) :
    runBranch h srcs d link target s = .next (((s.started w srcs w.acting).linked w link (w.after h)).advance w h next) := by
  unfold runBranch
  rw [control_eq hw (barred_none starts), executing_eq_acting guarded]
  beta_reduce
  extract_lets raises s1 after goes next' s2 pcs
  have untagged {l : Lane} (hl : l ∈ w.acting) : l.badTok = none := guarded l (mem_acting.1 hl).1
  have quiet : raises = [] := by
    refine List.filterMap_eq_nil_iff.2 fun x hx => ?_
    obtain ⟨l, hl, rfl⟩ := List.mem_map.1 hx
    simp only [untagged hl, goesTo l hl]
  have begun : s1 = s.started w srcs w.acting := by rw [← quiet_nil w, ← quiet]
  have go : goes = w.acting.map fun l => (l, s.sourceVals w srcs l) := by
    refine List.filter_eq_self.2 fun x _ => ?_
    simp [quiet]
  have agree {l : Lane} (hl : l ∈ w.lanes) : next' l = next l := by
    simp only [next', go]
    split
    · next a vs found =>
      obtain ⟨l', hl', e⟩ := List.mem_map.1 (List.mem_of_find?_eq_some found)
      obtain ⟨rfl, rfl⟩ := Prod.mk.inj e
      have same := apart l' (mem_acting.1 hl').1 l hl (of_decide_eq_true (List.find?_some (p := fun x : Lane × List Val => decide (x.1.v = l.v)) found))
      subst same
      rw [goesTo l' hl', Val.bits]
    · next absent =>
      refine (stays l hl (Bool.eq_false_iff.2 fun acts => ?_)).symm
      exact absurd (decide_eq_true rfl) (List.find?_eq_none.1 absent _ (List.mem_map.2 ⟨l, mem_acting.2 ⟨hl, acts⟩, rfl⟩))
  have links : s2 = (s.started w srcs w.acting).linked w link after := by
    cases link with
    | none => exact begun
    | some r =>
      simp only [s2, go, List.foldl_map, begun]
      rfl
  have one : (w.slice && raises.isEmpty && !(pcs.all fun p => decide (p = pcs.headD 0))) = false := by
    cases slice : w.slice with
    | false => rfl
    | true =>
      have all : (pcs.all fun p => decide (p = pcs.headD 0)) = true := by
        refine List.all_eq_true.2 fun p hp => decide_eq_true ?_
        obtain ⟨a, ha, rfl⟩ := List.mem_map.1 hp
        obtain ⟨b, rest, lanes⟩ := List.exists_cons_of_ne_nil (List.ne_nil_of_mem ha)
        have hb : b ∈ w.lanes := lanes ▸ List.mem_cons_self
        have head : pcs.headD 0 = next' b := by simp [pcs, lanes]
        rw [head, agree ha, agree hb, together slice a ha b hb]
      rw [all, Bool.not_true, Bool.and_false]
  rw [one, if_neg (by decide), if_pos (by rw [quiet]; rfl), links, advance_congr _ h false fun l hl => agree hl]

/-! The instructions. -/

theorem absolute_eq (w : Warp) {vs : List Val} (untagged : ∀ v ∈ vs, v.tok? = none) : absolute w vs = .dat (far w.pc vs) := by
  cases vs with
  | nil => rfl
  | cons v vs =>
    cases v with
    | tok k => exact nomatch untagged (.tok k) List.mem_cons_self
    | dat x => rfl

/-- Where a lane goes on after a branch. -/
def BranchRule.next (B : BranchRule) (s : State) (w : Warp) (l : Lane) : Dword :=
  if l.acts then B.target w.pc (s.sourceVals w B.srcs l) else w.after B.head

/-- Every instruction of the rule is a branch of the rule's target. -/
theorem exec_branchRule {i : Instr} {B : BranchRule} (h : branchRule i = some B) :
    ∃ target, (∀ w vs, (∀ v ∈ vs, v.tok? = none) → target w vs = .dat (B.target w.pc vs))
      ∧ ∀ s, exec i s = runBranch B.head B.srcs B.dst B.link target s := by
  cases i with
  | braWi f | braDi f | callDi f => cases h; exact ⟨relative f.imm.toInt, fun _ _ _ => rfl, fun _ => rfl⟩
  | brxD f | callxD f | retD f | retW f => cases h; exact ⟨absolute, fun w _ => absolute_eq w, fun _ => rfl⟩
  | _ => cases h

/-- No branch pops a queue, and one that links names the link's pair as its destination. -/
theorem branchRule_operands {i : Instr} {B : BranchRule} (h : branchRule i = some B) :
    (∀ slice, B.srcs.filterMap (Src.pops slice) = []) ∧ ∀ r, B.link = some r → B.dst = .reg r true := by
  cases i with
  | braWi f | braDi f | brxD f | retD f | retW f => cases h; exact ⟨fun _ => rfl, fun r link => nomatch link⟩
  | callDi f | callxD f =>
    cases h
    refine ⟨fun _ => rfl, fun r link => ?_⟩
    cases link
    rfl
  | _ => cases h

/-! What they leave. -/

/-- Threads, slots and groups apart, a state is as it was. -/
def OnlyUnits (s t : State) : Prop := ∃ threads slots groups, t = { s with threads := threads, slots := slots, groups := groups }

theorem OnlyThreads.units {s t : State} (h : OnlyThreads s t) : OnlyUnits s t := by
  obtain ⟨threads, slots, rfl⟩ := h
  exact ⟨threads, slots, s.groups, rfl⟩

theorem OnlyUnits.trans {a b c : State} (h : OnlyUnits a b) (h' : OnlyUnits b c) : OnlyUnits a c := by
  obtain ⟨_, _, _, rfl⟩ := h
  obtain ⟨threads, slots, groups, rfl⟩ := h'
  exact ⟨threads, slots, groups, rfl⟩

theorem modGroup_onlyUnits (s : State) (k : Nat) (f : Group → Group) : OnlyUnits s (s.modGroup k f) := by
  unfold State.modGroup
  split
  · exact ⟨s.threads, s.slots, _, rfl⟩
  · exact ⟨s.threads, s.slots, s.groups, rfl⟩

theorem advance_onlyUnits (s : State) (w : Warp) (h : Head) (next : Lane → Dword) (ends : Bool) : OnlyUnits s (s.advance w h next ends) := by
  cases slot : w.slice with
  | false => exact (advance_onlyThreads slot h next ends).units
  | true =>
    unfold State.advance
    rw [slot, if_pos rfl]
    exact modGroup_onlyUnits s _ _

/-- The warp of a slice is of a group that has the slice. -/
theorem slice_of_warp {s : State} {h : Head} {w : Warp} (hw : s.warp h = some w) (slice : w.slice = true) :
    ∃ g sl, s.group? w.unit = some g ∧ g.slice = some sl := by
  unfold State.warp at hw
  dsimp only at hw
  split at hw
  · split at hw
    · cases hw
    · split at hw
      · cases hw
      · cases hw
        cases slice
  · split at hw
    · cases hw
    · next g hg =>
      split at hw
      · cases hw
      · next sl hs =>
        split at hw
        · cases hw
        · split at hw
          · cases hw
          · split at hw
            · cases hw
            · cases hw
              exact ⟨g, sl, hg, hs⟩

/-- The slice goes on where its first lane does. -/
theorem advance_slice_pc {s : State} {w : Warp} {g : Group} {sl : Slice} (slice : w.slice = true) (hg : s.group? w.unit = some g)
    (hs : g.slice = some sl) {l : Lane} (head : w.lanes.head? = some l) (h : Head) (next : Lane → Dword) (ends : Bool) :
    (((s.advance w h next ends).group? w.unit).bind Group.slice).map Slice.pc = some (next l) := by
  unfold State.advance
  rw [slice, if_pos rfl, group_modGroup, if_pos rfl, hg, head]
  simp [hs]

section
variable {s : State} {w : Warp} (hw : WarpOf s w) {srcs : List Src} (pops : srcs.filterMap (Src.pops w.slice) = []) (link : Option Byte)
  (h : Head) (next : Lane → Dword)
include hw pops

/-- The threads of other warps. -/
theorem branched_thread_other (slot : w.slice = false) {k : Nat} (hk : ∀ l ∈ w.lanes, l.key ≠ k) :
    (((s.started w srcs w.acting).linked w link (w.after h)).advance w h next).thread? k = s.thread? k := by
  have idle : ∀ l ∈ w.acting, l.key ≠ k := fun l hl => hk l (mem_acting.1 hl).1
  have before : ((s.started w srcs w.acting).linked w link (w.after h)).thread? k = s.thread? k :=
    (linked_thread_other _ link _ idle).trans (started_thread_other s w srcs idle)
  have slots : ((s.started w srcs w.acting).linked w link (w.after h)).slots = s.slots :=
    (linked_slots _ w link _).trans (started_slots s w.acting pops)
  refine (advance_thread_other slot h next false hk fun t ht => ?_).trans before
  rw [State.slot, slots]
  exact hw.not_in_slot slot hk (before ▸ ht)

/-- A lane's own thread: it goes on at its next address, and but for the pair and the killed sources it is as it was. -/
theorem branched_thread (slot : w.slice = false) {l : Lane} (hl : l ∈ w.lanes) (alone : Lone w l) (issuing : l.t.cue = .issuing) :
    ∃ t u, (((s.started w srcs w.acting).linked w link (w.after h)).advance w h next).thread? l.key = some u
      ∧ LaneBegun (srcs.flatMap Src.kills) l.t t ∧ t.vc = l.t.vc ∧ u.pc = next l
      ∧ SettledRegs (if l.acts then t.linked link (w.after h) else t) u := by
  obtain ⟨t, ht, begun, clock, runs⟩ :=
    (started_each s w srcs w.acting).and ((started_vc w.acting pops).and (started_cue s w srcs w.acting)) l.key l.t (hw.thread l hl)
  have ready : (if l.acts then t.linked link (w.after h) else t).cue = .issuing := by
    obtain ⟨regs, l0, l1, e⟩ := linked_eq t link (w.after h)
    rw [e]
    cases l.acts <;> exact runs.trans issuing
  have links := linked_thread (u := s.started w srcs w.acting) hw hl alone link (w.after h)
  rw [ht, Option.map_some] at links
  obtain ⟨u, hu, left, settled⟩ := advance_thread hw slot hl alone h next false links
  refine ⟨t, u, hu, begun, clock, left.1.trans ?_, settled⟩
  rw [Thread.steppedTo, if_pos ready]

end

/-- Settles O27: the branch as a whole, then its frame, its own threads and its slice each from their own lemma. -/
theorem branchesComplete : Obligations.BranchesComplete := by
  unfold Obligations.BranchesComplete
  intro i B s w rule hw guarded starts untagged apart next together
  obtain ⟨target, goesTo, runs⟩ := exec_branchRule rule
  obtain ⟨pops, pair⟩ := branchRule_operands rule
  have hwarp := warp_of hw
  have branches : exec i s = .next (((s.started w B.srcs w.acting).linked w B.link (w.after B.head)).advance w B.head next) := by
    rw [runs]
    refine runBranch_eq hw guarded starts apart (fun l hl => ?_) (fun l _ idle => ?_) together
    · rw [goesTo w _ (untagged l hl)]
      exact congrArg Val.dat (if_pos (mem_acting.1 hl).2).symm
    · exact if_neg (by simp [idle])
  obtain ⟨_, _, _, frame⟩ := ((started_onlyThreads s w.acting (pops w.slice)).trans
    (linked_onlyThreads _ w B.link (w.after B.head))).units.trans (advance_onlyUnits _ w B.head next false)
  refine ⟨_, branches, by rw [frame], by rw [frame], by rw [frame], by rw [frame], by rw [frame],
    fun slot k hk => branched_thread_other hwarp (pops w.slice) B.link B.head next slot hk, fun slot l hl alone issuing => ?own, fun slice l head => ?slice⟩
  case own =>
    obtain ⟨t, u, hu, begun, clock, pc, settled⟩ := branched_thread hwarp (pops w.slice) B.link B.head next slot hl alone issuing
    obtain ⟨preds, blocks, region, vc, cells⟩ := linked_keeps t l.acts (w.after B.head) pair
    refine ⟨u, hu, pc, ?_, settled.blocks.trans (blocks.trans begun.blocks), settled.region.trans (region.trans begun.region),
      settled.vc.trans (vc.trans clock), fun n hn still => ?_, fun r link acts file _ => ?_⟩
    · rw [settled.preds, preds, begun.preds]
    · rw [List.map_append, List.mem_append, not_or] at hn
      have same := (cells n hn.1).trans (begun.cell n hn.2)
      exact (settled.cell n (by rw [same]; exact still)).trans same
    · rw [acts, if_pos rfl, link] at settled
      obtain ⟨low, high⟩ := cell_writePair t (w.after B.head) file
      exact ⟨settled.holds low, settled.holds high⟩
  case slice =>
    obtain ⟨g, sl, hg, hs⟩ := slice_of_warp hw slice
    obtain ⟨_, _, before⟩ := (started_onlyThreads s w.acting (pops w.slice)).trans (linked_onlyThreads _ w B.link (w.after B.head))
    exact advance_slice_pc slice (by rw [before]; exact hg) hs head _ _ _

end Sys2Proof.Machine
end

section
/-! OPK, LAUNCH, SPAWN and MIGR complete (spec/07 R179 to R182, R195, R197, spec/08 R222). -/

namespace Sys2Proof.Machine

open Sys2Proof.Safety

/-- Where no lane gives anything, a list drawn from the lanes is empty. -/
theorem filterMap_lanes_nil {α β : Type} {ls : List Lane} {g : Lane → α} {p : α → Option β} (none : ∀ l ∈ ls, p (g l) = none) :
    (ls.map g).filterMap p = [] := by
  refine List.filterMap_eq_nil_iff.2 fun x hx => ?_
  obtain ⟨l, hl, rfl⟩ := List.mem_map.1 hx
  exact none l hl

theorem any_lanes_false {α : Type} {ls : List Lane} {g : Lane → α} {p : α → Bool} (none : ∀ l ∈ ls, p (g l) = false) :
    (ls.map g).any p = false := by
  rw [List.any_map]
  exact List.any_eq_false.2 fun l hl => Bool.eq_false_iff.1 (none l hl)

theorem filter_lanes_all {α : Type} {ls : List Lane} {g : Lane → α} {p : α → Bool} (all : ∀ l ∈ ls, p (g l) = true) :
    (ls.map g).filter p = ls.map g := by
  refine List.filter_eq_self.2 fun x hx => ?_
  obtain ⟨l, hl, rfl⟩ := List.mem_map.1 hx
  exact all l hl

/-- A fold over what the lanes give is a fold over the lanes. -/
theorem foldl_lanes {α : Type} {ls : List Lane} {g : Lane → α} {f : State → α → State} {f' : State → Lane → State} (s : State)
    (same : ∀ u, ∀ l ∈ ls, f u (g l) = f' u l) : (ls.map g).foldl f s = ls.foldl f' s := by
  rw [List.foldl_map]
  exact List.foldl_ext _ _ s same

/-! LAUNCH. -/

theorem execLaunchD_eq {f : DForm} {s : State} {w : Warp} (hw : s.warp (dHead f) = some w) (guarded : Guarded w)
    (starts : Starts s w [pairS1 f, src8 f.s2 f.s2lk] .none) (outside : w.someTxn = false)
    (untagged : ∀ l ∈ w.acting, ∀ v ∈ s.sourceVals w [pairS1 f, src8 f.s2 f.s2lk] l, v.tok? = none)
    (released : ∀ l ∈ w.acting, s.releaseReady l.key w.cluster l.t.vc 6 false = true) :
    execLaunchD f s = .next ((w.acting.foldl (fun st l =>
      st.post w.cluster w.ctx (valAt (s.sourceVals w [pairS1 f, src8 f.s2 f.s2lk] l) 1).bits.toNat
        (valAt (s.sourceVals w [pairS1 f, src8 f.s2 f.s2lk] l) 0).bits.toNat)
      (s.started w [pairS1 f, src8 f.s2 f.s2lk] w.acting)).step1 w (dHead f)) := by
  unfold execLaunchD
  extract_lets h
  rw [control_eq hw (by rw [outside]; exact barred_none starts), executing_eq_acting guarded]
  beta_reduce
  extract_lets raises goes s2
  have quiet : raises = [] := filterMap_lanes_nil fun l hl => by
    simp only [guarded l (mem_acting.1 hl).1, List.findSome?_eq_none_iff.2 (untagged l hl), Option.map_none]
  have go : goes = w.acting.map fun l => (l, s.sourceVals w [pairS1 f, src8 f.s2 f.s2lk] l) := filter_lanes_all fun l _ => by simp [quiet]
  have ready : (goes.any fun x => !s.releaseReady x.1.key w.cluster x.1.t.vc 6 false) = false := by
    rw [go]
    exact any_lanes_false fun l hl => by simp [released l hl]
  have posts : s2 = w.acting.foldl (fun st l =>
      st.post w.cluster w.ctx (valAt (s.sourceVals w [pairS1 f, src8 f.s2 f.s2lk] l) 1).bits.toNat
        (valAt (s.sourceVals w [pairS1 f, src8 f.s2 f.s2lk] l) 0).bits.toNat)
      (s.started w [pairS1 f, src8 f.s2 f.s2lk] w.acting) := by
    simp only [s2, go, quiet, quiet_nil]
    exact foldl_lanes _ fun _ _ _ => rfl
  refine (if_neg (by rw [ready]; decide)).trans ?_
  rw [posts, quiet, finish_nil]

/-! MIGR (R179, R180). -/

/-- What MIGR does in one thread with its goal: another cluster makes it wait for its departure. -/
def State.departs (w : Warp) (h : Head) (s : State) (l : Lane) : Course → State
  | .to (.here c) => if c = w.cluster then s else s.leave l none c w h
  | .to (.peer q c) => s.leave l (some q) c w h
  | _ => s

theorem execMigrD_eq {f : DForm} {s : State} {w : Warp} (hw : s.warp (dHead f) = some w) (guarded : Guarded w)
    (starts : Starts s w [pairS1 f] .none) (ungrouped : w.group = none) (outside : w.someTxn = false)
    (goals : ∀ l ∈ w.acting, ∃ g, s.course w (valAt (s.sourceVals w [pairS1 f] l) 0) = .to g ∧ ∀ e c, g ≠ .fabric e c) :
    execMigrD f s = .next ((w.acting.foldl (fun u l => u.departs w (dHead f) l (s.course w (valAt (s.sourceVals w [pairS1 f] l) 0)))
      (s.started w [pairS1 f] w.acting)).step1 w (dHead f) true) := by
  unfold execMigrD
  extract_lets h
  rw [control_eq hw (by rw [ungrouped, outside]; exact barred_none starts), executing_eq_acting guarded]
  beta_reduce
  extract_lets asks misses raises s2
  have good {l : Lane} (hl : l ∈ w.acting) : l.badTok = none := guarded l (mem_acting.1 hl).1
  have asked : asks = w.acting.map fun l =>
      (l, valAt (s.sourceVals w [pairS1 f] l) 0, s.course w (valAt (s.sourceVals w [pairS1 f] l) 0)) := List.map_map
  have found : misses = [] := by
    simp only [misses, asked]
    refine filterMap_lanes_nil fun l hl => ?_
    obtain ⟨g, e, _⟩ := goals l hl
    simp only [e, (mem_acting.1 hl).2]
  have quiet : raises = [] := by
    simp only [raises, asked]
    refine filterMap_lanes_nil fun l hl => ?_
    obtain ⟨g, e, near⟩ := goals l hl
    simp only [e, good hl]
    cases g with
    | fabric n c => exact absurd rfl (near n c)
    | here c | peer q c | code c => rfl
  have leaves : s2 = w.acting.foldl (fun u l => u.departs w h l (s.course w (valAt (s.sourceVals w [pairS1 f] l) 0)))
      (s.started w [pairS1 f] w.acting) := by
    simp only [s2, asked, quiet, quiet_nil]
    refine foldl_lanes _ fun u l hl => ?_
    obtain ⟨g, e, near⟩ := goals l hl
    simp only [e, good hl]
    cases g <;> rfl
  rw [found, if_neg (by decide), leaves, quiet, finish_nil]

theorem departs_thread_other (w : Warp) (h : Head) (s : State) (l : Lane) (c : Course) {k : Nat} (hk : k ≠ l.key) :
    (s.departs w h l c).thread? k = s.thread? k := by
  unfold State.departs
  split
  · split
    · rfl
    · exact block_thread_other s _ _ _ _ hk
  · exact block_thread_other s _ _ _ _ hk
  · rfl

theorem departs_leave {w : Warp} (h : Head) (s : State) (l : Lane) {course : Course} {pkg : Option Nat} {c : Nat}
    (away : course = .to (.here c) ∧ c ≠ w.cluster ∧ pkg = none ∨ ∃ q, course = .to (.peer q c) ∧ pkg = some q) :
    s.departs w h l course = s.leave l pkg c w h := by
  rcases away with ⟨rfl, other, rfl⟩ | ⟨q, rfl, rfl⟩
  · exact if_neg other
  · rfl

/-- A thread that leaves waits for its departure when MIGR has ended. -/
theorem migrated_thread {f : DForm} {s : State} {w : Warp} (hw : WarpOf s w) (slot : w.slice = false) (courses : Lane → Course) {l : Lane}
    (hl : l ∈ w.acting) (alone : Lone w l) {pkg : Option Nat} {c : Nat}
    (away : courses l = .to (.here c) ∧ c ≠ w.cluster ∧ pkg = none ∨ ∃ q, courses l = .to (.peer q c) ∧ pkg = some q) :
    ∃ u d, ((w.acting.foldl (fun u l => u.departs w (dHead f) l (courses l)) (s.started w [pairS1 f] w.acting)).step1 w (dHead f)
        true).thread? l.key = some u
      ∧ u.cue = .waiting ∧ u.wait = 0x1D ∧ u.waitOn = .depart d ∧ d.pkg = pkg ∧ d.cluster = c ∧ d.resume = w.after (dHead f) := by
  obtain ⟨a, ha, _⟩ := started_each s w [pairS1 f] w.acting l.key l.t (hw.thread l (mem_acting.1 hl).1)
  obtain ⟨u, hu, left⟩ := thread_foldl_apart (g := fun u l => u.departs w (dHead f) l (courses l)) Lane.key
    (fun s x k => departs_thread_other w (dHead f) s x (courses x)) hw.nodup_acting hl (lone_acting alone) (s.started w [pairS1 f] w.acting)
  rw [departs_leave (dHead f) u l away, State.leave, block_thread (hu.trans ha)] at left
  exact ⟨_, _, advance_thread_waiting hw slot (mem_acting.1 hl).1 alone _ _ true left (nomatch ·), rfl, rfl, rfl, rfl, rfl, rfl⟩

/-! SPAWN (R181). -/

/-- What SPAWN does in one thread: a message for its goal, and the killed arguments. -/
def State.spawnsAt (w : Warp) (f : DForm) (s : State) (l : Lane) (entry : Dword) : Course → State
  | .to g =>
    let st := s.spawnOne w l g (entry &&& ~~~1) f.s3.toNat (f.mod.extractLsb' 0 4).toNat
    if f.s3lk.getLsbD 1 then st.modThread l.key fun t => t.killRegs ((List.range (f.mod.extractLsb' 0 4).toNat).map fun i => nextReg f.s3 i) else st
  | _ => s

def spawnSrcs (f : DForm) : List Src := [pairS1 f, .pair f.s2 (f.s2lk.getLsbD 1)]

theorem execSpawnD_eq {f : DForm} {s : State} {w : Warp} (hw : s.warp (dHead f) = some w) (guarded : Guarded w)
    (starts : Starts s w (spawnSrcs f) .none) (ungrouped : w.group = none) (outside : w.someTxn = false)
    (goals : ∀ l ∈ w.acting, (∃ g, s.course w (valAt (s.sourceVals w (spawnSrcs f) l) 0) = .to g)
      ∧ (valAt (s.sourceVals w (spawnSrcs f) l) 1).tok? = none)
    (released : ∀ l ∈ w.acting, s.releaseReady l.key w.cluster l.t.vc 7 false = true ∧ s.releaseReady l.key w.cluster l.t.vc 9 false = true)
    (credit : w.acting.length ≤ (s.cluster w.cluster).credits) :
    execSpawnD f s = .next ((w.acting.foldl (fun u l => u.spawnsAt w f l (valAt (s.sourceVals w (spawnSrcs f) l) 1).bits
        (s.course w (valAt (s.sourceVals w (spawnSrcs f) l) 0)))
      (s.started w (spawnSrcs f) w.acting)).step1 w (dHead f)) := by
  unfold execSpawnD
  extract_lets h n scope afar last
  rw [← spawnSrcs, control_eq hw (by rw [ungrouped, outside]; exact barred_none starts), executing_eq_acting guarded]
  beta_reduce
  extract_lets asks misses raises goes s2
  have good {l : Lane} (hl : l ∈ w.acting) : l.badTok = none := guarded l (mem_acting.1 hl).1
  have asked : asks = w.acting.map fun l =>
      (l, s.sourceVals w (spawnSrcs f) l, s.course w (valAt (s.sourceVals w (spawnSrcs f) l) 0)) := List.map_map
  have found : misses = [] := by
    simp only [misses, asked]
    refine filterMap_lanes_nil fun l hl => ?_
    obtain ⟨g, e⟩ := (goals l hl).1
    simp only [e, (mem_acting.1 hl).2]
  have quiet : raises = [] := by
    simp only [raises, asked]
    refine filterMap_lanes_nil fun l hl => ?_
    obtain ⟨⟨g, e⟩, untagged⟩ := goals l hl
    simp only [e, good hl, untagged, Option.map_none]
  have go : goes = asks := by
    simp only [goes, quiet, List.any_nil, Bool.not_false, List.filter_true]
  have ready : (goes.any fun x => !s.releaseReady x.1.key w.cluster x.1.t.vc (scope x) false) = false := by
    rw [go, asked]
    refine any_lanes_false fun l hl => ?_
    obtain ⟨inside, away⟩ := released l hl
    simp only [scope]
    split
    · rw [inside, Bool.not_true]
    · rw [away, Bool.not_true]
  have sends : s2 = w.acting.foldl (fun u l => u.spawnsAt w f l (valAt (s.sourceVals w (spawnSrcs f) l) 1).bits
      (s.course w (valAt (s.sourceVals w (spawnSrcs f) l) 0))) (s.started w (spawnSrcs f) w.acting) := by
    simp only [s2, asked, quiet, quiet_nil]
    refine foldl_lanes _ fun u l hl => ?_
    obtain ⟨g, e⟩ := (goals l hl).1
    simp only [e]
    rfl
  rw [found, if_neg (by decide), ready, if_neg (by decide), if_neg (Nat.not_lt.2 credit), sends, quiet, finish_nil]

/-! OPK (R222, R195). -/

def opkSrcs (f : DForm) : List Src := [pairS1 f, .many f.s2 4 false (f.s2lk.getLsbD 1), .pair f.s3 (f.s3lk.getLsbD 1)]

/-- What a thread's packet finds: its values and its aim. -/
def State.packetAsk (s : State) (w : Warp) (f : DForm) (l : Lane) : Lane × List Val × PkAim :=
  (l, s.sourceVals w (opkSrcs f) l, s.packetAim w l (s.sourceVals w (opkSrcs f) l))

theorem execOpkD_eq {f : DForm} {s : State} {w : Warp} (hw : s.warp (dHead f) = some w) (guarded : Guarded w)
    (starts : Starts s w (opkSrcs f) (.reg f.d true))
    (settled : ∀ l ∈ w.acting, s.acquirePending l.key = false ∧ s.releasePending l.key = false)
    (sound : ∀ l ∈ w.acting, ∀ k c a, s.packetAim w l (s.sourceVals w (opkSrcs f) l) ≠ .raise k c a)
    (walked : ∀ l ∈ w.acting, ∀ va, s.packetAim w l (s.sourceVals w (opkSrcs f) l) ≠ .miss va)
    (released : ∀ l ∈ w.acting, s.releaseReady l.key w.cluster l.t.vc (WellFormed.mScope f).toNat false = true)
    (counted : ∀ l ∈ w.acting, s.outstanding l.key 3 < 255 ∧ s.outstanding l.key 4 < 255) :
    execOpkD f s = .next ((w.acting.foldl (fun st l => st.packetOne w f (s.started w (opkSrcs f) w.acting).fresh.1 l
        (s.sourceVals w (opkSrcs f) l) (s.packetAim w l (s.sourceVals w (opkSrcs f) l)))
      (s.started w (opkSrcs f) w.acting).fresh.2).step1 w (dHead f)) := by
  unfold execOpkD
  extract_lets h scope srcs clsOf
  rw [show srcs = opkSrcs f from rfl, control_eq hw (barred_none starts), executing_eq_acting guarded]
  beta_reduce
  extract_lets asks misses raises goes eff waits s2
  have asked : asks = w.acting.map (s.packetAsk w f) := List.map_map
  have acquired : (w.acting.any fun l => s.acquirePending l.key) = false :=
    List.any_eq_false.2 fun l hl => Bool.eq_false_iff.1 (settled l hl).1
  have found : misses = [] := by
    simp only [misses, asked]
    refine filterMap_lanes_nil fun l hl => ?_
    split
    · next va e => exact absurd e (walked l hl va)
    · rfl
  have quiet : raises = [] := by
    simp only [raises, asked]
    refine filterMap_lanes_nil fun l hl => ?_
    split
    · next k c a e => exact absurd e (sound l hl k c a)
    · rfl
  have go : goes = w.acting.map (s.packetAsk w f) := by
    simp only [goes, asked]
    refine filter_lanes_all fun l hl => ?_
    split
    · next k c a e => exact absurd e (sound l hl k c a)
    · rfl
  have ready : goes.any waits = false := by
    rw [go]
    refine any_lanes_false fun l hl => ?_
    simp only [waits, State.packetAsk, (settled l hl).2, scope, released l hl, Bool.not_true, Bool.and_false, Bool.or_false]
  have room : (goes.any fun x => decide (255 ≤ s.outstanding x.1.key (clsOf x))) = false := by
    rw [go]
    refine any_lanes_false fun l hl => decide_eq_false (Nat.not_le.2 ?_)
    obtain ⟨write, afar⟩ := counted l hl
    simp only [clsOf, State.packetAsk]
    split
    · exact afar
    · split
      · exact write
      · exact afar
  have begun : s2 = s.started w (opkSrcs f) w.acting := by
    simp only [s2, asked, quiet, quiet_nil]
    refine (foldl_lanes _ fun u l hl => ?_).trans (List.foldl_fixed w.acting)
    split
    · next k c a e => exact absurd e (sound l hl k c _)
    · rfl
  rw [acquired, if_neg (by decide), found, if_neg (by decide), ready, if_neg (by decide), room, if_neg (by decide), begun, go, quiet]
  simp only [finish_nil, List.foldl_map]
  rfl

/-- Settles O37, an instruction at a time, from its own lemma. -/
theorem packetsLaunchesAndTravelComplete : Obligations.PacketsLaunchesAndTravelComplete := by
  unfold Obligations.PacketsLaunchesAndTravelComplete
  intro f s w hw guarded _
  refine ⟨execOpkD_eq hw guarded, execLaunchD_eq hw guarded, ?spawn, ?migr⟩
  case spawn =>
    intro srcs vals n starts ungrouped outside goals released credit
    refine (execSpawnD_eq hw guarded starts ungrouped outside goals released credit).trans ?_
    refine congrArg (fun u : State => Host.Outcome.next (u.step1 w (dHead f))) (List.foldl_ext _ _ _ fun u l hl => ?_)
    obtain ⟨g, e⟩ := (goals l hl).1
    have course : s.course w (valAt (s.sourceVals w (spawnSrcs f) l) 0) = .to g := e
    simp only [course, e]
    rfl
  case migr =>
    intro srcs starts ungrouped outside slot goals
    refine ⟨_, execMigrD_eq hw guarded starts ungrouped outside goals, fun l hl alone pkg c away => ?_⟩
    exact migrated_thread (warp_of hw) slot (fun l => s.course w (valAt (s.sourceVals w [pairS1 f] l) 0)) hl alone away

end Sys2Proof.Machine
end

section
/-! Two statements of waits that a lost route changes (spec/07 R188, R195, spec/19 R412): a thread whose request has no group to leave over waits
with reason 0x17, whatever its instruction would wait for. -/

namespace Sys2Proof.Machine

open Sys2Proof.Safety

/-- The reason with which thread 0 waits after a step. -/
def firstWait : Res → Option (BitVec 16)
  | .next s => (s.thread? 0).map Thread.wait
  | _ => none

/-- One thread in slot 0 of cluster 0, and a data page that lies in package 1, to which no group of the edge leads. -/
def farPage (t : Thread) : State :=
  { State.reset with
    threads := [(0, t)]
    slots := [(0, { Slot.init with lanes := [some 0], pc := 0x10000 })]
    ctxs := [(0, { Ctx.init with ctl := 0x8000000000000000 })]
    rows := [(0, { Row.init with tlb := [⟨0, 0x20000, false, 0x2010000020000, 1, true, false, 2 ^ 16, none⟩] })] }

/-- Its warp, whose guard is p7. -/
def farLane (t : Thread) : Lane := ⟨0, 0, t, .on⟩
def farWarp (t : Thread) : Warp := ⟨false, 0, 0, t.group, 0, 0, 0x10000, [farLane t]⟩

/-! KLD (R188). -/

/-- A thread of a group with the page's address in g4:g5. -/
def loader : Thread :=
  { Thread.new 0 0 (some 0) 0 0 0x10000 0 with cue := .issuing, regs := [(4, Cell.ofTw (.data 0x20000)), (5, Cell.ofTw (.data 0))] }

/-- KLD k0, [g4:g5]. -/
def farKld : DMForm := ⟨0, 0, 0, 0, 5, 0xF0, 0, 4, 0xE0, false, 7, 0⟩

theorem farKld_starts : Starts (farPage loader) (only (farWarp loader) (farLane loader)) [dmBase farKld, dmIndex farKld] .none := by
  unfold Starts
  decide

theorem farKld_aim : (farPage loader).aim (farWarp loader) 4 .read
    (dmAddr farKld ((farPage loader).sourceVals (only (farWarp loader) (farLane loader)) [dmBase farKld, dmIndex farKld] (farLane loader)))
      = .at (.peer 1) 0x20000 0x2010000020000 1 := by decide +kernel

/-- The read finds no route, and its thread waits for one. -/
theorem farKld_waits : firstWait (exec (.kldDm farKld) (farPage loader)) = some 0x17 := by decide +kernel

/-- Refutes O32: a KLD from another package to which no group leads leaves its threads waiting with reason 0x17 (R412), not 12. -/
theorem not_groupRegisters : ¬ Obligations.GroupRegisters := by
  unfold Obligations.GroupRegisters
  rintro ⟨_, reads⟩
  obtain ⟨kld, _⟩ := reads (farPage loader) (farWarp loader) (farLane loader) (.peer 1) 0x20000 0x2010000020000 1 rfl rfl rfl rfl
  have waits := congrArg firstWait (kld farKld rfl farKld_starts farKld_aim)
  rw [farKld_waits] at waits
  exact absurd waits (by decide +kernel)

/-! FCOMMIT (R195). -/

/-- A transaction of one packet, whose target is package 1. -/
def farTxn : Txn := ⟨[], [], 0x10008, 6, some (.peer 1), some 0, [1], none, none⟩

def committer : Thread := { Thread.new 0 0 none 0 0 0x10000 0 with cue := .issuing, txn := some farTxn }

/-- The packet that it holds: an operation that its target has taken. -/
def farPacket : Op :=
  { ctx := 0, act := 0, issuer := .thread 0, cluster := 0, slot := 0, tid := 0, batch := 0, pc := 0x10000, cls := 4
    work := .packet ⟨1, 0, 0, 0, 0, 7, none, 0, (0, 0)⟩, place := .peer 1, va := 0x20000, pa := 0x2010000020000, dst := .none
    clock := Clock.zero, stamp := none, scope := 0, order := 0, rel := none, stage := .txn, reply := [], flags := 0, seen := none
    eg := none, sentAt := 0, retired := false, done := 1 }

def farCommit : State := { farPage committer with ops := [(1, farPacket)] }

/-- FCOMMIT g6. -/
def fcommit : DForm := ⟨0, 0, 0xF0, 0, 0xF0, 0, 0xF0, 6, false, 7, 0⟩

theorem farCommit_starts : Starts farCommit (farWarp committer) [] (.reg fcommit.d false) := by
  unfold Starts
  decide

theorem farCommit_waits : firstWait (exec (.fcommitD fcommit) farCommit) = some 0x17 := by decide +kernel

/-- Refutes O33: an FCOMMIT to another package to which no group leads leaves its thread waiting with reason 0x17 (R412), not 17. -/
theorem not_transactions : ¬ Obligations.Transactions := by
  unfold Obligations.Transactions
  intro h
  have guarded : Guarded (farWarp committer) := by
    unfold Guarded
    decide
  have alone : Lone (farWarp committer) (farLane committer) := by
    unfold Lone
    decide
  obtain ⟨_, commits, _⟩ := h fcommit farCommit (farWarp committer) rfl guarded rfl
  obtain ⟨t, next, ends⟩ := commits farCommit_starts (by decide)
  obtain ⟨_, packets, _⟩ := ends (farLane committer) (by decide) alone farTxn rfl
  obtain ⟨u, thread, _, _, _, wait, _⟩ := packets (by decide) rfl (by decide) (by decide)
  have waits := farCommit_waits
  rw [next] at waits
  have reason : (t.thread? 0).map Thread.wait = some 0x17 := waits
  rw [show t.thread? 0 = some u from thread, Option.map_some, wait] at reason
  exact absurd reason (by decide)

end Sys2Proof.Machine
end

section
/-! LDG at issue (spec/08 R215): its order is that of its element, whose place the record names. The access that the statements ascribe to it
takes the order at the record's place, where an acquire of a scope without that place is relaxed (spec/11 R290). An LDG that waits
with its acquire for an earlier release of its thread (R301) then refutes both. -/

namespace Sys2Proof.Machine

open Sys2Proof.Safety

/-- A thread with a record's address in g4:g5. -/
def recordReader : Thread :=
  { Thread.new 0 0 none 0 0 0x10000 0 with cue := .issuing, regs := [(4, Cell.ofTw (.data 0x20000)), (5, Cell.ofTw (.data 0))] }

/-- A store with release that it has sent to the record's cluster. -/
def releaseOp : Op :=
  { ctx := 0, act := 0, issuer := .thread 0, cluster := 0, slot := 0, tid := 0, batch := 7, pc := 0xFFF8, cls := 3, work := .store 4 1
    place := .home 1, va := 0x20040, pa := 0x40020040, dst := .none, clock := Clock.zero, stamp := none, scope := 7, order := 3, rel := none
    stage := .sent, reply := [], flags := 0, seen := none, eg := none, sentAt := 0, retired := false }

/-- The thread in cluster 0, with the record at home in cluster 1. -/
def recordFar : State :=
  { farPage recordReader with
    rows := [(0, { Row.init with tlb := [⟨0, 0x20000, false, 0x40020000, 1, true, false, 2 ^ 16, none⟩] })]
    ops := [(3, releaseOp)], seq := 16 }

/-- LDG.acquire.cluster g8, [g4:g5]. -/
def farLdg : DMForm := ⟨0, 0, 2, 3, 4, 0xF0, 0, 4, 8, false, 7, 0⟩

/-- The access that the statements ascribe to it. -/
def farRecord : MemDo :=
  { loadDo farLdg false false with
    srcs := [dmBase farLdg, .pair farLdg.index false], align := 32, addr := ldgAddr
    work := fun vs => .ragged farLdg.type (lo32 (valAt vs 1).bits) (hi32 (valAt vs 1).bits) farLdg.offset.toInt [] false (farLdg.cache != 1) }

theorem farRecord_aims : ∀ a ∈ recordFar.memAsks (farWarp recordReader) farRecord, a.aim = .at (.home 1) 0x20000 0x40020000 1 := by
  decide +kernel

theorem farRecord_sends : ∃ a ∈ recordFar.memSends (farWarp recordReader) farRecord, a.lane = farLane recordReader :=
  ⟨_, List.mem_singleton_self _, rfl⟩

theorem farRecord_starts : AccessStarts recordFar (farWarp recordReader) farRecord where
  group := by decide
  starts := by
    unfold Starts
    decide
  acquired := by decide +kernel
  walked a ha _ := by simp [farRecord_aims a ha]
  ordered := by decide +kernel
  released := by decide +kernel
  counted := by decide +kernel
  room q wide h := by
    have none : farRecord.dst.push (farWarp recordReader).slice = .none := by decide
    rw [none] at h
    cases h

/-- The operations in flight after a step. -/
def opsAfter : Res → Option (Map Op)
  | .next s => some s.ops
  | _ => none

/-- The instruction waits for the release: it sends nothing. -/
theorem farLdg_waits : opsAfter (exec (.ldgDm farLdg) recordFar) = some [(3, releaseOp)] := by decide +kernel

/-- Refutes O18: the LDG waits in its slot, where its access, taken at the record, would go. -/
theorem not_memoryInstructionsComplete : ¬ Obligations.MemoryInstructionsComplete := by
  unfold Obligations.MemoryInstructionsComplete
  intro h
  have next := congrArg opsAfter
    (h (.ldgDm farLdg) farLdg farRecord recordFar (farWarp recordReader) rfl rfl farRecord_starts rfl)
  have sent : ((recordFar.memDone (farWarp recordReader) (dmHead farLdg) farRecord).ops).length = 2 := by decide +kernel
  rw [farLdg_waits] at next
  rw [← Option.some.inj next] at sent
  exact absurd sent (by decide)

/-- Refutes O19: no operation of the LDG is in flight after its step, which only waits. -/
theorem not_memoryOperationsSent : ¬ Obligations.MemoryOperationsSent := by
  unfold Obligations.MemoryOperationsSent
  intro h
  obtain ⟨t, next, sends⟩ :=
    h (.ldgDm farLdg) farLdg farRecord recordFar (farWarp recordReader) rfl rfl rfl rfl rfl farRecord_starts rfl
  obtain ⟨a, ha, lane⟩ := farRecord_sends
  have alone : Lone (farWarp recordReader) (farLane recordReader) := by
    unfold Lone
    decide
  obtain ⟨k, o, found, _, _, va, _⟩ := sends a ha (by rw [lane]; rfl) (by rw [lane]; exact alone) _ _ _ _
    (farRecord_aims a (List.mem_filter.mp ha).1)
  have ops := farLdg_waits
  rw [next] at ops
  rw [show t.ops = [(3, releaseOp)] from Option.some.inj ops] at found
  obtain ⟨_, rfl⟩ : 3 = k ∧ releaseOp = o := by simpa [find] using found
  exact absurd va (by decide)

end Sys2Proof.Machine
end

section
/-! What a load sends, where an earlier operation of its thread stands at a scratchpad (spec/08 R203, R238, R284): before the load, the bank applies
that operation and its batch, and the writes of the batch end waits of other threads. No instruction sends such an operation: a packet
goes to a home or to another package. The statement does not exclude the state. -/

namespace Sys2Proof.Machine

open Sys2Proof.Safety

/-- A monitored wait for word 0 of group 0's scratchpad to be zero, whose value goes to g8. -/
def wordWait : MonWait := ⟨.pad 0 0, 0, 0, 0, 0, 8, true, 0, 0, 0x10000⟩

/-- An operation that thread 0 has sent to word 0 of group 0's scratchpad. -/
def padOp (work : Work) : Op :=
  { ctx := 0, act := 0, issuer := .thread 0, cluster := 0, slot := 0, tid := 0, batch := 7, pc := 0x10000, cls := 4, work := work
    place := .pad 0, va := 0, pa := 0, dst := .none, clock := Clock.zero, stamp := none, scope := 0, order := 0, rel := none
    stage := .sent, reply := [], flags := 0, seen := none, eg := none, sentAt := 0, retired := true }

/-- A packet whose A is the word at 0x20000, and an atomic of its batch. -/
def padOps : Map Op := [(1, padOp (.packet ⟨9, 0, 1, 0, 0x20000, 0, none, 0, (0, 0)⟩)), (2, padOp (.atomic .add 4 0 0))]

/-- A thread of another slot that waits for the word. -/
def nearWaiter : Thread := { Thread.new 0 0 (some 0) 0 1 0x10000 0 with cue := .waiting, waitOn := .cond wordWait }

/-- The two threads, a data page of which the first has the address, at home in their cluster, and the two operations. -/
def nearPage : State :=
  { farPage loader with
    threads := [(0, loader), (1, nearWaiter)]
    rows := [(0, { Row.init with tlb := [⟨0, 0x20000, false, 0x20000, 1, true, false, 2 ^ 16, none⟩] })]
    ops := padOps, seq := 16 }

/-- LDF g8, [g4:g5]. -/
def nearLdf : DMForm := ⟨0, 0, 0, 0, 5, 0xF0, 0, 4, 8, false, 7, 0⟩

/-- The access that it makes. -/
def nearLoad : MemDo := { loadDo nearLdf false false with mirrors := true }

theorem nearLoad_aims : ∀ a ∈ nearPage.memAsks (farWarp loader) nearLoad, a.aim = .at (.home 0) 0x20000 0x20000 1 := by decide +kernel

theorem nearLoad_starts : AccessStarts nearPage (farWarp loader) nearLoad where
  group := by decide
  starts := by
    unfold Starts
    decide
  acquired := by decide +kernel
  walked a ha _ := by simp [nearLoad_aims a ha]
  ordered := by decide +kernel
  released := by decide +kernel
  counted := by decide +kernel
  room q wide h := by
    have none : nearLoad.dst.push (farWarp loader).slice = .none := by decide
    rw [none] at h
    cases h

/-- A thread after a step. -/
def threadAfter (k : Nat) : Res → Option Thread
  | .next s => s.thread? k
  | _ => none

/-- The bank writes the word before the load, and the other thread's wait ends with it. -/
theorem nearLdf_wakes : (threadAfter 1 (exec (.ldfDm nearLdf) nearPage)).map (fun t => (get t.regs 8 Cell.dead).st) = some .live := by
  decide +kernel

/-- Refutes O20: the thread in the other slot, whose wait ends with the bank's write, receives the word in g8. -/
theorem not_memoryIssueFrame : ¬ Obligations.MemoryIssueFrame := by
  unfold Obligations.MemoryIssueFrame
  intro h
  have closed : NoOpenMessage nearPage := by
    unfold NoOpenMessage
    decide
  obtain ⟨t, next, _, _, keeps⟩ :=
    h (.ldfDm nearLdf) nearLdf nearLoad nearPage (farWarp loader) rfl rfl nearLoad_starts rfl closed
  obtain ⟨u, thread, regs, _⟩ := keeps rfl 1 (by decide) nearWaiter rfl
  have live := nearLdf_wakes
  rw [next, show threadAfter 1 (.next t) = some u from thread, Option.map_some, regs] at live
  exact absurd live (by decide)

end Sys2Proof.Machine
end

section
/-! Queue messages and spawns (spec/08 R235, spec/10 R276). -/

namespace Sys2Proof.Machine

open Sys2Proof.Safety

section
variable {s : State} {c id : Nat} {m : Msg}

/-! Queue messages. -/

theorem execMessageDelivery_takes {actq : Bool} {port : Nat} {values : List QEl} {vc : Clock} {op origin : Nat} {l : List QEl}
    (here : s.msg? c id = some m) (cargo : m.cargo = .queue actq port values vc op origin) (known : m.dst ≠ 1023) (now : m.next = 0)
    (first : s.behind c m = false) (box : s.inboxOf m actq port = some l) (room : queueUsed l + 1 + values.length ≤ 256)
    (runs : (s.ctx m.ctx).low = false) (restored : actq = true → s.inboxSaved m = false) :
    execMessageDelivery c id s = .next ((s.setInbox m actq port (l ++
      .head (.data (BitVec.ofNat 32 (values.length * 2 ^ 26 + c * 2 ^ 16 + origin))) vc :: values)).messageDone c id) := by
  have kept : (actq && s.inboxSaved m) = false := by cases actq <;> simp_all
  simp [execMessageDelivery, here, cargo, known, now, first, runs, kept, box, Nat.not_lt.mpr room]

theorem execMessageResend_due {actq : Bool} {port : Nat} {values : List QEl} {vc : Clock} {op origin : Nat}
    (here : s.msg? c id = some m) (cargo : m.cargo = .queue actq port values vc op origin) (later : m.next ≠ 0)
    (due : m.next ≤ s.coreCycle c) : execMessageResend c id s = .next (s.modMsg c id fun m => { m with next := 0 }) := by
  simp [execMessageResend, here, cargo, later, Nat.not_lt.mpr due]

/-! Spawns. -/

theorem execSpawnMessage_enters {t : Travel} {s' : State} {fab : Bool} {eg : Option Nat} (peer : Admission)
    (here : s.msg? c id = some m) (cargo : m.cargo = .spawn t none fab eg) (asks : m.acked = false) (now : m.next = 0)
    (first : s.behind c m = false) (runs : (s.ctx m.ctx).low = false) (enters : s.receive m.dst { t with since := s.now } = some s') :
    execSpawnMessage c id peer s = .next (s'.modMsg c id fun m => { m with acked := true }) := by
  simp [execSpawnMessage, here, cargo, asks, now, first, runs, enters]

theorem execSpawnMessage_full {t : Travel} {fab : Bool} {eg : Option Nat} (peer : Admission)
    (here : s.msg? c id = some m) (cargo : m.cargo = .spawn t none fab eg) (asks : m.acked = false) (now : m.next = 0)
    (first : s.behind c m = false) (runs : (s.ctx m.ctx).low = false) (full : s.receive m.dst { t with since := s.now } = none) :
    execSpawnMessage c id peer s = .next (s.backOff c id) := by
  simp [execSpawnMessage, here, cargo, asks, now, first, runs, full]

theorem execSpawnMessage_peer {t : Travel} {q n : Nat} {fab : Bool} (here : s.msg? c id = some m)
    (cargo : m.cargo = .spawn t (some q) fab (some n)) (asks : m.acked = false) (now : m.next = 0)
    (first : s.behind c m = false) (runs : (s.ctx m.ctx).low = false) :
    execSpawnMessage c id .admitted s = .next (s.modMsg c id fun m => { m with acked := true }).routeHeld
      ∧ execSpawnMessage c id .refused s = .next (s.backOff c id).routeHeld
      ∧ ∀ code, execSpawnMessage c id (.failed code) s = .next (s.spawnFails c m (if code = 0x10 then 0x10 else 0x15)).routeHeld := by
  simp [execSpawnMessage, here, cargo, asks, now, first, runs]

theorem execSpawnAcknowledgement_credit {t : Travel} {pkg : Option Nat} {fab : Bool} {eg : Option Nat} (here : s.msg? c id = some m)
    (cargo : m.cargo = .spawn t pkg fab eg) (acked : m.acked = true) :
    ∃ t', execSpawnAcknowledgement c id s = .next t' ∧ (t'.cluster c).credits = (s.cluster c).credits + 1 := by
  refine ⟨_, by simp only [execSpawnAcknowledgement, here, cargo, acked]; rfl, ?_⟩
  simp [State.dropMsg]

theorem execSpawnResend_due {t : Travel} {pkg : Option Nat} {fab : Bool} {eg : Option Nat} (here : s.msg? c id = some m)
    (cargo : m.cargo = .spawn t pkg fab eg) (later : m.next ≠ 0) (due : m.next ≤ s.coreCycle c) :
    execSpawnResend c id s = .next (s.spawnAgain c m) := by
  simp [execSpawnResend, here, cargo, later, Nat.not_lt.mpr due]

end

/-- Settles O46, step by step. -/
theorem messageSteps : Obligations.MessageSteps := by
  unfold Obligations.MessageSteps
  intro s c id m here
  refine ⟨?_, ?_, ?_, ?_, ?_, ?_, ?_⟩
  · intro actq port values vc op origin l cargo known now first box room runs restored
    exact execMessageDelivery_takes here cargo known now first box room runs restored
  · intro actq port values vc op origin cargo later due
    exact execMessageResend_due here cargo later due
  · intro t fab eg s' peer cargo asks now first runs enters
    exact execSpawnMessage_enters peer here cargo asks now first runs enters
  · intro t fab eg peer cargo asks now first runs full
    exact execSpawnMessage_full peer here cargo asks now first runs full
  · intro t q fab n cargo asks now first runs
    exact execSpawnMessage_peer here cargo asks now first runs
  · intro t pkg fab eg cargo acked
    exact execSpawnAcknowledgement_credit here cargo acked
  · intro t pkg fab eg cargo later due
    exact execSpawnResend_due here cargo later due

end Sys2Proof.Machine
end

section
/-! Gates, frontiers, forwarding, bank atomics, the register window and re-checks (spec/11 R294 to R296, spec/15 R346, spec/08 R212, R213, R217,
R238). -/

namespace Sys2Proof.Machine

open Sys2Proof.Safety

/-! Frontiers (R295). -/

theorem resume_onlyThreads (s : State) (key : Nat) (t : Thread) : OnlyThreads s (s.resume key t) := by
  unfold State.resume
  split
  · exact (setThread_onlyThreads s key t).trans (hold_onlyThreads _ key t.pc)
  · exact setThread_onlyThreads s key _

theorem endCount_onlyThreads (s : State) (key cls n : Nat) : OnlyThreads s (s.endCount key cls n) := by
  unfold State.endCount
  split
  · exact .refl s
  · split
    · exact resume_onlyThreads s key _
    · exact .refl s

theorem endFence_onlyThreads (s : State) (key : Nat) (scope : BitVec 4) (order : Nat) : OnlyThreads s (s.endFence key scope order) := by
  unfold State.endFence
  split
  · exact .refl s
  · split
    · exact resume_onlyThreads s key _
    · exact .refl s

theorem wake_onlyThreads (s : State) (key : Nat) : OnlyThreads s (s.wake key) := by
  unfold State.wake
  split
  · exact .refl s
  · next t _ =>
    cases (s.ctx t.ctx).low
    · cases t.waitOn with
      | hold =>
        cases s.longOut key
        · exact setThread_onlyThreads s key _
        · exact .refl s
      | count cls n => exact endCount_onlyThreads s key cls n
      | fence scope order => exact endFence_onlyThreads s key scope order.toNat
      | _ => exact .refl s
    · exact .refl s

theorem wakeAll_onlyThreads (s : State) (p : Thread → Bool) : OnlyThreads s (s.wakeAll p) := foldl_onlyThreads wake_onlyThreads _ s

theorem OnlyThreads.views {s t : State} (h : OnlyThreads s t) : t.views = s.views := by
  obtain ⟨_, _, rfl⟩ := h
  rfl

/-- What the gate of die f knows of the frontier of a die, once the frontier n has reached it. -/
def sight (die n : Nat) (views : Map Nat) (f : Nat) : Map Nat :=
  if f = die then views else put views (f * 4 + die) (max n (get views (f * 4 + die) 0))

theorem sight_other (die n : Nat) (views : Map Nat) {f g : Nat} (h : f ≠ g) :
    get (sight die n views g) (f * 4 + die) 0 = get views (f * 4 + die) 0 := by
  unfold sight
  split
  · rfl
  · exact get_put_other views _ _ _ _ (by omega)

theorem sights_other (die n : Nat) {f : Nat} (gates : List Nat) (h : f ∉ gates) (views : Map Nat) :
    get (gates.foldl (sight die n) views) (f * 4 + die) 0 = get views (f * 4 + die) 0 := by
  induction gates generalizing views with
  | nil => rfl
  | cons g gates ih =>
    obtain ⟨other, rest⟩ : f ≠ g ∧ f ∉ gates := by simpa using h
    exact (ih rest _).trans (sight_other die n views other)

theorem sights_of_mem (die n : Nat) {f : Nat} {gates : List Nat} (here : f ∈ gates) (once : gates.Nodup) (away : f ≠ die) (views : Map Nat) :
    get (gates.foldl (sight die n) views) (f * 4 + die) 0 = max n (get views (f * 4 + die) 0) := by
  induction gates generalizing views with
  | nil => cases here
  | cons g gates ih =>
    obtain ⟨first, once⟩ := List.nodup_cons.mp once
    rcases List.mem_cons.mp here with rfl | here
    · exact (sights_other die n gates first _).trans (by rw [sight, if_neg away, get_put_self])
    · have other : f ≠ g := fun same => first (same ▸ here)
      exact (ih here once _).trans (by rw [sight_other die n views other])

theorem execFrontierUpdate_sees (s : State) {die : Nat} (h : die < 4) : ∃ t, execFrontierUpdate die s = .next t
    ∧ ∀ f, f < 4 → f ≠ die → get t.views (f * 4 + die) 0 = max (s.frontier die) (get s.views (f * 4 + die) 0) := by
  refine ⟨_, if_neg (by omega), fun f gate away => ?_⟩
  rw [(wakeAll_onlyThreads _ _).views]
  exact sights_of_mem die (s.frontier die) (List.mem_range.mpr gate) List.nodup_range away s.views

/-! Copies of an STM (R212). -/

/-- An STM at a scratchpad that has copies for a cluster. -/
def State.copiesTo (s : State) (cluster : Nat) (x : Op) : Bool :=
  match x.place, x.work with
  | .pad g, .stm mask _ _ => !(stmSplit (s.ensGroups g) mask cluster).1.isEmpty
  | _, _ => false

theorem copiesTo_iff {s : State} {cluster : Nat} {x : Op} : s.copiesTo cluster x = true
    ↔ ∃ g mask n v, x.place = .pad g ∧ x.work = .stm mask n v ∧ (stmSplit (s.ensGroups g) mask cluster).1 ≠ [] := by
  unfold State.copiesTo
  split
  · next place work => simp [place, work]
  · next other =>
    simp only [Bool.false_eq_true, false_iff, not_exists]
    rintro g mask n v ⟨place, work, _⟩
    exact other g mask n v place work

theorem execStmCopy_eq {s : State} {op : Nat} {o : Op} (here : find s.ops op = some o) (cluster : Nat) : execStmCopy op cluster s
    = if o.stage != .sent || !s.copiesTo cluster o || s.ops.any (fun (n, x) =>
          decide (n < op) && decide (x.cluster = o.cluster) && decide (x.stage = .sent) && s.copiesTo cluster x)
        || (s.ctx o.ctx).treated.contains (6, cluster) then .refused .notEnabled
      else .next (s.stmWrite op o cluster) := by
  simp only [execStmCopy, here]
  rfl

/-! What an operation meets on its way. -/

section
variable {s : State} {op : Nat} {o : Op} (here : find s.ops op = some o)
include here

theorem execGateRelease_applies {kind : MseKind} (held : o.stage = .held) (may : s.mayApply op o = true) (pass : s.passes o = true)
    (stays : s.movedOp o = none) (does : o.kind = some kind) : execGateRelease op s = s.applyKind op o kind .clean := by
  simp [execGateRelease, here, held, may, pass, stays, does]

theorem execGateResend_due {again : Nat} (refused : o.stage = .refused again) (due : again ≤ s.now) :
    execGateResend op s = .next (s.sendFrom op o o.hop.1) := by
  simp [execGateResend, here, refused, due]

theorem execForwardedOperation_on {f : Forward} (sent : o.stage = .sent) (may : s.mayApply op o = true) (pass : s.passes o = true)
    (moved : s.movedOp o = some (.to f)) (all : s.togetherNow o = true) :
    execForwardedOperation op s = .next ((s.companions op o).foldl (fun st x => st.forward x.1 x.2 f) s) := by
  simp [execForwardedOperation, here, sent, may, pass, moved, all]

theorem execForwardedOperation_waits (sent : o.stage = .sent) (may : s.mayApply op o = true) (pass : s.passes o = true)
    (moved : s.movedOp o = some .frozen) :
    execForwardedOperation op s = .next ((s.companions op o).foldl (fun st x => st.freeze x.1 x.2) s) := by
  simp [execForwardedOperation, here, sent, may, pass, moved]

theorem execForwardedOperation_thaws {n : Nat} (frozen : o.stage = .frozen n) (may : s.mayApply op o = true) (stays : s.movedOp o = none) :
    execForwardedOperation op s = .next (s.setOp op { o with stage := .sent }) := by
  simp [execForwardedOperation, here, frozen, may, stays]

theorem execBankAtomic_applies {g : Nat} {aop : AtomOp} {ty : BitVec 4} {x c : Dword} (place : o.place = .pad g)
    (work : o.work = .atomic aop ty x c) (sent : o.stage = .sent) (runs : (s.ctx o.ctx).treated = [])
    (first : ∀ y ∈ s.batchOf o, s.earlier y.1 y.2 = [] ∧ y.2.sentAt ≤ s.now) : execBankAtomic op s = .next (s.bankBatch o) := by
  have ready : ((s.batchOf o).all fun (k, x) => (s.earlier k x).isEmpty && decide (x.sentAt ≤ s.now)) = true := by
    simpa [List.all_eq_true] using first
  simp [execBankAtomic, here, place, work, sent, runs, ready]

theorem execStmCopy_writes {g mask n cluster : Nat} {v : Dword} (place : o.place = .pad g) (work : o.work = .stm mask n v)
    (sent : o.stage = .sent) (runs : (s.ctx o.ctx).treated = []) (copies : (stmSplit (s.ensGroups g) mask cluster).1 ≠ [])
    (first : ∀ y ∈ s.ops, y.1 < op → y.2.cluster = o.cluster → y.2.stage = .sent → ∀ h, y.2.place = .pad h →
      ∀ m n v, y.2.work = .stm m n v → (stmSplit (s.ensGroups h) m cluster).1 = []) :
    execStmCopy op cluster s = .next (s.stmWrite op o cluster) := by
  have bound : s.copiesTo cluster o = true := by simpa [State.copiesTo, place, work] using copies
  have alone : (s.ops.any fun (n, x) =>
      decide (n < op) && decide (x.cluster = o.cluster) && decide (x.stage = .sent) && s.copiesTo cluster x) = false := by
    rw [List.any_eq_false]
    rintro ⟨n, x⟩ hy busy
    simp only [Bool.and_eq_true, decide_eq_true_eq] at busy
    obtain ⟨⟨⟨before, near⟩, sent⟩, busy⟩ := busy
    obtain ⟨h, m, n, v, place, work, more⟩ := copiesTo_iff.mp busy
    exact more (first _ hy before near sent h place m n v work)
  rw [execStmCopy_eq here, alone]
  simp [sent, bound, runs]

theorem execRegisterWindowAccess_reads {ty : BitVec 4} (place : o.place = .window) (work : o.work = .ldw ty) (sent : o.stage = .sent)
    (first : s.earlier op o = []) (turn : s.inTurn op o = true) (up : (s.ctx o.ctx).down = false) :
    execRegisterWindowAccess op s = .next (s.answer op (s.windowRead o.ctx ty.toNat o.pa o.origin)) := by
  simp [execRegisterWindowAccess, here, place, work, sent, first, turn, up]

theorem execRegisterWindowAccess_writes {ty : BitVec 4} {v : Dword} (place : o.place = .window) (work : o.work = .stw ty v)
    (sent : o.stage = .sent) (first : s.earlier op o = []) (turn : s.inTurn op o = true) (up : (s.ctx o.ctx).down = false) :
    execRegisterWindowAccess op s
      = .next ((s.windowWrite o.ctx ty.toNat o.pa v.toNat).setOp op { o with stage := .performed }) := by
  simp [execRegisterWindowAccess, here, place, work, sent, first, turn, up]

end

/-! Re-checks (R238). -/

theorem execMonitorRecheck_pad {s : State} {key : Nat} {t : Thread} {w : MonWait} (own : key < 2 ^ 32) (here : s.thread? key = some t)
    (waits : t.waitOn = .cond w) (free : w.monitor = false) (later : w.interval ≠ 0) (due : w.next ≤ s.coreCycle (clusterOfKey key))
    (word : ∃ g n, w.word = .pad g n) (runs : (s.ctx t.ctx).low = false) : execMonitorRecheck key s = .next (s.register key) := by
  obtain ⟨g, n, word⟩ := word
  rw [execMonitorRecheck, if_neg (Nat.not_le.mpr own)]
  simp [here, waits, WaitOn.watch, word, runs, free, later, Nat.not_lt.mpr due]

/-- Settles O43, step by step; each gate of another die sees the frontier, and what the frontier wakes leaves the gates as they are. -/
theorem orderingSteps : Obligations.OrderingSteps := by
  unfold Obligations.OrderingSteps
  intro s op o here
  refine ⟨?_, ?_, ?_, ?_, ?_, ?_, ?_, ?_, ?_, ?_, ?_, ?_⟩
  · intro held may pass stays does
    exact execGateRelease_applies here held may pass stays does
  · intro held may pass stays does
    exact execGateRelease_applies here held may pass stays does
  · intro again refused due
    exact execGateResend_due here refused due
  · intro die h
    exact execFrontierUpdate_sees s h
  · intro f sent may pass moved all
    refine ⟨execForwardedOperation_on here sent may pass moved ?_, fun single => by simp [State.companions, single]⟩
    rcases all with single | all
    · simp [State.togetherNow, single]
    · exact all
  · intro sent may pass moved
    exact execForwardedOperation_waits here sent may pass moved
  · intro n frozen may stays
    exact execForwardedOperation_thaws here frozen may stays
  · intro g aop ty x c place work sent runs first
    exact execBankAtomic_applies here place work sent runs first
  · intro g mask n v cluster place work sent runs copies first
    exact execStmCopy_writes here place work sent runs copies first
  · intro ty place work sent first turn up
    exact execRegisterWindowAccess_reads here place work sent first turn up
  · intro ty v place work sent first turn up
    exact execRegisterWindowAccess_writes here place work sent first turn up
  · intro key t w own thread waits free later due word runs
    exact execMonitorRecheck_pad own thread waits free later due word runs

end Sys2Proof.Machine
end

section
/-! MWAIT, WAITA, BAR and EBAR complete (spec/08 R237, R240, R241). -/

namespace Sys2Proof.Machine

open Sys2Proof.Safety

/-! Waits at a word. -/

def waitSrcs (f : DForm) (pad : Bool) : List Src := [if pad then src8 f.s1 f.s1lk else .pair f.s1 (f.s1lk.getLsbD 1), src8 f.s2 f.s2lk]

def State.waitAim (s : State) (w : Warp) (pad : Bool) (v : Val) : Aim := if pad then s.aimPad w 4 4 v else s.aim w 4 .read v

/-- The places of the words that a thread waits at. -/
def Place.hasWords : Place → Prop
  | .home _ | .pad _ | .peer _ => True
  | _ => False

/-- The wait of a thread whose address and comparand are vs. -/
def State.waitsAt (w : Warp) (f : DForm) (reason : Nat) (st : State) (l : Lane) (vs : List Val) : Aim → State
  | .at p _ pa _ =>
    let eff := effectiveOrder (WellFormed.mScope f).toNat (WellFormed.mOrder f).toNat w.cluster p
    let word : Watched := match p with | .pad g => .pad g (pa / 4) | _ => .mem pa
    let m : MonWait := ⟨word, (WellFormed.mSub f).toNat, lo32 (valAt vs 1).bits, BitVec.ofNat 3 eff.1,
      BitVec.ofNat 4 (WellFormed.mScope f).toNat, f.d, false, 0, 0, w.pc⟩
    let st := if eff.2 then st.modThread l.key fun t => t.flag SDROP else st
    (st.block l.key (w.pc + 8) reason (.cond m) (dHead f).holds).watchAt w l.key p pa
  | _ => st

theorem runWait_eq {f : DForm} {pad : Bool} {reason : Nat} {s : State} {w : Warp} (hw : s.warp (dHead f) = some w) (guarded : Guarded w)
    (acquired : ∀ l ∈ w.acting, s.acquirePending l.key = false) (released : ∀ l ∈ w.acting, s.releasePending l.key = false)
    (quick : (Dst.reg f.d false).push w.slice = none) (starts : Starts s w (waitSrcs f pad) (.reg f.d false))
    (grouped : pad = true → w.group.isSome = true)
    (aims : ∀ l ∈ w.acting, ∃ p va pa attr v, s.waitAim w pad (valAt (s.sourceVals w (waitSrcs f pad) l) 0) = .at p va pa attr
      ∧ p.hasWords ∧ valAt (s.sourceVals w (waitSrcs f pad) l) 1 = .dat v) :
    runWait f pad reason s = .next ((w.acting.foldl (fun st l => st.waitsAt w f reason l (s.sourceVals w (waitSrcs f pad) l)
        (s.waitAim w pad (valAt (s.sourceVals w (waitSrcs f pad) l) 0)))
      (s.started w (waitSrcs f pad) w.acting)).step1 w (dHead f) true) := by
  have found : (pad && w.group.isNone) = false := by
    cases pad
    · rfl
    · simpa using grouped rfl
  unfold runWait
  extract_lets h addr scope order d
  rw [show [addr, src8 f.s2 f.s2lk] = waitSrcs f pad from rfl, control_eq hw (by rw [found]; exact barred_none starts),
    executing_eq_acting guarded]
  beta_reduce
  extract_lets asks misses raises goes s1 push room s2 s2' s3
  have good {l : Lane} (hl : l ∈ w.acting) : l.badTok = none := guarded l (mem_acting.1 hl).1
  have asked : asks = w.acting.map fun l =>
      (l, s.sourceVals w (waitSrcs f pad) l, s.waitAim w pad (valAt (s.sourceVals w (waitSrcs f pad) l) 0)) := by
    refine List.map_map.trans (List.map_congr_left fun l hl => ?_)
    obtain ⟨p, va, pa, attr, v, e, words, _⟩ := aims l hl
    rw [State.waitAim] at e
    simp only [Function.comp_apply, State.waitAim, e]
    cases p with
    | home c | pad g | peer q => rfl
    | _ => exact words.elim
  have settled : (w.acting.any fun l => s.acquirePending l.key) = false :=
    List.any_eq_false.2 fun l hl => Bool.eq_false_iff.1 (acquired l hl)
  have walked : misses = [] := by
    simp only [misses, asked]
    refine filterMap_lanes_nil fun l hl => ?_
    obtain ⟨p, va, pa, attr, v, e, _⟩ := aims l hl
    simp only [e, (mem_acting.1 hl).2]
  have quiet : raises = [] := by
    simp only [raises, asked]
    refine filterMap_lanes_nil fun l hl => ?_
    obtain ⟨p, va, pa, attr, v, e, _, comparand⟩ := aims l hl
    simp only [good hl, e, comparand, Val.tok?, Option.map_none]
  have go : goes = asks := by
    simp only [goes, quiet, List.any_nil, Bool.not_false, List.filter_true]
  have ready : (goes.any fun x => s.releasePending x.1.key) = false := by
    rw [go, asked]
    exact any_lanes_false released
  have begun : s1 = s.started w (waitSrcs f pad) w.acting := by simp only [s1, quiet, quiet_nil]
  have direct : push = none := quick
  have noted : s2' = s.started w (waitSrcs f pad) w.acting := by
    simp only [s2', s2, direct, asked, ← begun]
    refine (foldl_lanes _ fun u l hl => ?_).trans (List.foldl_fixed w.acting)
    obtain ⟨p, va, pa, attr, v, e, _⟩ := aims l hl
    simp only [e]
  have waits : s3 = w.acting.foldl (fun st l => st.waitsAt w f reason l (s.sourceVals w (waitSrcs f pad) l)
      (s.waitAim w pad (valAt (s.sourceVals w (waitSrcs f pad) l) 0))) (s.started w (waitSrcs f pad) w.acting) := by
    simp only [s3, go, asked, noted]
    refine foldl_lanes _ fun u l hl => ?_
    obtain ⟨p, va, pa, attr, v, e, _⟩ := aims l hl
    simp only [e]
    rfl
  have fits : room = true := by simp only [room, direct]
  rw [settled, if_neg (by decide), walked, if_neg (by decide), ready, if_neg (by simp), fits, if_neg (by decide), direct,
    if_neg (by simp), waits, quiet, finish_nil]

/-- Settles O34: both waits are the one of `runWait_eq`. -/
theorem wordWaitsComplete : Obligations.WordWaitsComplete := by
  unfold Obligations.WordWaitsComplete
  intro f s w hw guarded acquired released quick _ go
  refine ⟨fun starts aims => ?_, fun starts grouped aims => ?_⟩
  · refine (runWait_eq (pad := false) hw guarded acquired released quick starts nofun fun l hl => ?_).trans ?_
    · obtain ⟨p, va, pa, attr, v, e, place, comparand⟩ := aims l hl
      refine ⟨p, va, pa, attr, v, e, ?_, comparand⟩
      rcases place with ⟨c, rfl⟩ | ⟨q, rfl⟩ <;> trivial
    · exact congrArg (fun u : State => Host.Outcome.next (u.step1 w (dHead f) true)) (List.foldl_ext _ _ _ fun _ _ _ => rfl)
  · refine (runWait_eq (pad := true) hw guarded acquired released quick starts (fun _ => grouped) fun l hl => ?_).trans ?_
    · obtain ⟨g, va, pa, attr, v, e, comparand⟩ := aims l hl
      exact ⟨.pad g, va, pa, attr, v, e, trivial, comparand⟩
    · exact congrArg (fun u : State => Host.Outcome.next (u.step1 w (dHead f) true)) (List.foldl_ext _ _ _ fun _ _ _ => rfl)

/-! Barriers. -/

def barSrcs (f : DForm) : List Src :=
  (if f.mod.getLsbD 4 then [src8 f.s1 f.s1lk] else []) ++ (if f.mod.getLsbD 3 then [src8 f.s2 f.s2lk] else [])

/-- One thread at a barrier: it waits, unless it only arrives, and arrives with its count and total. -/
def State.barAt (s : State) (w : Warp) (f : DForm) (reason : Nat) (on : Nat → WaitOn)
    (arrive : State → Warp → Nat → Nat → Option Nat → Clock → State) (st : State) (l : Lane) : State :=
  let num (n : Nat) : Nat := (valAt (s.sourceVals w (barSrcs f) l) n).bits.toNat
  let id := (f.mod.extractLsb' 6 4).toNat
  arrive (if f.mod.getLsbD 5 then st else st.block l.key (w.pc + 8) reason (on id) (dHead f).holds) w id
    (if f.mod.getLsbD 4 then num 0 else 1) (if f.mod.getLsbD 3 then some (num (if f.mod.getLsbD 4 then 1 else 0)) else none)
    (match st.thread? l.key with | some t => t.vc | none => Clock.zero)

theorem runBar_eq {f : DForm} {reason : Nat} {on : Nat → WaitOn} {arrive : State → Warp → Nat → Nat → Option Nat → Clock → State} {s : State}
    {w : Warp} (hw : s.warp (dHead f) = some w) (guarded : Guarded w) (outside : w.someTxn = false) (grouped : w.group.isNone = false)
    (starts : Starts s w (barSrcs f) .none) (untagged : ∀ l ∈ w.acting, ∀ v ∈ s.sourceVals w (barSrcs f) l, v.tok? = none)
    (released : ∀ l ∈ w.acting, s.releasePending l.key = false ∧ s.releaseReady l.key w.cluster l.t.vc 7 false = true) :
    runBar f reason on arrive s = .next ((w.acting.foldl (s.barAt w f reason on arrive) (s.started w (barSrcs f) w.acting)).step1 w (dHead f)
      true) := by
  unfold runBar
  extract_lets h counted given arv id srcs
  rw [show srcs = barSrcs f from rfl, control_eq hw (by rw [grouped, outside]; exact barred_none starts), executing_eq_acting guarded]
  beta_reduce
  extract_lets raises goes s2
  have quiet : raises = [] := filterMap_lanes_nil fun l hl => by
    simp only [guarded l (mem_acting.1 hl).1, List.findSome?_eq_none_iff.2 (untagged l hl), Option.map_none]
  have go : goes = w.acting.map fun l => (l, s.sourceVals w (barSrcs f) l) := filter_lanes_all fun l _ => by simp [quiet]
  have ready : (goes.any fun x => s.releasePending x.1.key || !s.releaseReady x.1.key w.cluster x.1.t.vc 7 false) = false := by
    rw [go]
    refine any_lanes_false fun l hl => ?_
    obtain ⟨before, own⟩ := released l hl
    simp only [before, own, Bool.not_true, Bool.or_false]
  have arrives : s2 = w.acting.foldl (s.barAt w f reason on arrive) (s.started w (barSrcs f) w.acting) := by
    simp only [s2, go, quiet, quiet_nil]
    exact foldl_lanes _ fun _ _ _ => rfl
  refine (if_neg (by rw [ready]; decide)).trans ?_
  rw [arrives, quiet, finish_nil]

/-- Settles O35: each barrier is the one of `runBar_eq`, whose group is the warp's. -/
theorem barriersComplete : Obligations.BarriersComplete := by
  unfold Obligations.BarriersComplete
  intro f s w g gr counted given srcs id count total clock hw guarded outside group _ starts _ untagged released
  have grouped : w.group.isNone = false := by rw [group]; rfl
  constructor
  · change execBarD f s = _
    unfold execBarD
    rw [runBar_eq hw guarded outside grouped starts untagged released]
    refine congrArg (fun u : State => Host.Outcome.next (u.step1 w (dHead f) true)) (List.foldl_ext _ _ _ fun u l _ => ?_)
    simp only [State.barAt, group, Option.getD_some]
    rfl
  · change execEbarD f s = _
    unfold execEbarD
    rw [runBar_eq hw guarded outside grouped starts untagged released]
    refine congrArg (fun u : State => Host.Outcome.next (u.step1 w (dHead f) true)) (List.foldl_ext _ _ _ fun u l _ => ?_)
    simp only [State.barAt, group, Option.getD_some]
    rfl

end Sys2Proof.Machine
end

section
/-! CPY and CPYT complete (spec/08 R227 to R231). -/

namespace Sys2Proof.Machine

open Sys2Proof.Safety

/-- An instruction of the elected lane that starts runs its body there. -/
theorem once_eq {s : State} {h : Head} {w : Warp} {l : Lane} {srcs : List Src} {ends : Bool} {fault : Warp → Bool}
    {body : Warp → (List (Lane × Word × Nat) → State) → Lane → List Val → Res} (hw : s.warp h = some w) (elected : w.elected = some l)
    (starts : Starts s (only w l) srcs .none) (sound : fault w = false) :
    once s h srcs ends fault body = body w (fun raises => s.elect w l srcs (w.quiet raises)) l (s.sourceVals (only w l) srcs l) := by
  have barred : s.barred { w with lanes := [l] } srcs .none (fault w) = none := by rw [sound]; exact barred_none starts
  simp only [once, hw, elected, barred]
  rfl

/-- What holds no copy of a warp's elected lane back (R229, R299, R301, R319). -/
structure CopyStarts (s : State) (w : Warp) (l : Lane) (f : DForm) : Prop where
  elected : w.elected = some l
  guard : l.badTok = none
  grouped : (pushes (WellFormed.mSub f).toNat && w.group.isNone) = false
  acquired : s.acquirePending l.key = false
  counted : (w.acting.any fun x => decide (255 ≤ s.outstanding x.key 1)) = false
  ordered : ¬ ((WellFormed.mOrder f).toNat = 3
    ∧ (s.releasePending l.key || !s.releaseReady l.key w.cluster l.t.vc (WellFormed.mScope f).toNat false) = true)
  room : ¬ 64 ≤ (s.engine (engineOf w.cluster)).cmds.length

def copySrcs (f : DForm) : List Src := [pairS1 f, .pair f.s2 (f.s2lk.getLsbD 1)]

def cpySrcs (f : DForm) : List Src :=
  copySrcs f ++ [.reg f.s3 (f.s3lk.getLsbD 1) 0 0, .many (nextReg f.s3 2) 2 false (f.s3lk.getLsbD 1)]

def cpytSrcs (f : DForm) : List Src := copySrcs f ++ [.pair f.s3 (f.s3lk.getLsbD 1)]

section
variable {s : State} {w : Warp} {l : Lane} {f : DForm} (hw : s.warp (dHead f) = some w) (free : CopyStarts s w l f)
include hw free

theorem execCpyD_eq (starts : Starts s (only w l) (cpySrcs f) .none)
    (untagged : (s.sourceVals (only w l) (cpySrcs f) l).findSome? Val.tok? = none) :
    let vals := s.sourceVals (only w l) (cpySrcs f) l
    let c : CopyPar := ⟨(valAt vals 3).bits.toNat + (valAt vals 4).bits.toNat * 2 ^ 32, 0, 0, 0, 0, 1, 1, (valAt vals 2).bits.toNat, 0, 0, 0⟩
    let s1 := s.elect w l (cpySrcs f) w.acting
    s1.copyCheck w (WellFormed.mSub f).toNat (valAt vals 0).bits.toNat (valAt vals 1).bits.toNat c false = .go →
    execCpyD f s
      = .next ((s1.copyAccept w l f (WellFormed.mSub f).toNat (valAt vals 0).bits.toNat (valAt vals 1).bits.toNat c).step1 w (dHead f)) := by
  intro vals c s1 check
  obtain ⟨elected, guard, grouped, acquired, counted, ordered, room⟩ := free
  unfold execCpyD runCopy
  extract_lets h kind lk srcs order
  rw [show srcs = cpySrcs f from rfl, once_eq hw elected starts grouped]
  simp only [guard, acquired, counted, untagged, quiet_nil, order, if_neg ordered, if_neg room, Bool.false_eq_true, Bool.not_false, ↓reduceIte]
  simp only [vals, c, s1] at check
  simp only [kind, check]
  rfl

theorem execCpytD_eq (starts : Starts s (only w l) (cpytSrcs f) .none)
    (untagged : (s.sourceVals (only w l) (cpytSrcs f) l).findSome? Val.tok? = none) :
    let vals := s.sourceVals (only w l) (cpytSrcs f) l
    ∀ p va pa attr ws s', s.aim w 64 .read (valAt vals 2) = .at p va pa attr → s.readDescriptor w l p va pa attr = some (.ok ws, s') →
    let s1 := { s.elect w l (cpytSrcs f) w.acting with free := s'.free }
    s1.copyCheck w (WellFormed.mSub f).toNat (valAt vals 0).bits.toNat (valAt vals 1).bits.toNat (CopyPar.ofWords ws) true = .go →
    execCpytD f s
      = .next ((s1.copyAccept w l f (WellFormed.mSub f).toNat (valAt vals 0).bits.toNat (valAt vals 1).bits.toNat (CopyPar.ofWords ws)).step1
          w (dHead f)) := by
  intro vals p va pa attr ws s' aim words s1 check
  obtain ⟨elected, guard, grouped, acquired, counted, ordered, room⟩ := free
  unfold execCpytD runCopy
  extract_lets h kind lk srcs order
  rw [show srcs = cpytSrcs f from rfl, once_eq hw elected starts grouped]
  simp only [guard, acquired, counted, untagged, quiet_nil, order, if_neg ordered, if_neg room, Bool.false_eq_true, Bool.not_true, ↓reduceIte]
  simp only [vals, s1] at aim check
  simp only [kind, aim, words, check]
  rfl

end

/-- Settles O36: nothing holds the command back, and its check passes. -/
theorem copiesComplete : Obligations.CopiesComplete := by
  unfold Obligations.CopiesComplete
  intro f s w l hw elected guard grouped acquired counted room ordered kind lk common short long
  have free : CopyStarts s w l f := by
    refine ⟨elected, guard, ?_, acquired, List.any_eq_false.2 fun x hx => by simpa using counted x hx, ?_, Nat.not_le.2 room⟩
    · cases push : pushes (WellFormed.mSub f).toNat
      · rfl
      · simpa using grouped push
    · rintro ⟨release, held⟩
      obtain ⟨before, own⟩ := ordered release
      simp [before, own] at held
  constructor
  · intro starts vals c s1 untagged check
    exact execCpyD_eq hw free starts untagged check
  · intro starts vals p va pa attr ws s' untagged aim words s1 check
    exact execCpytD_eq hw free starts untagged p va pa attr ws s' aim words check

end Sys2Proof.Machine
end

section
/-! AGAT on a queue of its slice (spec/08 R234). A slice pushes q0 to q7 and pops q12 and q13. An AGAT that names q12 as its index and as its
destination takes its index from that queue before it appends: the statement, in which the queue only grows, does not exclude it. -/

namespace Sys2Proof.Machine

open Sys2Proof.Safety

/-- A group with scratchpad and an access slice, whose q12 holds an index. -/
def gatherGroup : Group :=
  { ctx := 0, act := 0, gid := 0, index := 0, ens := 0, cluster := 0, base := 0, size := 1, row0 := 0, scr := 4096, mirror := 0, swz := 0
    nacc := 0, nfifo := 0, qbind := 0, asl := true, memb := false, k := List.replicate 16 Tw.zero, kPrev := none
    q := [(12, [.val (.data 1)])], fifos := [], acc := [], pad := [], bars := [], mq := [], mxDog := 0
    slice := some ⟨0x10000, true, 0, 0, [], [], 0⟩, lastIssue := 0, enabled := true, exited := 0 }

/-- The slice's one lane, with zero in g4. -/
def gatherThread : Thread := { Thread.new 0 0 (some 0) 0 0 0x10000 0 with cue := .issuing, regs := [(4, Cell.ofTw (.data 0))] }
def gatherWarp : Warp := ⟨true, 0, 0, some 0, 0, 0, 0x10000, [⟨0, laneKey 0 0, gatherThread, .on⟩]⟩

def gathering : State :=
  { State.reset with
    cur := .slice 0, threads := [(laneKey 0 0, gatherThread)], ctxs := [(0, { Ctx.init with ctl := 0x8000000000000000 })]
    groups := [(0, gatherGroup)] }

/-- AGAT q12, [g4 + q12 × 4]. -/
def gatherDm : DMForm := ⟨0, 0, 0, 0, 4, 0xDC, 0, 4, 0xDC, false, 7, 0⟩

theorem gatherDm_starts : Starts gathering gatherWarp [padBase gatherDm, dmIndex gatherDm] (.reg gatherDm.d (dmWide gatherDm)) := by
  unfold Starts
  decide

/-- Queue 12 of group 0 after a step. -/
def q12After : Res → Option (List QEl)
  | .next s => (s.group? 0).map fun gr => get gr.q 12 []
  | _ => none

/-- The index has left the queue when the element comes. -/
theorem gatherDm_pops : q12After (exec (.agatDm gatherDm) gathering) = some [.val (.data 0)] := by decide +kernel

/-- Refutes O38: after the step the queue holds the element alone, where the statement has it behind the index. -/
theorem not_accessInstructionsComplete : ¬ Obligations.AccessInstructionsComplete := by
  unfold Obligations.AccessInstructionsComplete
  intro h
  have guarded : Guarded gatherWarp := by
    unfold Guarded
    decide
  obtain ⟨_, gathers, _⟩ := h gathering gatherWarp 0 gatherGroup rfl rfl rfl rfl guarded
  obtain ⟨t, gr, next, group, queue⟩ := gathers gatherDm rfl (by decide) gatherDm_starts (by decide) (by decide)
  have held := gatherDm_pops
  rw [next] at held
  have held : (t.group? 0).map (fun gr => get gr.q 12 []) = some [.val (.data 0)] := held
  rw [group, Option.map_some, show get gr.q 12 [] = _ from queue, Option.some.injEq] at held
  exact absurd (congrArg List.length held) (by decide +kernel)

end Sys2Proof.Machine
end

section
/-! Copies, streams, access slices and matrix operations at work (spec/08 R228 to R233, R244, spec/12 R320, R323, R324). -/

namespace Sys2Proof.Machine

open Sys2Proof.Safety

/-! Copies. -/

theorem copyCmd_id {s : State} {e id : Nat} {c : CopyCmd} (here : s.copyCmd? e id = some c) : c.id = id := by
  simpa using List.find?_some here

section
variable {s : State} {e id : Nat} {c : CopyCmd} (here : (s.keepPages e id).copyCmd? e id = some c)
  (runs : (s.keepPages e id).copyRuns e c = true)
include here runs

theorem execCopyElementRead_reads (ecc : Ecc) (reply : Reply) :
    execCopyElementRead e id ecc (some reply) s = (s.keepPages e id).copyRead e c ecc reply := by
  simp [execCopyElementRead, here, runs]

theorem execCopyElementRead_delivers {ecc : Ecc} {v : Tw} {rest : List Tw} {s2 : State} {r : Except Word Nat} (staged : c.staged = v :: rest)
    (gives : (s.keepPages e id).deliverElement e c v = .got s2 r) : execCopyElementRead e id ecc none s = .next s2 := by
  simp [execCopyElementRead, here, runs, staged, gives, Fetch.toRes]

end

/-- A list entry as its read brings it. -/
def listEntry : Except Word Nat → Dword × Option Word
  | .ok n => (BitVec.ofNat 64 n, none)
  | .error t => (0, some t)

section
variable {s : State} {e : Nat} {c : CopyCmd} {ecc : Ecc} {reply : Reply} (ahead : c.ahead < c.total) (room : c.staged.length < 4096)
include ahead room

theorem copyRead_element {s2 : State} {entry : Dword} {v : Except Word Nat}
    (block : (c.blist = 0 ∧ entry = 0) ∨ (c.blist ≠ 0 ∧ c.entry = some (entry, none))) (free : s.sourceFree e c (c.source c.ahead entry) = true)
    (read : s.engineRead (.copy e c.id) c.cluster c.ctx c.ec (c.source c.ahead entry) 4 c.serial ecc reply = .got s2 v) :
    s.copyRead e c ecc reply = .next (s2.stageCopy e c.id (twOf v) (some (c.source c.ahead entry))) := by
  have far : ¬ c.total ≤ c.ahead := Nat.not_le.mpr ahead
  have space : ¬ copyStaging ≤ c.staged.length := Nat.not_le.mpr room
  rcases block with ⟨single, rfl⟩ | ⟨list, entry⟩
  · simp only [State.copyRead, far, space, single, free, read, decide_false, Bool.or_self, Bool.false_eq_true, ↓reduceIte, Bool.not_true]
  · simp [State.copyRead, far, space, list, entry, free, read]

theorem copyRead_entry {s2 : State} {v : Except Word Nat} (list : c.blist ≠ 0) (next : c.entry = none)
    (read : s.engineRead (.copy e c.id) c.cluster c.ctx c.ec c.entryAt 8 c.serial ecc reply = .got s2 v) :
    s.copyRead e c ecc reply = .next (s2.modCopy e c.id fun x => { x with entry := some (listEntry v) }) := by
  have far : ¬ c.total ≤ c.ahead := Nat.not_le.mpr ahead
  have space : ¬ copyStaging ≤ c.staged.length := Nat.not_le.mpr room
  simp [State.copyRead, far, space, list, next, read]
  rfl

end

section
variable {s : State} {e id : Nat} {c : CopyCmd} (here : s.copyCmd? e id = some c) (written : c.left = false)
  (performed : s.copyOps e id = []) (runs : s.copyRuns e c = true)
include here written performed runs

theorem execCopyCompletion_written (uncounted : c.counted = false) (dropped : c.kind = 4 → cachePlaces ≤ c.acks.length) :
    execCopyCompletion e id s = if c.cw = allOnes then .next (s.copyRetire e id) else (s.completionAt e c).toRes := by
  have places : ¬ (c.kind = 4 ∧ c.acks.length < cachePlaces) := fun h => Nat.not_lt.mpr (dropped h.1) h.2
  simp [execCopyCompletion, here, written, performed, runs, uncounted, places]

theorem execCacheDrop_drops {place : Nat} (publish : c.kind = 4) (known : place < 896) (first : c.acks.contains place = false) :
    ∃ t, execCacheDrop e id place s = .next t
      ∧ (place < 768 → ∀ l ∈ (t.cluster place).lines, c.lines.contains (l.pa / 64) = false)
      ∧ (768 ≤ place → ∀ x ∈ (t.row ((place - 768) / 4)).slices, x.1 = (place - 768) % 4 → c.lines.contains (x.2.pa / 64) = false) := by
  have near : ¬ cachePlaces ≤ place := Nat.not_le.mpr known
  have fresh : place ∉ c.acks := by simpa using first
  by_cases cluster : place < 768
  · refine ⟨_, by simp [execCacheDrop, here, written, performed, runs, publish, fresh, near, cluster]; rfl, fun _ l hl => ?_, fun far => ?_⟩
    · obtain ⟨_, kept⟩ : l ∈ _ ∧ l.pa / 64 ∉ c.lines := by simpa using hl
      simpa using kept
    · omega
  · refine ⟨_, by simp [execCacheDrop, here, written, performed, runs, publish, fresh, near, cluster]; rfl, fun in' => ?_, fun _ x hx same => ?_⟩
    · omega
    · obtain ⟨_, kept⟩ : x ∈ _ ∧ (¬ x.1 = (place - 768) % 4 ∨ x.2.pa / 64 ∉ c.lines) := by simpa using hx
      simpa using kept.resolve_left (not_not.mpr same)

end

/-! Streams. -/

theorem stream_id {s : State} {g id : Nat} {st : Stream} (here : s.stream? g id = some st) : st.id = id := by
  simpa using List.find?_some here

/-- The stream forgets the pages that it has left (log entry 116). -/
def State.keepStream (s : State) (g id : Nat) : State :=
  s.modStream g id fun x => { x with walks := keep (fun k _ => inPages [x.va] k) x.walks }

section
variable {s : State} {g id : Nat} {st : Stream} {gr : Group} (here : (s.keepStream g id).stream? g id = some st)
  (group : (s.keepStream g id).group? g = some gr) (free : ((s.keepStream g id).ctx gr.ctx).treated = [])
  (runs : ((s.keepStream g id).ctx gr.ctx).down = false)
include here group free runs

theorem execStreamElementReturn_reads (ecc : Ecc) (reply : Reply) :
    execStreamElementReturn g id ecc (some reply) s = (s.keepStream g id).streamRead g gr st ecc reply := by
  unfold State.keepStream at *
  simp [execStreamElementReturn, here, group, free, runs]

theorem execStreamElementReturn_pushes {ecc : Ecc} {vs : List Tw} {rest : List (List Tw)} (staged : st.staged = vs :: rest)
    (turn : (s.keepStream g id).mayPush g false st.q st.id vs.length = true) :
    execStreamElementReturn g id ecc none s = .next ((s.keepStream g id).streamPush g st vs) := by
  unfold State.keepStream at *
  simp [execStreamElementReturn, here, group, free, runs, staged, turn]

end

section
variable {s : State} {g : Nat} {st : Stream} {gr : Group} {ecc : Ecc} {reply : Reply} (ahead : st.ahead < st.count)
  (room : st.staged.length < 32)
include ahead room

theorem streamRead_token {t : Word} (tok : st.tok = some t) : s.streamRead g gr st ecc reply
    = .next (s.modStream g st.id fun x => { x with staged := x.staged ++ [tokOut st.wide t] }) := by
  have far : ¬ st.count ≤ st.ahead := Nat.not_le.mpr ahead
  have space : ¬ streamReads ≤ st.staged.length := Nat.not_le.mpr room
  simp [State.streamRead, far, space, tok]

theorem streamRead_element {s2 : State} {v : Nat} (tok : st.tok = none)
    (read : s.engineRead (.stream g st.id) gr.cluster gr.ctx st.clock st.va (if st.wide then 8 else 4) st.serial ecc reply = .got s2 (.ok v)) :
    s.streamRead g gr st ecc reply = .next (s2.modStream g st.id fun x => { x with staged := x.staged ++
      [if st.wide then [Tw.data (BitVec.ofNat 32 v), .data (BitVec.ofNat 32 (v / 2 ^ 32))] else [Tw.data (BitVec.ofNat 32 v)]] }) := by
  have far : ¬ st.count ≤ st.ahead := Nat.not_le.mpr ahead
  have space : ¬ streamReads ≤ st.staged.length := Nat.not_le.mpr room
  simp only [State.streamRead, far, space, tok, read, decide_false, Bool.or_self, Bool.false_eq_true, ↓reduceIte]

end

/-! Matrix operations. -/

theorem execMatrixOperationStart_feeds {s : State} {g : Nat} {gr : Group} {o : MxOp} {r : List MxOp} (group : s.group? g = some gr)
    (head : gr.mq = o :: r) (waits : o.started = false) (runs : (s.ctx gr.ctx).low = false) :
    ∃ t, execMatrixOperationStart g s = .next t
      ∧ t.group? g = some (Group.feed { gr with mq := { o with started := true } :: r, mxDog := 0 }) := by
  refine ⟨_, by simp only [execMatrixOperationStart, group, head, waits, runs]; rfl, ?_⟩
  simp

theorem execMatrixOperationComplete_retires {s : State} {g : Nat} {gr : Group} {o : MxOp} {r : List MxOp} (upset : List Nat)
    (group : s.group? g = some gr) (head : gr.mq = o :: r) (begun : o.started = true) (fed : o.fed = true)
    (runs : (s.ctx gr.ctx).low = false) : execMatrixOperationComplete g upset s = .next ((s.mxDone g gr o upset).mxRetire g o) := by
  simp [execMatrixOperationComplete, group, head, begun, fed, runs]

/-! What the access slice fetches. -/

/-- The decoder carries ASTR among the late instructions. -/
theorem decoded_ne_early_astrD {r : Raw} {d : Decoded} (h : r.decoded = some d) (f : DForm) : d ≠ .early (.astrD f) := by
  rintro rfl
  cases r <;> simp only [Raw.decoded] at h
  case h => unfold hopMap at h; split at h <;> cases h
  case w => unfold wopMap at h; split at h <;> cases h
  case wimm => unfold wimmMap at h; split at h <;> cases h
  case wi => unfold wiMap at h; split at h <;> cases h
  case d => unfold dMap at h; split at h <;> cases h
  case dp => unfold dpMap at h; split at h <;> cases h
  case di => unfold diMap at h; split at h <;> cases h
  case dm => unfold dmMap at h; split at h <;> cases h

theorem decode_ok {sl : Bool} {bytes : List Byte} {d : Decoded} {n : Nat} (h : decode sl bytes = .ok (d, n)) : ∃ r, decodeRaw sl r = .ok d := by
  unfold decode at h
  split at h
  · cases h
  · dsimp only at h
    split at h
    · cases h
    · split at h
      · next i decoded =>
        cases h
        exact ⟨_, decoded⟩
      · cases h

theorem halfword_error {s : State} {u : WalkUser} {c ctx va : Nat} {e : Fetched} (h : s.halfword u c ctx va = .error e) (d : Decoded) (n : Nat) :
    e ≠ .ok d n := by
  rintro rfl
  unfold State.halfword at h
  split at h
  · split at h <;> cases h
  all_goals cases h

theorem halfwords_error {s : State} {u : WalkUser} {c ctx k va : Nat} {e : Fetched} (h : s.halfwords u c ctx k va = .error e) (d : Decoded)
    (n : Nat) : e ≠ .ok d n := by
  induction k generalizing va with
  | zero => cases h
  | succ k ih =>
    rw [State.halfwords] at h
    split at h
    · next e' first =>
      cases h
      exact halfword_error first d n
    · split at h
      · next e' rest =>
        cases h
        exact ih rest
      · cases h

theorem fetched_decodeRaw {s : State} {f : Front} {d : Decoded} {n : Nat} (h : s.fetched f = .ok d n) : ∃ r, decodeRaw f.slice r = .ok d := by
  unfold State.fetched State.fetch at h
  split at h
  · next first => exact absurd h (halfword_error first d n)
  · split at h
    · next rest => exact absurd h (halfwords_error rest d n)
    · split at h
      · next decoded =>
        cases h
        exact decode_ok decoded
      · cases h

/-- What a slice fetches means there what it means in a warp. -/
theorem sliceDecoded_eq {s : State} {f : Front} {d : Decoded} {n : Nat} (h : s.fetched f = .ok d n) (inside : d.inSlice = true) :
    sliceDecoded d s = exec d.instr s := by
  obtain ⟨r, met⟩ := fetched_decodeRaw h
  obtain ⟨_, decoded, _⟩ := conditions_of_decodeRaw met
  cases d with
  | early i => exact sliceExec_eq i s inside fun f same => decoded_ne_early_astrD decoded f (by rw [same])
  | late l =>
    cases l with
    | astrD f => rfl
    | _ => cases inside

/-! ACCESS_ISSUE. -/

theorem warp_of_slice {s : State} {g : Nat} {h : Head} {w : Warp} (slice : s.cur = .slice g) (hw : s.warp h = some w) :
    w.slice = true ∧ w.unit = g := by
  unfold State.warp at hw
  simp only [slice] at hw
  split at hw
  · cases hw
  · split at hw
    · cases hw
    · split at hw
      · cases hw
      · split at hw
        · cases hw
        · split at hw
          · cases hw
          · cases hw
            exact ⟨rfl, rfl⟩

theorem front_of_slice {s : State} {g : Nat} {f : Front} (slice : s.cur = .slice g) (front : s.front = some f) : f.slice = true := by
  unfold State.front at front
  split at front
  · cases front
  · next w hw =>
    cases front
    exact (warp_of_slice slice hw).1

/-- At an instruction's end its slice waits for nothing. -/
theorem sliceIssues_step1 {s : State} {w : Warp} (slice : w.slice = true) (h : Head) (ends : Bool) :
    State.sliceIssues w.unit (.next (s.step1 w h ends)) = true := by
  change (((s.advance w h _ ends).group? w.unit).bind Group.slice).all (fun sl => sl.wait = 0) = true
  unfold State.advance
  rw [slice, if_pos rfl, group_modGroup, if_pos rfl]
  cases s.group? w.unit with
  | none => rfl
  | some gr => cases e : gr.slice <;> simp [e]

theorem sliceIssues_laneDone {s : State} {w : Warp} (slice : w.slice = true) (h : Head) (srcs : List Src) (d : Dst) (checked : Bool)
    (f : List LaneIn → List LaneOut) : State.sliceIssues w.unit (.next (s.laneDone w h srcs d checked f)) = true := by
  unfold State.laneDone
  cases w.pushing d with
  | none => exact sliceIssues_step1 slice h false
  | some x =>
    dsimp only
    split
    · exact sliceIssues_step1 slice h false
    · exact sliceIssues_step1 slice h true

/-- The access processor of a cluster has issued for a group in this core cycle. -/
def State.issuedFor (s : State) (g : Nat) (t : State) : State :=
  t.modCluster (g / 2048) fun v => { v with access := (s.coreCycle (g / 2048) + 1, g % 2048) }

section
variable {s : State} {g : Nat} (steady : (s.row (rowOf (g / 2048))).clkUntil = 0)
  (idle : (s.cluster (g / 2048)).access.1 ≠ s.coreCycle (g / 2048) + 1)
  (first : ∀ x ∈ s.slicesBefore (g / 2048) (g % 2048), State.sliceIssues x (s.sliceNow x) = false)
include steady idle first

theorem execAccessIssue_next {t : State} (now : s.sliceNow g = .next t) :
    execAccessIssue g s = .next (if State.sliceIssues g (.next t) then s.issuedFor g t else t) := by
  have alone : ((s.slicesBefore (g / 2048) (g % 2048)).any fun x => State.sliceIssues x (s.sliceNow x)) = false := by
    simpa [List.any_eq_false] using first
  unfold execAccessIssue
  simp only [steady, now, alone, idle]
  cases State.sliceIssues g (.next t) <;> rfl

theorem execAccessIssue_runs {f : Front} {d : Decoded} {n : Nat} {t : State} (front : ({ s with cur := .slice g } : State).front = some f)
    (fetched : ({ s with cur := .slice g } : State).fetched f = .ok d n) (inside : d.inSlice = true)
    (next : exec d.instr { s with cur := .slice g } = .next t) :
    execAccessIssue g s = .next (if State.sliceIssues g (.next t) then s.issuedFor g t else t) := by
  refine execAccessIssue_next steady idle first ?_
  simp only [State.sliceNow, front, fetched]
  exact (sliceDecoded_eq fetched inside).trans next

theorem execAccessIssue_lane {f : Front} {i : Instr} {n : Nat} {L : LaneRule} {w : Warp}
    (front : ({ s with cur := .slice g } : State).front = some f) (fetched : ({ s with cur := .slice g } : State).fetched f = .ok (.early i) n)
    (inside : i.inSlice = true) (rule : laneRule i = some L) (hw : ({ s with cur := .slice g } : State).warp L.head = some w)
    (starts : Starts { s with cur := .slice g } w L.srcs L.dst) (room : HasRoom { s with cur := .slice g } w L.srcs L.dst) :
    execAccessIssue g s = .next (s.issuedFor g (State.laneDone { s with cur := .slice g } w L.head L.srcs L.dst L.checked L.results)) := by
  have next := (exec_eq_runRule rule { s with cur := .slice g }).trans (runRule_next hw starts room)
  obtain ⟨slice, rfl⟩ := warp_of_slice rfl hw
  rw [execAccessIssue_runs steady idle first front fetched inside next, if_pos (sliceIssues_laneDone slice _ _ _ _ _)]

theorem execAccessIssue_fault {f : Front} {cause : Cause} {code : Byte} {va : Nat} (front : ({ s with cur := .slice g } : State).front = some f)
    (fetched : ({ s with cur := .slice g } : State).fetched f = .fault cause code va) :
    ∃ t, execAccessIssue g s = .next t ∧ (t.ctx f.ctx).low = true := by
  have now : s.sliceNow g = .next (State.takeInstrFault { s with cur := .slice g } f cause code va) := by
    simp only [State.sliceNow, front, fetched]
  have low : ((State.takeInstrFault { s with cur := .slice g } f cause code va).ctx f.ctx).low = true := by
    rw [State.takeInstrFault, if_neg (by simp [front_of_slice rfl front])]
    exact curtain_low _ _ _ _
  refine ⟨_, execAccessIssue_next steady idle first now, ?_⟩
  split
  · exact low
  · exact low

end

/-- Settles O45: copies, streams and matrix operations step by step; a slice's instruction ends with its slice waiting for nothing. -/
theorem engineSteps : Obligations.EngineSteps := by
  unfold Obligations.EngineSteps
  refine ⟨fun s => ⟨?_, ?_, ?_, ?_⟩, fun s g => ⟨?_, ?_, ?_⟩⟩
  · intro e id c s1 here runs
    obtain rfl := copyCmd_id here
    refine ⟨fun ecc reply ahead room => ⟨?_, ?_⟩, ?_⟩
    · intro entry s2 v block free read
      exact (execCopyElementRead_reads here runs ecc reply).trans (copyRead_element ahead room block free read)
    · intro s2 v list next read
      exact (execCopyElementRead_reads here runs ecc reply).trans (copyRead_entry ahead room list next read)
    · intro ecc v rest s2 r staged gives
      exact execCopyElementRead_delivers here runs staged gives
  · intro e id c here written uncounted performed runs dropped
    have done := execCopyCompletion_written here written performed runs uncounted dropped
    refine ⟨fun none => done.trans (if_pos none), fun s2 r word gives => done.trans ?_⟩
    rw [if_neg word, gives]
    rfl
  · intro e id c place here publish written known first performed runs
    exact execCacheDrop_drops here written performed runs publish known first
  · intro g id st gr s1 here group free runs
    refine ⟨fun ecc reply ahead room => ⟨?_, ?_⟩, ?_⟩
    · intro t tok
      exact (execStreamElementReturn_reads here group free runs ecc reply).trans (streamRead_token ahead room tok)
    · intro s2 v tok read
      exact (execStreamElementReturn_reads here group free runs ecc reply).trans (streamRead_element ahead room tok read)
    · intro ecc vs rest staged turn
      exact execStreamElementReturn_pushes here group free runs staged turn
  · intro s1 noted steady idle first f front
    refine ⟨?_, ?_, ?_⟩
    · intro i n L w fetched inside rule hw starts room
      exact execAccessIssue_lane steady idle first front fetched inside rule hw starts room
    · intro d n t fetched inside next
      exact execAccessIssue_runs steady idle first front fetched inside next
    · intro cause code va fetched _
      exact execAccessIssue_fault steady idle first front fetched
  · intro gr o r group head waits runs
    exact execMatrixOperationStart_feeds group head waits runs
  · intro gr o r upset group head begun fed runs
    exact execMatrixOperationComplete_retires upset group head begun fed runs

end Sys2Proof.Machine
end

section
/-! A completion that asks again (spec/08 R216, spec/18 R397). A ragged load that waits for the host translates its next read again; where the
completion's range does not hold it, a new request goes out under the port's next number. The statement does not exclude a port whose next
number is that of the request that completes. -/

namespace Sys2Proof.Machine

open Sys2Proof.Safety

/-- An LDG's read at 0x20000, which waits for the host's translation. -/
def raggedOp : Op :=
  { ctx := 0, act := 0, issuer := .thread 0, cluster := 0, slot := 0, tid := 0, batch := 7, pc := 0x10000, cls := 0
    work := .ragged 4 0 0 0 [] false false, place := .host, va := 0x20000, pa := 0, dst := .none, clock := Clock.zero, stamp := none, scope := 0
    order := 0, rel := none, stage := .ats, reply := [], flags := 0, seen := none, eg := none, sentAt := 0, retired := false }

/-- A request for the page at 0x10000, whose completion the load awaits. -/
def pageRequest : AtsReq := ⟨5, 0, 16, false, [.op 3], [], 0⟩

/-- Context 0 has the low GiB in the host's memory, by tables at 0, 0x1000 and 0x2000 in a frame that it owns. -/
def askingAgain : State :=
  { State.reset with
    mem := [(0, 0x01), (1, 0x10), (0x1000, 0x01), (0x1001, 0x20), (0x2000, 0x0F)], ops := [(3, raggedOp)]
    owners := [(0, 0)]
    port := { State.reset.port with ats := [pageRequest], nextId := 5 } }

/-- The host grants the page, for reads. -/
def pageGranted : AtsAnswer := .granted true false 0 12 false

/-- A request of the host port after a step. -/
def atsAfter (id : Nat) : Res → Option AtsReq
  | .next s => s.atsReq? id
  | _ => none

theorem pageGranted_asks : atsAfter 5 (exec (.atsCompletion 5 pageGranted) askingAgain) = some ⟨5, 0, 32, false, [.op 3], [], 0⟩ := by
  decide +kernel

/-- Refutes O52: after the completion a request with its number stands, that of the load for its own page. -/
theorem not_hostSteps : ¬ Obligations.HostSteps := by
  unfold Obligations.HostSteps
  intro h
  obtain ⟨completion, _⟩ := h askingAgain
  obtain ⟨_, _, _, granted, _⟩ := completion 5 pageRequest rfl
  obtain ⟨next, gone, _⟩ := granted false 0 12 false (by decide) (by decide)
  have asks := pageGranted_asks
  rw [pageGranted, next] at asks
  exact absurd (gone.symm.trans asks) (by decide)

end Sys2Proof.Machine
end

section
/-! The matrix instructions queue (spec/08 R242 to R244, R260): the elected lane's pops change the group's queues alone, and the operation
enters behind the group's earlier ones. -/

namespace Sys2Proof.Machine

open Sys2Proof.Safety

/-- Threads, slots and groups apart, a state is as it was, and of group g nothing but its queues has changed. -/
def OnlyQueues (g : Nat) (s t : State) : Prop :=
  OnlyUnits s t ∧ ∀ gr, s.group? g = some gr → ∃ q, t.group? g = some { gr with q := q }

theorem OnlyThreads.queues {s t : State} (h : OnlyThreads s t) (g : Nat) : OnlyQueues g s t :=
  ⟨h.units, fun gr found => ⟨gr.q, (h.group g).trans found⟩⟩

theorem OnlyQueues.refl (g : Nat) (s : State) : OnlyQueues g s s := (OnlyThreads.refl s).queues g

theorem OnlyQueues.trans {g : Nat} {a b c : State} (h : OnlyQueues g a b) (h' : OnlyQueues g b c) : OnlyQueues g a c := by
  obtain ⟨units, queue⟩ := h
  obtain ⟨units', queue'⟩ := h'
  refine ⟨units.trans units', fun gr found => ?_⟩
  obtain ⟨_, between⟩ := queue gr found
  obtain ⟨q, after⟩ := queue' _ between
  exact ⟨q, after⟩

theorem foldl_onlyQueues {ι : Type} {g : Nat} {f : State → ι → State} (h : ∀ s x, OnlyQueues g s (f s x)) (l : List ι) (s : State) :
    OnlyQueues g s (l.foldl f s) := foldl_related (OnlyQueues.refl g) OnlyQueues.trans f h l s

section
variable {w : Warp} {g : Nat} (grouped : w.group = some g)
include grouped

theorem setQueue_onlyQueues (s : State) (q : Nat) (l : List QEl) : OnlyQueues g s (s.setQueue w q l) := by
  unfold State.setQueue
  rw [grouped]
  refine ⟨modGroup_onlyUnits s g _, fun gr found => ⟨put gr.q q l, ?_⟩⟩
  rw [group_modGroup, if_pos rfl, found, Option.map_some]

theorem takePops_onlyQueues (s : State) (srcs : List Src) : OnlyQueues g s (s.takePops w srcs).1 := by
  induction srcs generalizing s with
  | nil => exact .refl g s
  | cons src r ih =>
    unfold State.takePops
    split
    · exact ih s
    · dsimp only
      split
      · exact .refl g s
      · exact (setQueue_onlyQueues grouped s _ _).trans (ih _)

theorem unpop_onlyQueues (s s1 : State) (srcs : List Src) (raising : List Lane) : OnlyQueues g s1 (s.unpop s1 w srcs raising) := by
  unfold State.unpop
  split
  · exact .refl g s1
  · exact foldl_onlyQueues (fun u _ => setQueue_onlyQueues grouped u _ _) _ s1

theorem popped_onlyQueues (s : State) (srcs : List Src) (acting : List Lane) : OnlyQueues g s (s.popped w srcs acting) := by
  have unpopped : OnlyQueues g s (s.unpopped w srcs acting) :=
    (takePops_onlyQueues grouped s srcs).trans (unpop_onlyQueues grouped s _ srcs _)
  rw [popped_eq]
  exact unpopped.trans (foldl_onlyQueues (fun u _ => (modThread_onlyThreads u _ _).queues g) acting _)

theorem elect_onlyQueues (s : State) (l : Lane) (srcs : List Src) (acting : List Lane) : OnlyQueues g s (s.elect w l srcs acting) :=
  (popped_onlyQueues (w := only w l) grouped s srcs _).trans
    (foldl_onlyQueues (fun u _ => (modThread_onlyThreads u _ _).queues g) acting _)

end

/-- An operation as the queue holds it: with its serial, its address and the threads that issued it (R260). -/
def MxOp.queued (o : MxOp) (s : State) (w : Warp) : MxOp :=
  { o with serial := (s.cluster w.cluster).matSer + 1, pc := w.pc, threads := w.acting.map fun x => x.key }

/-- The state after the issue of a matrix operation. -/
def State.matrixIssued (s : State) (w : Warp) (l : Lane) (srcs : List Src) (f : DForm) (o : MxOp) : State :=
  ((s.elect w l srcs w.acting).mxQueue w (some o)).step1 w (dHead f)

theorem matSer_mxQueue (s : State) (w : Warp) (o : MxOp) :
    ((s.mxQueue w (some o)).cluster w.cluster).matSer = (s.cluster w.cluster).matSer + 1 := by
  rw [State.cluster]
  simp only [State.mxQueue, State.modGroup_clusters, State.modCluster_clusters, get_put_self]

section
variable {s : State} {w : Warp} {l : Lane} {g : Nat} {gr : Group} {srcs : List Src} {o : MxOp} {f : DForm} (grouped : w.group = some g)
include grouped

theorem group_mxQueue (found : s.group? g = some gr) :
    (s.mxQueue w (some o)).group? g = some { gr with mq := gr.mq ++ [o.queued s w] } := by
  simp only [State.mxQueue, grouped, Option.getD_some, group_modGroup, ↓reduceIte]
  rw [State.group?, State.modCluster_groups, ← State.group?, found]
  rfl

/-- An instruction whose parameters pass, and which no counter of its threads holds back (R203), issues its operation. -/
theorem runMatrix_issues {go : State → Warp → Lane → Group → List Val → MxGo} (hw : s.warp (dHead f) = some w) (elected : w.elected = some l)
    (guard : l.badTok = none) (found : s.group? g = some gr) (starts : Starts s (only w l) srcs .none)
    (counted : ∀ x ∈ w.acting, s.outstanding x.key 2 < 255) (gives : go s w l gr (s.sourceVals (only w l) srcs l) = .op o) :
    runMatrix f srcs go s = .next (s.matrixIssued w l srcs f o) := by
  have free : (w.acting.any fun x => decide (255 ≤ s.outstanding x.key 2)) = false :=
    List.any_eq_false.2 fun x hx => by simpa using counted x hx
  unfold runMatrix
  rw [once_eq hw elected starts (by rw [grouped]; rfl)]
  simp only [guard, free, grouped, Option.getD_some, found, gives, quiet_nil, Bool.false_eq_true, ↓reduceIte, State.matrixIssued]

/-- The issue appends the operation to the group's, counts it in the cluster, and leaves memory, accumulators and scratchpad as they are. -/
theorem matrixIssued_queues (slot : w.slice = false) (found : s.group? g = some gr) :
    ∃ gr', (s.matrixIssued w l srcs f o).group? g = some gr' ∧ gr'.mq = gr.mq ++ [o.queued s w]
      ∧ ((s.matrixIssued w l srcs f o).cluster w.cluster).matSer = (s.cluster w.cluster).matSer + 1
      ∧ (s.matrixIssued w l srcs f o).mem = s.mem ∧ (s.matrixIssued w l srcs f o).marks = s.marks ∧ gr'.acc = gr.acc ∧ gr'.pad = gr.pad := by
  have ended : OnlyThreads ((s.elect w l srcs w.acting).mxQueue w (some o)) (s.matrixIssued w l srcs f o) :=
    advance_onlyThreads slot (dHead f) _ false
  obtain ⟨⟨_, _, _, begun⟩, queue⟩ := elect_onlyQueues grouped s l srcs w.acting
  obtain ⟨q, popped⟩ := queue gr found
  have clusters : (s.elect w l srcs w.acting).cluster w.cluster = s.cluster w.cluster := by rw [begun]; rfl
  have entered := (ended.group g).trans (group_mxQueue (o := o) grouped popped)
  obtain ⟨_, _, frame⟩ := ended
  refine ⟨_, entered, ?_, ?_, ?_, ?_, rfl, rfl⟩
  · simp only [MxOp.queued, clusters]
  · rw [frame]
    exact (matSer_mxQueue _ w o).trans (by rw [clusters])
  · rw [frame]
    simp [State.mxQueue, begun]
  · rw [frame]
    simp [State.mxQueue, begun]

end

/-- Settles O39: each instruction runs its own check in `runMatrix`, whose issue queues the operation. -/
theorem matrixInstructionsQueue : Obligations.MatrixInstructionsQueue := by
  unfold Obligations.MatrixInstructionsQueue
  intro f s w l g gr srcs o i instr hw slot elected guard grouped found starts counted
  obtain ⟨go, runs, gives⟩ : ∃ go, exec i s = runMatrix f srcs go s ∧ go s w l gr (s.sourceVals (only w l) srcs l) = .op o := by
    rcases instr with ⟨rfl, rfl, gives⟩ | ⟨rfl, rfl, gives⟩ | ⟨rfl, rfl, gives⟩ | ⟨rfl, rfl, gives⟩ | ⟨rfl, rfl, gives⟩
    · exact ⟨mmaGo f false, rfl, gives⟩
    · exact ⟨mmaGo f true, rfl, gives⟩
    · exact ⟨mzeroGo, rfl, gives⟩
    · exact ⟨maccGo f, rfl, gives⟩
    · exact ⟨selcGo, rfl, gives⟩
  obtain ⟨gr', queues⟩ := matrixIssued_queues (l := l) (srcs := srcs) (f := f) (o := o) grouped slot found
  exact ⟨_, gr', runs.trans (runMatrix_issues grouped hw elected guard found starts counted gives), queues⟩

end Sys2Proof.Machine
end

section
/-! The steps of acts (spec/10 R269, R278, R280, spec/12 R318, spec/16 R352, R353, R355, R358, R359). -/

namespace Sys2Proof.Machine

section
variable {s : State} {k : Nat} {a : Act} (found : find s.acts k = some a)
include found

/-! Notices (R278). -/

theorem execTriggerNotice_counted {n : Nat} (counts : 0 < n) (counted : n ≤ a.remoteUntrig) :
    execTriggerNotice k n s = .next ((s.setAct { a with remoteUntrig := a.remoteUntrig - n }).tryFire a.ctx a.num) := by
  simp [execTriggerNotice, found, Nat.ne_of_gt counts, counted]

theorem execCompletionNotice_counted {src n : Nat} (counts : 0 < n) (sent : n ≤ get a.remote src 0) (alive : n ≤ a.live) :
    execCompletionNotice k src n s = .next (s.setAct { a with
      live := a.live - n
      remote := if get a.remote src 0 = n then drop a.remote src else put a.remote src (get a.remote src 0 - n) }) := by
  simp [execCompletionNotice, found, Nat.ne_of_gt counts, sent, alive]

theorem execFailureNotice_remote (away : a.remote ≠ []) : execFailureNotice k s = .next (s.guestFailed a.ctx) := by
  simp [execFailureNotice, found, away]

/-! ACT_RETIREMENT (R269). -/

theorem execActRetirement_drops (ended : a.live = 0) (own : a.guest = none) (quiet : s.actQuiet a = true) (high : (s.ctx a.ctx).low = false)
    (unqueued : ∀ x ∈ s.boards, k ∉ x.2.queue) : ∃ t, execActRetirement k s = .next t ∧ find t.acts k = none := by
  have free : (s.boards.any fun x => x.2.queue.contains k) = false := List.any_eq_false.2 fun x hx => by simpa using unqueued x hx
  simp only [execActRetirement, found, ended, free, quiet, high, own, bne_self_eq_false, Bool.or_self, Bool.not_true, Bool.false_eq_true, ↓reduceIte]
  split <;> exact ⟨_, rfl, find_drop_self _ _⟩

/-! ACT_READY of an act that waits for no counter (R355). -/

theorem execActReady_unwatched {board : Nat} {rest : List Nat} (head : (s.board board).queue = k :: rest) (waiting : a.ready = false)
    (high : (s.ctx a.ctx).low = false) (unwatched : hdrWaddr a.header = 0) :
    execActReady board s = .next (s.setAct { a with ready := true }) := by
  simp [execActReady, head, found, waiting, high, unwatched]

/-! ROAMING_RELEASE_RESEND (R359). -/

theorem execRoamingReleaseResend_due {b : Act} (refused : a.retryAt ≠ 0) (due : a.retryAt ≤ s.coreCycle (s.launchCluster a.ctx a.placed))
    (head : s.readyHead a.board = some b) (same : b.num = a.num) :
    execRoamingReleaseResend k s = .next (s.release { a with retryAt := 0 }) := by
  simp [execRoamingReleaseResend, found, refused, due, head, same]

end

/-- What a source still owes an act after it has told of some (R278). -/
theorem get_told (m : Map Nat) (src n : Nat) :
    get (if get m src 0 = n then drop m src else put m src (get m src 0 - n)) src 0 = get m src 0 - n := by
  split
  · next all => rw [get_drop_self, all, Nat.sub_self]
  · exact get_put_self m src _ 0

/-! Callboards (R352, R353). -/

theorem execCbpost_board {board : Nat} (h : board < 256) (header : Dword) (s : State) :
    execCbpost board header s = .next (s.post 0 (fld (s.board board).ctl.toNat 5 0) board header.toNat) := if_neg (by omega)

theorem lasterr_refusePost (s : State) (cluster ctx code : Nat) {board : Nat} (h : board < 256) :
    ((s.refusePost cluster ctx board code 0).board board).lasterr = BitVec.ofNat 8 code := by
  simp [State.refusePost, h]

theorem post_misaligned {hdr : Nat} (h : hdr % 256 ≠ 0) (s : State) (cluster ctx board : Nat) :
    s.post cluster ctx board hdr = s.refusePost cluster ctx board 0x01 0 := if_pos (by simpa using h)

theorem levelBoard_boards (s : State) (board ceil : Nat) : (s.levelBoard board ceil).boards = s.boards := by
  unfold State.levelBoard
  refine foldl_keeps State.boards _ (fun u x => ?_) _ s
  rfl

/-- CBCTL takes the bits that it has, whatever the write cancels. -/
theorem execCbctlWrite_ctl {board : Nat} (h : board < 256) (v : Dword) (s : State) :
    ∃ t, execCbctlWrite board v s = .next t ∧ (t.board board).ctl = v &&& 0xF03F := by
  refine ⟨_, if_neg (by omega), ?_⟩
  rw [State.board, levelBoard_boards, ← State.board, board_setBoard]

/-! PLACEMENT and SWAP_OUT of the next ensemble of an act (R358, R280). -/

theorem tryPlace_fits {s : State} {w : Waiter} {r : Nat} {p : List Spot} (level : Nat)
    (fit : (s.waiterRows w).findSome? (fun r => (s.fits r w.wants).map fun p => (r, p)) = some (r, p)) :
    s.tryPlace w level = (s.placeAt w r p, true) := by
  simp only [State.tryPlace, fit]

/-- What SWAP_OUT may save: the ensembles of a context in a row, oldest last issue first (R280). -/
def State.swapItems (s : State) (ctx row : Nat) : List Item :=
  (sortBy (fun (a b : Nat × Ensemble) => decide (a.2.lastIssue ≤ b.2.lastIssue))
    (s.ensembles.filter fun (_, e) => e.ctx = ctx && e.row = row)).map fun (k, _) => Item.ensemble k

section
variable {s : State} {key : List Nat} {level : Nat} {a : Act} (anchored : a.roaming = false) (nonempty : hdrNens a.header ≠ 0)
include anchored nonempty

theorem execPlacement_fits {part r : Nat} {p : List Spot} (waits : s.waiters part = [(key, level, .fresh a)])
    (fit : (s.waiterRows (.fresh a)).findSome? (fun r => (s.fits r (Waiter.fresh a).wants).map fun p => (r, p)) = some (r, p)) :
    execPlacement part s = .next (s.placeAt (.fresh a) r p) := by
  simp [execPlacement, waits, State.placeOne, anchored, nonempty, tryPlace_fits level fit]

theorem execSwapOut_makesRoom {ctx row : Nat} {p : List Spot}
    (idle : (s.row row).cycleAt (get (s.row row).issued ctx 0) + 65536 ≤ (s.row row).cycleAt s.now)
    (waits : s.waiters ((s.rowsOf ctx).headD 0) = [(key, level, .fresh a)]) (own : a.ctx = ctx) (here : row ∈ s.waiterRows (.fresh a))
    (full : ∀ r ∈ s.waiterRows (.fresh a), s.fits r (Waiter.fresh a).wants = none)
    (room : ((s.without (s.swapItems ctx row)).fits row (Waiter.fresh a).wants).isSome = true)
    (made : (State.evictUntil (fun s => (s.fits row (Waiter.fresh a).wants).isSome) (s.swapItems ctx row) s).fits row (Waiter.fresh a).wants
      = some p) :
    execSwapOut ctx row s
      = .next ((State.evictUntil (fun s => (s.fits row (Waiter.fresh a).wants).isSome) (s.swapItems ctx row) s).placeAt (.fresh a) row p) := by
  have nowhere : ((s.waiterRows (.fresh a)).any fun r => (s.fits r (Waiter.fresh a).wants).isSome) = false :=
    List.any_eq_false.2 fun r hr => by simp [full r hr]
  have short : ((s.without (s.swapItems ctx row)).fits row (Waiter.fresh a).wants).isNone = false := by
    rw [← Option.not_isSome, room, Bool.not_true]
  rw [State.swapItems] at short made ⊢
  rw [List.headD_eq_head?_getD] at waits
  simp [execSwapOut, waits, own, anchored, nonempty, idle, here, nowhere, short, made]

end

/-! CONGESTION_WINDOW (R318). -/

theorem get_tabulated {α : Type} (f : Nat → α) {l : List Nat} {n : Nat} (h : n ∈ l) (d : α) : get (l.map fun i => (i, f i)) n d = f n := by
  induction l with
  | nil => cases h
  | cons i r ih =>
    by_cases here : i = n
    · simp [get, find, here]
    · simpa [get, find, here] using ih ((List.mem_cons.1 h).resolve_left (Ne.symm here))

/-- A word of ROWCONG or DIECONG: two bytes and the number of the window. -/
def congestionWord (p : Byte × Byte) (n : Nat) : Dword := BitVec.ofNat 64 (p.1.toNat * 2 ^ 16 + p.2.toNat * 2 ^ 8 + n)

theorem congestionWord_toNat (p : Byte × Byte) {n : Nat} (h : n < 256) :
    (congestionWord p n).toNat = p.1.toNat * 2 ^ 16 + p.2.toNat * 2 ^ 8 + n := by
  rw [congestionWord, BitVec.toNat_ofNat]
  exact Nat.mod_eq_of_lt (by omega)

theorem foldl_adjust_pkg (mseq gateq : Nat → Nat) (l : List Nat) (s : State) :
    (l.foldl (fun s i => s.adjust i (mseq i) (gateq i)) s).pkg = s.pkg :=
  foldl_keeps State.pkg (fun s i => s.adjust i (mseq i) (gateq i)) (fun s i => State.modRow_pkg s i _) l s

theorem foldl_enableWindow_pkg (l : List Nat) (s : State) : (l.foldl State.enableWindow s).pkg = s.pkg :=
  foldl_keeps State.pkg State.enableWindow (fun _ _ => State.modCluster_pkg _ _ _) l s

/-- The throttling that a window's end brings leaves its words as they were written. -/
theorem execCongestionWindow_words (rows : List (Byte × Byte)) (dies : List Byte) {s : State} {sums : Map Nat} (ended : s.pkg.shut = some sums) :
    ∃ t, execCongestionWindow rows dies s = .next t
      ∧ t.pkg.rowcong = (List.range 32).map (fun i => (i, congestionWord (rows.getD i (0, 0)) (s.nc / 4096 % 256)))
      ∧ t.pkg.diecong = (List.range 4).map fun i => (i, congestionWord (gateq sums i, dies.getD i 0) (s.nc / 4096 % 256)) := by
  simp only [execCongestionWindow, ended]
  refine ⟨_, rfl, ?_⟩
  simp only [foldl_enableWindow_pkg, foldl_adjust_pkg, congestionWord, and_self]

/-- Settles O48, a clause for each step, from its own lemma. -/
theorem actSteps : Obligations.ActSteps := by
  unfold Obligations.ActSteps
  intro s
  refine ⟨fun k a n found counts counted => execTriggerNotice_counted found counts counted,
    fun k a src n found counts sent alive => ?completion, fun k a found away => ?failure,
    fun k a found ended own quiet high unqueued => execActRetirement_drops found ended own quiet high unqueued, fun board header h => ?post,
    fun board v h => execCbctlWrite_ctl h v s,
    fun board k rest a head found waiting high unwatched => execActReady_unwatched found head waiting high unwatched,
    fun part key level a r p waits anchored nonempty fit => execPlacement_fits anchored nonempty waits fit,
    fun k a b found refused due head same => execRoamingReleaseResend_due found refused due head same,
    fun ctx row key level a p => ?swap, fun rows dies sums ended => ?congestion⟩
  case completion =>
    exact ⟨_, _, execCompletionNotice_counted found counts sent alive, act_setAct _ _, rfl, get_told _ _ _⟩
  case failure => exact ⟨_, execFailureNotice_remote found away, lateFailure_low _ _ _ _ _ _ _⟩
  case post =>
    have posts := execCbpost_board h header s
    refine ⟨posts, fun misaligned => ⟨_, posts, ?_⟩⟩
    rw [post_misaligned misaligned]
    exact lasterr_refusePost _ _ _ _ h
  case swap =>
    exact fun idle waits own anchored nonempty here full room made => execSwapOut_makesRoom anchored nonempty idle waits own here full room made
  case congestion =>
    obtain ⟨t, next, rowcong, diecong⟩ := execCongestionWindow_words rows dies ended
    have window : s.nc / 4096 % 256 < 256 := Nat.mod_lt _ (by decide)
    refine ⟨t, next, fun r hr => ?_, fun d hd => ?_⟩
    · rw [rowcong, get_tabulated _ (List.mem_range.2 hr), congestionWord_toNat _ window]
    · rw [diecong, get_tabulated _ (List.mem_range.2 hd), congestionWord_toNat _ window]

end Sys2Proof.Machine
end

section
/-! The state after reset: a unit that its table does not list has its reset value. -/

namespace Sys2Proof.Machine

open Sys2Proof.Safety

theorem reset_ctx (c : Nat) : State.reset.ctx c = Ctx.init := rfl

theorem reset_board (b : Nat) : State.reset.board b = Board.init := rfl

theorem reset_eg (n : Nat) : State.reset.eg n = EdgeGroup.init := rfl

theorem reset_memoryOk : MemoryOk State.reset := rfl

theorem reset_readByte (a : Nat) : readByte State.reset.mem a = 0 := rfl

/-- No frame has an owner: 0x40 stands for none. -/
theorem reset_owner (f : Nat) : get State.reset.owners f 0x40 = 0x40 := rfl

/-- Settles O8: each unit has the value of its initial record, whose fields are those of the tables. -/
theorem resetState : Obligations.ResetState := by
  unfold Obligations.ResetState
  refine ⟨reset_memoryOk, reset_readByte, rfl, reset_owner, rfl, rfl, rfl, fun c => ?contexts, fun b => ?boards, fun n => ?edges, ?package⟩
  case contexts =>
    rw [reset_ctx]
    exact ⟨rfl, rfl, rfl, rfl, rfl, rfl, rfl, rfl, rfl, rfl, rfl, rfl, rfl, rfl, rfl, rfl⟩
  case boards =>
    rw [reset_board]
    exact ⟨rfl, rfl, rfl, rfl⟩
  case edges =>
    rw [reset_eg]
    exact ⟨rfl, rfl, rfl, rfl, rfl, rfl, rfl, rfl, rfl⟩
  case package => exact ⟨rfl, rfl, rfl, rfl, rfl, rfl, rfl, rfl, rfl, rfl, rfl, rfl, rfl⟩

end Sys2Proof.Machine
end

section
/-! The steps of an MSE (spec/11 R283, R284, R296): an operation that has reached its home, and that nothing holds back, is applied there. -/

namespace Sys2Proof.Machine

/-- A line serves without its home only an operation that fills one (R208). -/
theorem raggedHeld_of_not_fill {o : Op} (h : o.kind ≠ some .fill) (s : State) : s.raggedHeld o = none := by
  unfold State.raggedHeld
  split
  · next work => exact absurd (by rw [Op.kind, work]) h
  · rfl

section
variable {s : State} {op : Nat} {o : Op} (ho : find s.ops op = some o) (sent : o.stage = .sent) (may : s.mayApply op o = true)
  (pass : s.passes o = true) (still : s.movedOp o = none)
include ho sent may pass still

/-- What arrives at its point of order with nothing that holds it back is applied as its kind says. -/
theorem arriveAt_applies {kind : MseKind} {kinds : MseKind → Bool} (does : o.kind = some kind) (takes : kinds kind = true)
    (line : s.raggedHeld o = none) (ecc : Ecc) : s.arriveAt op kinds ecc = s.applyKind op o kind ecc := by
  simp [State.arriveAt, ho, does, takes, sent, may, pass, still, line]

/-- MSE_READ of a wait's look at its word (R237). -/
theorem mseRead_watch (kind : o.kind = some .watch) (ecc : Ecc) : exec (.mseRead op ecc) s = .next (s.watchRead op o) :=
  arriveAt_applies ho sent may pass still kind rfl (raggedHeld_of_not_fill (by simp [kind]) s) ecc

/-- MSE_ATOMIC applies all the atomics of one instruction at one location together (R71). -/
theorem mseAtomic_eq (kind : o.kind = some .atomic) (ready : s.batchReady o = true) (ecc : Ecc) :
    exec (.mseAtomic op ecc) s = .next (s.atomBatch o ecc) :=
  (arriveAt_applies ho sent may pass still kind rfl (raggedHeld_of_not_fill (by simp [kind]) s) ecc).trans (if_pos ready)

/-- SLICE_FILL of a read that no held line serves. -/
theorem sliceFill_eq (kind : o.kind = some .fill) (line : s.raggedHeld o = none) :
    exec (.sliceFill op) s = .next (s.fillAt op o .clean) :=
  arriveAt_applies ho sent may pass still kind rfl line .clean

end

/-- Settles O23, a clause for each step, from its own lemma. -/
theorem mseSteps : Obligations.MseSteps := by
  unfold Obligations.MseSteps
  intro s op o ecc ho sent may pass still
  exact ⟨fun read => mseRead_eq ho read sent may pass still (raggedHeld_of_not_fill (by simp [read]) s),
    fun watch => mseRead_watch ho sent may pass still watch ecc,
    fun write => mseWrite_eq ho write sent may pass still (raggedHeld_of_not_fill (by simp [write]) s),
    fun atomic ready => mseAtomic_eq ho sent may pass still atomic ready ecc,
    fun fill line => sliceFill_eq ho sent may pass still fill line⟩

end Sys2Proof.Machine
end

section
/-! Writes to PARTMAP (spec/17 R364, R365). -/

namespace Sys2Proof.Machine

/-- A partition is read from the SPLIT bits of the map, 31 to 1, alone (R364). -/
theorem partitionFrom_congr {m m' : Nat} (same : ∀ i, 1 ≤ i → i ≤ 31 → m.testBit i = m'.testBit i) (row d : Nat) {node : Nat}
    (low : 1 ≤ node) (high : (node + 1) * 2 ^ d ≤ 64) (first n : Nat) :
    partitionFrom m row d node first n = partitionFrom m' row d node first n := by
  induction d generalizing node first n with
  | zero => rfl
  | succ d ih =>
    rw [Nat.pow_succ] at high
    have step : (node + 1) * 2 ≤ (node + 1) * (2 ^ d * 2) := by gcongr; exact Nat.le_mul_of_pos_left _ (Nat.two_pow_pos d)
    have deeper (k : Nat) (hk : k ≤ 2 * node + 1) : (k + 1) * 2 ^ d ≤ 64 :=
      calc (k + 1) * 2 ^ d ≤ (2 * node + 1 + 1) * 2 ^ d := by gcongr
        _ = (node + 1) * (2 ^ d * 2) := by ring
        _ ≤ 64 := high
    have node_bit : bit m node = bit m' node := same node low (by omega)
    rw [partitionFrom, partitionFrom, node_bit, ih (by omega) (deeper _ (by omega)), ih (by omega) (deeper _ (by omega))]

/-- Bit by bit, what a field is made of. -/
theorem testBit_of_df_eq {v w : Dword} {hi lo i : Nat} (h : df v hi lo = df w hi lo) (low : lo ≤ i) (high : i ≤ hi) :
    v.toNat.testBit i = w.toNat.testBit i := by
  have := congrArg (fun x => Nat.testBit x (i - lo)) h
  simpa [df, testBit_fld, show i - lo < hi + 1 - lo by omega, Nat.add_sub_cancel' low] using this

theorem partitionFrom_of_split {v w : Dword} (h : df v 31 1 = df w 31 1) (row : Nat) :
    partitionFrom v.toNat row 5 1 0 32 = partitionFrom w.toNat row 5 1 0 32 :=
  partitionFrom_congr (fun _ low high => testBit_of_df_eq h low high) row 5 le_rfl (by decide) 0 32

theorem df_of_wider {v w : Dword} {hi hi' lo : Nat} (le : hi' ≤ hi) (h : df v hi lo = df w hi lo) : df v hi' lo = df w hi' lo := by
  apply Nat.eq_of_testBit_eq
  intro i
  rw [df, df, testBit_fld, testBit_fld]
  by_cases inside : i < hi' + 1 - lo
  · rw [testBit_of_df_eq h (by omega) (by omega)]
  · simp [inside]

theorem df_low_word (v : Dword) : df (v &&& 0xFFFFFFFF) 31 1 = df v 31 1 := by
  simp only [df, fld]
  have : (v &&& 0xFFFFFFFF).toNat = v.toNat % 2 ^ 32 := by
    rw [BitVec.toNat_and]
    exact Nat.and_two_pow_sub_one_eq_mod v.toNat 32
  rw [this]
  omega

/-- A write that moves no row of an enabled context puts its SPLIT in force (R365). -/
theorem partmapWrite_taken (s : State) (v : Dword) (stay : ∀ r ∈ s.busyRows, partitionFrom v.toNat r 5 1 0 32 = s.partition r) :
    ∃ t, exec (.partmapWrite v) s = .next t ∧ df t.pkg.partmap 31 1 = df v 31 1 := by
  have still : (s.busyRows.any fun r => partitionFrom v.toNat r 5 1 0 32 != s.partition r) = false := by
    simpa [List.any_eq_false] using stay
  refine ⟨_, rfl, ?_⟩
  simp only [still, Bool.false_eq_true, if_false]
  rw [df_setD_other _ _ (by decide) (by decide) (by decide), df_low_word]

/-- A write that would move one sets ERR and leaves SPLIT (R365). -/
theorem partmapWrite_refused (s : State) (v : Dword) (moves : ∃ r ∈ s.busyRows, partitionFrom v.toNat r 5 1 0 32 ≠ s.partition r) :
    ∃ t, exec (.partmapWrite v) s = .next t ∧ df t.pkg.partmap 63 1 = df s.pkg.partmap 63 1 ∧ bit t.pkg.partmap.toNat 0 = true := by
  have moved : (s.busyRows.any fun r => partitionFrom v.toNat r 5 1 0 32 != s.partition r) = true := by
    simpa [List.any_eq_true] using moves
  refine ⟨_, rfl, ?_⟩
  simp only [moved, if_true]
  exact ⟨df_setD_other _ _ (by decide) (by decide) (by decide), bit_setD_same _ _ (by decide) (by decide) (by decide)⟩

/-- The example of R365: SPLIT of 0x00000006 gives partitions of 8, 8 and 16 rows. -/
theorem partitionFrom_example (r : Nat) :
    partitionFrom 0x00000006 r 5 1 0 32 = if r < 8 then (0, 8) else if r < 16 then (8, 8) else (16, 16) := by
  have n1 : bit 6 1 = true := by decide
  have n2 : bit 6 2 = true := by decide
  have n3 : bit 6 3 = false := by decide
  have n4 : bit 6 4 = false := by decide
  have n5 : bit 6 5 = false := by decide
  by_cases upper : r < 16
  · by_cases half : r < 8 <;> simp [partitionFrom, n1, n2, n4, n5, upper, half]
  · simp [partitionFrom, n1, n3, upper, show ¬r < 8 by omega]

/-- Settles O49, from what a taken and a refused write leave in SPLIT: the partitions are read from it. -/
theorem partitionMapWrite : Obligations.PartitionMapWrite := by
  unfold Obligations.PartitionMapWrite
  refine ⟨fun s v => ?_, partitionFrom_example⟩
  by_cases stay : ∀ r ∈ s.busyRows, partitionFrom v.toNat r 5 1 0 32 = s.partition r
  case pos =>
    obtain ⟨t, run, split⟩ := partmapWrite_taken s v stay
    exact ⟨t, run, fun _ => ⟨split, partitionFrom_of_split split⟩, fun ⟨r, busy, moved⟩ => absurd (stay r busy) moved⟩
  case neg =>
    push Not at stay
    obtain ⟨t, run, split, err⟩ := partmapWrite_refused s v stay
    obtain ⟨r, busy, moved⟩ := stay
    exact ⟨t, run, fun all => absurd (all r busy) moved, fun _ => ⟨split, err, partitionFrom_of_split (df_of_wider (by decide) split)⟩⟩

end Sys2Proof.Machine
end

section
/-! The rollback path of a thread (spec/20 R423). -/

namespace Sys2Proof.Machine

/-- A thread as the rollback leaves it: at its region entry, nothing pending. -/
def Thread.rolledBack (t : Thread) (pc : Dword) : Thread := { t.abandon (originOf pc) with pc := t.region, held := false }

/-- The threads differ at most in their entry of the cue table and what they wait for. -/
def SameButCue (t u : Thread) : Prop :=
  ∃ cue wait on since dog paused held,
    u = { t with cue := cue, wait := wait, waitOn := on, since := since, dog := dog, paused := paused, held := held }

theorem enter_sameButCue (t : Thread) (now : Nat) (c : Cue) (wait : Nat) (on : WaitOn) : SameButCue t (t.enter now c wait on) :=
  ⟨_, _, _, _, _, _, _, rfl⟩

theorem run_sameButCue (t : Thread) (now : Nat) : SameButCue t (t.run now) := by
  unfold Thread.run
  dsimp only
  split <;> exact ⟨_, _, _, _, _, _, _, rfl⟩

/-- A pending register is dead after a rollback, any other as it was. -/
theorem rolledBack_cell {t : Thread} (rest : t.rest ≠ .pending) (pc : Dword) (n : Nat) :
    (t.rolledBack pc).cell n = if (t.cell n).st = .pending then Cell.dead else t.cell n := by
  have mapped : (t.rolledBack pc).cell n
      = ((find t.regs n).map fun c => if c.st = .pending then Cell.dead else c).getD { Cell.dead with st := t.rest } :=
    cell_mapVals t (fun c => if c.st = .pending then Cell.dead else c) n
  rw [mapped, Thread.cell, get]
  cases find t.regs n with
  | none => exact (if_neg rest).symm
  | some c => rfl

/-- The thread after a rollback with one of the codes of the page, the host's page and the link. -/
theorem rollback_thread {s : State} {key : Nat} {t : Thread} (here : s.thread? key = some t) (code : Nat) (pc : Dword) (cons : Nat) :
    ∃ u, (s.rollback key code pc cons).thread? key = some u ∧ SameButCue (t.rolledBack pc) u := by
  simp only [State.rollback, here]
  have entered (now : Nat) (c : Cue) (wait : Nat) (on : WaitOn) := enter_sameButCue (t.rolledBack pc) now c wait on
  have ran := run_sameButCue (t.rolledBack pc) s.now
  split
  · split
    · exact ⟨_, thread_setThread _ _ _, ran⟩
    · exact ⟨_, thread_setThread _ _ _, entered _ _ _ _⟩
  · split
    · exact ⟨_, thread_setThread _ _ _, ran⟩
    · exact ⟨_, thread_setThread _ _ _, entered _ _ _ _⟩
  · split
    · exact ⟨_, thread_setThread _ _ _, ran⟩
    · split
      · exact ⟨_, thread_setThread _ _ _, ran⟩
      · exact ⟨_, thread_setThread _ _ _, entered _ _ _ _⟩

/-- A rollback with code 0x02 parks its thread, until the host has answered (R423). -/
theorem rollback_host {s : State} {k va : Nat} {t : Thread} {a : Access} (ht : s.thread? k = some t) (need : t.rec2 = some (va, a))
    (pc : Dword) (cons : Nat) :
    (s.rollback k 2 pc cons).thread? k = some ((t.rolledBack pc).enter s.now .parked 0x19 (.host va (a = .write))) := by
  have need' : (t.abandon (originOf pc)).rec2 = some (va, a) := need
  simp only [State.rollback, Thread.rolledBack, ht, need']
  exact thread_setThread _ _ _

/-- A rollback with code 0x03 parks its thread while no link leads to the address (R423). -/
theorem rollback_link {s : State} {k va : Nat} {t : Thread} (ht : s.thread? k = some t) (need : t.rec3 = some va)
    (down : s.linkUp (clusterOfKey k) t.ctx va = false) (pc : Dword) (cons : Nat) :
    (s.rollback k 3 pc cons).thread? k = some ((t.rolledBack pc).enter s.now .parked 0x1A (.link va s.now pc cons k)) := by
  have need' : (t.abandon (originOf pc)).rec3 = some va := need
  have down' : s.linkUp (clusterOfKey k) (t.abandon (originOf pc)).ctx va = false := down
  simp only [State.rollback, Thread.rolledBack, ht, need', down', Bool.false_eq_true, if_false]
  exact thread_setThread _ _ _

/-- Settles O59: what the rollback leaves of the thread, then where each code parks it. -/
theorem rollbackParks : Obligations.RollbackParks := by
  unfold Obligations.RollbackParks
  intro s key code pc cons t here rest _
  obtain ⟨u, after, same⟩ := rollback_thread here code pc cons
  have parked {c : Nat} {v : Thread} (hc : code = c) (h : (s.rollback key c pc cons).thread? key = some v) : u = v := by
    subst hc
    exact Option.some.inj (after.symm.trans h)
  obtain ⟨cue, wait, on, since, dog, paused, held, cell⟩ : SameButCue (t.rolledBack pc) u := same
  refine ⟨u, after, by rw [cell]; rfl, by rw [cell]; rfl, fun n => by rw [cell]; exact rolledBack_cell rest pc n, by rw [cell]; rfl,
    by rw [cell]; rfl, by rw [cell]; rfl, by rw [cell]; rfl, by rw [cell]; rfl, by rw [cell]; rfl, fun va a hc need => ?_,
    fun va a hc need => ?_, fun va hc need down => ?_⟩
  case refine_1 => rw [parked hc (rollback_page here need pc cons)]; exact ⟨rfl, rfl, rfl⟩
  case refine_2 => rw [parked hc (rollback_host here need pc cons)]; exact ⟨rfl, rfl⟩
  case refine_3 => rw [parked hc (rollback_link here need down pc cons)]; exact ⟨rfl, rfl⟩

end Sys2Proof.Machine
end

section
/-! The steps of the other agents at the head of the agenda (log entries 1 and 135). -/

namespace Sys2Proof.Machine

/-- A boot moves from every state. -/
theorem move_boot (s : State) (found : BootIn) : s.move (.event (.boot found)) = settleStep (exec (.boot found) { s with upset := [] }) := rfl

/-- What moves in a package that has power and is not held back by a boot that has failed is exec of its row. -/
theorem move_event {s : State} {i : Instr} (powered : s.pkg.powered = true) (able : s.root.recovery = false ∨ Instr.inRecovery i = true) :
    s.move (.event i) = settleStep (exec i { s with upset := [] }) := by
  have runs : (s.root.recovery && !Instr.inRecovery i) = false := by
    rcases able with booted | allowed
    · rw [booted, Bool.false_and]
    · rw [allowed, Bool.not_true, Bool.and_false]
  unfold State.move
  split
  case h_2 found same =>
    obtain rfl := Move.event.inj same
    rfl
  case h_4 j _ same =>
    obtain rfl := Move.event.inj same
    rw [powered, runs]
    rfl
  all_goals contradiction

/-- Settles O6: the head of the agenda moves after its wait, a boot without a condition. -/
theorem stepRunsTheEvent : Obligations.StepRunsTheEvent := by
  unfold Obligations.StepRunsTheEvent
  intro s i wait r head s1 able
  have moves : step s = s1.move (.event i) := by rw [step, head]
  rcases able with ⟨found, rfl⟩ | ⟨powered, able⟩
  · exact moves.trans (move_boot s1 found)
  · exact moves.trans (move_event powered able)

end Sys2Proof.Machine
end

section
/-! Boot, firmware and attestation (spec/21 R447 to R451). -/

namespace Sys2Proof.Machine

/-! Boot: it runs from every state and starts from a reset of the package (log entry 12). -/

/-- The image that a boot measures: the one that an update has staged, else the one in flash (R448). -/
def State.bootImage (s : State) : Image := s.root.staged.getD s.root.flash

/-- A boot clears memory, threads and contexts (log entry 12) and stores the staged image. -/
theorem boot_clears (s : State) (b : BootIn) :
    let t := s.packageReset.bootSteps b
    t.mem = [] ∧ t.threads = [] ∧ t.ctxs = [] ∧ t.root.flash = s.bootImage := by
  dsimp only
  unfold State.bootSteps
  split
  · exact ⟨rfl, rfl, rfl, rfl⟩
  · dsimp only
    split <;> exact ⟨rfl, rfl, rfl, rfl⟩

/-- A root section that verifies is measured, with the policy of the edge ports (R447). -/
theorem boot_measures_root (s : State) {b : BootIn} (ok : b.rootOk = true) :
    let t := s.packageReset.bootSteps b
    t.pkg.egpol = b.egpol ∧ t.root.policy = true ∧ t.root.mr0 = extend (List.replicate 32 0) s.bootImage.root
      ∧ t.root.mr2 = extend (List.replicate 32 0) (toBytes 2 b.egpol.toNat) := by
  simp only [State.bootSteps, ok, Bool.not_true, Bool.false_eq_true, if_false]
  split <;> exact ⟨rfl, rfl, rfl, rfl⟩

/-- Where the service section verifies too, it and the spare map (`Config.spareMap`, log entry 133) are measured, and the service cores are
released (R447). -/
theorem boot_releases (s : State) {b : BootIn} (ok : b.rootOk = true) (service : b.serviceOk = true) :
    let t := s.packageReset.bootSteps b
    t.root.recovery = false ∧ t.root.released = true ∧ t.root.mr1 = extend (List.replicate 32 0) s.bootImage.service
      ∧ t.root.mr3 = extend (List.replicate 32 0) (Config.spareMap s.pkg.used) := by
  dsimp only
  unfold State.bootSteps
  rw [if_neg (by simp [ok]), if_neg (by simp [service])]
  exact ⟨rfl, rfl, rfl, rfl⟩

/-- A section that does not verify leaves the package in recovery (R447). -/
theorem boot_fails (s : State) {b : BootIn} (bad : b.rootOk = false ∨ b.serviceOk = false) :
    let t := s.packageReset.bootSteps b
    t.root.recovery = true ∧ t.root.released = false := by
  dsimp only
  unfold State.bootSteps
  split
  · exact ⟨rfl, rfl⟩
  · next rootOk =>
    have service : b.serviceOk = false := bad.resolve_left (by simpa using rootOk)
    rw [if_pos (by rw [service, Bool.not_false])]
    exact ⟨rfl, rfl⟩

/-! Firmware (R448). -/

theorem accepts_iff (s : State) (i : Image) : s.accepts i = true ↔ i.good = true ∧ s.root.minVersion ≤ i.version := by
  simp [State.accepts]

theorem firmwareUpdate_eq (s : State) (i : Image) :
    exec (.firmwareUpdate i) s = .next (if s.accepts i then { s with root := { s.root with staged := some i } } else s) := rfl

/-- The recovery command for the image that stands in the window (log entry 133). -/
theorem recoveryLoad_eq {s : State} {i : Image} (window : i = s.windowImage i.good) :
    exec (.recoveryLoad i) s
      = .next (if s.accepts i then State.packageReset { s with root := { s.root with staged := some i } } else s) :=
  if_neg (ne_true_of_eq_false (bne_eq_false_iff_eq.mpr window))

/-! Attestation (R449 to R451). -/

/-- ATTCMD after a command: its error where a report is being made or the index is used up, else BUSY (R450). -/
def State.askedReport (s : State) : Dword :=
  if bit s.pkg.attcmd.toNat 62 = true then setD s.pkg.attcmd 55 48 3
  else if 2 ^ 40 ≤ s.root.index then setD s.pkg.attcmd 55 48 1 else setD s.pkg.attcmd 62 62 1

theorem attestationRequest_eq {s : State} {v : Dword} (go : bit v.toNat 63 = true) :
    exec (.attestationRequest v) s = .next { s with pkg := { s.pkg with attcmd := s.askedReport } } := by
  refine congrArg Host.Outcome.next ?_
  simp only [State.writeAttcmd, State.askedReport, go, Bool.not_true, Bool.false_eq_true, if_false]
  split
  · rfl
  · split <;> rfl

theorem askedReport_busy {s : State} (busy : bit s.pkg.attcmd.toNat 62 = true) : df s.askedReport 55 48 = 3 := by
  rw [State.askedReport, if_pos busy]
  exact df_setD_same _ (by decide) (by decide) (by decide)

theorem askedReport_used {s : State} (idle : bit s.pkg.attcmd.toNat 62 = false) (used : 2 ^ 40 ≤ s.root.index) :
    df s.askedReport 55 48 = 1 := by
  rw [State.askedReport, if_neg (ne_true_of_eq_false idle), if_pos used]
  exact df_setD_same _ (by decide) (by decide) (by decide)

theorem askedReport_taken {s : State} (idle : bit s.pkg.attcmd.toNat 62 = false) (left : s.root.index < 2 ^ 40) :
    bit s.askedReport.toNat 62 = true := by
  rw [State.askedReport, if_neg (ne_true_of_eq_false idle), if_neg (Nat.not_le.mpr left)]
  exact bit_setD_same _ _ (by decide) (by decide) (by decide)

theorem length_fit (n : Nat) (l : List Byte) : (fit n l).length = n := by simp [fit]

/-- The body of a report fills the bytes 0x000 to 0x0FF (R450). -/
theorem length_reportBody (s : State) : s.reportBody.length = 0x100 := by
  simp only [State.reportBody, identityOid, bigEndian, List.length_append, List.length_flatMap, List.length_reverse, length_toBytes,
    length_fit]
  rfl

/-- The end of a report whose index reads back: the index is used, the report is 0x100 + 9893 bytes long (R450, R451). -/
theorem reportDone_stored {s : State} (busy : bit s.pkg.attcmd.toNat 62 = true) :
    ∃ t, exec (.attestationReportDone true) s = .next t ∧ bit t.pkg.attcmd.toNat 62 = false ∧ t.root.index = s.root.index + 1
      ∧ t.root.report.length = 0x100 + 9893 := by
  have begun : (!bit s.pkg.attcmd.toNat 62) ≠ true := by simp [busy]
  refine ⟨_, if_neg begun, bit_setD_same _ _ (by decide) (by decide) (by decide), rfl, ?_⟩
  exact List.length_append.trans (congrArg₂ _ (length_reportBody s) (length_fit _ _))

/-- The end of one whose index does not: error 2, and no index is used (R451). -/
theorem reportDone_lost {s : State} (busy : bit s.pkg.attcmd.toNat 62 = true) :
    ∃ t, exec (.attestationReportDone false) s = .next t ∧ bit t.pkg.attcmd.toNat 62 = false ∧ df t.pkg.attcmd 55 48 = 2
      ∧ t.root.index = s.root.index := by
  have begun : (!bit s.pkg.attcmd.toNat 62) ≠ true := by simp [busy]
  refine ⟨_, if_neg begun, ?_, df_setD_same _ (by decide) (by decide) (by decide), rfl⟩
  exact (bit_setD_other _ _ (by decide) (by decide) (by decide)).trans (bit_setD_same _ _ (by decide) (by decide) (by decide))

/-- Settles O57, a clause for each step. That a boot runs from every state and clears memory, threads and contexts is log entry 12; what MR3
measures and what the window holds are the free functions of log entry 133. -/
theorem trustSteps : Obligations.TrustSteps := by
  unfold Obligations.TrustSteps
  intro s
  refine ⟨fun b => ?boot, fun i => ⟨accepts_iff s i, fun ok => ⟨?update, fun window => ?load⟩, fun bad => ⟨?refused, fun window => ?unloaded⟩⟩,
    fun v go => ⟨_, attestationRequest_eq go, askedReport_busy, askedReport_used, askedReport_taken⟩, fun busy => ⟨reportDone_stored busy, reportDone_lost busy⟩⟩
  case boot =>
    obtain ⟨mem, threads, ctxs, flash⟩ := boot_clears s b
    exact ⟨_, rfl, mem, threads, ctxs, flash, fun ok => boot_measures_root s ok, fun ok service => boot_releases s ok service,
      fun bad => boot_fails s bad⟩
  case update => exact ⟨_, (firmwareUpdate_eq s i).trans (congrArg _ (if_pos ok)), rfl, rfl, rfl⟩
  case load => exact ⟨_, (recoveryLoad_eq window).trans (congrArg _ (if_pos ok)), rfl, rfl, rfl⟩
  case refused => exact (firmwareUpdate_eq s i).trans (congrArg _ (if_neg (ne_true_of_eq_false bad)))
  case unloaded => exact (recoveryLoad_eq window).trans (congrArg _ (if_neg (ne_true_of_eq_false bad)))

end Sys2Proof.Machine
end

section
/-! Edge port groups (spec/19 R405, R414 to R416, R420). -/

namespace Sys2Proof.Machine

/-! What the routing of held messages changes. -/

/-- The states differ at most in their threads, operations, clusters and what has gone out. -/
def Routed (s t : State) : Prop :=
  ∃ threads ops clusters sent, t = { s with threads := threads, ops := ops, clusters := clusters, sent := sent }

theorem Routed.refl (s : State) : Routed s s := ⟨_, _, _, _, rfl⟩

theorem Routed.trans {a b c : State} (h : Routed a b) (h' : Routed b c) : Routed a c := by
  obtain ⟨_, _, _, _, rfl⟩ := h
  obtain ⟨_, _, _, _, rfl⟩ := h'
  exact ⟨_, _, _, _, rfl⟩

theorem goOut_routed (s : State) (k : Nat) : Routed s (s.goOut k) := by
  unfold State.goOut
  (repeat' split) <;> exact ⟨_, _, _, _, rfl⟩

theorem routeReason_routed (s : State) (k : Nat) : Routed s (s.routeReason k) := by
  unfold State.routeReason
  split <;> exact ⟨_, _, _, _, rfl⟩

theorem depart_routed (s : State) (k : Nat) : Routed s (s.depart k) := by
  unfold State.depart
  split
  · exact (goOut_routed s k).trans (routeReason_routed _ k)
  · exact (goOut_routed s k).trans (routeReason_routed _ k)
  · exact goOut_routed s k

theorem sendHeld_routed (s : State) (k : Nat) : Routed s (s.sendHeld k) := by
  unfold State.sendHeld
  (repeat' split) <;> exact ⟨_, _, _, _, rfl⟩

theorem sendCommit_routed (s : State) (key : Nat) : Routed s (s.sendCommit key) := by
  unfold State.sendCommit
  (repeat' split) <;> exact ⟨_, _, _, _, rfl⟩

theorem sendSpawn_routed (s : State) (c : Nat) (m : Msg) : Routed s (s.sendSpawn c m) := by
  unfold State.sendSpawn
  (repeat' split) <;> exact ⟨_, _, _, _, rfl⟩

theorem sendSpawns_routed (s : State) (c : Nat) : Routed s (s.sendSpawns c) :=
  foldl_related Routed.refl Routed.trans _ (fun s m => sendSpawn_routed s c m) _ s

theorem routeHeld_routed (s : State) : Routed s s.routeHeld := by
  unfold State.routeHeld
  have spawns (u : State) (l : Map Cluster) : Routed u (l.foldl (fun s (x : Nat × Cluster) => s.sendSpawns x.1) u) :=
    foldl_related Routed.refl Routed.trans _ (fun s x => sendSpawns_routed s x.1) l u
  have commits (u : State) (l : Map Thread) : Routed u (l.foldl (fun s (x : Nat × Thread) => s.sendCommit x.1) u) :=
    foldl_related Routed.refl Routed.trans _ (fun s x => sendCommit_routed s x.1) l u
  refine Routed.trans (foldl_related Routed.refl Routed.trans _ (fun u ⟨k, o⟩ => ?_) s.ops s) ((commits _ _).trans (spawns _ _))
  dsimp only
  split
  · exact .refl u
  · split
    · exact depart_routed u _
    · exact depart_routed u _
    · exact depart_routed u _
    · exact depart_routed u _
    · exact sendHeld_routed u _
    · exact .refl u

/-- Held messages are routed without a change of a group. -/
theorem routeHeld_egs (s : State) : s.routeHeld.egs = s.egs := by
  obtain ⟨_, _, _, _, h⟩ := routeHeld_routed s
  rw [h]

/-! GO (R405, R414). -/

section
variable {s : State} {n : Nat} {v : Dword} (group : n < 16) (go : bit v.toNat 7 = true)
include group go

theorem personalitySwitch_eq : exec (.personalitySwitch n v) s = .next (s.writeEgctl n v) :=
  if_neg (by simp [go, group])

/-- A reserved personality is refused with code 0x01, whatever else holds (log entry 136). -/
theorem personalitySwitch_reserved (want : 4 ≤ df v 2 0) :
    exec (.personalitySwitch n v) s = .next (s.setEg n { s.eg n with err := 1 }) := by
  rw [personalitySwitch_eq group go, State.writeEgctl, if_pos want]

/-- GO in a switch, or for a personality that the pod does not allow, is refused with code 0x02. -/
theorem personalitySwitch_refused (want : df v 2 0 < 4)
    (bad : (s.eg n).step ≠ 0 ∨ (2 ≤ df v 2 0 ∧ bit s.pkg.podctl.toNat 24 = false)) :
    exec (.personalitySwitch n v) s = .next (s.setEg n { s.eg n with err := 2 }) := by
  rw [personalitySwitch_eq group go, State.writeEgctl, if_neg (Nat.not_le.mpr want), if_pos go, if_pos (by simpa using bad)]

theorem personalitySwitch_starts (want : df v 2 0 < 4) (still : (s.eg n).step = 0)
    (pod : 2 ≤ df v 2 0 → bit s.pkg.podctl.toNat 24 = true) :
    exec (.personalitySwitch n v) s = .next ((s.setEg n { s.eg n with newpers := df v 2 0 }).startSwitch n) := by
  rw [personalitySwitch_eq group go, State.writeEgctl, if_neg (Nat.not_le.mpr want), if_pos go, if_neg (by simpa [still] using pod)]

end

/-! The notice and the steps of a switch that other agents end. -/

section
variable {s : State} {n : Nat}

theorem quiesceNotice_eq (group : n < 16) (still : (s.eg n).step = 0) :
    exec (.quiesceNotice n) s = .next (s.modEg n fun g => { g with quiet := true }) :=
  if_neg (by simp [still, group])

theorem switchDrainEnd_eq (drain : (s.eg n).step = 2) (done : s.drained n = true) : exec (.switchDrainEnd n) s = .next (s.fenceStep n) :=
  if_neg (by simp [drain, done])

theorem switchDrainBound_eq (applied : List Nat) (drain : (s.eg n).step = 2) (left : s.drained n = false)
    (late : (s.eg n).stepSince + 1000 * ticksPerUs ≤ s.now) :
    exec (.switchDrainBound n applied) s
      = .next (((s.modEg n fun g => { g with err := 6 }).fence n 0x13 applied false).fenceStep n) :=
  if_neg (by simp [drain, left, late])

theorem lossOfLight_eq (applied : List Nat) (still : (s.eg n).step = 0) (low : 1 ≤ (s.eg n).pers) (high : (s.eg n).pers ≤ 3) :
    exec (.lossOfLight n applied) s
      = .next (((s.modEg n fun g => { g with los := true, was := g.pers, pers := 7 }).clearRoutes n).fence n 0x03 applied true) :=
  if_neg (by simp [still, show (s.eg n).pers ≠ 0 by omega, high])

theorem switchRetrainDone_eq (trained : Bool) (training : (s.eg n).step = 4) (policy : s.root.policy = true) :
    exec (.switchRetrainDone n trained) s
      = if trained then .next (s.modEg n fun g => { g with fec := s.trainedFec n, step := 5, stepSince := s.now })
        else .next (s.switchFails n 4) :=
  if_neg (by simp [training, policy])

theorem switchExchangeDone_mismatch (exchange : (s.eg n).step = 5) :
    exec (.switchExchangeDone n .mismatch) s = .next (s.switchFails n 3) :=
  if_neg (by simp [exchange])

theorem switchExchangeDone_badRanges (exchange : (s.eg n).step = 5) (goal : (s.eg n).goal = 1) :
    exec (.switchExchangeDone n .badRanges) s = .next (s.switchFails n 5) :=
  (if_neg (by simp [exchange])).trans (if_pos goal)

/-- A switch to the memory personality installs the ranges where they fit the expanders (R408). -/
theorem switchExchangeDone_ranges (peers pods expanders : List Nat) (exchange : (s.eg n).step = 5) (goal : (s.eg n).goal = 1)
    (plain : bit s.pkg.egpol.toNat n = false) (fit : rangesOk (s.eg n).valid expanders = true) :
    exec (.switchExchangeDone n (.ok peers pods expanders)) s
      = .next ((s.modEg n fun g => { g with installed := (s.eg n).valid }).enterStep n 6 s.now) := by
  refine (if_neg (by simp [exchange])).trans ?_
  simp only [plain, goal, fit, Bool.false_eq_true, if_false, if_true]
  rfl

/-- Keys of an encrypted group in service are counted (R420; log entry 100). -/
theorem keyRotation_eq (group : n < 16) (encrypted : bit s.pkg.egpol.toNat n = true) (low : 1 ≤ (s.eg n).pers) (high : (s.eg n).pers ≤ 3) :
    exec (.keyRotation n) s = .next (s.modEg n fun g => { g with keys := g.keys + 1 }) :=
  if_neg (by simp [encrypted, group, show (s.eg n).pers ≠ 0 by omega, high])

/-- EGSTAT as it is read; WFAIL is clear after it (R405). -/
theorem egstatRead_eq (group : n < 16) :
    exec (.egstatRead n) s = .next ((s.send (.register (s.egstat n))).modEg n fun g => { g with wfail := 0 }) := by
  refine (if_neg (Nat.not_le.mpr group)).trans ?_
  have value : (s.regValue .egstat n).extractLsb' 0 64 = s.egstat n := by
    apply BitVec.eq_of_toNat_eq
    exact (BitVec.toNat_ofNat _ _).trans (by simp [State.regValue, State.reg64, Nat.mod_eq_of_lt (s.egstat n).isLt])
  rw [value]

/-! The steps that end by themselves (R414). -/

/-- Such a step ends within its bound; how long within it is log entry 132's. -/
theorem switchTicks_lt (n step now : Nat) : switchTicks n step now < switchBound step := by
  have bound : 10 * ticksPerUs ≤ switchBound step := Nat.mul_le_mul_right _ (by split <;> [skip; split] <;> decide)
  have tick : 10 * ticksPerUs = 480000 := rfl
  have := Nat.mod_lt (Config.duration (16 + step) (16 * now + n)) (show 0 < switchBound step - 1 by omega)
  unfold switchTicks
  omega

theorem enterStep_step (s : State) (n step since : Nat) : ((s.enterStep n step since).eg n).step = step := by simp [State.enterStep]

section
variable (due : (s.eg n).ends ≤ s.now)
include due

theorem stepEdge_quiesced (h : (s.eg n).step = 1) : ((s.stepEdge n).eg n).step = 2 := by
  simp [State.stepEdge, Nat.not_lt.mpr due, h]

theorem stepEdge_fenced (h : (s.eg n).step = 3) : ((s.stepEdge n).eg n).step = if (s.eg n).goal = 0 then 7 else 4 := by
  simp only [State.stepEdge, Nat.not_lt.mpr due, h, if_false]
  split
  · exact enterStep_step s n 7 _
  · rw [eg_modEg]

theorem stepEdge_installed (h : (s.eg n).step = 6) : ((s.stepEdge n).eg n).step = 7 := by
  simp only [State.stepEdge, Nat.not_lt.mpr due, h, if_false]
  exact enterStep_step s n 7 _

/-- The end of a switch puts its personality in force. -/
theorem stepEdge_resumed (h : (s.eg n).step = 7) : ((s.stepEdge n).eg n).step = 0 ∧ ((s.stepEdge n).eg n).pers = (s.eg n).goal := by
  have forced : (s.stepEdge n).eg n = { s.eg n with pers := (s.eg n).goal, step := 0, quiet := false } := by
    have resumes : s.stepEdge n = s.inForce n (s.eg n).goal := by simp [State.stepEdge, Nat.not_lt.mpr due, h]
    rw [resumes, State.inForce, State.eg, routeHeld_egs]
    exact eg_modEg s n _
  rw [forced]
  exact ⟨rfl, rfl⟩

end

end

/-- Settles O53, a clause for each step. -/
theorem edgeGroupSteps : Obligations.EdgeGroupSteps := by
  unfold Obligations.EdgeGroupSteps
  intro s n group
  exact ⟨fun v go => ⟨personalitySwitch_reserved group go, personalitySwitch_refused group go, personalitySwitch_starts group go⟩,
    fun still => ⟨_, quiesceNotice_eq group still, by rw [eg_modEg]⟩,
    switchDrainEnd_eq,
    switchDrainBound_eq,
    lossOfLight_eq,
    fun training policy => ⟨⟨_, switchRetrainDone_eq true training policy, by rw [eg_modEg], by rw [eg_modEg]⟩,
      switchRetrainDone_eq false training policy⟩,
    fun exchange => ⟨switchExchangeDone_mismatch exchange, switchExchangeDone_badRanges exchange,
      fun peers pods expanders => switchExchangeDone_ranges peers pods expanders exchange⟩,
    fun encrypted low high => ⟨_, keyRotation_eq group encrypted low high, by rw [eg_modEg]⟩,
    fun now => ⟨switchTicks_lt n 1 now, switchTicks_lt n 3 now, switchTicks_lt n 6 now, switchTicks_lt n 7 now⟩,
    fun due => ⟨stepEdge_quiesced due, stepEdge_fenced due, stepEdge_installed due, stepEdge_resumed due⟩,
    _, egstatRead_eq group, rfl, by rw [eg_modEg]⟩

end Sys2Proof.Machine
end

section
/-! Enabling, ending, modes and switching of contexts (spec/17 R366 to R369, R376, R380). -/

namespace Sys2Proof.Machine

/-! What the clocks and the repairs leave: a change of a partition's clock is one of rows, a repair that begins is written by the device. -/

/-- The states differ at most in their die rows and in the frames to be zero-filled. -/
def OnlyRows (s t : State) : Prop := ∃ rows zeroPend, t = { s with rows := rows, zeroPend := zeroPend }

theorem OnlyRows.refl (s : State) : OnlyRows s s := ⟨_, _, rfl⟩

theorem OnlyRows.trans {a b c : State} (h : OnlyRows a b) (h' : OnlyRows b c) : OnlyRows a c := by
  obtain ⟨_, _, rfl⟩ := h
  obtain ⟨_, _, rfl⟩ := h'
  exact ⟨_, _, rfl⟩

theorem OnlyRows.ctx {s t : State} (h : OnlyRows s t) (c : Nat) : t.ctx c = s.ctx c := by
  obtain ⟨_, _, rfl⟩ := h
  rfl

theorem modRow_onlyRows (s : State) (r : Nat) (f : Row → Row) : OnlyRows s (s.modRow r f) := ⟨_, _, rfl⟩

theorem reclock_onlyRows (s : State) (part : Nat) : OnlyRows s (s.reclock part) := by
  unfold State.reclock
  split
  · exact .refl s
  · refine foldl_related OnlyRows.refl OnlyRows.trans _ (fun s r => ?_) _ s
    split
    · exact .refl s
    · exact modRow_onlyRows s _ _

theorem DeviceWrote.ite {s a b : State} {p : Prop} [Decidable p] (h : DeviceWrote s a) (h' : DeviceWrote s b) :
    DeviceWrote s (if p then a else b) := by
  split
  · exact h
  · exact h'

theorem msix_deviceWrote (s : State) (v : Nat) : DeviceWrote s (s.msix v) := by
  unfold State.msix
  split
  · exact .refl s
  · exact ⟨_, _, _, _, _, _, _, _, _, _, rfl⟩

theorem putReliability_deviceWrote (s : State) (cls code unit kind ctx addr wear : Nat) :
    DeviceWrote s (s.putReliability cls code unit kind ctx addr wear) := by
  have pkgs (u : State) (p : Pkg) : DeviceWrote u { u with pkg := p } := ⟨_, _, _, _, _, _, _, _, _, _, rfl⟩
  have recorded (pa : Nat) (l : List Byte) (p : Pkg) : DeviceWrote s { s.deviceWrite pa l with pkg := p } :=
    (deviceWrite_deviceWrote s pa l).trans (pkgs _ p)
  unfold State.putReliability
  dsimp only
  split
  · exact pkgs s _
  · exact .ite (pkgs s _) (.ite ((recorded _ _ _).trans (msix_deviceWrote _ _)) (recorded _ _ _))

theorem startRepair_deviceWrote (s : State) (held : List Nat) (r : Repair) : DeviceWrote s (State.startRepair (s, held) r).1 := by
  have pkgs (p : Pkg) : DeviceWrote s { s with pkg := p } := ⟨_, _, _, _, _, _, _, _, _, _, rfl⟩
  simp only [State.startRepair, apply_ite Prod.fst]
  exact .ite (.refl s) (.ite (.refl s) (.ite ((pkgs _).trans (putReliability_deviceWrote _ _ _ _ _ _ _ _)) (.ite (.refl s) (pkgs _))))

theorem startRepairs_deviceWrote (s : State) : DeviceWrote s s.startRepairs :=
  foldl_related (R := fun (a b : State × List Nat) => DeviceWrote a.1 b.1) (fun a => .refl a.1) (fun h h' => h.trans h') State.startRepair
    (fun a r => startRepair_deviceWrote a.1 a.2 r) s.pkg.repairs (s, [])

theorem DeviceWrote.units {s t : State} (h : DeviceWrote s t) : t.threads = s.threads ∧ t.ops = s.ops := by
  obtain ⟨_, _, _, _, _, _, _, _, _, _, rfl⟩ := h
  exact ⟨rfl, rfl⟩

/-! Bits and fields of the words of a context. -/

theorem bit_and (v m : Dword) (n : Nat) : bit (v &&& m).toNat n = (bit v.toNat n && bit m.toNat n) := by
  rw [bit, BitVec.toNat_and, Nat.testBit_and]
  rfl

/-- The low bits of a number are its fields there. -/
theorem fld_mod (v : Nat) {w hi : Nat} (lo : Nat) (low : hi < w) : fld (v % 2 ^ w) hi lo = fld v hi lo := by
  apply Nat.eq_of_testBit_eq
  intro i
  rw [testBit_fld, testBit_fld, Nat.testBit_mod_two_pow]
  by_cases inside : i < hi + 1 - lo
  · simp [inside, show lo + i < w by omega]
  · simp [inside]

theorem ctx_setErr (s : State) (c code : Nat) (small : code < 256) :
    df ((s.setCtx c ((s.ctx c).setErr code)).ctx c).stat 7 0 = code := by
  rw [ctx_setCtx]
  exact df_setD_same _ (by decide) (by decide) small

/-! CTXCTL (R367, R369). -/

section
variable {s : State} {c : Nat} {v : Dword} (num : c < 64)
include num

theorem contextEnable_eq (on : bit v.toNat 63 = true) : exec (.contextEnable c v) s = .next (s.writeCtl c v) :=
  if_neg (by simp [num, on])

theorem contextEnd_eq (off : bit v.toNat 63 = false) : exec (.contextEnd c v) s = .next (s.writeCtl c v) :=
  if_neg (by simp [num, off])

omit num in
/-- PART stands while a context is enabled (R367). -/
theorem writeCtl_part (en : (s.ctx c).en = true) (part : df v 57 53 ≠ (s.ctx c).part) :
    s.writeCtl c v = s.setCtx c ((s.ctx c).setErr 4) := by
  simp [State.writeCtl, en, part]

omit num in
theorem writeCtl_enables (on : bit v.toNat 63 = true) (en : (s.ctx c).en = false) : s.writeCtl c v = s.enable c v := by
  simp [State.writeCtl, en, on]

omit num in
theorem writeCtl_ends (off : bit v.toNat 63 = false) (en : (s.ctx c).en = true) (part : df v 57 53 = (s.ctx c).part) :
    s.writeCtl c v = s.disable c v := by
  simp [State.writeCtl, en, part, off]

end

theorem enable_refused {s : State} {c e : Nat} {v : Dword} (refused : s.enableRefused c v = some e) :
    s.enable c v = s.setCtx c ((s.ctx c).setErr e) := by simp only [State.enable, refused]

theorem enableRefused_lt {s : State} {c e : Nat} {v : Dword} (refused : s.enableRefused c v = some e) : e < 256 := by
  unfold State.enableRefused at refused
  dsimp only at refused
  split at refused
  · cases refused; decide
  · split at refused
    · cases refused; decide
    · split at refused <;> cases refused
      decide

/-- An enabled context starts with its curtain up and nothing of an earlier run. -/
theorem enable_opened {s : State} {c : Nat} {v : Dword} (taken : s.enableRefused c v = none) :
    (s.enable c v).ctx c = (s.ctx c).opened (v &&& ctlMask) := by
  simp only [State.enable, taken]
  rw [(reclock_onlyRows _ _).ctx]
  refine Eq.trans ?_ (ctx_setCtx s c _)
  split
  · rfl
  · refine (foldl_related OnlyRows.refl OnlyRows.trans _ (fun s r => ?_) _ _).ctx c
    split
    · exact .refl s
    · exact OnlyRows.trans ⟨_, _, rfl⟩ (modRow_onlyRows (s.pendRow r) r _)

theorem opened_en (x : Ctx) {v : Dword} (on : bit v.toNat 63 = true) : (x.opened (v &&& ctlMask)).en = true := by
  have mask : bit ctlMask.toNat 63 = true := by decide
  rw [Ctx.en, Ctx.opened, bit_and, on, mask, Bool.and_self]

theorem opened_low (x : Ctx) (ctl : Dword) : (x.opened ctl).low = false := by
  have mask : bit (0x00000000FFFF0000 : Dword).toNat 63 = false := by decide
  rw [Ctx.low, Ctx.opened, bit_and, mask, Bool.and_false]

/-! The end of a context (R369; log entry 19). -/

theorem dropContext_clears (s : State) (c : Nat) :
    (∀ x ∈ (s.dropContext c).threads, x.2.ctx ≠ c) ∧ ∀ x ∈ (s.dropContext c).ops, x.2.ctx ≠ c := by
  refine ⟨fun x hx => ?_, fun x hx => ?_⟩
  · simpa using (List.mem_filter.mp hx).2
  · simpa using (List.mem_filter.mp hx).2

/-- After an end the clock may change and repairs may begin: contexts, threads and operations stand. -/
theorem reclock_startRepairs (s : State) (part : Nat) :
    (s.reclock part).startRepairs.ctxs = s.ctxs ∧ (s.reclock part).startRepairs.threads = s.threads
      ∧ (s.reclock part).startRepairs.ops = s.ops := by
  have written := startRepairs_deviceWrote (s.reclock part)
  obtain ⟨threads, ops⟩ := written.units
  rw [written.ctxs, threads, ops]
  obtain ⟨_, _, clocked⟩ := reclock_onlyRows s part
  rw [clocked]
  exact ⟨rfl, rfl, rfl⟩

/-- A context that ends is disabled; none of its threads and operations stays. -/
theorem disable_clears (s : State) (c : Nat) (v : Dword) :
    ((s.disable c v).ctx c).en = false ∧ (∀ x ∈ (s.disable c v).threads, x.2.ctx ≠ c) ∧ ∀ x ∈ (s.disable c v).ops, x.2.ctx ≠ c := by
  obtain ⟨threads, ops⟩ := dropContext_clears ((s.cancelActs c fun _ => true).endGuests c) c
  unfold State.disable
  extract_lets part pasid s1 s2 s3
  obtain ⟨ctxs', threads', ops'⟩ := reclock_startRepairs (s3.send (.stopMarker pasid)) part
  rw [State.ctx, ctxs', threads', ops', State.send_ctxs, State.send_threads, State.send_ops]
  refine ⟨?_, threads, ops⟩
  exact (congrArg Ctx.en (ctx_modCtx s2 c _)).trans (bit_setD_same _ _ (by decide) (by decide) (by decide))

/-! CTXMODE (R367, log entry 18). -/

/-- The value of a write to CTXMODE has a reserved code. -/
def badMode (v : Dword) : Prop := df v 10 9 = 3 ∨ df v 7 6 = 3 ∨ df v 5 4 = 3 ∨ df v 1 0 = 3

/-- It changes a field that stands while the context is enabled. -/
def movesFixed (c : Ctx) (v : Dword) : Prop := c.en = true ∧ (v ^^^ c.mode) &&& 0xFC ≠ 0

theorem low_mode (v : Dword) : BitVec.ofNat 64 (v.toNat % 2 ^ 12) = v &&& 0xFFF := by
  apply BitVec.eq_of_toNat_eq
  rw [BitVec.toNat_ofNat, BitVec.toNat_and, Nat.mod_eq_of_lt (by omega)]
  exact (Nat.and_two_pow_sub_one_eq_mod v.toNat 12).symm

theorem movesFixed_iff (c : Ctx) (v : Dword) :
    (c.en = true ∧ (Nat.xor (v.toNat % 2 ^ 12) c.mode.toNat &&& modeFixed != 0) = true) ↔ movesFixed c v := by
  refine and_congr_right fun _ => ?_
  have same : Nat.xor (v.toNat % 2 ^ 12) c.mode.toNat &&& modeFixed = ((v ^^^ c.mode) &&& 0xFC).toNat := by
    apply Nat.eq_of_testBit_eq
    intro i
    rw [BitVec.toNat_and, BitVec.toNat_xor, Nat.testBit_and, Nat.testBit_and, Nat.testBit_xor]
    change (Nat.testBit (v.toNat % 2 ^ 12 ^^^ c.mode.toNat) i && Nat.testBit 0xFC i) = _
    rw [Nat.testBit_xor, Nat.testBit_mod_two_pow]
    by_cases low : i < 12
    · simp [low]
    · have high : Nat.testBit 0xFC i = false := Nat.testBit_lt_two_pow (lt_of_lt_of_le (by decide) (Nat.pow_le_pow_right (by decide) (not_lt.mp low)))
      have high' : (0xFC : Dword).toNat.testBit i = false := high
      rw [high, high', Bool.and_false, Bool.and_false]
  rw [same, bne_iff_ne, ne_eq, ne_eq, ← BitVec.toNat_inj]
  rfl

/-- A write to CTXMODE: refused for a reserved code first, then for a fixed field. -/
theorem writeMode_eq (s : State) (c : Nat) (v : Dword) :
    (badMode v → s.writeMode c v = s.setCtx c ((s.ctx c).setErr 3))
    ∧ (¬badMode v → movesFixed (s.ctx c) v → s.writeMode c v = s.setCtx c ((s.ctx c).setErr 4))
    ∧ (¬badMode v → ¬movesFixed (s.ctx c) v → OnlyRows (s.setCtx c { s.ctx c with mode := v &&& 0xFFF }) (s.writeMode c v)) := by
  have bad : (fld (v.toNat % 2 ^ 12) 10 9 = 3 ∨ fld (v.toNat % 2 ^ 12) 7 6 = 3 ∨ fld (v.toNat % 2 ^ 12) 5 4 = 3
      ∨ fld (v.toNat % 2 ^ 12) 1 0 = 3) ↔ badMode v := by
    rw [fld_mod _ _ (by decide), fld_mod _ _ (by decide), fld_mod _ _ (by decide), fld_mod _ _ (by decide)]
    rfl
  unfold State.writeMode
  dsimp only
  refine ⟨fun h => if_pos (bad.mpr h), fun h fixed => ?_, fun h free => ?_⟩
  · rw [if_neg (mt bad.mp h), if_pos ((movesFixed_iff _ v).mpr fixed)]
  · rw [if_neg (mt bad.mp h), if_neg (mt (movesFixed_iff _ v).mp free), low_mode]
    split
    · exact reclock_onlyRows _ _
    · exact .refl _

theorem ctxmodeWrite_eq {s : State} {c : Nat} (num : c < 64) (v : Dword) : exec (.ctxmodeWrite c v) s = .next (s.writeMode c v) :=
  if_neg (Nat.not_le.mpr num)

/-- The modes of O50: what a write to CTXMODE leaves. -/
theorem ctxmodeWrite_leaves {s : State} {c : Nat} (num : c < 64) (v : Dword) :
    ∃ t, exec (.ctxmodeWrite c v) s = .next t
      ∧ (badMode v → (t.ctx c).mode = (s.ctx c).mode ∧ df (t.ctx c).stat 7 0 = 3)
      ∧ (¬badMode v → movesFixed (s.ctx c) v → (t.ctx c).mode = (s.ctx c).mode ∧ df (t.ctx c).stat 7 0 = 4)
      ∧ (¬badMode v → ¬movesFixed (s.ctx c) v → (t.ctx c).mode = v &&& 0xFFF) := by
  obtain ⟨bad, fixed, free⟩ := writeMode_eq s c v
  have refused (code : Nat) : ((s.setCtx c ((s.ctx c).setErr code)).ctx c).mode = (s.ctx c).mode := by
    rw [ctx_setCtx]
    rfl
  refine ⟨_, ctxmodeWrite_eq num v, fun h => ?_, fun h moves => ?_, fun h stays => ?_⟩
  · rw [bad h]; exact ⟨refused 3, ctx_setErr s c 3 (by decide)⟩
  · rw [fixed h moves]; exact ⟨refused 4, ctx_setErr s c 4 (by decide)⟩
  · rw [(free h stays).ctx, ctx_setCtx]

/-! The end of a clock change (R368). -/

/-- One row at its new clock: the core cycle counter goes on at the new rate. -/
def Row.clocked (v : Row) (now : Nat) (wanted : Option Nat) : Row :=
  { v with coreBase := v.cycleAt now, coreSince := now, clk := wanted.getD v.clk, clkUntil := 0, clks := (v.coreSince, v.coreBase, v.clk) :: v.clks }

/-- The rows of a partition, each at the clock that its contexts ask for. -/
def State.clockRows (s : State) (p : Nat) (rows : List Nat) : State :=
  rows.foldl (fun s r => s.modRow r fun v => v.clocked s.now (s.wantedClock p)) s

theorem wantedClock_modRow (s : State) (r p : Nat) (f : Row → Row) : (s.modRow r f).wantedClock p = s.wantedClock p := rfl

/-- A row of the list ends at the clock that is asked for. -/
theorem clockRows_row (s : State) (p r : Nat) (rows : List Nat) (k : Nat)
    (start : (r ∈ rows ∧ (s.row r).clk = k) ∨ ((s.row r).clkUntil = 0 ∧ (s.row r).clk = (s.wantedClock p).getD k)) :
    ((s.clockRows p rows).row r).clkUntil = 0 ∧ ((s.clockRows p rows).row r).clk = (s.wantedClock p).getD k := by
  induction rows generalizing s with
  | nil => exact start.resolve_left (fun h => absurd h.1 (by simp))
  | cons x rest ih =>
    refine ih (s.modRow x fun v => v.clocked s.now (s.wantedClock p)) ?_
    rw [wantedClock_modRow]
    by_cases same : r = x
    · subst same
      rw [row_modRow]
      refine Or.inr ⟨rfl, ?_⟩
      rcases start with ⟨_, clk⟩ | ⟨_, clk⟩
      · exact congrArg ((s.wantedClock p).getD ·) clk
      · change (s.wantedClock p).getD (s.row r).clk = _
        rw [clk]
        cases s.wantedClock p <;> rfl
    · rw [State.modRow, row_setRow_other _ _ _ _ same]
      exact start.imp_left fun h => ⟨(List.mem_cons.mp h.1).resolve_left same, h.2⟩

theorem clockChangeDone_row {s : State} {p r : Nat} (part : (s.partition p).1 = p) (mem : r ∈ s.partRows p) (waits : (s.row r).clkUntil ≠ 0) :
    ∃ t, exec (.clockChangeDone p) s = .next t ∧ (t.row r).clkUntil = 0 ∧ (t.row r).clk = (s.wantedClock p).getD (s.row r).clk := by
  have listed : r ∈ (s.partRows p).filter fun r => (s.row r).clkUntil != 0 := List.mem_filter.mpr ⟨mem, by simpa using waits⟩
  refine ⟨s.clockRows p ((s.partRows p).filter fun r => (s.row r).clkUntil != 0), if_neg ?_, clockRows_row s p r _ _ (Or.inl ⟨listed, rfl⟩)⟩
  rintro (empty | other)
  · rw [List.isEmpty_iff.mp empty] at listed
    exact absurd listed (by simp)
  · simp [part] at other

/-! CTXCMD (R376, R380). -/

section
variable {s : State} {c : Nat} (num : c < 64)
include num

theorem switchOut_eq : exec (.switchOut c) s = .next (s.switchCmd c 1) := if_neg (Nat.not_le.mpr num)

theorem switchIn_eq : exec (.switchIn c) s = .next (s.switchCmd c 2) := if_neg (Nat.not_le.mpr num)

theorem switchOut_refused (busy : (s.ctx c).busy = true ∨ (s.ctx c).out = true) :
    exec (.switchOut c) s = .next (s.setCtx c ((s.ctx c).setErr 6)) := by
  rw [switchOut_eq num, State.switchCmd]
  rcases busy with busy | out
  · simp [busy]
  · simp [out]

theorem switchIn_refused (busy : (s.ctx c).busy = true ∨ (s.ctx c).out = false) :
    exec (.switchIn c) s = .next (s.setCtx c ((s.ctx c).setErr 6)) := by
  rw [switchIn_eq num, State.switchCmd]
  rcases busy with busy | out
  · simp [busy]
  · simp [out]

theorem switchIn_goes (idle : (s.ctx c).busy = false) (out : (s.ctx c).out = true) :
    exec (.switchIn c) s
      = .next ((s.setCtx c { s.ctx c with stat := setD (s.ctx c).stat 10 10 1, swOut := false, swIn := true }).switchedIn c) := by
  rw [switchIn_eq num, State.switchCmd]
  simp [idle, out]

end

/-- A context whose switch-out begins: BUSY is set (R380). -/
def State.switching (s : State) (c : Nat) : State :=
  s.setCtx c { s.ctx c with stat := setD (s.ctx c).stat 10 10 1, swOut := true, swIn := false }

/-- A switch-out that begins saves what it can, or ends at once where the area has no room (log entry 48). -/
theorem switchOut_goes {s : State} {c : Nat} (num : c < 64) (idle : (s.ctx c).busy = false) (inside : (s.ctx c).out = false) :
    exec (.switchOut c) s = .next
      (if (s.switching c).areaFits c ((s.switching c).residentBytes c) then (s.switching c).switchOutGo c
       else ((s.switching c).areaFull c).modCtx c fun x => { x with swOut := false, stat := setD x.stat 10 10 0 }) := by
  rw [switchOut_eq num, State.switchCmd]
  simp only [idle, inside, Bool.or_false, Nat.reduceEqDiff, decide_false, Bool.false_and, Bool.and_false, Bool.false_eq_true, if_false,
    decide_true]
  rfl

/-- Arrivals of other contexts stay in their buffers. -/
theorem saveArrivals_none {s : State} {c : Nat} (none : ∀ x ∈ s.clusters, ∀ a ∈ x.2.arrivals, a.ctx ≠ c) : s.saveArrivals c = s := by
  unfold State.saveArrivals
  have stays (l : List (Nat × Cluster)) (apart : ∀ x ∈ l, ∀ a ∈ x.2.arrivals, a.ctx ≠ c) (g : State → Nat × Cluster → State)
      (hg : ∀ u x, (∀ a ∈ x.2.arrivals, a.ctx ≠ c) → g u x = u) (u : State) : l.foldl g u = u := by
    induction l with
    | nil => rfl
    | cons x rest ih =>
      rw [List.foldl_cons, hg u x (apart x (by simp))]
      exact ih fun y hy => apart y (by simp [hy])
  refine stays s.clusters none _ (fun u x apart => if_pos ?_) s
  rw [List.isEmpty_iff, List.filter_eq_nil_iff]
  intro a ha
  simp [apart a ha]

/-- A context of which nothing stands in the package is out at once (R380). -/
theorem switchOutGo_empty {s : State} {c : Nat} (residents : s.residents c = []) (none : ∀ x ∈ s.clusters, ∀ a ∈ x.2.arrivals, a.ctx ≠ c) :
    s.switchOutGo c = s.modCtx c fun x => { x with swOut := false, stat := setD (setD x.stat 9 9 1) 10 10 0 } := by
  have waiting : (s.clusters.any fun x => x.2.arrivals.any fun a => decide (a.ctx = c)) = false := by
    simpa [List.any_eq_false] using fun k x h => none (k, x) h
  unfold State.switchOutGo
  simp only [saveArrivals_none none, residents, List.foldl_nil, waiting]
  rfl

/-- Settles O50, a clause for each step. Code 0x03 ranks before 0x04 (log entry 18), the end of a context drops every operation of it (log entry 19),
a switch-out without room ends with BUSY clear (log entry 48). -/
theorem contextSteps : Obligations.ContextSteps := by
  unfold Obligations.ContextSteps
  intro s
  refine ⟨fun c v num on en => ⟨fun taken => ?enabled, fun e refused => ?notEnabled⟩,
    fun c v num en part => ⟨fun on => ?part, fun off => ?partEnd⟩, fun c v num en part off => ?ended,
    fun c v num => ctxmodeWrite_leaves num v, fun p r part mem waits => clockChangeDone_row part mem waits,
    fun c num busy => switchOut_refused num busy, fun c num idle inside => ⟨fun fits => ⟨?out, fun res none => ?outAtOnce⟩, fun full => ?noRoom⟩,
    fun c num busy => switchIn_refused num busy, fun c num idle out => switchIn_goes num idle out⟩
  case enabled =>
    refine ⟨_, contextEnable_eq num on, ?_⟩
    rw [writeCtl_enables on en, enable_opened taken]
    exact ⟨opened_en _ on, opened_low _ _, rfl⟩
  case notEnabled =>
    refine ⟨_, contextEnable_eq num on, ?_⟩
    rw [writeCtl_enables on en, enable_refused refused]
    exact ⟨(congrArg Ctx.en (ctx_setCtx s c _)).trans en, ctx_setErr s c e (enableRefused_lt refused)⟩
  case part => rw [contextEnable_eq num on, writeCtl_part en part]
  case partEnd => rw [contextEnd_eq num off, writeCtl_part en part]
  case ended =>
    refine ⟨_, contextEnd_eq num off, ?_⟩
    rw [writeCtl_ends off en part]
    exact disable_clears s c v
  case out => exact (switchOut_goes num idle inside).trans (congrArg _ (if_pos fits))
  case outAtOnce =>
    rw [switchOutGo_empty res none, ctx_modCtx]
    exact ⟨(bit_setD_other _ _ (by decide) (by decide) (by decide)).trans (bit_setD_same _ _ (by decide) (by decide) (by decide)),
      bit_setD_same _ _ (by decide) (by decide) (by decide)⟩
  case noRoom =>
    refine ⟨_, (switchOut_goes num idle inside).trans (congrArg _ (if_neg (ne_true_of_eq_false full))), ?_⟩
    rw [ctx_modCtx, State.areaFull, ctx_modCtx, State.switching, ctx_setCtx]
    refine ⟨bit_setD_same _ _ (by decide) (by decide) (by decide), ?_, ?_⟩
    · rw [Ctx.out, bit_setD_other _ _ (by decide) (by decide) (by decide), bit_setD_other _ _ (by decide) (by decide) (by decide),
        bit_setD_other _ _ (by decide) (by decide) (by decide)]
      exact inside
    · exact (bit_setD_other _ _ (by decide) (by decide) (by decide)).trans (bit_setD_same _ _ (by decide) (by decide) (by decide))

end Sys2Proof.Machine
end

section
/-! Owners of frames, zero-fill, invalidations and walks (spec/18 R382, R383, R387 to R394). -/

namespace Sys2Proof.Machine

/-! Owners and fills. -/

theorem forgetWalks_owners (s : State) (l : List Nat) : (l.foldl State.forgetWalks s).owners = s.owners :=
  foldl_keeps State.owners State.forgetWalks (fun _ _ => rfl) _ s

theorem forgetWalks_zeroPend (s : State) (l : List Nat) : (l.foldl State.forgetWalks s).zeroPend = s.zeroPend :=
  foldl_keeps State.zeroPend State.forgetWalks (fun _ _ => rfl) _ s

/-- A change of a frame's owner that nothing in flight holds up: the frame has its new owner and waits for its fill (R382, R383). -/
theorem frameownWrite_changes {s : State} {v : Dword} (frame : df v 39 16 < 768 * 2 ^ 14) (owner : df v 6 0 ≤ 0x40)
    (other : get s.owners (df v 39 16) 0x40 ≠ df v 6 0) (free : s.frameBusy (df v 39 16) = false) :
    ∃ t, exec (.frameownWrite v) s = .next t ∧ get t.owners (df v 39 16) 0x40 = df v 6 0 ∧ df v 39 16 ∈ t.zeroPend := by
  have taken : ¬(768 * 2 ^ 14 ≤ df v 39 16 ∨ 0x40 < df v 6 0 ∨ get s.owners (df v 39 16) 0x40 = df v 6 0) := by omega
  have runs : exec (.frameownWrite v) s = execFrameownWrite v s := rfl
  rw [runs, execFrameownWrite]
  dsimp only
  rw [if_neg taken, if_neg (ne_true_of_eq_false free)]
  refine ⟨_, rfl, ?_, ?_⟩
  · rw [forgetWalks_owners]
    dsimp only
    split
    · next none => rw [get_drop_self, none]
    · exact get_put_self _ _ _ _
  · rw [forgetWalks_zeroPend]
    dsimp only
    split
    · next pend => simpa using pend
    · exact List.mem_cons_self

/-- The fill of a frame: it is not pending any more, reads as zero, and every other frame stands (R383). -/
theorem zeroFillDone_fills {s : State} {f : Nat} (pend : f ∈ s.zeroPend) :
    ∃ t, exec (.zeroFillDone f) s = .next t ∧ f ∉ t.zeroPend ∧ (∀ a, a / 2 ^ 16 = f → readByte t.mem a = 0)
      ∧ ∀ a, a / 2 ^ 16 ≠ f → readByte t.mem a = readByte s.mem a := by
  refine ⟨s.fillFrame f, if_pos (by simpa using pend), ?_, fun a here => ?_, fun a there => ?_⟩
  · obtain ⟨_, _, _, _, _, written⟩ := noteWrite_eq { s with
      mem := keep (fun a _ => a / 2 ^ 16 != f) s.mem
      marks := keep (fun k _ => k / 2 ^ 11 != f) s.marks
      zeroPend := s.zeroPend.filter fun x => x != f } (f * 2 ^ 16) (2 ^ 16)
    rw [State.fillFrame, State.modCluster_zeroPend, written]
    simp
  · rw [fillFrame_mem, readByte, get, find_keep _ _ _ fun _ _ => rfl]
    cases find s.mem a with
    | none => rfl
    | some v => rw [Option.filter, if_neg (by simpa using here)]; rfl
  · rw [fillFrame_mem]
    exact readByte_keep (fun a => a / 2 ^ 16 != f) s.mem a (by simpa using there)

/-! A ragged load that translates again leaves every die row as it is. -/

theorem Routed.rows {s t : State} (h : Routed s t) : t.rows = s.rows := by
  obtain ⟨_, _, _, _, rfl⟩ := h
  rfl

theorem DeviceWrote.rows {s t : State} (h : DeviceWrote s t) : t.rows = s.rows := by
  obtain ⟨_, _, _, _, _, _, _, _, _, _, rfl⟩ := h
  rfl

theorem answer_rows (s : State) (k : Nat) (vals : List Tw) (flags : BitVec 5) : (s.answer k vals flags).rows = s.rows := by
  unfold State.answer
  dsimp only
  split
  · rw [(routeHeld_routed _).rows, State.modOp_rows]
  · exact State.modOp_rows _ _ _

theorem answerCode_rows (s : State) (k code va : Nat) : (s.answerCode k code va).rows = s.rows := by
  unfold State.answerCode
  split
  · rfl
  · dsimp only
    split
    · rw [State.noteFault, State.modThread_rows, answer_rows]
    · exact answer_rows _ _ _ _

theorem askAts_rows (s : State) (ctx va : Nat) (write : Bool) (u : WalkUser) : (s.askAts ctx va write u).rows = s.rows := by
  unfold State.askAts
  dsimp only
  split
  · split <;> rfl
  · rfl

theorem keepLine_rows (s : State) (cluster : Nat) (install : Bool) (l : Line) : (s.keepLine cluster install l).rows = s.rows := by
  unfold State.keepLine
  split <;> rfl

/-- The next read of a ragged load: what it translates may claim a frame, and it is sent or waits for the host. -/
theorem raggedAt_rows (s : State) (k va align : Nat) (got : List Dword) : (s.raggedAt k va align got).1.rows = s.rows := by
  unfold State.raggedAt
  split
  · rfl
  · split
    · split
      · exact answerCode_rows _ _ _ _
      · split
        · exact answerCode_rows _ _ _ _
        · next found =>
          have claimed := (resolve_deviceWrote found).rows
          extract_lets ro next at' put
          have sent (p : Place) : (put p).rows = s.rows := by
            simp only [put]
            split
            · rw [State.modThread_rows, State.setOp_rows, claimed]
            · rw [State.setOp_rows, claimed]
          split
          · split
            · rw [(depart_routed _ _).rows, State.modOp_rows, sent]
            · rw [askAts_rows, State.modOp_rows, sent]
          · split
            · rw [answerCode_rows, claimed]
            · split
              · rw [keepLine_rows, State.modOp_rows, sent]
              · rw [(depart_routed _ _).rows, sent]
    · rfl

theorem raggedNext_rows (s : State) (k : Nat) (v : Dword) : (s.raggedNext k v).1.rows = s.rows := by
  unfold State.raggedNext
  split
  · rfl
  · split
    · dsimp only
      split
      · exact raggedAt_rows _ _ _ _ _
      · exact raggedAt_rows _ _ _ _ _
      · split
        · exact answer_rows _ _ _ _
        · exact raggedAt_rows _ _ _ _ _
      · exact raggedAt_rows _ _ _ _ _
      · split
        · exact answer_rows _ _ _ _
        · split
          · split
            · rw [State.modThread_rows, answer_rows]
            · exact answer_rows _ _ _ _
          · exact raggedAt_rows _ _ _ _ _
      · exact answer_rows _ _ _ _
    · rfl

theorem raggedRun_rows (k n : Nat) (s : State) (v : Except Byte Dword) : (raggedRun k n s v).rows = s.rows := by
  induction n generalizing s v with
  | zero => rfl
  | succ n ih =>
    cases v with
    | error c => exact answerCode_rows _ _ _ _
    | ok v =>
      have next := raggedNext_rows s k v
      rw [raggedRun]
      split
      · next found =>
        rw [found] at next
        exact (ih _ _).trans next
      · next found =>
        rw [found] at next
        exact next

theorem raggedAgain_rows (s : State) (k : Nat) : (s.raggedAgain k).rows = s.rows := by
  unfold State.raggedAgain
  split
  · rfl
  · split
    · next o _ _ _ _ _ _ _ got _ _ _ _ =>
      have next := raggedAt_rows s k o.va 1 got
      split
      · next found =>
        rw [found] at next
        exact (raggedRun_rows _ _ _ _).trans next
      · next found =>
        rw [found] at next
        exact next
    · rfl

/-! Invalidations (R394). -/

/-- Rows are found where they were after each has changed. -/
theorem get_mapVals_row (m : Map Row) (f : Row → Row) (init : f Row.init = Row.init) (r : Nat) :
    get (mapVals (fun _ v => f v) m) r Row.init = f (get m r Row.init) := by
  rw [get, get, find_mapVals]
  cases find m r with
  | none => exact init.symm
  | some v => rfl

theorem restartAts_rows (s : State) (c first n : Nat) : (s.restartAts c first n).rows = s.rows := by
  unfold State.restartAts
  exact foldl_keeps State.rows State.raggedAgain raggedAgain_rows _ _

/-- A row without the TLB entries of a context that meet a range of granules, and without its entries of the walk cache. -/
def Row.invalidated (v : Row) (c first n : Nat) : Row :=
  { v with
    tlb := v.tlb.filter fun e => !(decide (e.ctx = c) && meets (first * 2 ^ 16) (n * 2 ^ 16) e.base e.bytes)
    walkCache := v.walkCache.filter fun e => e.ctx != c }

theorem invalidate_rows {s : State} {c : Nat} (idle : bit (s.ctx c).invs.toNat 0 = false) (first n : Nat) (all : Bool) :
    (s.invalidate c first n all).rows
      = mapVals (fun _ v => v.invalidated c (if all then 0 else first) (if all then 2 ^ 48 else n)) s.rows := by
  unfold State.invalidate
  dsimp only
  rw [if_neg (ne_true_of_eq_false idle)]
  cases all <;> exact restartAts_rows _ _ _ _

/-- The invalidation of a range: BUSY is set, and no entry of the context that meets it stays in a TLB. -/
theorem invalidate_drops {s : State} {c : Nat} (idle : bit (s.ctx c).invs.toNat 0 = false) (first n : Nat) (all : Bool) :
    bit ((s.invalidate c first n all).ctx c).invs.toNat 0 = true
      ∧ ∀ r, ∀ e ∈ ((s.invalidate c first n all).row r).tlb, e.ctx = c →
        meets ((if all then 0 else first) * 2 ^ 16) ((if all then 2 ^ 48 else n) * 2 ^ 16) e.base e.bytes = false := by
  refine ⟨?_, fun r e he own => ?_⟩
  · unfold State.invalidate
    dsimp only
    rw [if_neg (ne_true_of_eq_false idle), ctx_modCtx]
    exact bit_setD_same _ _ (by decide) (by decide) (by decide)
  · rw [State.row, invalidate_rows idle, get_mapVals_row _ (fun v => v.invalidated c _ _) rfl] at he
    have kept := (List.mem_filter.mp he).2
    simpa [own] using kept

theorem ctxinvRange_eq {s : State} {c : Nat} (num : c < 64) (v : Dword) :
    exec (.ctxinvRange c v) s
      = .next (s.invalidate c (df v 55 16) (if df v 15 0 = 0 then 65536 else df v 15 0) (bit v.toNat 63)) :=
  if_neg (Nat.not_le.mpr num)

theorem ctxinvAll_eq {s : State} {c : Nat} (num : c < 64) : exec (.ctxinvAll c) s = .next (s.invalidate c 0 0 true) :=
  if_neg (Nat.not_le.mpr num)

/-- A command while one is being carried out is refused. -/
theorem invalidate_busy {s : State} {c : Nat} (busy : bit (s.ctx c).invs.toNat 0 = true) (first n : Nat) (all : Bool) :
    s.invalidate c first n all = s.setCtx c { s.ctx c with invs := setD (s.ctx c).invs 1 1 1 } :=
  if_pos busy

/-- An invalidation is complete once every access that was translated before has been performed and has delivered. -/
theorem invalidationComplete_done {s : State} {c first n : Nat} (inv : (s.ctx c).inv = some (first, n))
    (done : ∀ k ∈ (s.ctx c).invOps, ∀ o, find s.ops k = some o → o.isRead = false ∧ o.dst = .none ∧ o.stage = .performed)
    (still : s.travelling c first n = false) :
    ∃ t, exec (.invalidationComplete c) s = .next t ∧ (t.ctx c).inv = none ∧ bit (t.ctx c).invs.toNat 0 = false := by
  have closed : (s.ctx c).invOps.any (fun k => match find s.ops k with
      | some o => o.isRead || o.dst != .none || o.stage != .performed
      | none => false) = false := by
    rw [List.any_eq_false]
    intro k hk
    cases ho : find s.ops k with
    | none => simp
    | some o =>
      obtain ⟨read, dst, stage⟩ := done k hk o ho
      simp [read, dst, stage]
  refine ⟨s.setCtx c { s.ctx c with invs := setD (s.ctx c).invs 0 0 0, inv := .none, invOps := [] }, ?_, ?_, ?_⟩
  · have runs : exec (.invalidationComplete c) s = execInvalidationComplete c s := rfl
    rw [runs, execInvalidationComplete]
    simp only [inv]
    exact if_neg (by rw [still, Bool.or_false]; exact ne_true_of_eq_false closed)
  · rw [ctx_setCtx]
  · rw [ctx_setCtx]
    exact bit_setD_same _ _ (by decide) (by decide) (by decide)

/-! The end of a walk (R387 to R392). -/

/-- A walk of a context for a granule is in progress or waits in a row. -/
def State.walksFor (s : State) (row c g : Nat) : Prop := ∃ x ∈ (s.row row).walks, x.ctx = c ∧ x.granule = g

theorem walksFor_congr {s t : State} (h : ∀ r, (t.row r).walks = (s.row r).walks) (row c g : Nat) : t.walksFor row c g ↔ s.walksFor row c g := by
  rw [State.walksFor, State.walksFor, h row]

theorem tellUser_rows (s : State) (u : WalkUser) (key : Nat) (w : Walked) : (s.tellUser u key w).rows = s.rows := by
  unfold State.tellUser
  split
  · exact State.modSlot_rows _ _ _
  · exact State.modGroup_rows _ _ _
  · rfl
  · exact State.modGroup_rows _ _ _
  · split
    · exact raggedAgain_rows _ _
    · split
      · split
        · exact answerCode_rows _ _ _ _
        · rfl
      · rfl

theorem fillTlb_walks (s : State) (cluster : Nat) (e : TlbEl) (r : Nat) : ((s.fillTlb cluster e).row r).walks = (s.row r).walks := by
  by_cases same : r = rowOf cluster
  · subst same
    rw [State.fillTlb, row_modRow]
  · rw [State.fillTlb, State.modRow, row_setRow_other _ _ _ _ same]

theorem startWalks_keys {l : List Walk} {x : Walk} (h : x ∈ startWalks l) : ∃ y ∈ l, x.ctx = y.ctx ∧ x.granule = y.granule := by
  unfold startWalks at h
  obtain ⟨y, hy, rfl⟩ := List.mem_map.mp h
  refine ⟨y, hy, ?_⟩
  split <;> exact ⟨rfl, rfl⟩

/-- One requester of a walk that has ended: it has the result, and its TLBs the translation. -/
def State.walkTold (s : State) (c g : Nat) (r : Walked) (u : WalkUser) : State :=
  match s.userAt u with
  | some (ctx, cluster) =>
    if ctx != c then s else
    let s := s.tellUser u g r
    match r with
    | .ok pa attr _ _ => if 2 ^ 48 ≤ g then s else s.fillTlb cluster ⟨c, g * 2 ^ 16, false, pa, attr, false, false, 2 ^ 16, none⟩
    | .fault _ => s
  | none => s

theorem walkTold_walks (s : State) (c g : Nat) (w : Walked) (u : WalkUser) (r : Nat) : ((s.walkTold c g w u).row r).walks = (s.row r).walks := by
  have told : ((s.tellUser u g w).row r).walks = (s.row r).walks := by rw [State.row, State.row, tellUser_rows]
  unfold State.walkTold
  split
  · split
    · rfl
    · dsimp only
      split
      · split
        · exact told
        · exact (fillTlb_walks _ _ _ _).trans told
      · exact told
  · rfl

/-- At the end of a walk no walk for its granule is left in the row. -/
theorem translationWalkEnd_ends {s : State} {row c g : Nat} {w : Walk} (cached : Bool) (here : w ∈ (s.row row).walks) (ctx : w.ctx = c)
    (granule : w.granule = g) (started : w.started = true) :
    ∃ t, exec (.translationWalkEnd row c g cached) s = .next t ∧ ¬t.walksFor row c g := by
  have runs : exec (.translationWalkEnd row c g cached) s = execTranslationWalkEnd row c g cached s := rfl
  obtain ⟨w', found⟩ : ∃ w', (s.row row).walks.find? (fun x => x.ctx = c && x.granule = g && x.started) = some w' := by
    rw [← Option.isSome_iff_exists, List.find?_isSome]
    exact ⟨w, here, by simp [ctx, granule, started]⟩
  rw [runs, execTranslationWalkEnd]
  simp only [found]
  refine ⟨_, rfl, ?_⟩
  have ended (u : State) : ¬(u.modRow row fun v =>
      { v with walks := startWalks (v.walks.filter fun x => !(x.ctx = c && x.granule = g)) }).walksFor row c g := by
    rintro ⟨x, hx, own, at'⟩
    rw [row_modRow] at hx
    obtain ⟨y, hy, ctx', granule'⟩ := startWalks_keys hx
    have other := (List.mem_filter.mp hy).2
    simp [← ctx', ← granule', own, at'] at other
  have told (l : List WalkUser) (r : Walked) (u : State) : (l.foldl (fun s x => s.walkTold c g r x) u).walksFor row c g → u.walksFor row c g :=
    foldl_related (R := fun a b => b.walksFor row c g → a.walksFor row c g) (fun _ h => h) (fun h h' x => h (h' x)) _
      (fun u x => (walksFor_congr (walkTold_walks u c g r x) row c g).mp) l u
  exact mt (told _ _ _) (ended _)

/-- Settles O51, a clause for each step. -/
theorem translationSteps : Obligations.TranslationSteps := by
  unfold Obligations.TranslationSteps
  intro s
  refine ⟨fun v frame owner other free => frameownWrite_changes frame owner other free, fun f pend => zeroFillDone_fills pend,
    fun c v num idle part => ?range, fun c num idle => ?all, fun c v num busy => ?busy,
    fun c first n inv done none => invalidationComplete_done inv done none, fun row c g cached w here ctx granule started => ?walk⟩
  case range =>
    refine ⟨_, ctxinvRange_eq num v, ?_⟩
    rw [part]
    exact invalidate_drops idle _ _ false
  case all =>
    obtain ⟨busy, dropped⟩ := invalidate_drops idle 0 0 true
    refine ⟨_, ctxinvAll_eq num, busy, fun r e he own => ?_⟩
    simpa using dropped r e he own
  case busy => rw [ctxinvRange_eq num, invalidate_busy busy]
  case walk =>
    obtain ⟨t, run, none⟩ := translationWalkEnd_ends cached here ctx granule started
    exact ⟨t, run, fun x hx same => none ⟨x, hx, same⟩⟩

end Sys2Proof.Machine
end

section
/-! Stopping: the curtain, the watchdogs, page needs and the debug path (spec/20 R426, R427, R429 to R431, R436, R438). -/

namespace Sys2Proof.Machine

/-! The curtain. -/

theorem curtainSignal_eq {s : State} {c unit : Nat} {e : EngineKind} (lowering : (s.ctx c).lowering = true) (known : unit < kindUnits e)
    (fresh : (kindNum e, unit) ∉ (s.ctx c).treated) : exec (.curtainSignal c e unit) s = .next (s.treat c (kindNum e) unit) :=
  if_neg (by simp [lowering, known, fresh])

/-- After the deadline of 8 µs nothing of the context is in flight (R430; log entries 57, 58 and 60). -/
theorem skidAll_ends (s : State) (c : Nat) : ((s.skidAll c).ctx c).skid.isSome = true ∧ ∀ x ∈ (s.skidAll c).ops, x.2.ctx ≠ c := by
  unfold State.skidAll
  extract_lets
  refine ⟨by rw [ctx_modCtx]; rfl, fun x hx => ?_⟩
  rw [State.modCtx_ops] at hx
  simpa using (List.mem_filter.mp hx).2

theorem curtainSkidDeadline_eq {s : State} {c : Nat} (lowering : (s.ctx c).lowering = true)
    (late : (s.ctx c).lowAt.getD 0 + 8 * ticksPerUs ≤ s.now) : exec (.curtainSkidDeadline c) s = .next (s.skidAll c) :=
  if_neg (by simp [lowering, late])

/-- DONE is set behind a curtain that stays low (R429). -/
theorem curtainDone_down {s : State} {c : Nat} (low : (s.ctx c).low = true) (up : (s.ctx c).down = false) (skid : (s.ctx c).skid.isSome = true) :
    ∃ t, exec (.curtainDone c) s = .next t ∧ (t.ctx c).down = true ∧ (t.ctx c).low = true := by
  have runs : ¬((!(s.ctx c).low || (s.ctx c).down || (s.ctx c).skid.isNone) = true) := by
    simp [low, up, Option.isSome_iff_ne_none.mp skid]
  refine ⟨_, if_neg runs, ?_⟩
  rw [State.ctx, (startRepairs_deviceWrote _).ctxs, (msix_deviceWrote _ _).ctxs]
  have set := ctx_setCtx s c { s.ctx c with cur := setD (s.ctx c).cur 62 62 1 }
  rw [State.ctx] at set
  rw [set]
  exact ⟨bit_setD_same _ _ (by decide) (by decide) (by decide), (bit_setD_other _ _ (by decide) (by decide) (by decide)).trans low⟩

/-! The watchdogs (R436). -/

/-- A watchdog that bites lowers a curtain that is up, with consumer code 0x0D. -/
theorem dogCurtain_lowers {s : State} {c : Nat} (up : (s.ctx c).low = false) (cluster slot pc reason : Nat) :
    ∃ t, s.dogCurtain c cluster slot pc reason = .next t ∧ (t.ctx c).low = true ∧ df (t.ctx c).cur 31 24 = 0x0D := by
  obtain ⟨_, low, _, cons, _⟩ := curtain_lowered up cluster ⟨pc, 0x0D, 0, reason, cluster, slot, 1⟩
  exact ⟨_, if_neg (ne_true_of_eq_false up), low, cons⟩

theorem watchdogExpiry_thread {s : State} {key : Nat} {t : Thread} (here : s.thread? key = some t) (between : t.cue ≠ .issuing)
    (own : isLaneKey key = false) (waits : t.wait ≠ 0) (bites : s.bites t.ctx t.dog = true) :
    exec (.watchdogExpiry (.thread key)) s = s.dogCurtain t.ctx (clusterOfKey key) (slotOfKey key) t.pc.toNat t.wait.toNat := by
  have reason : t.wait.toNat ≠ 0 := fun h => waits (BitVec.eq_of_toNat_eq h)
  change execWatchdogExpiry (.thread key) s = _
  simp [execWatchdogExpiry, here, between, own, reason, bites]

theorem watchdogExpiry_slice {s : State} {g : Nat} {gr : Group} {sl : Slice} (here : s.group? g = some gr) (slice : gr.slice = some sl)
    (waits : sl.wait ≠ 0) (bites : s.bites gr.ctx sl.dog = true) :
    exec (.watchdogExpiry (.slice g)) s = s.dogCurtain gr.ctx gr.cluster 0x7FF sl.pc.toNat sl.wait.toNat := by
  change execWatchdogExpiry (.slice g) s = _
  simp only [execWatchdogExpiry, here, slice]
  exact if_neg (by simpa [bites] using waits)

theorem watchdogExpiry_matrix {s : State} {g : Nat} {gr : Group} (here : s.group? g = some gr) (waits : gr.mxWaits = true)
    (bites : s.bites gr.ctx gr.mxDog = true) :
    exec (.watchdogExpiry (.matrix g)) s
      = s.dogCurtain gr.ctx gr.cluster gr.base (match gr.mq with | o :: _ => o.pc.toNat | [] => 0) 0x16 := by
  change execWatchdogExpiry (.matrix g) s = _
  simp only [execWatchdogExpiry, here, waits, bites]
  rfl

/-! Page needs (R426). -/

theorem run_runnable {t : Thread} (whole : t.spilled = 0) (now : Nat) : (t.run now).cue = .runnable ∧ (t.run now).wait = 0 := by
  unfold Thread.run
  dsimp only
  rw [if_pos whole]
  exact ⟨rfl, rfl⟩

/-- The needs that are done are dropped, and the threads that waited for them replay. -/
theorem pagesDone_done (s : State) (c : Nat) (p : Nat → Bool) :
    ((s.pagesDone c p).ctx c).needs = (s.ctx c).needs.filter (fun g => !p g)
      ∧ ∀ k u va, s.thread? k = some u → u.ctx = c → u.waitOn = .page va → p (granule va) = true → (s.ctx c).low = false → u.spilled = 0 →
        ∃ u', (s.pagesDone c p).thread? k = some u' ∧ u'.cue = .runnable ∧ u'.wait = 0 := by
  refine ⟨?_, fun k u va here ctx waits done up whole => ⟨u.run s.now, ?_, run_runnable whole s.now⟩⟩
  · change ((s.modCtx c fun x => { x with needs := x.needs.filter fun g => !p g }).ctx c).needs = _
    rw [ctx_modCtx]
  · have up' : ((s.modCtx c fun x => { x with needs := x.needs.filter fun g => !p g }).ctx c).low = false := by rw [ctx_modCtx]; exact up
    rw [State.thread?] at here
    simp only [State.pagesDone, State.thread?, find_mapVals, State.modCtx_threads, here, Option.map_some, ctx, waits, done, up']
    rfl

/-! The ring pointer and the debug path (R427, R438). -/

theorem ctxfrpRead_eq {s : State} {c : Nat} (num : c < 64) :
    exec (.ctxfrpRead c) s = .next ((s.send (.register (s.ctx c).frp)).modCtx c fun x => { x with frp := setD x.frp 62 48 0 }) :=
  if_neg (Nat.not_le.mpr num)

section
variable {s : State} {c : Nat} (num : c < 64) (coord : Word)
include num

/-- What RD reads; the origin of a token there is free (log entry 4). -/
theorem ctxdbgRd_reads : ∃ t o, exec (.ctxdbgRd c coord) s = .next t
    ∧ (t.ctx c).dbgd = zx (((s.freeWords 1).2.windowRead c 5 coord.toNat o).headD Tw.zero).val :=
  ⟨_, ((s.freeWords 1).1.headD 0).toNat % 2 ^ 24, if_neg (Nat.not_le.mpr num), congrArg Ctx.dbgd (ctx_modCtx _ c _)⟩

theorem ctxdbgWr_eq : exec (.ctxdbgWr c coord) s = .next (s.debugWrite c coord) := if_neg (Nat.not_le.mpr num)

theorem ctxdbgRes_eq : exec (.ctxdbgRes c coord) s = .next (s.debugResume c coord) := if_neg (Nat.not_le.mpr num)

end

/-- A context with the coordinates of a debug access. -/
def State.debugAt (s : State) (c : Nat) (coord : Word) : State := s.modCtx c fun x => { x with dbg := zx coord }

theorem debugAt_ctx (s : State) (c : Nat) (coord : Word) : (s.debugAt c coord).ctx c = { s.ctx c with dbg := zx coord } := ctx_modCtx s c _

/-- WR writes at a breakpoint and behind a curtain that is down; elsewhere it is discarded (log entry 61). -/
theorem debugWrite_eq (s : State) (c : Nat) (coord : Word) :
    s.debugWrite c coord = if (s.debugAt c coord).atBreak c coord = true ∨ (s.ctx c).down = true
      then (s.debugAt c coord).windowWrite c 5 coord.toNat (df (s.ctx c).dbgd 31 0) else s.debugAt c coord := by
  have at' := debugAt_ctx s c coord
  unfold State.debugWrite
  change (if ((s.debugAt c coord).atBreak c coord || ((s.debugAt c coord).ctx c).down) = true then
    (s.debugAt c coord).windowWrite c 5 coord.toNat (df ((s.debugAt c coord).ctx c).dbgd 31 0) else s.debugAt c coord) = _
  simp only [at', Bool.or_eq_true]
  rfl

/-- RES at a breakpoint lets its thread go on. -/
theorem debugResume_goes {s : State} {c : Nat} {coord : Word} {t : Thread} (stands : (s.debugAt c coord).atBreak c coord = true)
    (here : s.thread? (coordOf coord.toNat).key = some t) (whole : t.spilled = 0) (free : t.held = false) :
    ∃ u, (s.debugResume c coord).thread? (coordOf coord.toNat).key = some u ∧ u.cue = .runnable ∧ u.brk = none := by
  have goes : s.debugResume c coord = (s.debugAt c coord).setThread (coordOf coord.toNat).key (({ t with brk := none } : Thread).run s.now) := by
    unfold State.debugResume
    change (match (s.debugAt c coord).atBreak c coord, (s.debugAt c coord).thread? (coordOf coord.toNat).key with
      | true, some t => (s.debugAt c coord).resume (coordOf coord.toNat).key { t with brk := none }
      | _, _ => s.debugAt c coord) = _
    have here' : (s.debugAt c coord).thread? (coordOf coord.toNat).key = some t := here
    rw [stands, here']
    exact if_neg (ne_true_of_eq_false free)
  have ready : (({ t with brk := none } : Thread).run s.now).cue = .runnable := (run_runnable (t := { t with brk := none }) whole s.now).1
  rw [goes]
  refine ⟨_, thread_setThread _ _ _, ready, ?_⟩
  obtain ⟨_, _, _, _, _, _, _, ran⟩ := run_sameButCue ({ t with brk := none } : Thread) s.now
  rw [ran]

theorem debugResume_stays {s : State} {c : Nat} {coord : Word} (elsewhere : (s.debugAt c coord).atBreak c coord = false) :
    s.debugResume c coord = s.debugAt c coord := by
  unfold State.debugResume
  change (match (s.debugAt c coord).atBreak c coord, (s.debugAt c coord).thread? (coordOf coord.toNat).key with
    | true, some t => (s.debugAt c coord).resume (coordOf coord.toNat).key { t with brk := none }
    | _, _ => s.debugAt c coord) = _
  rw [elsewhere]

/-- Settles O55, a clause for each step. -/
theorem stoppingSteps : Obligations.StoppingSteps := by
  unfold Obligations.StoppingSteps
  intro s c
  refine ⟨fun e unit lowering known fresh => curtainSignal_eq lowering known fresh,
    fun lowering late => ⟨_, curtainSkidDeadline_eq lowering late, skidAll_ends s c⟩,
    fun low up skid => curtainDone_down low up skid,
    fun key t here between own waits bites up => ?thread, fun g gr sl here slice waits bites up => ?slice,
    fun g gr here waits bites up => ?matrix, fun num g small => ?granule, fun num => ?all,
    fun num => ⟨_, ctxfrpRead_eq num, rfl, by rw [ctx_modCtx]; rfl⟩,
    fun num coord => ⟨ctxdbgRd_reads num coord, fun stands => ?write, fun elsewhere up => ?discard,
      fun t stands here whole free => ?resume, fun elsewhere => ?stays⟩⟩
  case thread =>
    rw [watchdogExpiry_thread here between own waits bites]
    exact dogCurtain_lowers up _ _ _ _
  case slice =>
    rw [watchdogExpiry_slice here slice waits bites]
    exact dogCurtain_lowers up _ _ _ _
  case matrix =>
    rw [watchdogExpiry_matrix here waits bites]
    exact dogCurtain_lowers up _ _ _ _
  case granule =>
    obtain ⟨needs, replay⟩ := pagesDone_done s c fun x => x = g
    refine ⟨_, if_neg (by omega), ?_, fun k u va here ctx waits same => replay k u va here ctx waits (by simpa using same)⟩
    rw [needs]
    simp
  case all =>
    obtain ⟨needs, replay⟩ := pagesDone_done s c fun _ => true
    refine ⟨_, if_neg (by omega), ?_, fun k u va here ctx waits => replay k u va here ctx waits rfl⟩
    rw [needs]
    simp
  case write => exact (ctxdbgWr_eq num coord).trans (congrArg _ ((debugWrite_eq s c coord).trans (if_pos stands)))
  case discard =>
    have neither : ¬((s.debugAt c coord).atBreak c coord = true ∨ (s.ctx c).down = true) :=
      not_or.mpr ⟨ne_true_of_eq_false elsewhere, ne_true_of_eq_false up⟩
    exact (ctxdbgWr_eq num coord).trans (congrArg _ ((debugWrite_eq s c coord).trans (if_neg neither)))
  case resume =>
    obtain ⟨u, after, cue, brk⟩ := debugResume_goes stands here whole free
    exact ⟨_, u, ctxdbgRes_eq num coord, after, cue, brk⟩
  case stays => exact (ctxdbgRes_eq num coord).trans (congrArg _ (debugResume_stays elsewhere))

end Sys2Proof.Machine
end

section
/-! Every step keeps the memory in its canonical form (spec/11). The memory changes in three ways alone: `State.putBytes`, `State.fillFrame`,
and a reset. Below, in the order of the model's files, stands for each function of the model that leaves the memory alone a lemma `…_mem`, and for
each that may write it a lemma `wf_…`, or `ResWf` of what it answers. -/

namespace Sys2Proof.Machine

theorem mem_ite (c : Prop) [Decidable c] (a b : State) : (if c then a else b).mem = if c then a.mem else b.mem := apply_ite State.mem c a b

@[simp] theorem foldl_mem {ι : Type} {g : State → ι → State} (hg : ∀ s x, (g s x).mem = s.mem) (l : List ι) (s : State) :
    (l.foldl g s).mem = s.mem :=
  foldl_keeps State.mem g hg l s

@[simp] theorem wf_foldl {ι : Type} {g : State → ι → State} (hg : ∀ s x, Memory.wf s.mem = true → Memory.wf (g s x).mem = true)
    (l : List ι) {s : State} (h : Memory.wf s.mem = true) : Memory.wf (l.foldl g s).mem = true := by
  induction l generalizing s with
  | nil => exact h
  | cons x r ih => exact ih (hg s x h)

theorem wf_of_mem {s t : State} (e : t.mem = s.mem) (h : Memory.wf s.mem = true) : Memory.wf t.mem = true := e ▸ h

/-- Where the answer is a state, its memory is in the canonical form. -/
def ResWf (r : Res) : Prop := ∀ t, r = .next t → Memory.wf t.mem = true

@[simp] theorem resWf_next (t : State) : ResWf (.next t) ↔ Memory.wf t.mem = true :=
  ⟨fun h => h t rfl, fun h _ e => by cases e; exact h⟩

@[simp] theorem resWf_refused (r : Refusal) : ResWf (.refused r) := fun _ e => by cases e

@[simp] theorem resWf_fault (r : Fault) : ResWf (.fault r) := fun _ e => by cases e

theorem resWf_ite {c : Prop} [Decidable c] {a b : Res} (ha : ResWf a) (hb : ResWf b) : ResWf (if c then a else b) := by
  split
  · exact ha
  · exact hb

/-- A chain of reasons to wait: what holds of each answer holds of the chain's. -/
theorem of_ite_some {P : State → Prop} {c : Prop} [Decidable c] {a : State} {o : Option State} (ha : P a) (ho : ∀ u, o = some u → P u) :
    ∀ u, (if c then some a else o) = some u → P u := by
  intro u e
  split at e
  · cases e; exact ha
  · exact ho u e

end Sys2Proof.Machine
end

section
/-! The canonical form of memory: what Sys2Proof/Machine/Maps.lean defines. -/

namespace Sys2Proof.Machine

@[simp] theorem fresh_mem (s : State) : s.fresh.2.mem = s.mem := rfl

@[simp] theorem msx_mem (s : State) (ctx bits code) : (s.msx ctx bits code).mem = s.mem := rfl

@[simp] theorem sweepMonitors_mem (s : State) (cluster) : (s.sweepMonitors cluster).mem = s.mem := rfl

@[simp] theorem dropFar_mem (s : State) (p) : (s.dropFar p).mem = s.mem := by
  unfold State.dropFar
  split
  · exact foldl_mem (fun s x => sweepMonitors_mem s _) _ _
  · rfl

end Sys2Proof.Machine
end

section
/-! The canonical form of memory: what Sys2Proof/Machine/Translate.lean defines. -/

namespace Sys2Proof.Machine

theorem ownerCheck_mem {s : State} {ctx : Nat} {l : Leaf} {u : State} (e : s.ownerCheck ctx l = .ok u) : u.mem = s.mem := by
  unfold State.ownerCheck at e
  dsimp only at e
  split at e
  · split at e
    · cases e; rfl
    · split at e <;> cases e
      rfl
  · cases e; rfl

@[simp] theorem fillTlb_mem (s : State) (cluster e) : (s.fillTlb cluster e).mem = s.mem := rfl

theorem resolve_mem {s : State} {cluster ctx va : Nat} {a : Access} {x : State × Leaf} (e : s.resolve cluster ctx va a = .ok x) :
    x.1.mem = s.mem := by
  unfold State.resolve at e
  split at e
  · cases e
  · split at e
    · cases e
    · split at e <;> cases e
      exact ownerCheck_mem ‹_›

theorem resolveDevice_mem {s : State} {cluster ctx va : Nat} {x : State × Nat} (e : s.resolveDevice cluster ctx va = .ok x) :
    x.1.mem = s.mem := by
  unfold State.resolveDevice at e
  split at e
  · cases e
  · split at e
    · split at e <;> cases e
      exact resolve_mem ‹_›
    · cases e

@[simp] theorem wf_deviceWrite {s : State} (h : Memory.wf s.mem = true) (pa) (bytes) : Memory.wf (s.deviceWrite pa bytes).mem = true :=
  wf_foldl (fun s x h => by simp [wf_putBytes s x.1 x.2 h]) _ h

@[simp] theorem wf_writeVirtual {s : State} (h : Memory.wf s.mem = true) (cluster ctx va bytes) :
    Memory.wf (s.writeVirtual cluster ctx va bytes).1.mem = true := by
  unfold State.writeVirtual
  split
  · exact h
  · split
    · exact h
    · next found => exact wf_deviceWrite (wf_of_mem (resolveDevice_mem found) h) _ _

end Sys2Proof.Machine
end

section
/-! The canonical form of memory: what Sys2Proof/Machine/Reliability.lean defines. -/

namespace Sys2Proof.Machine

@[simp] theorem wf_putReliability {s : State} (h : Memory.wf s.mem = true) (cls code unit kind ctx addr wear) :
    Memory.wf (s.putReliability cls code unit kind ctx addr wear).mem = true := by
  unfold State.putReliability
  dsimp only
  (repeat' split) <;> simp [h]

@[simp] theorem wf_startRepair {s : State} (h : Memory.wf s.mem = true) (held r) : Memory.wf (State.startRepair (s, held) r).1.mem = true := by
  simp only [State.startRepair, apply_ite Prod.fst, mem_ite]
  (repeat' split) <;> simp [h]

@[simp] theorem wf_startRepairs {s : State} (h : Memory.wf s.mem = true) : Memory.wf s.startRepairs.mem = true := by
  unfold State.startRepairs
  exact List.foldlRecOn (motive := fun st : State × List Nat => Memory.wf st.1.mem = true) _ _ h fun st h r _ => wf_startRepair h st.2 r

@[simp] theorem wf_askRepair {s : State} (h : Memory.wf s.mem = true) (kind unit lane) : Memory.wf (s.askRepair kind unit lane).mem = true := by
  unfold State.askRepair
  split <;> simp [h]

@[simp] theorem wf_reliability {s : State} (h : Memory.wf s.mem = true) (cls code unit kind ctx addr) :
    Memory.wf (s.reliability cls code unit kind ctx addr).mem = true := by
  unfold State.reliability
  extract_lets lane key wear pkg worn recorded thr fresh pkg2 marked due
  have h1 : Memory.wf worn.mem = true := by unfold worn; split <;> exact h
  have h2 : Memory.wf recorded.mem = true := wf_putReliability h1 _ _ _ _ _ _ _
  have h3 : Memory.wf marked.mem = true := by unfold marked; split <;> exact h2
  (repeat' split) <;> simp [h3]

end Sys2Proof.Machine
end

section
/-! The canonical form of memory: what Sys2Proof/Machine/Ops.lean defines. -/

namespace Sys2Proof.Machine

@[simp] theorem wf_putRecord {s : State} (h : Memory.wf s.mem = true) (ctx cluster r) : Memory.wf (s.putRecord ctx cluster r).mem = true := by
  unfold State.putRecord
  dsimp only
  split
  · simp [h]
  · split
    · simp [h]
    · split
      · next s' found =>
        have written := wf_writeVirtual h cluster ctx (df (s.ctx ctx).fr 63 20 * 4096 + 16 * df (s.ctx ctx).frp 19 0) (toBytes 16 r.bits)
        rw [found] at written
        split <;> simp [written]
      · simp [h]

@[simp] theorem wf_setActState {s : State} (h : Memory.wf s.mem = true) (ctx act st) : Memory.wf (s.setActState ctx act st).mem = true := by
  unfold State.setActState
  dsimp only
  (repeat' split) <;> simp [h]

@[simp] theorem renumberAct_mem (s : State) (ctx old new) : (s.renumberAct ctx old new).mem = s.mem := rfl

@[simp] theorem wf_cancelOne {s : State} (h : Memory.wf s.mem = true) (k) : Memory.wf (s.cancelOne k).mem = true := by
  unfold State.cancelOne
  dsimp only
  (repeat' split) <;> simp [h]

@[simp] theorem wf_cancelActs {s : State} (h : Memory.wf s.mem = true) (ctx p) : Memory.wf (s.cancelActs ctx p).mem = true := by
  unfold State.cancelActs
  exact wf_foldl (fun _ k h => wf_cancelOne h k) _ (by simp [h])

@[simp] theorem notify_mem (s : State) (kind d count) : (s.notify kind d count).mem = s.mem := rfl

@[simp] theorem endGuests_mem (s : State) (ctx) : (s.endGuests ctx).mem = s.mem :=
  foldl_keeps State.mem _ (fun _ _ => foldl_mem (fun s _ => notify_mem s _ _ _) _ _) _ _

@[simp] theorem dropBegins_mem (s : State) (ctx) : (s.dropBegins ctx).mem = s.mem := rfl

@[simp] theorem wf_lowerCurtain {s : State} (h : Memory.wf s.mem = true) (ctx cons code) : Memory.wf (s.lowerCurtain ctx cons code).mem = true := by
  unfold State.lowerCurtain
  dsimp only
  (repeat' split) <;> simp [h]

@[simp] theorem wf_curtain {s : State} (h : Memory.wf s.mem = true) (ctx cluster r) : Memory.wf (s.curtain ctx cluster r).mem = true := by
  unfold State.curtain
  split <;> simp [h]

@[simp] theorem wf_pageNeed {s : State} (h : Memory.wf s.mem = true) (ctx cluster slot va a) :
    Memory.wf (s.pageNeed ctx cluster slot va a).mem = true := by
  unfold State.pageNeed
  dsimp only
  (repeat' split) <;> simp [h]

@[simp] theorem pageRequest_mem (s : State) (ctx key va write) : (s.pageRequest ctx key va write).mem = s.mem := by
  unfold State.pageRequest
  dsimp only
  (repeat' split) <;> simp

@[simp] theorem leavePages_mem (s : State) (mine) : (s.leavePages mine).mem = s.mem := rfl

@[simp] theorem beginLater_mem (s : State) (key ctx va host a) : (s.beginLater key ctx va host a).mem = s.mem :=
  rfl

@[simp] theorem wf_beginDue {s : State} (h : Memory.wf s.mem = true) : Memory.wf s.beginDue.mem = true := by
  unfold State.beginDue
  split
  · exact h
  · exact wf_foldl (fun s b h => by split <;> simp [h]) _ h

@[simp] theorem rollback_mem (s : State) (key code pc cons) : (s.rollback key code pc cons).mem = s.mem := by
  unfold State.rollback
  dsimp only
  (repeat' split) <;> simp

@[simp] theorem discardHeld_mem (s : State) (key x) : (s.discardHeld key x).mem = s.mem := by
  unfold State.discardHeld
  (repeat' split) <;> simp

@[simp] theorem dropTxn_mem (s : State) (key) : (s.dropTxn key).mem = s.mem := by
  unfold State.dropTxn
  (repeat' split) <;> simp

@[simp] theorem failTxn_mem (s : State) (key reason code user) : (s.failTxn key reason code user).mem = s.mem := by
  unfold State.failTxn
  (repeat' split) <;> simp

@[simp] theorem failTxnRecoverable_mem (s : State) (key code pc cons) : (s.failTxnRecoverable key code pc cons).mem = s.mem := by
  unfold State.failTxnRecoverable
  dsimp only
  (repeat' split) <;> simp

@[simp] theorem wf_raise {s : State} (h : Memory.wf s.mem = true) (ctx pc rs) : Memory.wf (s.raise ctx pc rs).mem = true := by
  unfold State.raise
  split
  · exact h
  · split
    · exact h
    · dsimp only
      split
      · exact wf_lowerCurtain (wf_foldl (fun _ _ h => wf_putRecord h _ _ _) _ h) _ _ _
      · refine wf_foldl (fun s r h => ?_) _ h
        split
        · exact h
        · split <;> simp [h]

@[simp] theorem wf_instrFault {s : State} (h : Memory.wf s.mem = true) (ctx cluster slot pc code cause) :
    Memory.wf (s.instrFault ctx cluster slot pc code cause).mem = true := by
  unfold State.instrFault
  simp [h]

@[simp] theorem wf_lateFailure {s : State} (h : Memory.wf s.mem = true) (ctx pc cons code cluster slot) :
    Memory.wf (s.lateFailure ctx pc cons code cluster slot).mem = true := by
  unfold State.lateFailure
  split <;> simp [h]

end Sys2Proof.Machine
end

section
/-! The canonical form of memory: what Sys2Proof/Machine/Operands.lean defines. -/

namespace Sys2Proof.Machine

@[simp] theorem setQueue_mem (s : State) (w q l) : (s.setQueue w q l).mem = s.mem := by
  unfold State.setQueue
  split <;> simp

@[simp] theorem hold_mem (s : State) (key pc) : (s.hold key pc).mem = s.mem := by
  unfold State.hold
  (repeat' split) <;> simp

@[simp] theorem resume_mem (s : State) (key t) : (s.resume key t).mem = s.mem := by
  unfold State.resume
  split <;> simp

@[simp] theorem endRun_mem {f : State → Nat → Thread → State} (hf : ∀ s k t, (f s k t).mem = s.mem) (s : State) (k : Nat) :
    (s.endRun k f).mem = s.mem := by
  unfold State.endRun
  refine foldl_keeps State.mem _ (fun s x => ?_) _ s
  dsimp only
  split
  · split
    · exact hf _ _ _
    · rfl
  · rfl

@[simp] theorem advance_mem (s : State) (w hd next ends) : (s.advance w hd next ends).mem = s.mem := by
  have marked (g : Lane → Thread → Thread) : (w.lanes.foldl (fun s l => s.modThread l.key (g l)) s).mem = s.mem :=
    foldl_mem (fun s l => State.modThread_mem s _ _) _ _
  have ended (u : State) : (u.endRun w.unit fun s key t => if hd.cue = 2 then s.hold key t.pc else s.setThread key (t.run s.now)).mem = u.mem :=
    endRun_mem (fun s k t => by split <;> simp) u _
  unfold State.advance
  split
  · exact State.modGroup_mem _ _ _
  · dsimp only
    rw [mem_ite, ended, State.setSlot_mem, ite_self]
    exact marked _

@[simp] theorem step1_mem (s : State) (w hd ends) : (s.step1 w hd ends).mem = s.mem := by
  unfold State.step1
  simp

@[simp] theorem slotWait_mem (s : State) (k reason) : (s.slotWait k reason).mem = s.mem := rfl

@[simp] theorem stall_mem (s : State) (w reason) : (s.stall w reason).mem = s.mem := by
  unfold State.stall
  split <;> simp

@[simp] theorem wf_issueFault {s : State} (h : Memory.wf s.mem = true) (w) : Memory.wf (s.issueFault w).mem = true := by
  unfold State.issueFault
  simp [h]

@[simp] theorem wf_raiseLanes {s : State} (h : Memory.wf s.mem = true) (w rs) : Memory.wf (s.raiseLanes w rs).mem = true := by
  unfold State.raiseLanes
  simp [h]

@[simp] theorem takePops_mem (s : State) (w : Warp) (srcs : List Src) : (s.takePops w srcs).1.mem = s.mem := by
  induction srcs generalizing s with
  | nil => rfl
  | cons src r ih =>
    unfold State.takePops
    split
    · exact ih s
    · dsimp only
      split
      · rfl
      · exact (ih _).trans (setQueue_mem _ _ _ _)

@[simp] theorem unpop_mem (s s1 : State) (w : Warp) (srcs : List Src) (raising : List Lane) : (s.unpop s1 w srcs raising).mem = s1.mem := by
  unfold State.unpop
  split
  · rfl
  · exact foldl_keeps State.mem _ (fun _ _ => setQueue_mem _ _ _ _) _ _

@[simp] theorem popped_mem (s : State) (w srcs acting) : (s.popped w srcs acting).mem = s.mem := by
  unfold State.popped
  simp

@[simp] theorem killed_mem (s : State) (srcs acting) : (s.killed srcs acting).mem = s.mem :=
  foldl_keeps State.mem _ (fun _ _ => by simp) _ _

@[simp] theorem started_mem (s : State) (w srcs acting) : (s.started w srcs acting).mem = s.mem := by
  unfold State.started
  simp

@[simp] theorem sendMessage_mem (s : State) (w dstWord values senders counted) :
    (s.sendMessage w dstWord values senders counted).mem = s.mem := by
  unfold State.sendMessage
  dsimp only
  rw [State.modCluster_mem]
  split
  · exact List.foldlRecOn (motive := fun x : State × List Nat => x.1.mem = s.mem) _ _ rfl fun x h l _ => by simp [h]
  · rfl

@[simp] theorem pushOuts_mem (s : State) (w q wide outs) : (s.pushOuts w q wide outs).mem = s.mem := by
  unfold State.pushOuts
  dsimp only
  (repeat' split) <;> simp

theorem wf_barred {s : State} (h : Memory.wf s.mem = true) {w : Warp} {srcs : List Src} {d : Dst} {fault : Bool} {u : State}
    (e : s.barred w srcs d fault = some u) : Memory.wf u.mem = true := by
  unfold State.barred at e
  split at e
  · cases e; exact wf_issueFault h _
  · split at e <;> cases e
    rw [stall_mem]; exact h

theorem noRoom_mem {s : State} {w : Warp} {srcs : List Src} {d : Dst} {u : State} (e : s.noRoom w srcs d = some u) : u.mem = s.mem := by
  unfold State.noRoom at e
  extract_lets s1 full counter rel at e
  split at e
  · cases e; exact stall_mem _ _ _
  · split at e
    · cases e; exact stall_mem _ _ _
    · split at e <;> cases e
      exact stall_mem _ _ _

@[simp] theorem laneWrites_mem (s : State) (w d outs) : (s.laneWrites w d outs).mem = s.mem :=
  foldl_keeps State.mem _ (fun _ _ => by simp) _ _

@[simp] theorem wf_upsetEvents {s : State} (h : Memory.wf s.mem = true) (w outs) : Memory.wf (s.upsetEvents w outs).mem = true :=
  wf_foldl (fun s x h => by dsimp only; split <;> simp [h]) _ h

@[simp] theorem wf_laneDone {s : State} (h : Memory.wf s.mem = true) (w hd srcs d checked f) :
    Memory.wf (s.laneDone w hd srcs d checked f).mem = true := by
  unfold State.laneDone
  dsimp only
  (repeat' split) <;> simp [h]

@[simp] theorem wf_runLane {s : State} (h : Memory.wf s.mem = true) (hd srcs d c f) : ResWf (runLane s hd srcs d c f) := by
  unfold runLane
  split
  · simp
  · split
    · rw [resWf_next]; exact wf_barred h ‹_›
    · rw [resWf_next, noRoom_mem ‹_›]; exact h
    · simp [h]

end Sys2Proof.Machine
end

section
/-! The canonical form of memory: what Sys2Proof/Machine/Fetch.lean defines. -/

namespace Sys2Proof.Machine

@[simp] theorem askWalk_mem (s : State) (row ctx g u) : (s.askWalk row ctx g u).mem = s.mem := by
  unfold State.askWalk
  dsimp only
  (repeat' split) <;> simp

@[simp] theorem waitWalk_mem (s : State) (u) : (s.waitWalk u).mem = s.mem := by
  unfold State.waitWalk
  split <;> simp

@[simp] theorem askAts_mem (s : State) (ctx va write u) : (s.askAts ctx va write u).mem = s.mem := by
  unfold State.askAts
  dsimp only
  (repeat' split) <;> simp

@[simp] theorem stallFor_mem (s : State) (row ctx g u) : (s.stallFor row ctx g u).mem = s.mem := by
  unfold State.stallFor
  simp

@[simp] theorem wf_takeInstrFault {s : State} (h : Memory.wf s.mem = true) (f cause code va) :
    Memory.wf (s.takeInstrFault f cause code va).mem = true := by
  unfold State.takeInstrFault
  (repeat' split) <;> simp [h]

@[simp] theorem wf_execInstructionFault {s : State} (h : Memory.wf s.mem = true) (cluster slot) : ResWf (execInstructionFault cluster slot s) := by
  unfold execInstructionFault
  dsimp only
  (repeat' split) <;> simp [h]

end Sys2Proof.Machine
end

section
/-! The canonical form of memory: what Sys2Proof/Machine/Acts.lean defines. -/

namespace Sys2Proof.Machine

@[simp] theorem wf_closeMessages {s : State} (h : Memory.wf s.mem = true) (cluster) : Memory.wf (s.closeMessages cluster).mem = true := by
  unfold State.closeMessages
  refine wf_foldl (fun s m h => ?_) _ h
  split
  · split
    · dsimp only
      split
      · simp [h]
      · rw [foldl_mem]
        · simp [h]
        · intro s x
          (repeat' split) <;> simp
    · exact h
  · exact h

@[simp] theorem wf_fill {s : State} (h : Memory.wf s.mem = true) (cluster op hi v) : Memory.wf (s.fill cluster op hi v).mem = true := by
  unfold State.fill
  simp [h]

@[simp] theorem wf_endWait {s : State} (h : Memory.wf s.mem = true) (key w v) : Memory.wf (s.endWait key w v).mem = true := by
  unfold State.endWait
  (repeat' split) <;> simp [h]

@[simp] theorem endTape_mem (s : State) (key k words stamp) : (s.endTape key k words stamp).mem = s.mem := by
  unfold State.endTape
  split
  · rfl
  · have resumed (l : List Nat) : (l.foldl (fun s n => match s.thread? n with
        | some t => s.resume n (match stamp with | some c => t.acquire 7 c | none => t)
        | none => s) s).mem = s.mem :=
      foldl_keeps State.mem _ (fun s n => by split <;> simp) l s
    dsimp only
    split
    · rw [State.modGroup_mem]; exact resumed _
    · exact resumed _

@[simp] theorem wf_recheck {s : State} (h : Memory.wf s.mem = true) (key) : Memory.wf (s.recheck key).mem = true := by
  unfold State.recheck
  (repeat' split) <;> simp [h]

@[simp] theorem keepFar_mem (s : State) (w) : (s.keepFar w).mem = s.mem := rfl

@[simp] theorem registerFar_mem (s : State) (w) : (s.registerFar w).mem = s.mem := by
  unfold State.registerFar
  dsimp only
  (repeat' split) <;> simp

@[simp] theorem touchSaved_mem (s : State) (hit) : (s.touchSaved hit).mem = s.mem := by
  unfold State.touchSaved
  split <;> rfl

@[simp] theorem wf_touch {s : State} (h : Memory.wf s.mem = true) (hit) : Memory.wf (s.touch hit).mem = true := by
  unfold State.touch
  dsimp only
  split
  · simp [h]
  · rw [foldl_mem sweepMonitors_mem]
    exact wf_foldl (fun _ k h => wf_recheck h k) _ (by simp [h])

@[simp] theorem wf_afterWrites {s : State} (h : Memory.wf s.mem = true) : Memory.wf s.afterWrites.mem = true := by
  unfold State.afterWrites
  split
  · exact h
  · dsimp only
    refine wf_foldl (fun s x h => by split <;> simp [h]) _ (wf_foldl (fun s x h => ?_) _ (by simp [h]))
    (repeat' split) <;> simp [h]

@[simp] theorem wf_touchMem {s : State} (h : Memory.wf s.mem = true) (pa n) : Memory.wf (s.touchMem pa n).mem = true := by
  unfold State.touchMem
  simp [h]

@[simp] theorem wf_touchPad {s : State} (h : Memory.wf s.mem = true) (g word) : Memory.wf (s.touchPad g word).mem = true := by
  unfold State.touchPad
  simp [h]

@[simp] theorem stampLine_mem (s : State) (pa clock scope) : (s.stampLine pa clock scope).mem = s.mem := by
  unfold State.stampLine
  split <;> rfl

@[simp] theorem wf_storeBytes {s : State} (h : Memory.wf s.mem = true) (pa bytes) : Memory.wf (s.storeBytes pa bytes).mem = true := by
  unfold State.storeBytes
  simp [wf_putBytes s pa bytes h]

@[simp] theorem wf_storeNow {s : State} (h : Memory.wf s.mem = true) (pa bytes) : Memory.wf (s.storeNow pa bytes).mem = true := by
  unfold State.storeNow
  split
  · exact wf_foldl (fun s x h => wf_storeBytes h _ _) _ h
  · exact wf_storeBytes h _ _

@[simp] theorem wf_actSignal {s : State} (h : Memory.wf s.mem = true) (ctx act) : Memory.wf (s.actSignal ctx act).mem = true := by
  unfold State.actSignal
  split
  · exact h
  · split
    · exact h
    · dsimp only
      split
      · exact h
      · split
        · exact h
        · next s' raw found =>
          have moved : Memory.wf s'.mem = true := wf_of_mem (resolveDevice_mem found) h
          have reached := wf_reach s' (s'.placed? raw) moved
          (repeat' split) <;> simp [moved, reached]

@[simp] theorem tellUntriggered_mem (s : State) (a) : (s.tellUntriggered a).mem = s.mem := by
  simp [State.tellUntriggered, mem_ite]

@[simp] theorem wf_tryFire {s : State} (h : Memory.wf s.mem = true) (ctx act) : Memory.wf (s.tryFire ctx act).mem = true := by
  unfold State.tryFire
  (repeat' split) <;> simp [h]

@[simp] theorem wf_trigger {s : State} (h : Memory.wf s.mem = true) (key) : Memory.wf (s.trigger key).mem = true := by
  unfold State.trigger
  (repeat' split) <;> simp [h]

@[simp] theorem phaseDone_mem (s : State) (waits vc) : (s.phaseDone waits vc).mem = s.mem := by
  unfold State.phaseDone
  exact foldl_keeps State.mem _ (fun _ _ => by (repeat' split) <;> simp) _ _

@[simp] theorem groupBarrier_mem (s : State) (g id) : (s.groupBarrier g id).mem = s.mem := by
  unfold State.groupBarrier
  dsimp only
  (repeat' split) <;> simp

@[simp] theorem ensBarrier_mem (s : State) (k id) : (s.ensBarrier k id).mem = s.mem := by
  unfold State.ensBarrier
  dsimp only
  (repeat' split) <;> simp

@[simp] theorem stopSlice_mem (s : State) (g) : (s.stopSlice g).mem = s.mem := by
  unfold State.stopSlice
  simp

@[simp] theorem freeGroup_mem (s : State) (g) : (s.freeGroup g).mem = s.mem := by
  unfold State.freeGroup
  dsimp only
  (repeat' split) <;> simp

@[simp] theorem dropLane_mem (s : State) (key) : (s.dropLane key).mem = s.mem := rfl

@[simp] theorem wf_exitThread {s : State} (h : Memory.wf s.mem = true) (key) : Memory.wf (s.exitThread key).mem = true := by
  unfold State.exitThread
  dsimp only
  (repeat' split) <;> simp [h]

end Sys2Proof.Machine
end

section
/-! The canonical form of memory: what Sys2Proof/Machine/Flits.lean defines. -/

namespace Sys2Proof.Machine

@[simp] theorem modMsg_mem (s : State) (cluster id f) : (s.modMsg cluster id f).mem = s.mem := rfl

end Sys2Proof.Machine
end

section
/-! The canonical form of memory: what Sys2Proof/Machine/LaneInt.lean defines. -/

namespace Sys2Proof.Machine

@[simp] theorem wf_runH {s : State} (h : Memory.wf s.mem = true) (float checked g f) : ResWf (runH float checked g f s) := by
  unfold runH
  simp [h]

@[simp] theorem wf_runW1 {s : State} (h : Memory.wf s.mem = true) (checked g f) : ResWf (runW1 checked g f s) := by
  unfold runW1
  simp [h]

@[simp] theorem wf_runW2 {s : State} (h : Memory.wf s.mem = true) (checked g f) : ResWf (runW2 checked g f s) := by
  unfold runW2
  simp [h]

@[simp] theorem wf_runWimm {s : State} (h : Memory.wf s.mem = true) (checked g f) : ResWf (runWimm checked g f s) := by
  unfold runWimm
  simp [h]

@[simp] theorem wf_runWi {s : State} (h : Memory.wf s.mem = true) (checked g f) : ResWf (runWi checked g f s) := by
  unfold runWi
  simp [h]

@[simp] theorem wf_runD {s : State} (h : Memory.wf s.mem = true) (srcs d checked g f) : ResWf (runD srcs d checked g f s) := by
  unfold runD
  simp [h]

@[simp] theorem wf_runDT {s : State} (h : Memory.wf s.mem = true) (n t checked g f) : ResWf (runDT n t checked g f s) := by
  unfold runDT
  simp [h]

@[simp] theorem wf_runDp1 {s : State} (h : Memory.wf s.mem = true) (checked g f) : ResWf (runDp1 checked g f s) := by
  unfold runDp1
  simp [h]

@[simp] theorem wf_runDp2 {s : State} (h : Memory.wf s.mem = true) (checked g f) : ResWf (runDp2 checked g f s) := by
  unfold runDp2
  simp [h]

end Sys2Proof.Machine
end

section
/-! The canonical form of memory: what Sys2Proof/Machine/LaneFloat.lean defines. -/

namespace Sys2Proof.Machine

@[simp] theorem wf_occupyFour {r : Res} (hr : ResWf r) (s : State) : ResWf (occupyFour s r) := by
  unfold occupyFour
  split
  · have := hr _ rfl
    split <;> simp [this]
  · exact hr

end Sys2Proof.Machine
end

section
/-! The canonical form of memory: what Sys2Proof/Machine/Memory.lean defines. -/

namespace Sys2Proof.Machine

@[simp] theorem routeReason_mem (s : State) (k) : (s.routeReason k).mem = s.mem := by
  unfold State.routeReason
  split <;> rfl

@[simp] theorem goOut_mem (s : State) (k) : (s.goOut k).mem = s.mem := by
  unfold State.goOut
  (repeat' split) <;> simp

@[simp] theorem depart_mem (s : State) (k) : (s.depart k).mem = s.mem := by
  unfold State.depart
  split <;> simp

@[simp] theorem sendHeld_mem (s : State) (k) : (s.sendHeld k).mem = s.mem := by
  unfold State.sendHeld
  (repeat' split) <;> simp

@[simp] theorem sendCommit_mem (s : State) (key) : (s.sendCommit key).mem = s.mem := by
  unfold State.sendCommit
  (repeat' split) <;> simp

@[simp] theorem sendSpawn_mem (s : State) (cluster m) : (s.sendSpawn cluster m).mem = s.mem := by
  unfold State.sendSpawn
  (repeat' split) <;> simp

@[simp] theorem sendSpawns_mem (s : State) (cluster) : (s.sendSpawns cluster).mem = s.mem :=
  foldl_keeps State.mem _ (fun _ _ => by simp) _ _

@[simp] theorem routeHeld_mem (s : State) : s.routeHeld.mem = s.mem := by
  obtain ⟨_, _, _, _, e⟩ := routeHeld_routed s
  rw [e]

@[simp] theorem reserve_mem (s : State) (w q wide ks) : (s.reserve w q wide ks).mem = s.mem := by
  unfold State.reserve
  dsimp only
  split
  · rfl
  · split
    · rw [State.modCluster_mem]
      refine List.foldlRecOn (motive := fun x : State × Nat => x.1.mem = s.mem) _ _ ?_ fun x h a _ => by simp [h]
      dsimp only
      split
      · rfl
      · exact foldl_keeps State.mem _ (fun s (x : Lane × Nat) => State.modThread_mem s x.1.key _) _ _
    · exact setQueue_mem _ _ _ _

@[simp] theorem keepLine_mem (s : State) (cluster install l) : (s.keepLine cluster install l).mem = s.mem := by
  unfold State.keepLine
  split <;> rfl

@[simp] theorem wf_padWrite {s : State} (h : Memory.wf s.mem = true) (g word v) : Memory.wf (s.padWrite g word v).mem = true := by
  unfold State.padWrite
  simp [h]

@[simp] theorem wf_padStore {s : State} (h : Memory.wf s.mem = true) (g bytes addr v) : Memory.wf (s.padStore g bytes addr v).mem = true := by
  unfold State.padStore
  (repeat' split) <;> simp [h]

@[simp] theorem atomDone_mem (s : State) (k o type r) : (s.atomDone k o type r).mem = s.mem := by
  unfold State.atomDone
  (repeat' split) <;> simp

@[simp] theorem wf_bankOne {s : State} (h : Memory.wf s.mem = true) (k) : Memory.wf (s.bankOne k).mem = true := by
  unfold State.bankOne
  dsimp only
  (repeat' split) <;> simp [h]

@[simp] theorem wf_bankBatch {s : State} (h : Memory.wf s.mem = true) (o) : Memory.wf (s.bankBatch o).mem = true :=
  wf_foldl (fun _ _ h => wf_bankOne h _) _ h

@[simp] theorem wf_flushBank {s : State} (h : Memory.wf s.mem = true) (k o) : Memory.wf (s.flushBank k o).mem = true :=
  wf_foldl (fun s n h => by split <;> simp [h]) _ h

@[simp] theorem wf_stmWrite {s : State} (h : Memory.wf s.mem = true) (k o cluster) : Memory.wf (s.stmWrite k o cluster).mem = true := by
  unfold State.stmWrite
  split
  · dsimp only
    rw [State.setOp_mem]
    exact wf_foldl (fun s x h => wf_padStore h _ _ _ _) _ h
  · exact h

@[simp] theorem wf_padApply {s : State} (h : Memory.wf s.mem = true) (k) : Memory.wf (s.padApply k).mem = true := by
  unfold State.padApply
  (repeat' split) <;> simp [h]

@[simp] theorem wf_sendOne {s : State} (h : Memory.wf s.mem = true) (w m batch a) : Memory.wf (s.sendOne w m batch a).1.mem = true := by
  unfold State.sendOne
  dsimp only
  split
  · exact h
  · split
    · simp [h]
    · simp [h]
    · simp [h]
    · split <;> simp [h]
    · exact h
    · exact h

@[simp] theorem seek_mem (s : State) (w granules hosts write) : (s.seek w granules hosts write).mem = s.mem := by
  unfold State.seek
  simp

theorem wf_memWait {s : State} (h : Memory.wf s.mem = true) {w : Warp} {m : MemDo} {u : State} (e : s.memWait w m = some u) :
    Memory.wf u.mem = true := by
  have held (why : Nat) : Memory.wf (s.stall w why).mem = true := wf_of_mem (stall_mem s w why) h
  have sought : Memory.wf (s.seek w ((s.memAsks w m).filterMap fun a => match a.lane.acts, a.aim with | true, .miss va => some (granule va) | _, _ => none)
      ((s.memAsks w m).filterMap fun a => match a.lane.acts, a.aim with | true, .ats va => some va | _, _ => none) m.writes).mem = true :=
    wf_of_mem (seek_mem s _ _ _ _) h
  unfold State.memWait at e
  refine of_ite_some (P := fun u => Memory.wf u.mem = true) (wf_issueFault h w) (of_ite_some (held 16) (of_ite_some (held 2) (of_ite_some sought
    (of_ite_some (held 15) (of_ite_some (held 15) (of_ite_some (held 5) (of_ite_some (held 3) ?_))))))) u e
  intro u e
  split at e
  · cases e; exact held 15
  · cases e

@[simp] theorem together_mem (s : State) (batch) : (s.together batch).mem = s.mem := rfl

@[simp] theorem wf_memSend {s : State} (h : Memory.wf s.mem = true) (w m) : Memory.wf (s.memSend w m).1.mem = true := by
  unfold State.memSend
  dsimp only
  rw [together_mem]
  refine List.foldlRecOn (motive := fun x : State × List (Lane × Nat) => Memory.wf x.1.mem = true) _ _ ?_ fun x h a _ => wf_sendOne h _ _ _ _
  dsimp only
  rw [fresh_mem, foldl_mem (fun s a => by (repeat' split) <;> simp)]
  simp [h]

@[simp] theorem travelAway_mem (s : State) (w hd m a) : (s.travelAway w hd m a).mem = s.mem := by
  unfold State.travelAway
  (repeat' split) <;> simp

@[simp] theorem wf_memDone {s : State} (h : Memory.wf s.mem = true) (w hd m) : Memory.wf (s.memDone w hd m).mem = true := by
  unfold State.memDone
  dsimp only
  (repeat' split) <;> simp [h]

@[simp] theorem wf_runMemory {s : State} (h : Memory.wf s.mem = true) (hd m) : ResWf (runMemory s hd m) := by
  unfold runMemory
  split
  · simp
  · split
    · next waits => rw [resWf_next]; exact wf_memWait h waits
    · simp [h]

end Sys2Proof.Machine
end

section
/-! The canonical form of memory: what Sys2Proof/Machine/Sync.lean defines. -/

namespace Sys2Proof.Machine

/-- What `control` answers keeps the form if its body does, which goes on from the state with the sources read. -/
theorem wf_control {s : State} (h : Memory.wf s.mem = true) (hd srcs d fault)
    {body : Warp → (List (Lane × Word × Nat) → State) → List (Lane × List Val) → Res}
    (hb : ∀ w go l, (∀ r, Memory.wf (go r).mem = true) → ResWf (body w go l)) : ResWf (control s hd srcs d fault body) := by
  unfold control
  split
  · simp
  · split
    · next stops => rw [resWf_next]; exact wf_barred h stops
    · exact hb _ _ _ fun r => by simp [h]

@[simp] theorem wf_finish {s : State} (h : Memory.wf s.mem = true) (w hd raises ends) : ResWf (s.finish w hd raises ends) := by
  unfold State.finish
  split <;> simp [h]

@[simp] theorem block_mem (s : State) (key pc reason on hold) : (s.block key pc reason on hold).mem = s.mem := by
  unfold State.block
  simp

/-- An instruction that acts lane by lane keeps the form if what it does in a lane does. -/
theorem wf_simple {s : State} (h : Memory.wf s.mem = true) (hd ends fault) {act : Warp → State → Lane → State}
    (ha : ∀ w s l, Memory.wf s.mem = true → Memory.wf (act w s l).mem = true) : ResWf (simple s hd ends fault act) :=
  wf_control h _ _ _ _ fun w _ _ hgo => wf_finish (wf_foldl (ha w) _ (hgo [])) _ _ _ _

@[simp] theorem endCount_mem (s : State) (key cls n) : (s.endCount key cls n).mem = s.mem := by
  unfold State.endCount
  (repeat' split) <;> simp

@[simp] theorem wf_simple_of_mem {s : State} (h : Memory.wf s.mem = true) (hd ends fault) {act : Warp → State → Lane → State}
    (ha : ∀ w s l, (act w s l).mem = s.mem) : ResWf (simple s hd ends fault act) :=
  wf_simple h _ _ _ fun w s l h => wf_of_mem (ha w s l) h

@[simp] theorem wf_execWaitcD {s : State} (h : Memory.wf s.mem = true) (f) : ResWf (execWaitcD f s) := by
  unfold execWaitcD
  exact wf_simple_of_mem h _ _ _ fun w s l => by rw [endCount_mem, block_mem]

@[simp] theorem endFence_mem (s : State) (key scope order) : (s.endFence key scope order).mem = s.mem := by
  unfold State.endFence
  (repeat' split) <;> simp

@[simp] theorem wf_execFenceD {s : State} (h : Memory.wf s.mem = true) (f) : ResWf (execFenceD f s) := by
  unfold execFenceD
  exact wf_simple_of_mem h _ _ _ fun w s l => by rw [endFence_mem, block_mem]

@[simp] theorem wake_mem (s : State) (key) : (s.wake key).mem = s.mem := by
  unfold State.wake
  (repeat' split) <;> simp

@[simp] theorem wakeAll_mem (s : State) (p) : (s.wakeAll p).mem = s.mem :=
  foldl_keeps State.mem _ (fun _ _ => by simp) _ _

@[simp] theorem wakeOf_mem (s : State) (o) : (s.wakeOf o).mem = s.mem := by
  unfold State.wakeOf
  split <;> simp

@[simp] theorem wf_register {s : State} (h : Memory.wf s.mem = true) (key) : Memory.wf (s.register key).mem = true := by
  unfold State.register
  dsimp only
  (repeat' split) <;> simp [h]

@[simp] theorem wf_watchAt {s : State} (h : Memory.wf s.mem = true) (w key p pa) : Memory.wf (s.watchAt w key p pa).mem = true := by
  unfold State.watchAt
  dsimp only
  (repeat' split) <;> simp [h]

@[simp] theorem wf_runWait {s : State} (h : Memory.wf s.mem = true) (f pad reason) : ResWf (runWait f pad reason s) := by
  unfold runWait
  refine wf_control h _ _ _ _ fun w go vals hgo => ?_
  refine resWf_ite ?_ (resWf_ite ?_ (resWf_ite ?_ (resWf_ite ?_ (resWf_ite ?_ ?_))))
  · simp [h]
  · simp [h]
  · simp [h]
  · simp [h]
  · simp [h]
  · refine wf_finish (wf_foldl (fun s x h => ?_) _ (wf_of_mem (foldl_mem (fun s x => ?_) _ _) ?_)) _ _ _ _
    · dsimp only
      split
      · refine wf_watchAt (wf_of_mem (block_mem _ _ _ _ _ _) ?_) _ _ _ _
        split <;> simp [h]
      · exact h
    · dsimp only
      split <;> simp
    · split
      · rw [reserve_mem]; exact hgo _
      · exact hgo _

@[simp] theorem wf_execMwaitD {s : State} (h : Memory.wf s.mem = true) (f) : ResWf (execMwaitD f s) := by
  unfold execMwaitD
  simp [h]

@[simp] theorem wf_execWaitaD {s : State} (h : Memory.wf s.mem = true) (f) : ResWf (execWaitaD f s) := by
  unfold execWaitaD
  simp [h]

@[simp] theorem arriveGroup_mem (s : State) (g id count given vc) : (s.arriveGroup g id count given vc).mem = s.mem := by
  unfold State.arriveGroup
  simp

@[simp] theorem arriveEns_mem (s : State) (e id count given vc) : (s.arriveEns e id count given vc).mem = s.mem := by
  unfold State.arriveEns
  split <;> simp

/-- A barrier keeps the form if its arrivals leave the memory alone. -/
theorem wf_runBar {s : State} (h : Memory.wf s.mem = true) (f reason on) {arrive : State → Warp → Nat → Nat → Option Nat → Clock → State}
    (ha : ∀ s w id n e vc, (arrive s w id n e vc).mem = s.mem) : ResWf (runBar f reason on arrive s) := by
  unfold runBar
  refine wf_control h _ _ _ _ fun w go vals hgo => resWf_ite (by simp [h]) (wf_finish (wf_of_mem (foldl_mem (fun s x => ?_) _ _) (hgo _)) _ _ _ _)
  dsimp only
  rw [ha]
  split <;> simp

@[simp] theorem wf_execBarD {s : State} (h : Memory.wf s.mem = true) (f) : ResWf (execBarD f s) :=
  wf_runBar h _ _ _ fun _ _ _ _ _ _ => arriveGroup_mem _ _ _ _ _ _

@[simp] theorem wf_execEbarD {s : State} (h : Memory.wf s.mem = true) (f) : ResWf (execEbarD f s) :=
  wf_runBar h _ _ _ fun _ _ _ _ _ _ => by split <;> simp

end Sys2Proof.Machine
end

section
/-! The canonical form of memory: what Sys2Proof/Machine/Control.lean defines. -/

namespace Sys2Proof.Machine

@[simp] theorem wf_runBranch {s : State} (h : Memory.wf s.mem = true) (hd srcs d link target) : ResWf (runBranch hd srcs d link target s) := by
  unfold runBranch
  refine wf_control h _ _ _ _ fun w go vals hgo => resWf_ite (by simp [h]) ?_
  have linked (r : List (Lane × Word × Nat)) (l : List (Lane × List Val)) : Memory.wf (match link with
      | some r' => l.foldl (fun (s : State) (x : Lane × List Val) => s.modThread x.1.key fun t => t.writePair r' (w.after hd)) (go r)
      | none => go r).mem = true := by
    split
    · rw [foldl_mem (fun s x => State.modThread_mem s _ _)]; exact hgo r
    · exact hgo r
  refine resWf_ite ?_ ?_
  · rw [resWf_next, advance_mem]; exact linked _ _
  · rw [resWf_next, advance_mem]; exact wf_raiseLanes (linked _ _) _ _

@[simp] theorem wf_execBraWi {s : State} (h : Memory.wf s.mem = true) (f) : ResWf (execBraWi f s) := by
  unfold execBraWi
  simp [h]

@[simp] theorem wf_execBraDi {s : State} (h : Memory.wf s.mem = true) (f) : ResWf (execBraDi f s) := by
  unfold execBraDi
  simp [h]

@[simp] theorem wf_execBrxD {s : State} (h : Memory.wf s.mem = true) (f) : ResWf (execBrxD f s) := by
  unfold execBrxD
  simp [h]

@[simp] theorem wf_execCallDi {s : State} (h : Memory.wf s.mem = true) (f) : ResWf (execCallDi f s) := by
  unfold execCallDi
  simp [h]

@[simp] theorem wf_execCallxD {s : State} (h : Memory.wf s.mem = true) (f) : ResWf (execCallxD f s) := by
  unfold execCallxD
  simp [h]

@[simp] theorem wf_execRetD {s : State} (h : Memory.wf s.mem = true) (f) : ResWf (execRetD f s) := by
  unfold execRetD
  simp [h]

@[simp] theorem wf_execRetW {s : State} (h : Memory.wf s.mem = true) (f) : ResWf (execRetW f s) := by
  unfold execRetW
  simp [h]

@[simp] theorem wf_runCheck {s : State} (h : Memory.wf s.mem = true) (hd src) : ResWf (runCheck s hd src) := by
  unfold runCheck
  split
  · simp
  · split
    · next stops => rw [resWf_next]; exact wf_barred h stops
    · simp [h]

@[simp] theorem wf_execCheckW {s : State} (h : Memory.wf s.mem = true) (f) : ResWf (execCheckW f s) := by
  unfold execCheckW
  simp [h]

@[simp] theorem wf_execCheckD {s : State} (h : Memory.wf s.mem = true) (f) : ResWf (execCheckD f s) := by
  unfold execCheckD
  simp [h]

@[simp] theorem wf_runNop {s : State} (h : Memory.wf s.mem = true) (hd) : ResWf (runNop hd s) := by
  unfold runNop
  simp [h]

@[simp] theorem wf_execNopW {s : State} (h : Memory.wf s.mem = true) (f) : ResWf (execNopW f s) := by
  unfold execNopW
  simp [h]

@[simp] theorem wf_execNopD {s : State} (h : Memory.wf s.mem = true) (f) : ResWf (execNopD f s) := by
  unfold execNopD
  simp [h]

@[simp] theorem wf_runHold {s : State} (h : Memory.wf s.mem = true) (hd) : ResWf (runHold hd s) := by
  unfold runHold
  simp [h]

@[simp] theorem wf_execHoldW {s : State} (h : Memory.wf s.mem = true) (f) : ResWf (execHoldW f s) := by
  unfold execHoldW
  simp [h]

@[simp] theorem wf_execHoldD {s : State} (h : Memory.wf s.mem = true) (f) : ResWf (execHoldD f s) := by
  unfold execHoldD
  simp [h]

@[simp] theorem wf_runYield {s : State} (h : Memory.wf s.mem = true) (hd) : ResWf (runYield hd s) := by
  unfold runYield
  exact wf_simple_of_mem h _ _ _ fun w s l => by split <;> simp

@[simp] theorem wf_execYieldW {s : State} (h : Memory.wf s.mem = true) (f) : ResWf (execYieldW f s) := by
  unfold execYieldW
  simp [h]

@[simp] theorem wf_execYieldD {s : State} (h : Memory.wf s.mem = true) (f) : ResWf (execYieldD f s) := by
  unfold execYieldD
  simp [h]

@[simp] theorem wf_exitLane {s : State} (h : Memory.wf s.mem = true) (w l) : Memory.wf (s.exitLane w l).mem = true := by
  unfold State.exitLane
  dsimp only
  (repeat' split) <;> simp [h]

@[simp] theorem wf_runExit {s : State} (h : Memory.wf s.mem = true) (hd) : ResWf (runExit hd s) :=
  wf_simple h _ _ _ fun w _ l h => wf_exitLane h w l

@[simp] theorem wf_execExitW {s : State} (h : Memory.wf s.mem = true) (f) : ResWf (execExitW f s) := by
  unfold execExitW
  simp [h]

@[simp] theorem wf_execExitD {s : State} (h : Memory.wf s.mem = true) (f) : ResWf (execExitD f s) := by
  unfold execExitD
  simp [h]

@[simp] theorem wf_execRegionD {s : State} (h : Memory.wf s.mem = true) (f) : ResWf (execRegionD f s) := by
  unfold execRegionD
  simp [h]

@[simp] theorem wf_execTrigD {s : State} (h : Memory.wf s.mem = true) (f) : ResWf (execTrigD f s) :=
  wf_simple h _ _ _ fun _ _ l h => wf_trigger h l.key

@[simp] theorem wf_execTrapDi {s : State} (h : Memory.wf s.mem = true) (f) : ResWf (execTrapDi f s) := by
  unfold execTrapDi
  refine wf_control h _ _ _ _ fun w go _ hgo => resWf_ite (wf_finish (hgo _) _ _ _ _) ?_
  rw [resWf_next, step1_mem]
  exact wf_lowerCurtain (wf_foldl (fun s r h => wf_putRecord h _ _ _) _ (hgo _)) _ _ _

@[simp] theorem wf_execBrkDi {s : State} (h : Memory.wf s.mem = true) (f) : ResWf (execBrkDi f s) := by
  unfold execBrkDi
  refine wf_control h _ _ _ _ fun w go _ hgo => resWf_ite (wf_finish (hgo _) _ _ _ _) (wf_finish ?_ _ _ _ _)
  rw [foldl_mem (fun s l => by simp)]
  exact hgo _

@[simp] theorem elect_mem (s : State) (w l srcs acting) : (s.elect w l srcs acting).mem = s.mem := by
  unfold State.elect
  simp

/-- What `once` answers keeps the form if its body does, which goes on from the state with the elected lane's sources read. -/
theorem wf_once {s : State} (h : Memory.wf s.mem = true) (hd srcs ends fault)
    {body : Warp → (List (Lane × Word × Nat) → State) → Lane → List Val → Res}
    (hb : ∀ w go l vals, (∀ r, Memory.wf (go r).mem = true) → ResWf (body w go l vals)) : ResWf (once s hd srcs ends fault body) := by
  unfold once
  split
  · simp
  · split
    · split <;> simp [h]
    · dsimp only
      split
      · next stops => rw [resWf_next]; exact wf_barred h stops
      · exact hb _ _ _ _ fun r => by simp [h]

@[simp] theorem wf_runK {s : State} (h : Memory.wf s.mem = true) (new f) : ResWf (runK new f s) := by
  unfold runK
  exact wf_once h _ _ _ _ fun w go l vals hgo => by simp [hgo]

@[simp] theorem wf_execKmovDi {s : State} (h : Memory.wf s.mem = true) (f) : ResWf (execKmovDi f s) := by
  unfold execKmovDi
  simp [h]

@[simp] theorem wf_execKaddDi {s : State} (h : Memory.wf s.mem = true) (f) : ResWf (execKaddDi f s) := by
  unfold execKaddDi
  simp [h]

@[simp] theorem noteFault_mem (s : State) (key code va) : (s.noteFault key code va).mem = s.mem := by
  unfold State.noteFault
  simp

@[simp] theorem blockAll_mem (s : State) (w hd reason on) : (s.blockAll w hd reason on).mem = s.mem :=
  foldl_keeps State.mem _ (fun _ _ => by simp) _ _

@[simp] theorem readFor_mem (s : State) (w l p va pa attr type d) : (s.readFor w l p va pa attr type d).1.mem = s.mem := by
  unfold State.readFor
  dsimp only
  (repeat' split) <;> simp

@[simp] theorem wf_execKldDm {s : State} (h : Memory.wf s.mem = true) (f) : ResWf (execKldDm f s) := by
  unfold execKldDm
  refine wf_once h _ _ _ _ fun w go l vals hgo => ?_
  dsimp only
  split
  · simp [hgo]
  · refine resWf_ite (by simp [h]) ?_
    split <;> simp [h, hgo]

@[simp] theorem tapeDrops_mem (s : State) (key) : (s.tapeDrops key).mem = s.mem := rfl

@[simp] theorem wf_tapeGo {s : State} (h : Memory.wf s.mem = true) (key k counters pc words) :
    Memory.wf (s.tapeGo key k counters pc words).mem = true := by
  unfold State.tapeGo
  split
  · exact h
  · split
    · simp [h]
    · dsimp only
      split
      · simp [h]
      · split
        · simp [h]
        · next s' leaf found =>
          have moved : Memory.wf s'.mem = true := wf_of_mem (resolve_mem found) h
          (repeat' split) <;> simp [h, moved]

@[simp] theorem wf_execTapeD {s : State} (h : Memory.wf s.mem = true) (f) : ResWf (execTapeD f s) := by
  unfold execTapeD
  refine wf_once h _ _ _ _ fun w go l vals hgo => ?_
  dsimp only
  split
  · simp [hgo]
  · refine resWf_ite (by simp [h]) (resWf_ite (by simp [h]) ?_)
    split
    · simp [hgo]
    · split <;> simp [h, hgo]

@[simp] theorem wf_tapeWord {s : State} (h : Memory.wf s.mem = true) (key i v) : Memory.wf (s.tapeWord key i v).mem = true := by
  unfold State.tapeWord
  dsimp only
  (repeat' split) <;> simp [h]

@[simp] theorem wf_execFbeginD {s : State} (h : Memory.wf s.mem = true) (f) : ResWf (execFbeginD f s) := by
  unfold execFbeginD
  exact wf_control h _ _ _ _ fun w go _ hgo => wf_finish (wf_of_mem (foldl_mem (fun s l => State.modThread_mem s _ _) _ _) (hgo _)) _ _ _ _

@[simp] theorem wf_execFabortD {s : State} (h : Memory.wf s.mem = true) (f) : ResWf (execFabortD f s) := by
  unfold execFabortD
  exact wf_control h _ _ _ _ fun w go vals hgo => wf_finish (wf_of_mem (foldl_mem (fun s x => failTxn_mem s _ _ _ _) _ _) (hgo _)) _ _ _ _

@[simp] theorem commit_mem (s : State) (w hd d l) : (s.commit w hd d l).mem = s.mem := by
  unfold State.commit
  (repeat' split) <;> simp

@[simp] theorem wf_execFcommitD {s : State} (h : Memory.wf s.mem = true) (f) : ResWf (execFcommitD f s) := by
  unfold execFcommitD
  exact wf_control h _ _ _ _ fun w go _ hgo => wf_finish (wf_of_mem (foldl_mem (fun s l => commit_mem s _ _ _ _) _ _) (hgo _)) _ _ _ _

end Sys2Proof.Machine
end

section
/-! The canonical form of memory: what Sys2Proof/Machine/Roam.lean defines. -/

namespace Sys2Proof.Machine

@[simp] theorem wf_execHomeD {s : State} (h : Memory.wf s.mem = true) (f) : ResWf (execHomeD f s) := by
  unfold execHomeD
  dsimp only
  (repeat' split) <;> simp [h]

@[simp] theorem noteCourse_mem (s : State) (key v k) : (s.noteCourse key v k).mem = s.mem := by
  unfold State.noteCourse
  split <;> simp

@[simp] theorem leave_mem (s : State) (l pkg c w hd) : (s.leave l pkg c w hd).mem = s.mem := by
  unfold State.leave
  simp

@[simp] theorem wf_execMigrD {s : State} (h : Memory.wf s.mem = true) (f) : ResWf (execMigrD f s) := by
  unfold execMigrD
  refine wf_control h _ _ _ _ fun w go vals hgo => resWf_ite (by simp [h]) (wf_finish (wf_of_mem (foldl_mem (fun s x => ?_) _ _) (hgo _)) _ _ _ _)
  split
  · simp
  · split <;> simp
  · simp
  · rfl

@[simp] theorem spawnOne_mem (s : State) (w l goal entry first n) : (s.spawnOne w l goal entry first n).mem = s.mem := by
  unfold State.spawnOne
  split <;> simp

@[simp] theorem wf_execSpawnD {s : State} (h : Memory.wf s.mem = true) (f) : ResWf (execSpawnD f s) := by
  unfold execSpawnD
  refine wf_control h _ _ _ _ fun w go vals hgo => resWf_ite (by simp [h]) (resWf_ite (by simp [h]) (resWf_ite ?_ ?_))
  · simp [h]
  · refine wf_finish (wf_of_mem (foldl_mem (fun s x => ?_) _ _) (hgo _)) _ _ _ _
    dsimp only
    (repeat' split) <;> simp

@[simp] theorem racqOne_mem (s : State) (w hd l n try_) : (s.racqOne w hd l n try_).mem = s.mem := by
  unfold State.racqOne
  (repeat' split) <;> simp

@[simp] theorem wf_execRacqD {s : State} (h : Memory.wf s.mem = true) (f) : ResWf (execRacqD f s) := by
  unfold execRacqD
  simp [h]

@[simp] theorem wf_execRrelD {s : State} (h : Memory.wf s.mem = true) (f) : ResWf (execRrelD f s) := by
  unfold execRrelD
  simp [h]

end Sys2Proof.Machine
end

section
/-! The canonical form of memory: what Sys2Proof/Machine/Engines.lean defines. -/

namespace Sys2Proof.Machine

@[simp] theorem freeWords_mem (s : State) (n) : (s.freeWords n).2.mem = s.mem := rfl

@[simp] theorem outside_mem (s : State) (n) : (s.outside n).2.mem = s.mem := by
  unfold State.outside
  dsimp only
  (repeat' split) <;> simp

theorem readDescriptor_mem {s : State} {w l p va pa attr} {x : Except Byte (List Word) × State}
    (e : s.readDescriptor w l p va pa attr = some x) : x.2.mem = s.mem := by
  unfold State.readDescriptor at e
  dsimp only at e
  split at e
  · split at e
    · cases e
      split <;> rfl
    · split at e
      · cases e
      · cases e
        split <;> rfl
  · cases e
    split <;> simp
  · cases e
    simp

@[simp] theorem markFifo_mem (s : State) (g fifo n owner) : (s.markFifo g fifo n owner).mem = s.mem := by
  unfold State.markFifo
  simp

@[simp] theorem copyAccept_mem (s : State) (w l f kind s1 s2 c) : (s.copyAccept w l f kind s1 s2 c).mem = s.mem := by
  unfold State.copyAccept
  dsimp only
  (repeat' split) <;> simp

@[simp] theorem wf_runCopy {s : State} (h : Memory.wf s.mem = true) (f cpyt) : ResWf (runCopy f cpyt s) := by
  unfold runCopy
  refine wf_once h _ _ _ _ fun w go0 l vals hgo => ?_
  dsimp only
  split
  · exact wf_finish (hgo _) _ _ _ _
  · refine resWf_ite (by simp [h]) (resWf_ite (by simp [h]) ?_)
    split
    · exact wf_finish (hgo _) _ _ _ _
    · refine resWf_ite (by simp [h]) (resWf_ite (by simp [h]) (resWf_ite ?_ ?_))
      · split <;> simp [hgo]
      · split
        · exact wf_finish (hgo _) _ _ _ _
        · simp [h]
        · simp [h]
        · simp [hgo]
        · split
          · simp [h]
          · simp [hgo]
          · split <;> simp [hgo]

@[simp] theorem wf_execCpyD {s : State} (h : Memory.wf s.mem = true) (f) : ResWf (execCpyD f s) := by
  unfold execCpyD
  simp [h]

@[simp] theorem wf_execCpytD {s : State} (h : Memory.wf s.mem = true) (f) : ResWf (execCpytD f s) := by
  unfold execCpytD
  simp [h]

@[simp] theorem wf_execAstrD {s : State} (h : Memory.wf s.mem = true) (f) : ResWf (execAstrD f s) := by
  unfold execAstrD
  refine wf_once h _ _ _ _ fun w go l vals hgo => ?_
  dsimp only
  split
  · exact wf_finish (hgo _) _ _ _ _
  · refine resWf_ite (by simp [h]) ?_
    split <;> refine resWf_ite ?_ ?_ <;> simp [hgo]

@[simp] theorem wf_execAgatDm {s : State} (h : Memory.wf s.mem = true) (f) : ResWf (execAgatDm f s) := by
  unfold execAgatDm
  refine wf_control h _ _ _ _ fun w go vals hgo => resWf_ite (by simp [h]) ?_
  split <;> simp [h, hgo]

@[simp] theorem wf_execAsctDm {s : State} (h : Memory.wf s.mem = true) (f) : ResWf (execAsctDm f s) := by
  unfold execAsctDm
  refine wf_control h _ _ _ _ fun w go vals hgo => resWf_ite (by simp [h]) (wf_finish (wf_foldl (fun s x h => ?_) _ ?_) _ _ _ _)
  · split <;> simp [h]
  · rw [setQueue_mem]; exact hgo _

@[simp] theorem packetOne_mem (s : State) (w f batch l vs aim) : (s.packetOne w f batch l vs aim).mem = s.mem := by
  unfold State.packetOne
  dsimp only
  (repeat' split) <;> simp

@[simp] theorem wf_execOpkD {s : State} (h : Memory.wf s.mem = true) (f) : ResWf (execOpkD f s) := by
  unfold execOpkD
  refine wf_control h _ _ _ _ fun w go vals hgo => resWf_ite (by simp [h]) (resWf_ite (by simp [h]) (resWf_ite (by simp [h]) (resWf_ite (by simp [h]) ?_)))
  refine wf_finish ?_ _ _ _ _
  rw [foldl_mem (fun s x => packetOne_mem s _ _ _ _ _ _)]
  change Memory.wf (List.foldl _ (go _) _).mem = true
  rw [foldl_mem (fun s x => by split <;> simp)]
  exact hgo _

end Sys2Proof.Machine
end

section
/-! The canonical form of memory: what Sys2Proof/Machine/Launch.lean defines. -/

namespace Sys2Proof.Machine

@[simp] theorem readHeader_mem (s : State) (cluster ctx va) : (s.readHeader cluster ctx va).1.mem = s.mem := by
  unfold State.readHeader
  split
  · rfl
  · next s' l found =>
    have moved : s'.mem = s.mem := resolve_mem found
    dsimp only
    split
    · exact moved
    · split <;> exact moved
    · split <;> exact moved
    · split
      · next heq => exact ((congrArg (fun x : Except Byte (List Word) × State => x.2.mem) heq).symm.trans (outside_mem s' 64)).trans moved
      · next heq => exact ((congrArg (fun x : Except Byte (List Word) × State => x.2.mem) heq).symm.trans (outside_mem s' 64)).trans moved

@[simp] theorem wf_refusePost {s : State} (h : Memory.wf s.mem = true) (cluster ctx board code staddr) :
    Memory.wf (s.refusePost cluster ctx board code staddr).mem = true := by
  unfold State.refusePost
  (repeat' split) <;> simp [h]

@[simp] theorem wf_post {s : State} (h : Memory.wf s.mem = true) (cluster ctx board hdr) : Memory.wf (s.post cluster ctx board hdr).mem = true := by
  have read := readHeader_mem s cluster ctx hdr
  unfold State.post
  split
  · simp [h]
  · split
    · next found =>
      rw [found] at read
      exact wf_refusePost (wf_of_mem read h) _ _ _ _ _
    · next s' _ found =>
      rw [found] at read
      have moved : Memory.wf s'.mem = true := wf_of_mem read h
      dsimp only
      (repeat' split) <;> simp [moved]

@[simp] theorem wf_execLaunchD {s : State} (h : Memory.wf s.mem = true) (f) : ResWf (execLaunchD f s) := by
  unfold execLaunchD
  exact wf_control h _ _ _ _ fun w go vals hgo =>
    resWf_ite (by simp [h]) (wf_finish (wf_foldl (fun s x h => wf_post h _ _ _ _) _ (hgo _)) _ _ _ _)

end Sys2Proof.Machine
end

section
/-! The canonical form of memory: what Sys2Proof/Machine/Matrix.lean defines. -/

namespace Sys2Proof.Machine

@[simp] theorem mxQueue_mem (s : State) (w op) : (s.mxQueue w op).mem = s.mem := by
  unfold State.mxQueue
  split <;> simp

@[simp] theorem wf_runMatrix {s : State} (h : Memory.wf s.mem = true) (f srcs go) : ResWf (runMatrix f srcs go s) := by
  unfold runMatrix
  refine wf_once h _ _ _ _ fun w start l vals hgo => ?_
  dsimp only
  split
  · exact wf_finish (hgo _) _ _ _ _
  · refine resWf_ite (by simp [h]) ?_
    split
    · simp [h]
    · split <;> simp [hgo]

@[simp] theorem wf_execMmaD {s : State} (h : Memory.wf s.mem = true) (f) : ResWf (execMmaD f s) := by
  unfold execMmaD
  simp [h]

@[simp] theorem wf_execMmabD {s : State} (h : Memory.wf s.mem = true) (f) : ResWf (execMmabD f s) := by
  unfold execMmabD
  simp [h]

@[simp] theorem wf_execMzeroD {s : State} (h : Memory.wf s.mem = true) (f) : ResWf (execMzeroD f s) := by
  unfold execMzeroD
  simp [h]

@[simp] theorem wf_execMaccD {s : State} (h : Memory.wf s.mem = true) (f) : ResWf (execMaccD f s) := by
  unfold execMaccD
  simp [h]

@[simp] theorem wf_execSelcD {s : State} (h : Memory.wf s.mem = true) (f) : ResWf (execSelcD f s) := by
  unfold execSelcD
  simp [h]

@[simp] theorem wf_execMatrixOperationStart {s : State} (h : Memory.wf s.mem = true) (group) : ResWf (execMatrixOperationStart group s) := by
  unfold execMatrixOperationStart
  (repeat' split) <;> simp [h]

@[simp] theorem wf_mmaDone {s : State} (h : Memory.wf s.mem = true) (g gr o upset) : Memory.wf (mmaDone s g gr o upset).mem = true := by
  unfold mmaDone
  dsimp only
  have failed {s : State} (h : Memory.wf s.mem = true) (l : List (Nat × MxAcc)) :
      Memory.wf (l.foldl (fun s x => if x.2.failed then s.reliability 3 0x22 gr.cluster 8 gr.ctx 0 else s) s).mem = true :=
    wf_foldl (fun s x h => by split <;> simp [h]) l h
  split
  · exact wf_padWrite (failed (by exact h) _) _ _ _
  · exact failed (by exact h) _

@[simp] theorem wf_mxDone {s : State} (h : Memory.wf s.mem = true) (g gr o upset) : Memory.wf (s.mxDone g gr o upset).mem = true := by
  have writes {s : State} (h : Memory.wf s.mem = true) (l : List (Nat × Tw)) : Memory.wf (l.foldl (fun s x => s.padWrite g x.1 x.2) s).mem = true :=
    wf_foldl (fun s x h => wf_padWrite h _ _ _) l h
  unfold State.mxDone
  split
  · exact wf_mmaDone h _ _ _ _
  · exact wf_mmaDone h _ _ _ _
  · exact h
  · refine writes ?_ _
    split <;> exact h
  · exact writes h _

@[simp] theorem mxRetire_mem (s : State) (g o) : (s.mxRetire g o).mem = s.mem := by
  unfold State.mxRetire
  simp

@[simp] theorem wf_execMatrixOperationComplete {s : State} (h : Memory.wf s.mem = true) (group upset) :
    ResWf (execMatrixOperationComplete group upset s) := by
  unfold execMatrixOperationComplete
  (repeat' split) <;> simp [h]

end Sys2Proof.Machine
end

section
/-! The canonical form of memory: what Sys2Proof/Machine/Slice.lean defines. -/

namespace Sys2Proof.Machine

open Sys2Proof.Safety

/-- The lane and memory instructions, which a rule of `laneRule`, `laneRule64` or `memRule` gives. -/
def ruled (i : Instr) : Bool := (laneRule i).isSome || (laneRule64 i).isSome || (memRule i).isSome

theorem exec_of_memRule {i : Instr} {x : DMForm × MemDo} (e : memRule i = some x) : ∃ hd m, ∀ s, exec i s = runMemory s hd m := by
  cases i with
  | _ => cases e <;> exact ⟨_, _, fun _ => rfl⟩

theorem wf_of_ruled {i : Instr} (e : ruled i = true) {s : State} (h : Memory.wf s.mem = true) : ResWf (exec i s) := by
  rw [ruled, Bool.or_eq_true, Bool.or_eq_true] at e
  obtain (lane | wide) | memory := e
  · obtain ⟨L, rule⟩ := Option.isSome_iff_exists.mp lane
    rw [exec_eq_runRule rule]
    exact wf_runLane h _ _ _ _ _
  · obtain ⟨L, rule⟩ := Option.isSome_iff_exists.mp wide
    rw [exec_eq_occupyFour rule]
    exact wf_occupyFour (wf_runLane h _ _ _ _ _) s
  · obtain ⟨x, rule⟩ := Option.isSome_iff_exists.mp memory
    obtain ⟨hd, m, run⟩ := exec_of_memRule rule
    rw [run]
    exact wf_runMemory h _ _

/-- What the access subset gives no meaning to, a slice refuses. -/
theorem sliceExec_outside {i : Instr} (h : i.inSlice = false) (s : State) : sliceExec i s = .refused .notEnabled := by
  unfold sliceExec
  split
  case h_116 => rfl
  all_goals cases h

@[simp] theorem wf_sliceExec {s : State} (h : Memory.wf s.mem = true) (i) : ResWf (sliceExec i s) := by
  cases inside : i.inSlice with
  | false => rw [sliceExec_outside inside]; exact resWf_refused _
  | true =>
    cases rule : ruled i with
    | true =>
      rw [sliceExec_eq i s inside fun f same => by rw [same] at rule; cases rule]
      exact wf_of_ruled rule h
    | false =>
      have free : (i.inSlice && !ruled i) = true := by rw [inside, rule]; rfl
      cases i with
      | braWi f => exact wf_execBraWi h f
      | checkW f => exact wf_execCheckW h f
      | nopW f => exact wf_execNopW h f
      | exitW f => exact wf_execExitW h f
      | checkD f => exact wf_execCheckD h f
      | braDi f => exact wf_execBraDi h f
      | brxD f => exact wf_execBrxD h f
      | exitD f => exact wf_execExitD h f
      | nopD f => exact wf_execNopD h f
      | agatDm f => exact wf_execAgatDm h f
      | asctDm f => exact wf_execAsctDm h f
      | astrD f => exact resWf_refused _
      | _ => cases free

@[simp] theorem wf_sliceDecoded {s : State} (h : Memory.wf s.mem = true) (d) : ResWf (sliceDecoded d s) := by
  unfold sliceDecoded
  split
  · exact wf_sliceExec h _
  · exact wf_execAstrD h _
  · exact resWf_refused _

@[simp] theorem wf_sliceNow {s : State} (h : Memory.wf s.mem = true) (group) : ResWf (s.sliceNow group) := by
  unfold State.sliceNow
  dsimp only
  split
  · exact resWf_refused _
  · split
    · exact wf_sliceDecoded (by exact h) _
    · simp [h]
    · simp [h]

@[simp] theorem wf_execAccessIssue {s : State} (h : Memory.wf s.mem = true) (group) : ResWf (execAccessIssue group s) := by
  have now := wf_sliceNow h group
  unfold execAccessIssue
  refine resWf_ite (resWf_refused _) (resWf_ite now (resWf_ite (resWf_refused _) ?_))
  split
  · next issued => rw [issued, resWf_next] at now; simpa using now
  · exact now

end Sys2Proof.Machine
end

section
/-! The canonical form of memory: what Sys2Proof/Machine/Returns.lean defines. -/

namespace Sys2Proof.Machine

@[simp] theorem answer_mem (s : State) (k vals flags) : (s.answer k vals flags).mem = s.mem := by
  unfold State.answer
  split <;> simp

@[simp] theorem answerCode_mem (s : State) (k code va) : (s.answerCode k code va).mem = s.mem := by
  unfold State.answerCode
  (repeat' split) <;> simp

@[simp] theorem raggedAt_mem (s : State) (k va align got) : (s.raggedAt k va align got).1.mem = s.mem := by
  unfold State.raggedAt
  split
  · rfl
  · split
    · split
      · simp
      · split
        · simp
        · next s' leaf found =>
          have moved : s'.mem = s.mem := resolve_mem found
          dsimp only
          (repeat' split) <;> simp [moved]
    · rfl

@[simp] theorem raggedNext_mem (s : State) (k v) : (s.raggedNext k v).1.mem = s.mem := by
  unfold State.raggedNext
  dsimp only
  (repeat' split) <;> simp

@[simp] theorem raggedRun_mem (k n : Nat) (s : State) (v) : (raggedRun k n s v).mem = s.mem := by
  induction n generalizing s v with
  | zero => rfl
  | succ n ih =>
    cases v with
    | error c => simp [raggedRun]
    | ok v =>
      have next : (s.raggedNext k v).1.mem = s.mem := raggedNext_mem s k v
      unfold raggedRun
      split
      · next found => rw [ih]; rw [found] at next; exact next
      · next found => rw [found] at next; exact next

@[simp] theorem raggedStep_mem (s : State) (k v) : (s.raggedStep k v).mem = s.mem := by
  unfold State.raggedStep
  simp

@[simp] theorem raggedAgain_mem (s : State) (k) : (s.raggedAgain k).mem = s.mem := by
  unfold State.raggedAgain
  split
  · rfl
  · next o _ =>
    split
    · next got _ _ _ _ =>
      have read := raggedAt_mem s k o.va 1 got
      split
      · next found =>
        rw [found] at read
        exact (raggedRun_mem _ _ _ _).trans read
      · next found => rw [found] at read; exact read
    · rfl

@[simp] theorem owed_mem (s : State) (k o) : (s.owed k o).mem = s.mem := by
  unfold State.owed
  dsimp only
  (repeat' split) <;> simp

@[simp] theorem wf_deliverTo {s : State} (h : Memory.wf s.mem = true) (k o vals flags) : Memory.wf (s.deliverTo k o vals flags).mem = true := by
  unfold State.deliverTo
  dsimp only
  split
  · exact h
  · split <;> simp [h]
  · (repeat' split) <;> simp [h]
  · rw [State.modGroup_mem, foldl_mem (fun s x => by split <;> simp)]
    exact h
  · split <;> simp [h]

@[simp] theorem settleCopies_mem (s : State) : s.settleCopies.mem = s.mem := by
  unfold State.settleCopies
  split <;> rfl

@[simp] theorem copyRetire_mem (s : State) (e id) : (s.copyRetire e id).mem = s.mem := by
  unfold State.copyRetire
  (repeat' split) <;> simp

@[simp] theorem wf_retire {s : State} (h : Memory.wf s.mem = true) (k o vals flags) : Memory.wf (s.retire k o vals flags).mem = true := by
  unfold State.retire
  dsimp only
  (repeat' split) <;> simp [h]

@[simp] theorem wf_watchReply {s : State} (h : Memory.wf s.mem = true) (k o v) : Memory.wf (s.watchReply k o v).mem = true := by
  unfold State.watchReply
  dsimp only
  (repeat' split) <;> simp [h]

@[simp] theorem wf_execLongWriteReturn {s : State} (h : Memory.wf s.mem = true) (op reply) : ResWf (execLongWriteReturn op reply s) := by
  unfold execLongWriteReturn
  dsimp only
  (repeat' split) <;> simp [h]

@[simp] theorem wf_execKldReply {s : State} (h : Memory.wf s.mem = true) (op reply) : ResWf (execKldReply op reply s) := by
  unfold execKldReply
  dsimp only
  (repeat' split) <;> simp [h]

@[simp] theorem wf_writeFailed {s : State} (h : Memory.wf s.mem = true) (o code) : Memory.wf (s.writeFailed o code).mem = true := by
  unfold State.writeFailed
  dsimp only
  (repeat' split) <;> simp [h]

@[simp] theorem recorded_mem (s : State) (o v flags) : (s.recorded o v flags).mem = s.mem := by
  unfold State.recorded
  (repeat' split) <;> simp

@[simp] theorem wf_execStoreAcknowledgement {s : State} (h : Memory.wf s.mem = true) (op reply) : ResWf (execStoreAcknowledgement op reply s) := by
  unfold execStoreAcknowledgement
  dsimp only
  (repeat' split) <;> simp [h]

@[simp] theorem endSent_mem (s : State) (k o read ret) : (s.endSent k o read ret).mem = s.mem := by
  unfold State.endSent
  (repeat' split) <;> simp

@[simp] theorem wf_execCxlTimeout {s : State} (h : Memory.wf s.mem = true) (op) : ResWf (execCxlTimeout op s) := by
  unfold execCxlTimeout
  (repeat' split) <;> simp [h]

@[simp] theorem wf_execHostCompletionTimeout {s : State} (h : Memory.wf s.mem = true) (op) : ResWf (execHostCompletionTimeout op s) := by
  unfold execHostCompletionTimeout
  dsimp only
  (repeat' split) <;> simp [h]

@[simp] theorem wfail_mem (s : State) (n) : (s.wfail n).mem = s.mem := rfl

@[simp] theorem wf_execFabricAckTimeout {s : State} (h : Memory.wf s.mem = true) (op) : ResWf (execFabricAckTimeout op s) := by
  unfold execFabricAckTimeout
  (repeat' split) <;> simp [h]

end Sys2Proof.Machine
end

section
/-! The canonical form of memory: what Sys2Proof/Machine/Mse.lean defines. -/

namespace Sys2Proof.Machine

@[simp] theorem hold?_mem (s : State) (k o) : (s.hold? k o).mem = s.mem := rfl

@[simp] theorem countMse_mem (s : State) (p) : (s.countMse p).mem = s.mem := by
  unfold State.countMse
  split <;> rfl

@[simp] theorem wf_detect {s : State} (h : Memory.wf s.mem = true) (pa ecc) : Memory.wf (s.detect pa ecc).mem = true := by
  have marked := wf_setMark (s.freeWords 1).2 pa 0x20 (wf_of_mem (freeWords_mem s 1) h)
  unfold State.detect
  split
  · dsimp only
    split
    · exact h
    · split
      · exact h
      · simp [h]
      · simp [h]
      · exact wf_reliability marked _ _ _ _ _ _
      · exact wf_reliability marked _ _ _ _ _ _
  · exact h

@[simp] theorem raggedRead_mem (s : State) (k o f) : (s.raggedRead k o f).mem = s.mem := by
  unfold State.raggedRead
  (repeat' split) <;> simp

@[simp] theorem wf_watchRead {s : State} (h : Memory.wf s.mem = true) (k o) : Memory.wf (s.watchRead k o).mem = true := by
  unfold State.watchRead
  split <;> simp [h]

@[simp] theorem wf_readAt {s : State} (h : Memory.wf s.mem = true) (k o ecc) : Memory.wf (s.readAt k o ecc).mem = true := by
  unfold State.readAt
  dsimp only
  (repeat' split) <;> simp [h]

@[simp] theorem install_mem (s : State) (cluster l) : (s.install cluster l).mem = s.mem := rfl

@[simp] theorem dropLine_mem (s : State) (c pa) : (s.dropLine c pa).mem = s.mem := rfl

@[simp] theorem lineGives_mem (s : State) (k o line) : (s.lineGives k o line).mem = s.mem := by
  unfold State.lineGives
  split <;> simp

@[simp] theorem wf_fillAt {s : State} (h : Memory.wf s.mem = true) (k o ecc) : Memory.wf (s.fillAt k o ecc).mem = true := by
  unfold State.fillAt
  split <;> simp [h]

@[simp] theorem wf_leaveRel {s : State} (h : Memory.wf s.mem = true) (o) : Memory.wf (s.leaveRel o).mem = true := by
  unfold State.leaveRel
  split
  · rw [stampLine_mem]; exact wf_reach _ _ h
  · exact h

@[simp] theorem performed_mem (s : State) (k o) : (s.performed k o).mem = s.mem := by
  unfold State.performed
  split <;> rfl

@[simp] theorem wf_rowPut {s : State} (h : Memory.wf s.mem = true) (l) : Memory.wf (s.rowPut l).mem = true := by
  unfold State.rowPut
  dsimp only
  refine wf_foldl (fun s x h => by split <;> simp [h]) _ (wf_foldl (fun s x h => ?_) _ ?_)
  · split
    · exact wf_setMark _ _ _ h
    · exact h
  · refine wf_foldl (fun s x h => ?_) _ h
    split
    · exact wf_putBytes _ _ _ h
    · exact h

@[simp] theorem wf_rowWrite {s : State} (h : Memory.wf s.mem = true) (l) : Memory.wf (s.rowWrite l).mem = true := by
  unfold State.rowWrite
  simp [h]

@[simp] theorem wf_writeAt {s : State} (h : Memory.wf s.mem = true) (k o) : Memory.wf (s.writeAt k o).mem = true := by
  have marked (code : Nat) := wf_setMark (s.countMse o.place) o.pa code (wf_of_mem (countMse_mem s _) h)
  unfold State.writeAt
  dsimp only
  split
  · simp [h]
  · rw [performed_mem]
    split
    · exact wf_touchMem (marked _) _ _
    · simp [h]
  · simp [h]
  · simp [h]

@[simp] theorem wf_atomAt {s : State} (h : Memory.wf s.mem = true) (k ecc) : Memory.wf (s.atomAt k ecc).mem = true := by
  unfold State.atomAt
  split
  · exact h
  · dsimp only
    split
    · split
      · simp [h]
      · rw [atomDone_mem]
        exact wf_storeNow (wf_leaveRel (by simp [h]) _) _ _
    · rw [copyRetire_mem]
      split
      · simp [h]
      · exact wf_storeBytes (wf_leaveRel (by simp [h]) _) _ _
    · simp [h]

@[simp] theorem wf_atomBatch {s : State} (h : Memory.wf s.mem = true) (o ecc) : Memory.wf (s.atomBatch o ecc).mem = true :=
  wf_foldl (fun _ _ h => wf_atomAt h _ _) _ h

@[simp] theorem wf_applyKind {s : State} (h : Memory.wf s.mem = true) (k o kind ecc) : ResWf (s.applyKind k o kind ecc) := by
  unfold State.applyKind
  (repeat' split) <;> simp [h]

@[simp] theorem wf_arriveAt {s : State} (h : Memory.wf s.mem = true) (op kinds ecc) : ResWf (s.arriveAt op kinds ecc) := by
  unfold State.arriveAt
  (repeat' split) <;> simp [h]

@[simp] theorem wf_execMseRead {s : State} (h : Memory.wf s.mem = true) (op ecc) : ResWf (execMseRead op ecc s) := by
  unfold execMseRead
  simp [h]

@[simp] theorem wf_execMseWrite {s : State} (h : Memory.wf s.mem = true) (op) : ResWf (execMseWrite op s) := by
  unfold execMseWrite
  simp [h]

@[simp] theorem wf_execMseAtomic {s : State} (h : Memory.wf s.mem = true) (op ecc) : ResWf (execMseAtomic op ecc s) := by
  unfold execMseAtomic
  simp [h]

@[simp] theorem wf_execSliceFill {s : State} (h : Memory.wf s.mem = true) (op) : ResWf (execSliceFill op s) := by
  unfold execSliceFill
  simp [h]

@[simp] theorem wf_execGateRelease {s : State} (h : Memory.wf s.mem = true) (op) : ResWf (execGateRelease op s) := by
  unfold execGateRelease
  (repeat' split) <;> simp [h]

@[simp] theorem sendFrom_mem (s : State) (k o unit) : (s.sendFrom k o unit).mem = s.mem := rfl

@[simp] theorem wf_execGateResend {s : State} (h : Memory.wf s.mem = true) (op) : ResWf (execGateResend op s) := by
  unfold execGateResend
  (repeat' split) <;> simp [h]

@[simp] theorem wf_execBankAtomic {s : State} (h : Memory.wf s.mem = true) (op) : ResWf (execBankAtomic op s) := by
  unfold execBankAtomic
  dsimp only
  (repeat' split) <;> simp [h]

@[simp] theorem wf_execStmCopy {s : State} (h : Memory.wf s.mem = true) (op cluster) : ResWf (execStmCopy op cluster s) := by
  unfold execStmCopy
  dsimp only
  (repeat' split) <;> simp [h]

@[simp] theorem wf_execFrontierUpdate {s : State} (h : Memory.wf s.mem = true) (die) : ResWf (execFrontierUpdate die s) := by
  unfold execFrontierUpdate
  split <;> simp [h]

@[simp] theorem wf_recheckFar {s : State} (h : Memory.wf s.mem = true) (n) : ResWf (s.recheckFar n) := by
  unfold State.recheckFar
  dsimp only
  (repeat' split) <;> simp [h]

@[simp] theorem wf_execMonitorRecheck {s : State} (h : Memory.wf s.mem = true) (thread) : ResWf (execMonitorRecheck thread s) := by
  unfold execMonitorRecheck
  dsimp only
  (repeat' split) <;> simp [h]

@[simp] theorem wf_execZeroFillDone {s : State} (h : Memory.wf s.mem = true) (frame) : ResWf (execZeroFillDone frame s) := by
  unfold execZeroFillDone
  split
  · rw [resWf_next]; exact wf_fillFrame _ _ h
  · simp

@[simp] theorem wf_dropHole {s : State} (h : Memory.wf s.mem = true) (cluster k key) : Memory.wf (s.dropHole cluster k key).mem = true := by
  unfold State.dropHole
  dsimp only
  (repeat' split) <;> simp [h]

@[simp] theorem wf_sendOn {s : State} (h : Memory.wf s.mem = true) (k o key pa cluster) : Memory.wf (s.sendOn k o key pa cluster).mem = true := by
  unfold State.sendOn
  split <;> simp [h]

@[simp] theorem wf_forward {s : State} (h : Memory.wf s.mem = true) (k o f) : Memory.wf (s.forward k o f).mem = true := by
  unfold State.forward
  dsimp only
  (repeat' split) <;> simp [h]

@[simp] theorem freeze_mem (s : State) (k o) : (s.freeze k o).mem = s.mem := rfl

@[simp] theorem wf_execForwardedOperation {s : State} (h : Memory.wf s.mem = true) (op) : ResWf (execForwardedOperation op s) := by
  unfold execForwardedOperation
  split
  · simp
  · dsimp only
    split
    · simp
    · split
      · simp
      · split
        · split <;> simp [h]
        · split
          · simp [h]
          · split
            · split
              · simp
              · rw [resWf_next]
                exact wf_foldl (fun s x h => by simp [h]) _ h
            · split
              · rw [resWf_next]
                exact wf_foldl (fun s x h => by simp [h]) _ h
              · simp

@[simp] theorem windowPut_mem (s : State) (c reg byte bytes v) : (s.windowPut c reg byte bytes v).1.mem = s.mem := by
  unfold State.windowPut
  dsimp only
  (repeat' split) <;> simp

@[simp] theorem windowWrite_mem (s : State) (ctx type addr v) : (s.windowWrite ctx type addr v).mem = s.mem := by
  unfold State.windowWrite
  dsimp only
  (repeat' split) <;> simp

@[simp] theorem wf_execRegisterWindowAccess {s : State} (h : Memory.wf s.mem = true) (op) : ResWf (execRegisterWindowAccess op s) := by
  unfold execRegisterWindowAccess
  (repeat' split) <;> simp [h]

end Sys2Proof.Machine
end

section
/-! The canonical form of memory: what Sys2Proof/Machine/Packets.lean defines. -/

namespace Sys2Proof.Machine

@[simp] theorem sourceAt_mem (s : State) (cluster ctx va n serial r) : (s.sourceAt cluster ctx va n serial r).1.mem = s.mem := by
  unfold State.sourceAt
  dsimp only
  split
  · rfl
  · split
    · rfl
    · next s' l found =>
      have moved : s'.mem = s.mem := resolve_mem found
      (repeat' split) <;> exact moved

@[simp] theorem sources_mem (s : State) (cluster ctx n serial m va : Nat) (rs : List Reply) : (s.sources cluster ctx n serial m va rs).1.mem = s.mem := by
  induction m generalizing s va rs with
  | zero => rfl
  | succ m ih =>
    unfold State.sources
    exact (ih _ _ _).trans (sourceAt_mem _ _ _ _ _ _ _)

theorem writable_mem {s : State} {cluster ctx va : Nat} {x : State × Nat} (e : s.writable cluster ctx va = some x) : x.1.mem = s.mem := by
  unfold State.writable at e
  split at e
  · cases e
  · split at e
    · cases e
    · next s' l found =>
      have moved : s'.mem = s.mem := resolve_mem found
      split at e
      · cases e
      · split at e <;> cases e <;> exact moved

theorem writables_mem {s : State} {cluster ctx n va : Nat} {x : State × List Nat} (e : s.writables cluster ctx n va = some x) :
    x.1.mem = s.mem := by
  induction n generalizing s va x with
  | zero => cases e; rfl
  | succ n ih =>
    unfold State.writables at e
    split at e
    · cases e
    · next first =>
      split at e
      · cases e
      · next rest => cases e; exact (ih rest).trans (writable_mem first)

@[simp] theorem wf_putWords {s : State} (h : Memory.wf s.mem = true) (ctx c l) : Memory.wf (s.putWords ctx c l).mem = true := by
  unfold State.putWords
  dsimp only
  exact wf_rowWrite (wf_foldl (fun s x h => by simp [h]) _ h) _

theorem nodeAt_mem {s : State} {c ctx va : Nat} {x : State × Nat} (e : s.nodeAt c ctx va = some x) : x.1.mem = s.mem := by
  unfold State.nodeAt at e
  split at e
  · cases e
  · split at e
    · cases e
    · next s' l found =>
      have moved : s'.mem = s.mem := resolve_mem found
      dsimp only at e
      split at e <;> cases e
      exact moved

@[simp] theorem wf_mergeFree {s : State} (h : Memory.wf s.mem = true) (ctx sub row vs) : Memory.wf (s.mergeFree ctx sub row vs).mem = true :=
  wf_foldl (fun s ⟨a, v⟩ h => by dsimp only; split <;> simp [h]) _ h

theorem mergeBound_mem {s : State} {ctx sub row vs} {u : State} (e : s.mergeBound ctx sub row vs = some u) : u.mem = s.mem := by
  unfold State.mergeBound at e
  dsimp only at e
  split at e <;> cases e
  exact foldl_keeps State.mem _ (fun _ _ => State.modCluster_mem _ _ _) _ _

@[simp] theorem wf_drainRow {s : State} (h : Memory.wf s.mem = true) (ctx sub row) : Memory.wf (s.drainRow ctx sub row).1.mem = true := by
  unfold State.drainRow
  dsimp only
  refine wf_rowWrite ?_ _
  rw [foldl_mem (fun s x => State.modCluster_mem s _ _)]
  exact h

@[simp] theorem moveEntry_mem (s : State) (ctx id head x) : (s.moveEntry ctx id head x).mem = s.mem := rfl

theorem moveTo_mem {s : State} {c o p} {x : State × Packet} (e : s.moveTo c o p = some x) : x.1.mem = s.mem := by
  unfold State.moveTo at e
  split at e
  · cases e
  · next s' l found =>
    have moved : s'.mem = s.mem := writables_mem found
    dsimp only at e
    split at e <;> cases e
    exact moved

@[simp] theorem unfreeze_mem (s : State) (l) : (s.unfreeze l).mem = s.mem :=
  foldl_keeps State.mem _ (fun _ _ => by simp) _ _

@[simp] theorem moveStamps_mem (s : State) (x) : (s.moveStamps x).mem = s.mem := by
  simp [State.moveStamps, mem_ite]

@[simp] theorem wf_moveWaits {s : State} (h : Memory.wf s.mem = true) (words) : Memory.wf (s.moveWaits words).mem = true := by
  unfold State.moveWaits
  dsimp only
  rw [foldl_mem (fun s w => registerFar_mem s _)]
  refine wf_foldl (fun s k h => wf_register h k) _ ?_
  rw [foldl_mem sweepMonitors_mem]
  exact h

@[simp] theorem wf_moveRow {s : State} (h : Memory.wf s.mem = true) (ctx l) : Memory.wf (s.moveRow ctx l).mem = true := by
  unfold State.moveRow
  simp [h]

theorem unforward_mem {s : State} {pa : Nat} {u : State} (e : s.unforward pa = some u) : u.mem = s.mem := by
  obtain ⟨f, -, rfl⟩ := Option.map_eq_some_iff.mp e
  rfl

@[simp] theorem chase_mem (s : State) (c o p serial) (n ptr : Nat) : (s.chase c o p serial n ptr).1.mem = s.mem := by
  induction n generalizing s ptr with
  | zero => rfl
  | succ n ih =>
    unfold State.chase
    split
    · rfl
    · dsimp only
      split
      · rfl
      · next s' l found =>
        have moved : s'.mem = s.mem := resolve_mem found
        (repeat' split) <;> simp [ih, moved]

@[simp] theorem putAway_mem (s : State) (k o c l) : (s.putAway k o c l).mem = s.mem :=
  foldl_keeps State.mem _ (fun _ _ => by simp) _ _

@[simp] theorem wf_rowGet {s : State} (h : Memory.wf s.mem = true) (k c o p whole) : Memory.wf (s.rowGet k c o p whole).1.mem = true := by
  unfold State.rowGet
  split
  · exact h
  · next s' l found =>
    have moved : Memory.wf s'.mem = true := wf_of_mem (writables_mem found) h
    dsimp only
    split <;> simp [moved]

@[simp] theorem wf_packetStep {s : State} (h : Memory.wf s.mem = true) (k c o p rs whole) :
    Memory.wf (s.packetStep k c o p rs whole).1.mem = true := by
  unfold State.packetStep
  split
  · exact h
  · generalize counted : (if p.op = moveOn || (p.op = chaseOn && o.hop.1 = 2048 + c) then s else s.countMse o.place) = s1
    have h1 : Memory.wf s1.mem = true := by rw [← counted]; split <;> simp [h]
    dsimp only
    split
    · exact h1
    · generalize left : (if p.op = moveOn || p.op = chaseOn then s1 else s1.leaveRel o) = s2
      have h2 : Memory.wf s2.mem = true := by rw [← left]; split <;> simp [h1]
      split
      · split <;> simp [h2]
      · split
        · exact h2
        · split
          · exact h2
          · next s' node found =>
            have h3 : Memory.wf s'.mem = true := wf_of_mem (nodeAt_mem found) h2
            split
            · exact wf_storeNow (wf_storeNow (wf_storeNow h3 _ _) _ _) _ _
            · split
              · exact h3
              · next s'' tail found' =>
                have h4 : Memory.wf s''.mem = true := wf_of_mem (nodeAt_mem found') h3
                exact wf_storeNow (wf_storeNow (wf_storeNow h4 _ _) _ _) _ _
      · split
        · exact h2
        · split
          · exact h2
          · next s' node found =>
            have h3 : Memory.wf s'.mem = true := wf_of_mem (nodeAt_mem found) h2
            split <;> simp [h3]
      · simp [h2]
      · simp [h2]
      · split <;> simp [h2]
      · (repeat' split) <;> simp [h2]
      · have h3 := wf_of_mem (sources_mem s2 c o.ctx (if p.sub = 0 then 4 else 2) (s1.cluster c).mseSer p.len p.a rs) h2
        generalize s2.sources c o.ctx (if p.sub = 0 then 4 else 2) (s1.cluster c).mseSer p.len p.a rs = read at h3
        split
        · exact wf_mergeFree h3 _ _ _ _
        · split
          · next found => exact wf_of_mem (mergeBound_mem found) h3
          · exact h3
      · split <;> simp [h2]
      · simp [h2]
      · simp [h2]
      · split
        · exact h2
        · next found =>
          have moved := wf_of_mem (moveTo_mem found) h2
          dsimp only
          rw [foldl_mem (fun _ _ => State.modCluster_mem _ _ _)]
          exact moved
      · split <;> simp [h2]
      · split
        · next found => exact wf_of_mem (unforward_mem found) h2
        · exact h2
      · exact h2

@[simp] theorem packetEnd_mem (s : State) (k o out) : (s.packetEnd k o out).mem = s.mem := by
  unfold State.packetEnd
  (repeat' split) <;> simp

@[simp] theorem wf_execOpkPacket {s : State} (h : Memory.wf s.mem = true) (op replies) : ResWf (execOpkPacket op replies s) := by
  unfold execOpkPacket
  (repeat' split) <;> simp [h]

@[simp] theorem wf_execTransactionPacket {s : State} (h : Memory.wf s.mem = true) (op accepted) : ResWf (execTransactionPacket op accepted s) := by
  unfold execTransactionPacket
  dsimp only
  (repeat' split) <;> simp [h]

@[simp] theorem wf_commitOne {s : State} (h : Memory.wf s.mem = true) (k) : Memory.wf (s.commitOne k).mem = true := by
  unfold State.commitOne
  dsimp only
  (repeat' split) <;> simp [h]

@[simp] theorem wf_committed {s : State} (h : Memory.wf s.mem = true) (k r) : Memory.wf (s.committed k r).mem = true := by
  unfold State.committed
  (repeat' split) <;> simp [h]

@[simp] theorem wf_execFcommitCommit {s : State} (h : Memory.wf s.mem = true) (thread replies) : ResWf (execFcommitCommit thread replies s) := by
  unfold execFcommitCommit
  split
  · simp
  · split
    · dsimp only
      split
      · simp
      · split
        · split
          · rw [resWf_next]
            exact wf_foldl (fun s k h => wf_commitOne h k) _ h
          · simp
        · split
          · rw [resWf_next]
            exact wf_foldl (fun s x h => wf_committed h _ _) _ h
          · simp
    · simp

@[simp] theorem wf_execFcommitReply {s : State} (h : Memory.wf s.mem = true) (thread reply) : ResWf (execFcommitReply thread reply s) := by
  unfold execFcommitReply
  (repeat' split) <;> simp [h]

end Sys2Proof.Machine
end

section
/-! The canonical form of memory: what Sys2Proof/Machine/Copies.lean defines. -/

namespace Sys2Proof.Machine

@[simp] theorem onFifo_mem (s : State) (g fifo n f) : (s.onFifo g fifo n f).mem = s.mem := by
  unfold State.onFifo
  simp

@[simp] theorem modCopy_mem (s : State) (e id f) : (s.modCopy e id f).mem = s.mem := rfl

@[simp] theorem stepCopy_mem (s : State) (e id) : (s.stepCopy e id).mem = s.mem := rfl

@[simp] theorem stageCopy_mem (s : State) (e id v a5) : (s.stageCopy e id v a5).mem = s.mem := rfl

@[simp] theorem keepPages_mem (s : State) (e id) : (s.keepPages e id).mem = s.mem := rfl

@[simp] theorem copySend_mem (s : State) (e c work p va pa rel) : (s.copySend e c work p va pa rel).mem = s.mem := by
  unfold State.copySend
  dsimp only
  (repeat' split) <;> simp

@[simp] theorem hostElement_mem (s : State) (c addr raw v) : (s.hostElement c addr raw v).mem = s.mem := rfl

@[simp] theorem dropElement_mem (s : State) (e c) : (s.dropElement e c).mem = s.mem := rfl

/-- The state that an engine's read or delivery leaves, where there is one, has its memory in the canonical form. -/
def FetchWf : Fetch → Prop
  | .wait s => Memory.wf s.mem = true
  | .got s _ => Memory.wf s.mem = true
  | .notYet => True

@[simp] theorem fetchWf_wait (s : State) : FetchWf (.wait s) ↔ Memory.wf s.mem = true := Iff.rfl

@[simp] theorem fetchWf_got (s : State) (v) : FetchWf (.got s v) ↔ Memory.wf s.mem = true := Iff.rfl

@[simp] theorem fetchWf_notYet : FetchWf .notYet := trivial

theorem fetchWf_engineWait {s : State} (h : Memory.wf s.mem = true) (cluster ctx va host write u) :
    FetchWf (s.engineWait cluster ctx va host write u) := by
  unfold State.engineWait
  (repeat' split) <;> simp [h]

theorem fetchWf_give {s : State} (h : Memory.wf s.mem = true) (l : Line) (pa n serial) : FetchWf (l.give s pa n serial) := by
  unfold Line.give
  split <;> simp [h]

theorem fetchWf_lineRead {s : State} (h : Memory.wf s.mem = true) (cluster clock pa n serial ecc) :
    FetchWf (s.lineRead cluster clock pa n serial ecc) := by
  unfold State.lineRead
  split
  · split
    · simp [h]
    · exact fetchWf_give (by simp [h]) _ _ _ _
  · dsimp only
    split
    · trivial
    · exact fetchWf_give (by simp [h]) _ _ _ _

theorem fetchWf_outsideRead {s : State} (h : Memory.wf s.mem = true) (n serial r) : FetchWf (outsideRead s n serial r) := by
  unfold outsideRead
  split <;> simp [h]

theorem fetchWf_engineRead {s : State} (h : Memory.wf s.mem = true) (u cluster ctx clock va n serial ecc r) :
    FetchWf (s.engineRead u cluster ctx clock va n serial ecc r) := by
  unfold State.engineRead
  split
  · exact h
  · split
    · exact fetchWf_engineWait h _ _ _ _ _ _
    · exact fetchWf_engineWait h _ _ _ _ _ _
    · exact h
    · exact fetchWf_outsideRead h _ _ _
    · split
      · exact h
      · split
        · split
          · trivial
          · exact fetchWf_lineRead h _ _ _ _ _ _
        · dsimp only
          (repeat' split) <;> simp [h]
      · dsimp only
        split <;> exact h
      · exact fetchWf_outsideRead h _ _ _

theorem fetchWf_memElement {s : State} (h : Memory.wf s.mem = true) (e c v) : FetchWf (s.memElement e c v) := by
  unfold State.memElement
  dsimp only
  split
  · exact fetchWf_engineWait h _ _ _ _ _ _
  · split
    · simp [State.dropElement, h]
    · exact fetchWf_engineWait h _ _ _ _ _ _
  · simp [State.dropElement, h]
  · split <;> simp [State.dropElement, h]
  · (repeat' split) <;> simp [State.dropElement, h]

theorem fetchWf_deliverElement {s : State} (h : Memory.wf s.mem = true) (e c v) : FetchWf (s.deliverElement e c v) := by
  unfold State.deliverElement
  split
  · dsimp only
    (repeat' split) <;> simp [State.dropElement, h]
  · dsimp only
    (repeat' split) <;> simp [h]
  · dsimp only
    (repeat' split) <;> simp [h]
  · exact fetchWf_memElement h _ _ _
  · exact fetchWf_memElement h _ _ _
  · simp [State.dropElement, h]

theorem wf_toRes {f : Fetch} (h : FetchWf f) : ResWf f.toRes := by
  cases f with
  | wait s => exact (resWf_next s).mpr h
  | got s v => exact (resWf_next s).mpr h
  | notYet => exact resWf_refused _

@[simp] theorem wf_copyRead {s : State} (h : Memory.wf s.mem = true) (engine c ecc reply) : ResWf (s.copyRead engine c ecc reply) := by
  have read (u : WalkUser) (va n : Nat) := fetchWf_engineRead h u c.cluster c.ctx c.ec va n c.serial ecc reply
  unfold State.copyRead
  split
  · simp
  · dsimp only
    split
    · split
      · next found =>
        have got := read (.copy engine c.id) c.entryAt 8
        rw [found] at got
        simpa using got
      · exact wf_toRes (read _ _ _)
    · simp [h]
    · split
      · simp
      · split
        · next entry found _ _ s' v got =>
          have moved := read (.copy engine c.id) (c.source c.ahead entry) 4
          rw [got] at moved
          simpa using moved
        · exact wf_toRes (read _ _ _)

@[simp] theorem wf_execCopyElementRead {s : State} (h : Memory.wf s.mem = true) (engine command ecc reply) :
    ResWf (execCopyElementRead engine command ecc reply s) := by
  unfold execCopyElementRead
  dsimp only
  split
  · simp
  · split
    · simp
    · split
      · simp [h]
      · exact wf_toRes (fetchWf_deliverElement (by simp [h]) _ _ _)
      · exact resWf_refused _

@[simp] theorem wf_execCacheDrop {s : State} (h : Memory.wf s.mem = true) (engine command place) : ResWf (execCacheDrop engine command place s) := by
  unfold execCacheDrop
  (repeat' split) <;> simp [h]

@[simp] theorem completionRel_mem (s : State) (c p) : (s.completionRel c p).1.mem = s.mem := by
  unfold State.completionRel
  split <;> simp

theorem fetchWf_completionAt {s : State} (h : Memory.wf s.mem = true) (e c) : FetchWf (s.completionAt e c) := by
  unfold State.completionAt
  dsimp only
  split
  · (repeat' split) <;> simp [h]
  · split
    · exact fetchWf_engineWait h _ _ _ _ _ _
    · exact fetchWf_engineWait h _ _ _ _ _ _
    · split <;> simp [h]
    · simp [h]
    · (repeat' split) <;> simp [h]

@[simp] theorem wf_execCopyCompletion {s : State} (h : Memory.wf s.mem = true) (engine command) : ResWf (execCopyCompletion engine command s) := by
  unfold execCopyCompletion
  split
  · simp
  · exact resWf_ite (resWf_refused _) (resWf_ite (by simp [h]) (wf_toRes (fetchWf_completionAt h _ _)))

@[simp] theorem modStreams_mem (s : State) (g f) : (s.modStreams g f).mem = s.mem := by
  unfold State.modStreams
  simp

@[simp] theorem modStream_mem (s : State) (g id f) : (s.modStream g id f).mem = s.mem := by
  unfold State.modStream
  simp

@[simp] theorem streamPush_mem (s : State) (g st vs) : (s.streamPush g st vs).mem = s.mem := by
  unfold State.streamPush
  split <;> simp

@[simp] theorem wf_streamRead {s : State} (h : Memory.wf s.mem = true) (g gr st ecc reply) : ResWf (s.streamRead g gr st ecc reply) := by
  have read := fetchWf_engineRead h (.stream g st.id) gr.cluster gr.ctx st.clock st.va (if st.wide then 8 else 4) st.serial ecc reply
  unfold State.streamRead
  dsimp only
  split
  · simp
  · split
    · simp [h]
    · split
      · next found => rw [found] at read; simpa using read
      · next found => rw [found] at read; simpa using read
      · exact wf_toRes read

@[simp] theorem wf_execStreamElementReturn {s0 : State} (h : Memory.wf s0.mem = true) (group stream ecc reply) :
    ResWf (execStreamElementReturn group stream ecc reply s0) := by
  unfold execStreamElementReturn
  dsimp only
  (repeat' split) <;> simp [h]

end Sys2Proof.Machine
end

section
/-! The canonical form of memory: what Sys2Proof/Machine/Travel.lean defines. -/

namespace Sys2Proof.Machine

@[simp] theorem dropMsg_mem (s : State) (cluster id) : (s.dropMsg cluster id).mem = s.mem := rfl

@[simp] theorem backOff_mem (s : State) (cluster id) : (s.backOff cluster id).mem = s.mem := rfl

@[simp] theorem setInbox_mem (s : State) (m actq port l) : (s.setInbox m actq port l).mem = s.mem := by
  unfold State.setInbox
  split <;> simp

@[simp] theorem messageDone_mem (s : State) (cluster id) : (s.messageDone cluster id).mem = s.mem := rfl

@[simp] theorem wf_execMessageDelivery {s : State} (h : Memory.wf s.mem = true) (cluster message) :
    ResWf (execMessageDelivery cluster message s) := by
  unfold execMessageDelivery
  (repeat' split) <;> simp [h]

@[simp] theorem wf_execMessageResend {s : State} (h : Memory.wf s.mem = true) (cluster message) : ResWf (execMessageResend cluster message s) := by
  unfold execMessageResend
  (repeat' split) <;> simp [h]

@[simp] theorem rekey_mem (s : State) (old new) : (s.rekey old new).mem = s.mem := rfl

@[simp] theorem wf_resumeWait {s : State} (h : Memory.wf s.mem = true) (key) : Memory.wf (s.resumeWait key).mem = true := by
  unfold State.resumeWait
  dsimp only
  (repeat' split) <;> simp [h]

@[simp] theorem wf_enterSlot {s : State} (h : Memory.wf s.mem = true) (cluster slot a) : Memory.wf (s.enterSlot cluster slot a).mem = true := by
  unfold State.enterSlot
  (repeat' split) <;> simp [h]

theorem wf_receive {s : State} (h : Memory.wf s.mem = true) {cluster : Nat} {a : Travel} {u : State} (e : s.receive cluster a = some u) :
    Memory.wf u.mem = true := by
  unfold State.receive at e
  split at e
  · cases e
  · dsimp only at e
    split at e
    · cases e; exact wf_enterSlot h _ _ _
    · split at e <;> cases e
      exact h

@[simp] theorem switchedIn_mem (s : State) (ctx) : (s.switchedIn ctx).mem = s.mem := by
  unfold State.switchedIn
  dsimp only
  (repeat' split) <;> simp

@[simp] theorem takeSaved_mem (s : State) (ctx item) : (s.takeSaved ctx item).mem = s.mem := by
  unfold State.takeSaved
  dsimp only
  (repeat' split) <;> simp

@[simp] theorem wf_execArrivalAdmission {s : State} (h : Memory.wf s.mem = true) (cluster) : ResWf (execArrivalAdmission cluster s) := by
  unfold execArrivalAdmission
  split
  · simp [h]
  · split
    · simp
    · split
      · next received =>
        rw [resWf_next, switchedIn_mem]
        exact wf_receive (wf_of_mem (takeSaved_mem _ _ _) h) received
      · simp

@[simp] theorem sendAway_mem (s : State) (t key l eg) : (s.sendAway t key l eg).mem = s.mem := by
  unfold State.sendAway
  split <;> rfl

@[simp] theorem wf_execDeparture {s : State} (h : Memory.wf s.mem = true) (thread) : ResWf (execDeparture thread s) := by
  unfold execDeparture
  dsimp only
  (repeat' split) <;> simp [h]

@[simp] theorem answerLeave_mem (s : State) (key l yes lost) : (s.answerLeave key l yes lost).mem = s.mem := by
  unfold State.answerLeave
  simp

@[simp] theorem wf_execMigrationMessage {s : State} (h : Memory.wf s.mem = true) (thread peer) : ResWf (execMigrationMessage thread peer s) := by
  unfold execMigrationMessage
  split
  · dsimp only
    split
    · split
      · simp
      · split
        · simp [h]
        · simp [h]
        · simp [h]
        · split
          · next received =>
            rw [resWf_next, answerLeave_mem]
            exact wf_receive (wf_of_mem (dropMsg_mem _ _ _) h) received
          · simp [h]
    · simp
  · simp

@[simp] theorem wf_execMigrationAcknowledgement {s : State} (h : Memory.wf s.mem = true) (thread) :
    ResWf (execMigrationAcknowledgement thread s) := by
  unfold execMigrationAcknowledgement
  (repeat' split) <;> simp [h]

@[simp] theorem openMessage_mem (s : State) (cluster o k wide) : (s.openMessage cluster o k wide).mem = s.mem :=
  rfl

@[simp] theorem fetchInstead_mem (s : State) (key t l) : (s.fetchInstead key t l).mem = s.mem := by
  simp [State.fetchInstead, mem_ite]

@[simp] theorem wf_execMigrationRefusal {s : State} (h : Memory.wf s.mem = true) (thread) : ResWf (execMigrationRefusal thread s) := by
  unfold execMigrationRefusal
  (repeat' split) <;> simp [h]

@[simp] theorem wf_execMigrResend {s : State} (h : Memory.wf s.mem = true) (thread) : ResWf (execMigrResend thread s) := by
  unfold execMigrResend
  (repeat' split) <;> simp [h]

@[simp] theorem wf_spawnFails {s : State} (h : Memory.wf s.mem = true) (cluster m code) : Memory.wf (s.spawnFails cluster m code).mem = true := by
  unfold State.spawnFails
  simp [h]

@[simp] theorem wf_execSpawnMessage {s : State} (h : Memory.wf s.mem = true) (cluster message peer) : ResWf (execSpawnMessage cluster message peer s) := by
  unfold execSpawnMessage
  split
  · simp
  · split
    · simp
    · simp
    · split
      · simp
      · dsimp only
        split
        · split
          · next received => rw [resWf_next, modMsg_mem]; exact wf_receive h received
          · simp [h]
        · split
          · simp
          · split <;> simp [h]

@[simp] theorem wf_execSpawnAcknowledgement {s : State} (h : Memory.wf s.mem = true) (cluster message) :
    ResWf (execSpawnAcknowledgement cluster message s) := by
  unfold execSpawnAcknowledgement
  (repeat' split) <;> simp [h]

@[simp] theorem spawnAgain_mem (s : State) (cluster m) : (s.spawnAgain cluster m).mem = s.mem :=
  foldl_keeps State.mem _ (fun _ _ => by simp) _ _

@[simp] theorem wf_execSpawnResend {s : State} (h : Memory.wf s.mem = true) (cluster message) : ResWf (execSpawnResend cluster message s) := by
  unfold execSpawnResend
  (repeat' split) <;> simp [h]

@[simp] theorem wf_execTriggerNotice {s : State} (h : Memory.wf s.mem = true) (act count) : ResWf (execTriggerNotice act count s) := by
  unfold execTriggerNotice
  (repeat' split) <;> simp [h]

@[simp] theorem wf_execCompletionNotice {s : State} (h : Memory.wf s.mem = true) (act source count) :
    ResWf (execCompletionNotice act source count s) := by
  unfold execCompletionNotice
  dsimp only
  (repeat' split) <;> simp [h]

@[simp] theorem wf_guestFailed {s : State} (h : Memory.wf s.mem = true) (ctx) : Memory.wf (s.guestFailed ctx).mem = true := by
  unfold State.guestFailed
  simp [h]

@[simp] theorem wf_execFailureNotice {s : State} (h : Memory.wf s.mem = true) (act) : ResWf (execFailureNotice act s) := by
  unfold execFailureNotice
  (repeat' split) <;> simp [h]

@[simp] theorem wf_execRacqGrant {s : State} (h : Memory.wf s.mem = true) (cluster) : ResWf (execRacqGrant cluster s) := by
  unfold execRacqGrant
  (repeat' split) <;> simp [h]

end Sys2Proof.Machine
end

section
/-! The canonical form of memory: what Sys2Proof/Machine/Evict.lean defines. -/

namespace Sys2Proof.Machine

@[simp] theorem areaFull_mem (s : State) (ctx) : (s.areaFull ctx).mem = s.mem := rfl

@[simp] theorem wf_recordBytes {s : State} (h : Memory.wf s.mem = true) (ctx cluster key bytes) :
    Memory.wf (s.recordBytes ctx cluster key bytes).mem = true := by
  unfold State.recordBytes
  exact wf_foldl (fun s n h => wf_foldl (fun s i h => wf_writeVirtual h _ _ _ _) _ (wf_of_mem (State.modCtx_mem _ _ _) h)) _ h

@[simp] theorem wf_recordThread {s : State} (h : Memory.wf s.mem = true) (ctx cluster key t) :
    Memory.wf (s.recordThread ctx cluster key t).mem = true := by
  unfold State.recordThread
  dsimp only
  (repeat' split) <;> simp [h]

@[simp] theorem wf_recordGroup {s : State} (h : Memory.wf s.mem = true) (ctx cluster key copies g) :
    Memory.wf (s.recordGroup ctx cluster key copies g).mem = true := by
  unfold State.recordGroup
  simp [h]

@[simp] theorem beforeSave_mem (s : State) (key) : (s.beforeSave key).mem = s.mem := by
  unfold State.beforeSave
  simp

@[simp] theorem dropUsers_mem (s : State) (p) : (s.dropUsers p).mem = s.mem := rfl

@[simp] theorem rekeyGroup_mem (s : State) (old new) : (s.rekeyGroup old new).mem = s.mem := rfl

@[simp] theorem wf_placementEntry {s : State} (h : Memory.wf s.mem = true) (g resident) : Memory.wf (s.placementEntry g resident).mem = true := by
  unfold State.placementEntry
  extract_lets ptab
  split
  · exact h
  · split
    · exact h
    · next s' pa found =>
      have moved : Memory.wf s'.mem = true := wf_of_mem (resolveDevice_mem found) h
      simp [wf_reach s' pa moved]

/-- The fresh keys that leaving threads or groups take leave the memory as it is. -/
theorem numbered_mem (s : State) (ks : List Nat) :
    (ks.foldl (fun (x : State × List (Nat × Nat)) k => (x.1.fresh.2, x.2 ++ [(k, savedKey x.1.fresh.1)])) (s, [])).1.mem = s.mem :=
  List.foldlRecOn (motive := fun x : State × List (Nat × Nat) => x.1.mem = s.mem) _ _ rfl fun _ h _ _ => h

@[simp] theorem wf_saveEnsemble {s : State} (h : Memory.wf s.mem = true) (key) : Memory.wf (s.saveEnsemble key).mem = true := by
  unfold State.saveEnsemble
  split
  · exact h
  · dsimp only
    split
    · rw [foldl_mem (fun s x => rekeyGroup_mem s _ _), foldl_mem (fun s x => rekey_mem s _ _), dropUsers_mem, numbered_mem, numbered_mem, numbered_mem,
        foldl_mem (fun s x => beforeSave_mem s _)]
      exact wf_foldl (fun s g h => by split <;> simp [h]) _ h
    · rw [foldl_mem (fun s x => sweepMonitors_mem s _)]
      refine wf_foldl (fun s x h => wf_recordThread h _ _ _ _) _ (wf_foldl (fun s x h => wf_recordThread h _ _ _ _) _
        (wf_foldl (fun s x h => wf_recordGroup h _ _ _ _ _) _ ?_))
      rw [State.modCtx_mem]
      dsimp only
      rw [foldl_mem (fun s x => rekeyGroup_mem s _ _), foldl_mem (fun s x => rekey_mem s _ _), dropUsers_mem, numbered_mem, numbered_mem, numbered_mem,
        foldl_mem (fun s x => beforeSave_mem s _)]
      exact wf_foldl (fun s g h => by split <;> simp [h]) _ h

@[simp] theorem wf_putRoaming {s : State} (h : Memory.wf s.mem = true) (cluster key t) : Memory.wf (s.putRoaming cluster key t).mem = true := by
  unfold State.putRoaming
  dsimp only
  (repeat' split) <;> simp [h]

@[simp] theorem wf_saveRoaming {s : State} (h : Memory.wf s.mem = true) (key) : Memory.wf (s.saveRoaming key).mem = true := by
  unfold State.saveRoaming
  dsimp only
  split
  · simp [h]
  · rw [foldl_mem (fun s x => sweepMonitors_mem s _)]
    exact wf_putRoaming (by simp [h]) _ _ _

@[simp] theorem wf_trySave {s : State} (h : Memory.wf s.mem = true) (ctx bytes) {f : State → State} (hf : Memory.wf (f s).mem = true) :
    Memory.wf (s.trySave ctx bytes f).mem = true := by
  unfold State.trySave
  split
  · exact hf
  · simp [h]

@[simp] theorem wf_spillThread {s : State} (h : Memory.wf s.mem = true) (key) : Memory.wf (s.spillThread key).mem = true := by
  unfold State.spillThread
  split <;> simp [h]

@[simp] theorem wf_restoreEnsemble {s : State} (h : Memory.wf s.mem = true) (item spots) : Memory.wf (s.restoreEnsemble item spots).mem = true := by
  unfold State.restoreEnsemble
  split
  · exact h
  · dsimp only
    refine wf_foldl (fun s x h => by simp [h]) _ (wf_foldl (fun s x h => by split <;> simp [h]) _ ?_)
    rw [foldl_mem (fun s x => rekeyGroup_mem s _ _), foldl_mem (fun s x => rekey_mem s _ _),
      foldl_mem (fun s x => by split <;> rfl), foldl_mem (fun s x => State.setThread_mem s _ _), foldl_mem (fun s x => State.setGroup_mem s _ _)]
    exact h

end Sys2Proof.Machine
end

section
/-! The canonical form of memory: what Sys2Proof/Machine/Schedule.lean defines. -/

namespace Sys2Proof.Machine

@[simp] theorem wf_execPromotion {s : State} (h : Memory.wf s.mem = true) (thread) : ResWf (execPromotion thread s) := by
  unfold execPromotion
  (repeat' split) <;> simp [h]

@[simp] theorem takeWarp_mem (s : State) (k warp) : (s.takeWarp k warp).mem = s.mem :=
  foldl_keeps State.mem _ (fun _ _ => by simp) _ _

@[simp] theorem wf_execWarpFormation {s : State} (h : Memory.wf s.mem = true) (cluster slot) : ResWf (execWarpFormation cluster slot s) := by
  unfold execWarpFormation
  dsimp only
  (repeat' split) <;> simp [h]

@[simp] theorem wf_execQueueWaitResume {s : State} (h : Memory.wf s.mem = true) (cluster slot) : ResWf (execQueueWaitResume cluster slot s) := by
  unfold execQueueWaitResume
  dsimp only
  (repeat' split) <;> simp [h]

end Sys2Proof.Machine
end

section
/-! The canonical form of memory: what Sys2Proof/Machine/Placement.lean defines. -/

namespace Sys2Proof.Machine

@[simp] theorem wf_startEnsemble {s : State} (h : Memory.wf s.mem = true) (a n row spots) :
    Memory.wf (s.startEnsemble a n row spots).mem = true := by
  unfold State.startEnsemble
  dsimp only
  refine wf_foldl (fun s x h => by split <;> simp [h]) _ (wf_foldl (fun s x h => ?_) _ h)
  split
  · rw [foldl_mem (fun s x => State.setThread_mem s _ _), foldl_mem (fun s x => State.setThread_mem s _ _)]
    exact h
  · rw [foldl_mem (fun s x => State.setThread_mem s _ _)]
    exact h

@[simp] theorem wf_toState {s : State} (h : Memory.wf s.mem = true) (a st) : Memory.wf (s.toState a st).mem = true := by
  unfold State.toState
  (repeat' split) <;> simp [h]

@[simp] theorem wf_fullyPlaced {s : State} (h : Memory.wf s.mem = true) (a) : Memory.wf (s.fullyPlaced a).mem = true := by
  unfold State.fullyPlaced
  split <;> simp [h]

@[simp] theorem wf_placeAt {s : State} (h : Memory.wf s.mem = true) (w row spots) : Memory.wf (s.placeAt w row spots).mem = true := by
  unfold State.placeAt
  split
  · split
    · exact wf_of_mem (switchedIn_mem _ _) (wf_restoreEnsemble h _ _)
    · exact h
  · next a =>
    have started : Memory.wf ((s.startEnsemble a a.placed row spots).toState a 2).mem = true := wf_toState (wf_startEnsemble h _ _ _ _) _ _
    dsimp only
    split
    · exact wf_fullyPlaced (wf_of_mem (State.modAct_mem _ _ _ _) started) _
    · exact wf_of_mem (State.modAct_mem _ _ _ _) started

@[simp] theorem without_mem (s : State) (l) : (s.without l).mem = s.mem := by
  unfold State.without
  exact foldl_keeps State.mem _ (fun _ _ => by (repeat' split) <;> simp) _ _

@[simp] theorem wf_evict {s : State} (h : Memory.wf s.mem = true) (i) : Memory.wf (s.evict i).mem = true := by
  unfold State.evict
  (repeat' split) <;> simp [h]

@[simp] theorem wf_evictUntil {s : State} (h : Memory.wf s.mem = true) (done : State → Bool) (l : List Item) :
    Memory.wf (State.evictUntil done l s).mem = true := by
  induction l generalizing s with
  | nil => exact h
  | cons i r ih =>
    unfold State.evictUntil
    split
    · exact h
    · exact ih (wf_evict h i)

@[simp] theorem wf_tryPlace {s : State} (h : Memory.wf s.mem = true) (w level) : Memory.wf (s.tryPlace w level).1.mem = true := by
  unfold State.tryPlace
  dsimp only
  (repeat' split) <;> simp [h]

@[simp] theorem wf_release {s : State} (h : Memory.wf s.mem = true) (a) : Memory.wf (s.release a).mem = true := by
  unfold State.release
  dsimp only
  split
  · simp [h]
  · next received =>
    have entered := wf_toState (wf_receive h received) a 2
    split
    · exact wf_fullyPlaced (wf_of_mem (State.modAct_mem _ _ _ _) entered) _
    · exact wf_of_mem (State.modAct_mem _ _ _ _) entered

theorem wf_placeOne {st : State × Bool × Option Nat} (h : Memory.wf st.1.mem = true) (w) : Memory.wf (State.placeOne st w).1.mem = true := by
  obtain ⟨s, moved, blocked⟩ := st
  have kept : Memory.wf s.mem = true := h
  unfold State.placeOne
  dsimp only
  (repeat' split) <;> simp [kept]

@[simp] theorem wf_execPlacement {s : State} (h : Memory.wf s.mem = true) (part) : ResWf (execPlacement part s) := by
  unfold execPlacement
  have placed : Memory.wf ((s.waiters part).foldl State.placeOne (s, false, none)).1.mem = true :=
    List.foldlRecOn (motive := fun st : State × Bool × Option Nat => Memory.wf st.1.mem = true) _ _ h fun _ h w _ => wf_placeOne h w
  dsimp only
  split <;> simp [placed]

@[simp] theorem wf_execRoamingReleaseResend {s : State} (h : Memory.wf s.mem = true) (act) : ResWf (execRoamingReleaseResend act s) := by
  unfold execRoamingReleaseResend
  (repeat' split) <;> simp [h]

@[simp] theorem wf_execCbpost {s : State} (h : Memory.wf s.mem = true) (callboard header) : ResWf (execCbpost callboard header s) := by
  unfold execCbpost
  split <;> simp [h]

@[simp] theorem levelBoard_mem (s : State) (board ceil) : (s.levelBoard board ceil).mem = s.mem :=
  foldl_keeps State.mem _ (fun _ _ => by simp) _ _

@[simp] theorem wf_execCbctlWrite {s : State} (h : Memory.wf s.mem = true) (callboard value) : ResWf (execCbctlWrite callboard value s) := by
  unfold execCbctlWrite
  dsimp only
  (repeat' split) <;> simp [h]

@[simp] theorem wf_execActReady {s : State} (h : Memory.wf s.mem = true) (callboard) : ResWf (execActReady callboard s) := by
  have waits (a : Act) : ResWf (if a.state = 0 then .next (s.setActState a.ctx a.num 1) else .refused .notEnabled) :=
    resWf_ite (by simp [h]) (resWf_refused _)
  unfold execActReady
  split
  · simp
  · split
    · simp
    · refine resWf_ite (resWf_refused _) (resWf_ite (by simp [h]) ?_)
      split
      · split <;> simp [h]
      · split
        · exact waits _
        · next s' l found =>
          have moved : Memory.wf s'.mem = true := wf_of_mem (resolve_mem found) h
          refine resWf_ite (waits _) ?_
          rw [resWf_next, registerFar_mem]
          refine wf_reach _ _ ?_
          split <;> simp [moved]

@[simp] theorem wf_execActRetirement {s : State} (h : Memory.wf s.mem = true) (act) : ResWf (execActRetirement act s) := by
  unfold execActRetirement
  split
  · simp
  · refine resWf_ite (resWf_refused _) ?_
    split
    · rw [resWf_next]
      exact wf_of_mem (foldl_mem (fun s d => notify_mem s _ _ _) _ _) (wf_of_mem (tellUntriggered_mem _ _) h)
    · refine resWf_ite (by simp [h]) ?_
      rw [resWf_next]
      refine wf_setActState ?_ _ _ _
      split <;> simp [h]

@[simp] theorem wf_poolEvict {s : State} (h : Memory.wf s.mem = true) (cluster) : Memory.wf (s.poolEvict cluster).mem = true := by
  unfold State.poolEvict
  exact wf_evictUntil (wf_foldl (fun s x h => by dsimp only; split <;> simp [h]) _ h) _ _

@[simp] theorem wf_execRegisterPoolEviction {s : State} (h : Memory.wf s.mem = true) (cluster) : ResWf (execRegisterPoolEviction cluster s) := by
  unfold execRegisterPoolEviction
  (repeat' split) <;> simp [h]

@[simp] theorem wf_execSwapOut {s : State} (h : Memory.wf s.mem = true) (ctx row) : ResWf (execSwapOut ctx row s) := by
  unfold execSwapOut
  dsimp only
  (repeat' split) <;> simp [h]

@[simp] theorem adjust_mem (s : State) (row mseq gateq) : (s.adjust row mseq gateq).mem = s.mem := rfl

@[simp] theorem enableWindow_mem (s : State) (c) : (s.enableWindow c).mem = s.mem := rfl

@[simp] theorem wf_execCongestionWindow {s : State} (h : Memory.wf s.mem = true) (rows dies) : ResWf (execCongestionWindow rows dies s) := by
  unfold execCongestionWindow
  split
  · simp
  · rw [resWf_next]
    exact wf_of_mem (foldl_mem enableWindow_mem _ _) (wf_of_mem (foldl_mem (fun s i => adjust_mem s _ _ _) _ _) h)

end Sys2Proof.Machine
end

section
/-! The canonical form of memory: what Sys2Proof/Machine/Contexts.lean defines. -/

namespace Sys2Proof.Machine

@[simp] theorem keepTrace_mem (s : State) (row ctx cached va) : (s.keepTrace row ctx cached va).mem = s.mem :=
  rfl

@[simp] theorem tellUser_mem (s : State) (u key w) : (s.tellUser u key w).mem = s.mem := by
  unfold State.tellUser
  (repeat' split) <;> simp

@[simp] theorem walkResult_mem (s : State) (row ctx g cached) : (s.walkResult row ctx g cached).1.mem = s.mem := by
  unfold State.walkResult
  dsimp only
  split
  · rfl
  · split
    · simp
    · split
      · rfl
      · next checked => exact (ownerCheck_mem checked).trans (keepTrace_mem _ _ _ _ _)

@[simp] theorem wf_execTranslationWalkEnd {s : State} (h : Memory.wf s.mem = true) (row ctx granule cached) :
    ResWf (execTranslationWalkEnd row ctx granule cached s) := by
  unfold execTranslationWalkEnd
  split
  · simp
  · rw [resWf_next]
    dsimp only
    refine wf_foldl (fun s u h => ?_) _ (by simp [h])
    (repeat' split) <;> simp [h]

@[simp] theorem forgetWalks_mem (s : State) (ctx) : (s.forgetWalks ctx).mem = s.mem := rfl

@[simp] theorem restartAts_mem (s : State) (ctx first n) : (s.restartAts ctx first n).mem = s.mem :=
  foldl_keeps State.mem _ (fun _ _ => by simp) _ _

@[simp] theorem invalidate_mem (s : State) (ctx first n all) : (s.invalidate ctx first n all).mem = s.mem := by
  unfold State.invalidate
  dsimp only
  (repeat' split) <;> simp

@[simp] theorem wf_execCtxinvRange {s : State} (h : Memory.wf s.mem = true) (ctx value) : ResWf (execCtxinvRange ctx value s) := by
  unfold execCtxinvRange
  split <;> simp [h]

@[simp] theorem wf_execCtxinvAll {s : State} (h : Memory.wf s.mem = true) (ctx) : ResWf (execCtxinvAll ctx s) := by
  unfold execCtxinvAll
  split <;> simp [h]

@[simp] theorem wf_execInvalidationComplete {s : State} (h : Memory.wf s.mem = true) (ctx) : ResWf (execInvalidationComplete ctx s) := by
  unfold execInvalidationComplete
  dsimp only
  (repeat' split) <;> simp [h]

@[simp] theorem wf_execPartmapWrite {s : State} (h : Memory.wf s.mem = true) (value) : ResWf (execPartmapWrite value s) := by
  unfold execPartmapWrite
  simp [h]

@[simp] theorem reclock_mem (s : State) (part : Nat) : (s.reclock part).mem = s.mem := by
  obtain ⟨_, _, e⟩ := reclock_onlyRows s part
  rw [e]

@[simp] theorem wf_execClockChangeDone {s : State} (h : Memory.wf s.mem = true) (partition) : ResWf (execClockChangeDone partition s) := by
  unfold execClockChangeDone
  dsimp only
  split
  · simp
  · rw [resWf_next, foldl_mem (fun s r => State.modRow_mem s _ _)]
    exact h

@[simp] theorem writeMode_mem (s : State) (ctx value) : (s.writeMode ctx value).mem = s.mem := by
  unfold State.writeMode
  dsimp only
  (repeat' split) <;> simp

@[simp] theorem wf_execCtxmodeWrite {s : State} (h : Memory.wf s.mem = true) (ctx value) : ResWf (execCtxmodeWrite ctx value s) := by
  unfold execCtxmodeWrite
  split <;> simp [h]

@[simp] theorem pendRow_mem (s : State) (row) : (s.pendRow row).mem = s.mem := rfl

@[simp] theorem enable_mem (s : State) (ctx value) : (s.enable ctx value).mem = s.mem := by
  unfold State.enable
  dsimp only
  (repeat' split) <;> simp [*, mem_ite]

@[simp] theorem dropContext_mem (s : State) (ctx) : (s.dropContext ctx).mem = s.mem := by
  unfold State.dropContext
  simp

@[simp] theorem wf_disable {s : State} (h : Memory.wf s.mem = true) (ctx value) : Memory.wf (s.disable ctx value).mem = true := by
  unfold State.disable
  simp [h]

@[simp] theorem wf_writeCtl {s : State} (h : Memory.wf s.mem = true) (ctx value) : Memory.wf (s.writeCtl ctx value).mem = true := by
  unfold State.writeCtl
  dsimp only
  (repeat' split) <;> simp [h]

@[simp] theorem wf_execContextEnable {s : State} (h : Memory.wf s.mem = true) (ctx value) : ResWf (execContextEnable ctx value s) := by
  unfold execContextEnable
  split <;> simp [h]

@[simp] theorem wf_execContextEnd {s : State} (h : Memory.wf s.mem = true) (ctx value) : ResWf (execContextEnd ctx value s) := by
  unfold execContextEnd
  split <;> simp [h]

@[simp] theorem wf_saveArrivals {s : State} (h : Memory.wf s.mem = true) (ctx) : Memory.wf (s.saveArrivals ctx).mem = true := by
  unfold State.saveArrivals
  refine wf_foldl (fun s x h => ?_) _ h
  dsimp only
  split
  · exact h
  · exact wf_foldl (fun s a h => by simp [h]) _ h

@[simp] theorem wf_switchOutGo {s : State} (h : Memory.wf s.mem = true) (ctx) : Memory.wf (s.switchOutGo ctx).mem = true := by
  have evicted : Memory.wf ((s.residents ctx).foldl State.evict (s.saveArrivals ctx)).mem = true :=
    wf_foldl (fun s i h => wf_evict h i) _ (wf_saveArrivals h ctx)
  unfold State.switchOutGo
  dsimp only
  split
  · exact evicted
  · exact evicted

@[simp] theorem wf_switchCmd {s : State} (h : Memory.wf s.mem = true) (ctx cmd) : Memory.wf (s.switchCmd ctx cmd).mem = true := by
  unfold State.switchCmd
  dsimp only
  (repeat' split) <;> simp [h]

@[simp] theorem wf_execSwitchOut {s : State} (h : Memory.wf s.mem = true) (ctx) : ResWf (execSwitchOut ctx s) := by
  unfold execSwitchOut
  split <;> simp [h]

@[simp] theorem wf_goSwitches {s : State} (h : Memory.wf s.mem = true) : Memory.wf s.goSwitches.mem = true :=
  wf_foldl (fun s x h => by split <;> simp [h]) _ h

@[simp] theorem wf_execSwitchIn {s : State} (h : Memory.wf s.mem = true) (ctx) : ResWf (execSwitchIn ctx s) := by
  unfold execSwitchIn
  split <;> simp [h]

@[simp] theorem wf_execFrameownWrite {s : State} (h : Memory.wf s.mem = true) (value) : ResWf (execFrameownWrite value s) := by
  unfold execFrameownWrite
  refine resWf_ite (by simp [h]) (resWf_ite (resWf_refused _) ?_)
  rw [resWf_next]
  exact wf_of_mem (foldl_mem forgetWalks_mem _ _) h

end Sys2Proof.Machine
end

section
/-! The canonical form of memory: what Sys2Proof/Machine/HostPort.lean defines. -/

namespace Sys2Proof.Machine

@[simp] theorem dropAts_mem (s : State) (id) : (s.dropAts id).mem = s.mem := rfl

@[simp] theorem atsFails_mem (s : State) (r code) : (s.atsFails r code).mem = s.mem :=
  foldl_keeps State.mem _ (fun _ _ => by simp) _ _

@[simp] theorem atsRefused_mem (s : State) (r) : (s.atsRefused r).mem = s.mem := by
  unfold State.atsRefused
  dsimp only
  split
  · rw [atsFails_mem, foldl_mem (fun s c => State.modCtx_mem s _ _)]
  · exact atsFails_mem _ _ _

@[simp] theorem wf_execAtsCompletion {s : State} (h : Memory.wf s.mem = true) (request answer) : ResWf (execAtsCompletion request answer s) := by
  unfold execAtsCompletion
  split
  · simp
  · split
    · simp [h]
    · split
      · simp [h]
      · simp [h]
      · split
        · simp [h]
        · rw [resWf_next]
          exact wf_foldl (fun s x h => by split <;> simp [h]) _ (by simp [h])

@[simp] theorem wf_execAtsTimeout {s : State} (h : Memory.wf s.mem = true) (request) : ResWf (execAtsTimeout request s) := by
  unfold execAtsTimeout
  (repeat' split) <;> simp [h]

@[simp] theorem wf_execAtsInvalidateRequest {s : State} (h : Memory.wf s.mem = true) (tag pasid page pages all) :
    ResWf (execAtsInvalidateRequest tag pasid page pages all s) := by
  unfold execAtsInvalidateRequest
  refine resWf_ite (resWf_refused _) (resWf_ite (by simp [h]) ?_)
  rw [resWf_next]
  exact wf_of_mem (foldl_mem forgetWalks_mem _ _) h

@[simp] theorem wf_execInvalidateCompletion {s : State} (h : Memory.wf s.mem = true) (tag) : ResWf (execInvalidateCompletion tag s) := by
  unfold execInvalidateCompletion
  dsimp only
  (repeat' split) <;> simp [h]

@[simp] theorem sendPages_mem (s : State) : s.sendPages.mem = s.mem := by simp [State.sendPages, mem_ite]

@[simp] theorem wf_execPrgResponse {s : State} (h : Memory.wf s.mem = true) (request code) : ResWf (execPrgResponse request code s) := by
  unfold execPrgResponse
  split
  · simp
  · rw [resWf_next, sendPages_mem]
    dsimp only
    rw [foldl_mem (fun s k => State.modThread_mem s _ _)]
    split
    · exact h
    · rw [foldl_mem (fun s k => State.modCtx_mem s _ _)]
      exact h

@[simp] theorem wf_barRead {s : State} (h : Memory.wf s.mem = true) (addr n : Nat) : Memory.wf (s.barRead addr n).1.mem = true := by
  induction n generalizing s addr with
  | zero => exact h
  | succ n ih =>
    unfold State.barRead
    exact ih (wf_reach _ _ h) _

@[simp] theorem wf_execBar2Read {s : State} (h : Memory.wf s.mem = true) (address bytes) : ResWf (execBar2Read address bytes s) := by
  unfold execBar2Read
  dsimp only
  (repeat' split) <;> simp [h]

@[simp] theorem wf_barWrite {s : State} (h : Memory.wf s.mem = true) (addr data) : Memory.wf (s.barWrite addr data).mem = true :=
  wf_foldl (fun _ _ h => wf_storeBytes h _ _) _ h

@[simp] theorem wf_execBar2Write {s : State} (h : Memory.wf s.mem = true) (address data) : ResWf (execBar2Write address data s) := by
  unfold execBar2Write
  (repeat' split) <;> simp [h]

end Sys2Proof.Machine
end

section
/-! The canonical form of memory: what Sys2Proof/Machine/Edges.lean defines. -/

namespace Sys2Proof.Machine

@[simp] theorem wf_landed {s : State} (h : Memory.wf s.mem = true) (k o) : Memory.wf (s.landed k o).mem = true := by
  unfold State.landed
  split <;> simp [h]

@[simp] theorem wf_fenceOp {s : State} (h : Memory.wf s.mem = true) (n read applied k o) : Memory.wf (s.fenceOp n read applied k o).mem = true := by
  unfold State.fenceOp
  dsimp only
  (repeat' split) <;> simp [h]

@[simp] theorem packetLost_mem (s : State) (k o code) : (s.packetLost k o code).mem = s.mem := by
  unfold State.packetLost
  split <;> rfl

@[simp] theorem wf_commitLost {s : State} (h : Memory.wf s.mem = true) (key code) : Memory.wf (s.commitLost key code).mem = true := by
  unfold State.commitLost
  (repeat' split) <;> simp [h]

@[simp] theorem loseTravels_mem (s : State) (lost p) : (s.loseTravels lost p).mem = s.mem := by
  unfold State.loseTravels
  exact foldl_keeps State.mem _ (fun _ _ => by dsimp only; (repeat' split) <;> simp) _ _

@[simp] theorem wf_fence {s : State} (h : Memory.wf s.mem = true) (n cxlRead applied lost) : Memory.wf (s.fence n cxlRead applied lost).mem = true := by
  unfold State.fence
  dsimp only
  refine wf_foldl (fun s x h => by simp [h]) _ (wf_of_mem (loseTravels_mem _ _ _) ?_)
  refine wf_foldl (fun s x h => wf_commitLost h _ _) _ (wf_foldl (fun s x h => by simp [h]) _ ?_)
  exact wf_foldl (fun s x h => wf_fenceOp h _ _ _ _ _) _ h

@[simp] theorem clearRoutes_mem (s : State) (n) : (s.clearRoutes n).mem = s.mem := by
  simp [State.clearRoutes, mem_ite]

@[simp] theorem addRoute_mem (s : State) (n q) : (s.addRoute n q).mem = s.mem := rfl

@[simp] theorem wf_endRouted {s : State} (h : Memory.wf s.mem = true) (k o) : Memory.wf (s.endRouted k o).mem = true := by
  unfold State.endRouted
  (repeat' split) <;> simp [h]

@[simp] theorem wf_leaveTarget {s : State} (h : Memory.wf s.mem = true) (g) : Memory.wf (s.leaveTarget g).mem = true := by
  unfold State.leaveTarget
  split
  · exact h
  · dsimp only
    refine wf_foldl (fun s x h => wf_guestFailed h _) _ (wf_foldl (fun s x h => wf_spawnFails h _ _ _) _ ?_)
    refine wf_foldl (fun s x h => wf_commitLost h _ _) _ (wf_foldl (fun s x h => by simp [h]) _ ?_)
    exact wf_foldl (fun s x h => wf_endRouted h _ _) _ h

@[simp] theorem wf_leavePod {s : State} (h : Memory.wf s.mem = true) (q) : Memory.wf (s.leavePod q).mem = true := by
  unfold State.leavePod
  simp [h]

@[simp] theorem wf_execPeerLeftPod {s : State} (h : Memory.wf s.mem = true) (package) : ResWf (execPeerLeftPod package s) := by
  unfold execPeerLeftPod
  split <;> simp [h]

@[simp] theorem inForce_mem (s : State) (n pers) : (s.inForce n pers).mem = s.mem := by
  unfold State.inForce
  simp

@[simp] theorem enterStep_mem (s : State) (n step since) : (s.enterStep n step since).mem = s.mem := rfl

@[simp] theorem stepEdge_mem (s : State) (n) : (s.stepEdge n).mem = s.mem := by
  unfold State.stepEdge
  dsimp only
  (repeat' split) <;> simp

@[simp] theorem stepEdges_mem (s : State) : s.stepEdges.mem = s.mem := by
  unfold State.stepEdges
  split <;> simp

@[simp] theorem switchFails_mem (s : State) (n code) : (s.switchFails n code).mem = s.mem := rfl

@[simp] theorem fenceStep_mem (s : State) (n) : (s.fenceStep n).mem = s.mem := rfl

@[simp] theorem startSwitch_mem (s : State) (n) : (s.startSwitch n).mem = s.mem := by
  unfold State.startSwitch
  dsimp only
  (repeat' split) <;> simp

@[simp] theorem writeEgctl_mem (s : State) (n value) : (s.writeEgctl n value).mem = s.mem := by
  unfold State.writeEgctl
  dsimp only
  (repeat' split) <;> simp

@[simp] theorem wf_execPersonalitySwitch {s : State} (h : Memory.wf s.mem = true) (group value) : ResWf (execPersonalitySwitch group value s) := by
  unfold execPersonalitySwitch
  split <;> simp [h]

@[simp] theorem wf_execQuiesceNotice {s : State} (h : Memory.wf s.mem = true) (group) : ResWf (execQuiesceNotice group s) := by
  unfold execQuiesceNotice
  split <;> simp [h]

@[simp] theorem wf_execSwitchDrainEnd {s : State} (h : Memory.wf s.mem = true) (group) : ResWf (execSwitchDrainEnd group s) := by
  unfold execSwitchDrainEnd
  split <;> simp [h]

@[simp] theorem wf_execSwitchDrainBound {s : State} (h : Memory.wf s.mem = true) (group applied) : ResWf (execSwitchDrainBound group applied s) := by
  unfold execSwitchDrainBound
  dsimp only
  (repeat' split) <;> simp [h]

@[simp] theorem wf_execLossOfLight {s : State} (h : Memory.wf s.mem = true) (group applied) : ResWf (execLossOfLight group applied s) := by
  unfold execLossOfLight
  dsimp only
  (repeat' split) <;> simp [h]

@[simp] theorem wf_execSwitchRetrainDone {s : State} (h : Memory.wf s.mem = true) (group trained) :
    ResWf (execSwitchRetrainDone group trained s) := by
  unfold execSwitchRetrainDone
  (repeat' split) <;> simp [h]

@[simp] theorem wf_execSwitchExchangeDone {s : State} (h : Memory.wf s.mem = true) (group result) : ResWf (execSwitchExchangeDone group result s) := by
  unfold execSwitchExchangeDone
  dsimp only
  split
  · simp
  · split
    · simp [h]
    · split <;> simp [h]
    · generalize keyed : (if bit s.pkg.egpol.toNat group then s.modEg group fun g => { g with keys := g.keys + 1 } else s) = s1
      have h1 : Memory.wf s1.mem = true := by rw [← keyed]; split <;> exact h
      split
      · split <;> simp [h1]
      · have left (l : List (Nat × Nat)) : Memory.wf (l.foldl (fun s x => s.leavePod x.1) s1).mem = true :=
          wf_foldl (fun s x h => wf_leavePod h _) l h1
        split
        · rw [resWf_next, enterStep_mem, foldl_mem (fun s x => addRoute_mem s _ _)]
          exact left _
        · rw [resWf_next, switchFails_mem]
          exact left _
      · simp [h1]

@[simp] theorem wf_execKeyRotation {s : State} (h : Memory.wf s.mem = true) (group) : ResWf (execKeyRotation group s) := by
  unfold execKeyRotation
  split <;> simp [h]

@[simp] theorem wf_execLinkRecoveryResolved {s : State} (h : Memory.wf s.mem = true) (thread) : ResWf (execLinkRecoveryResolved thread s) := by
  unfold execLinkRecoveryResolved
  (repeat' split) <;> simp [h]

@[simp] theorem wf_execLinkRecoveryTimeout {s : State} (h : Memory.wf s.mem = true) (thread) : ResWf (execLinkRecoveryTimeout thread s) := by
  unfold execLinkRecoveryTimeout
  (repeat' split) <;> simp [h]

@[simp] theorem wf_execLinkFlitError {s : State} (h : Memory.wf s.mem = true) (link lane exhausted) :
    ResWf (execLinkFlitError link lane exhausted s) := by
  unfold execLinkFlitError
  dsimp only
  (repeat' split) <;> simp [h]

@[simp] theorem noteEndpoints_mem (s : State) : s.noteEndpoints.mem = s.mem := by
  simp [State.noteEndpoints, mem_ite]

@[simp] theorem wf_execFabricUnreachableTimeout {s : State} (h : Memory.wf s.mem = true) (act) : ResWf (execFabricUnreachableTimeout act s) := by
  unfold execFabricUnreachableTimeout
  split
  · simp
  · next a _ =>
    have left (l : List Nat) : Memory.wf (l.foldl (fun s e => s.leaveTarget (.fabric e)) s).mem = true :=
      wf_foldl (fun s e h => wf_leaveTarget h _) l h
    refine resWf_ite (resWf_refused _) ?_
    rw [resWf_next]
    split
    · exact wf_guestFailed (left _) _
    · exact left _

theorem wf_peerAt {s : State} (h : Memory.wf s.mem = true) {pa n : Nat} {x : State × Nat} (e : s.peerAt pa n = some x) :
    Memory.wf x.1.mem = true := by
  unfold State.peerAt at e
  dsimp only at e
  split at e <;> cases e
  exact wf_foldl (fun s a h => wf_reach s a h) _ h

theorem wf_peerSteps {s : State} (h : Memory.wf s.mem = true) {o : Op} {p : Packet} {n : Nat} {x : State × PkOut}
    (e : s.peerSteps o p n = some x) : Memory.wf x.1.mem = true := by
  induction n generalizing s o p x with
  | zero => cases e
  | succ n ih =>
    unfold State.peerSteps at e
    split at e
    · cases e
    · next s' pa found =>
      have h1 : Memory.wf s'.mem = true := by
        split at found
        · cases found; exact h
        · obtain ⟨y, at1, same⟩ := Option.map_eq_some_iff.mp found
          cases same
          exact wf_peerAt h at1
      dsimp only at e
      split at e
      · cases e
      · have stepped (o o' : Op) := wf_packetStep h1 0 (pa / 2 ^ 30) o p [] true
        split at e
        · next s2 o' again =>
          have h2 := stepped (s'.seenBy { o with pa := pa, place := .home (pa / 2 ^ 30) } p) o'
          rw [again] at h2
          split at e
          · exact ih h2 e
          · cases e
        · cases e
          exact stepped _ o

theorem wf_admitGuest {s : State} (h : Memory.wf s.mem = true) {ctx cluster prio d t u} (e : s.admitGuest ctx cluster prio d t = some u) :
    Memory.wf u.mem = true := by
  unfold State.admitGuest at e
  split at e
  · cases e
  · obtain ⟨-, received⟩ := Option.ite_none_left_eq_some.mp e
    exact wf_receive (wf_of_mem (State.setAct_mem _ _) h) received

@[simp] theorem modHeld_mem (s : State) (src txn f) : (s.modHeld src txn f).mem = s.mem := rfl

@[simp] theorem holdPacket_mem (s : State) (src txn pa ctx p) : (s.holdPacket src txn pa ctx p).mem = s.mem := by
  unfold State.holdPacket
  dsimp only
  (repeat' split) <;> simp

@[simp] theorem replyCommit_mem (s : State) (r) : (s.replyCommit r).mem = s.mem := rfl

theorem wf_commitHeld {s : State} (h : Memory.wf s.mem = true) {t : HeldTxn} {u : State} (e : s.commitHeld t = some u) :
    Memory.wf u.mem = true := by
  unfold State.commitHeld at e
  dsimp only at e
  split at e
  · cases e
    rw [replyCommit_mem]; exact h
  · split at e
    · cases e
      rw [replyCommit_mem]; exact h
    · obtain ⟨y, ran, same⟩ := Option.map_eq_some_iff.mp e
      rw [← same, replyCommit_mem]
      refine List.foldlRecOn (motive := fun x : Option (State × List (List Tw × BitVec 5 × Option Byte)) =>
        ∀ y, x = some y → Memory.wf y.1.mem = true) _ _ ?_ ?_ y ran
      · intro y first
        cases first; exact h
      · intro x before q _ y next
        obtain ⟨z, made, mapped⟩ := Option.bind_eq_some_iff.mp next
        obtain ⟨w, stepped, last⟩ := Option.map_eq_some_iff.mp mapped
        cases last
        exact wf_peerSteps (before z made) stepped

theorem wf_peerAccess {s : State} (h : Memory.wf s.mem = true) {ctx : Option Nat} {pa n : Nat} {u : State}
    (e : s.peerAccess ctx pa n = some (.ok u)) : Memory.wf u.mem = true := by
  unfold State.peerAccess at e
  split at e
  · cases e
  · obtain ⟨x, found, same⟩ := Option.map_eq_some_iff.mp e
    cases same
    simp [wf_peerAt h found]

theorem wf_peerAtomic {s : State} (h : Memory.wf s.mem = true) {src : Nat} {ctx : Option Nat} {a : PeerAtomic} {u : State}
    (e : s.peerAtomic src ctx a = some u) : Memory.wf u.mem = true := by
  unfold State.peerAtomic at e
  dsimp only at e
  obtain ⟨-, e⟩ := Option.ite_none_left_eq_some.mp e
  obtain ⟨r, found, same⟩ := Option.map_eq_some_iff.mp e
  rw [← same]
  cases r with
  | error c => simp [h]
  | ok s' =>
    have h1 := wf_peerAccess h found
    dsimp only
    split <;> simp [h1]

/-- Atomics performed one after another. -/
theorem wf_peerAtomics {s : State} (h : Memory.wf s.mem = true) {src : Nat} {ctx : Option Nat} (l : List PeerAtomic) {u : State}
    (e : l.foldl (fun s a => s.bind fun s => s.peerAtomic src ctx a) (some s) = some u) : Memory.wf u.mem = true := by
  refine List.foldlRecOn (motive := fun x : Option State => ∀ u, x = some u → Memory.wf u.mem = true) _ _ ?_ ?_ u e
  · intro u first
    cases first; exact h
  · intro x before a _ u next
    obtain ⟨s', made, done⟩ := Option.bind_eq_some_iff.mp next
    exact wf_peerAtomic (before s' made) done

@[simp] theorem wf_servePeer {s : State} (h : Memory.wf s.mem = true) (r) : ResWf (s.servePeer r) := by
  have atomics (ctx : Option Nat) (l : List PeerAtomic) :
      ResWf (match l.foldl (fun s a => s.bind fun s => s.peerAtomic r.src ctx a) (some s) with | some s' => .next s' | none => .refused .notEnabled) := by
    split
    · next done => rw [resWf_next]; exact wf_peerAtomics h l done
    · simp
  unfold State.servePeer
  dsimp only
  split
  case h_1 =>
    refine resWf_ite (resWf_refused _) ?_
    split
    · simp
    · simp [h]
    · next s' found =>
      have h1 := wf_peerAccess h found
      split <;> simp [h1]
  case h_2 =>
    refine resWf_ite (resWf_refused _) ?_
    split
    · simp
    · simp [h]
    · next s' found => simp [wf_peerAccess h found]
  case h_3 => exact atomics _ _
  case h_4 => exact resWf_ite (resWf_refused _) (atomics _ _)
  case h_5 =>
    refine resWf_ite (resWf_refused _) ?_
    split
    · simp [h]
    · split
      · simp
      · next s' at1 found =>
        have h1 : Memory.wf s'.mem = true := wf_peerAt h found
        simp [h1]
  case h_6 => simp [h]
  case h_7 =>
    refine resWf_ite (resWf_refused _) ?_
    split
    · simp [h]
    · split
      · simp
      · next s' out found =>
        have h1 : Memory.wf s'.mem = true := wf_peerSteps h found
        simp [h1]
  case h_8 =>
    split
    · simp [h]
    · refine resWf_ite (by simp [h]) ?_
      split
      · next s' found => simp [wf_admitGuest h found]
      · simp [h]
  case h_9 =>
    split
    · simp [h]
    · refine resWf_ite (by simp [h]) ?_
      split
      · next s' found => simp [wf_admitGuest h found]
      · simp [h]
  case h_10 => simp [h]
  case h_11 =>
    split
    · simp
    · split
      · next s' found => rw [resWf_next]; exact wf_commitHeld h found
      · simp
  case h_12 => simp [h]
  case h_13 => simp [h]
  case h_14 => split <;> simp [h]
  case h_15 => exact resWf_ite (resWf_refused _) (by simp [h])
  case h_16 => split <;> simp [h]

@[simp] theorem wf_execPeerRequest {s : State} (h : Memory.wf s.mem = true) (request) : ResWf (execPeerRequest request s) := by
  unfold execPeerRequest
  split <;> simp [h]

end Sys2Proof.Machine
end

section
/-! The canonical form of memory: what Sys2Proof/Machine/Stops.lean defines. -/

namespace Sys2Proof.Machine

@[simp] theorem discard_mem (s : State) (k o) : (s.discard k o).mem = s.mem := by
  unfold State.discard
  split <;> simp

@[simp] theorem discardAll_mem (s : State) (l) : (s.discardAll l).mem = s.mem :=
  foldl_keeps State.mem _ (fun _ _ => by simp) _ _

theorem wf_applyNow {s : State} (h : Memory.wf s.mem = true) {k : Nat} {o : Op} {u : State} (e : s.applyNow k o = some u) :
    Memory.wf u.mem = true := by
  unfold State.applyNow at e
  split at e
  · cases e
    simp [h]
  · obtain ⟨x, found, applied⟩ := Option.bind_eq_some_iff.mp e
    have h1 := wf_peerAt h found
    dsimp only at applied
    split at applied
    · next kept =>
      cases applied
      exact wf_applyKind (s := x.1.setOp k _) h1 _ _ _ _ _ kept
    · cases applied
  · cases e

@[simp] theorem wf_settleOps {s : State} (h : Memory.wf s.mem = true) (l) : Memory.wf (s.settleOps l).1.mem = true := by
  unfold State.settleOps
  refine List.foldlRecOn (motive := fun x : State × List Op => Memory.wf x.1.mem = true) _ _ h fun x h y _ => ?_
  dsimp only
  split
  · exact h
  · split
    · next found =>
      split at found
      · exact wf_applyNow h found
      · cases found
    · simp [h]

@[simp] theorem releaseMonitors_mem (s : State) (ctx cluster pads) : (s.releaseMonitors ctx cluster pads).1.mem = s.mem := by
  unfold State.releaseMonitors
  exact foldl_keeps State.mem _ (fun _ _ => by (repeat' split) <;> simp) _ _

@[simp] theorem wf_stopRecord {s : State} (h : Memory.wf s.mem = true) (ctx kind unit r) : Memory.wf (s.stopRecord ctx kind unit r).mem = true := by
  unfold State.stopRecord
  extract_lets base
  split
  · exact h
  · split
    next ws s' drew =>
    have drawn : Memory.wf s'.mem = true := by
      split at drew
      · rw [show s' = (s.freeWords 2).2 from (congrArg Prod.snd drew).symm, freeWords_mem]; exact h
      · cases drew; exact h
    extract_lets fser v n
    have written := wf_writeVirtual drawn 0 ctx (base + 64 * n) (toBytes 64 v)
    split
    · next found =>
      rw [found] at written
      exact wf_of_mem (State.modCtx_mem _ _ _) written
    · exact drawn

@[simp] theorem wf_engineDone {s : State} (h : Memory.wf s.mem = true) (ctx kind unit held r) :
    Memory.wf (s.engineDone ctx kind unit held r).mem = true := by
  unfold State.engineDone
  split <;> simp [h]

@[simp] theorem abandonTxn_mem (s : State) (key) : (s.abandonTxn key).mem = s.mem := by
  unfold State.abandonTxn
  split
  · rfl
  · rw [dropTxn_mem, foldl_mem (fun s k => by split <;> simp)]

@[simp] theorem wf_abandonCopy {s : State} (h : Memory.wf s.mem = true) (e id n : Nat) : Memory.wf (s.abandonCopy e id n).mem = true := by
  induction n generalizing s with
  | zero => exact h
  | succ n ih =>
    unfold State.abandonCopy
    split
    · exact h
    · next c _ =>
      have delivered := fetchWf_deliverElement h e c (.tok (token 0x50 c.serial))
      split
      · exact h
      · split
        · next got => rw [got] at delivered; exact ih delivered
        · exact h

@[simp] theorem wf_treatCopy {s : State} (h : Memory.wf s.mem = true) (ctx e) : Memory.wf (s.treatCopy ctx e).mem = true := by
  unfold State.treatCopy
  refine wf_engineDone (wf_of_mem (State.setEngine_mem _ _ _) (wf_of_mem (discardAll_mem _ _) ?_)) _ _ _ _ _
  exact wf_foldl (fun s c h => wf_abandonCopy h _ _ _) _ h

@[simp] theorem wf_treatGates {s : State} (h : Memory.wf s.mem = true) (ctx) : Memory.wf (s.treatGates ctx).mem = true := by
  unfold State.treatGates
  split
  · exact h
  · refine wf_foldl (fun s x h => by simp [h]) _ (wf_of_mem (discardAll_mem _ _) (wf_foldl (fun s e h => wf_treatCopy h _ _) _ h))

@[simp] theorem wf_treatMse {s : State} (h : Memory.wf s.mem = true) (ctx c) : Memory.wf (s.treatMse ctx c).mem = true := by
  unfold State.treatMse
  exact wf_engineDone (wf_of_mem (releaseMonitors_mem _ _ _ _) (wf_settleOps (wf_treatGates h _) _)) _ _ _ _ _

@[simp] theorem wf_treatBanks {s : State} (h : Memory.wf s.mem = true) (ctx c) : Memory.wf (s.treatBanks ctx c).mem = true := by
  unfold State.treatBanks
  simp [h]

@[simp] theorem wf_treatHost {s : State} (h : Memory.wf s.mem = true) (ctx) : Memory.wf (s.treatHost ctx).mem = true := by
  unfold State.treatHost
  simp [h]

@[simp] theorem wf_treatEdge {s : State} (h : Memory.wf s.mem = true) (ctx n) : Memory.wf (s.treatEdge ctx n).mem = true := by
  unfold State.treatEdge
  simp [h]

@[simp] theorem wf_treat {s : State} (h : Memory.wf s.mem = true) (ctx kind unit) : Memory.wf (s.treat ctx kind unit).mem = true := by
  unfold State.treat
  split <;> simp [h]

@[simp] theorem noteHolders_mem (s : State) : s.noteHolders.mem = s.mem :=
  foldl_keeps State.mem _ (fun _ _ => by simp) _ _

@[simp] theorem wf_execCurtainSignal {s : State} (h : Memory.wf s.mem = true) (ctx engine unit) : ResWf (execCurtainSignal ctx engine unit s) := by
  unfold execCurtainSignal
  dsimp only
  (repeat' split) <;> simp [h]

@[simp] theorem wf_finishSlots {s : State} (h : Memory.wf s.mem = true) (ctx c) : Memory.wf (s.finishSlots ctx c).mem = true := by
  unfold State.finishSlots
  refine wf_engineDone (wf_of_mem ?_ h) _ _ _ _ _
  exact foldl_mem (fun s x => State.setThread_mem s _ _) _ _

@[simp] theorem pushStaged_mem (s : State) (g n : Nat) : (s.pushStaged g n).mem = s.mem := by
  induction n generalizing s with
  | zero => rfl
  | succ n ih =>
    unfold State.pushStaged
    split
    · rw [ih, streamPush_mem]
    · rfl

@[simp] theorem wf_finishAccess {s : State} (h : Memory.wf s.mem = true) (ctx c) : Memory.wf (s.finishAccess ctx c).mem = true := by
  unfold State.finishAccess
  simp [h]

@[simp] theorem wf_finishMatrix {s : State} (h : Memory.wf s.mem = true) (ctx c) : Memory.wf (s.finishMatrix ctx c).mem = true := by
  unfold State.finishMatrix
  dsimp only
  refine wf_engineDone ?_ _ _ _ _ _
  refine List.foldlRecOn (motive := fun x : State × Nat × List Nat => Memory.wf x.1.mem = true) _ _ h fun x h y _ => ?_
  dsimp only
  rw [State.modGroup_mem]
  refine wf_foldl (fun s y h => ?_) _ h
  exact wf_foldl (fun s w h => wf_padWrite h _ _ _) _ (wf_of_mem (State.modGroup_mem _ _ _) h)

@[simp] theorem wf_skidAll {s : State} (h : Memory.wf s.mem = true) (ctx) : Memory.wf (s.skidAll ctx).mem = true := by
  unfold State.skidAll
  dsimp only
  rw [State.modCtx_mem]
  dsimp only
  refine wf_settleOps (wf_foldl (fun s x h => ?_) _ ?_) _
  · split <;> simp [h]
  · rw [foldl_mem abandonTxn_mem]
    exact wf_foldl (fun s x h => by simp [h]) _ (wf_treatGates h _)

@[simp] theorem wf_execCurtainSkidDeadline {s : State} (h : Memory.wf s.mem = true) (ctx) : ResWf (execCurtainSkidDeadline ctx s) := by
  unfold execCurtainSkidDeadline
  dsimp only
  (repeat' split) <;> simp [h]

@[simp] theorem wf_execCurtainDone {s : State} (h : Memory.wf s.mem = true) (ctx) : ResWf (execCurtainDone ctx s) := by
  unfold execCurtainDone
  dsimp only
  (repeat' split) <;> simp [h]

@[simp] theorem passDogs_mem (s : State) (dt) : (s.passDogs dt).mem = s.mem := rfl

@[simp] theorem wf_pass {s : State} (h : Memory.wf s.mem = true) (dt) : Memory.wf (s.pass dt).mem = true := by
  unfold State.pass
  simp [h]

@[simp] theorem wf_dogCurtain {s : State} (h : Memory.wf s.mem = true) (ctx cluster slot pc reason) :
    ResWf (s.dogCurtain ctx cluster slot pc reason) := by
  unfold State.dogCurtain
  split <;> simp [h]

@[simp] theorem wf_execWatchdogExpiry {s : State} (h : Memory.wf s.mem = true) (owner) : ResWf (execWatchdogExpiry owner s) := by
  unfold execWatchdogExpiry
  (repeat' split) <;> simp [h]

@[simp] theorem pagesDone_mem (s : State) (ctx p) : (s.pagesDone ctx p).mem = s.mem := rfl

@[simp] theorem wf_execCtxpgdoneGranule {s : State} (h : Memory.wf s.mem = true) (ctx granule) : ResWf (execCtxpgdoneGranule ctx granule s) := by
  unfold execCtxpgdoneGranule
  split <;> simp [h]

@[simp] theorem wf_execCtxpgdoneAll {s : State} (h : Memory.wf s.mem = true) (ctx) : ResWf (execCtxpgdoneAll ctx s) := by
  unfold execCtxpgdoneAll
  split <;> simp [h]

@[simp] theorem debugRead_mem (s : State) (ctx coord) : (s.debugRead ctx coord).mem = s.mem := rfl

@[simp] theorem debugWrite_mem (s : State) (ctx coord) : (s.debugWrite ctx coord).mem = s.mem := by
  unfold State.debugWrite
  dsimp only
  (repeat' split) <;> simp

@[simp] theorem debugResume_mem (s : State) (ctx coord) : (s.debugResume ctx coord).mem = s.mem := by
  unfold State.debugResume
  dsimp only
  (repeat' split) <;> simp

@[simp] theorem writeDbg_mem (s : State) (ctx value) : (s.writeDbg ctx value).mem = s.mem := by
  unfold State.writeDbg
  (repeat' split) <;> simp

@[simp] theorem wf_execCtxdbgRd {s : State} (h : Memory.wf s.mem = true) (ctx coord) : ResWf (execCtxdbgRd ctx coord s) := by
  unfold execCtxdbgRd
  split <;> simp [h]

@[simp] theorem wf_execCtxdbgWr {s : State} (h : Memory.wf s.mem = true) (ctx coord) : ResWf (execCtxdbgWr ctx coord s) := by
  unfold execCtxdbgWr
  split <;> simp [h]

@[simp] theorem wf_execCtxdbgRes {s : State} (h : Memory.wf s.mem = true) (ctx coord) : ResWf (execCtxdbgRes ctx coord s) := by
  unfold execCtxdbgRes
  split <;> simp [h]

@[simp] theorem wf_execCtxfrpRead {s : State} (h : Memory.wf s.mem = true) (ctx) : ResWf (execCtxfrpRead ctx s) := by
  unfold execCtxfrpRead
  split <;> simp [h]

end Sys2Proof.Machine
end

section
/-! The canonical form of memory: what Sys2Proof/Machine/Trust.lean defines. -/

namespace Sys2Proof.Machine

@[simp] theorem wf_execRelrpRead {s : State} (h : Memory.wf s.mem = true) : ResWf (execRelrpRead s) := by
  unfold execRelrpRead
  simp [h]

@[simp] theorem wf_execEgstatRead {s : State} (h : Memory.wf s.mem = true) (group) : ResWf (execEgstatRead group s) := by
  unfold execEgstatRead
  split <;> simp [h]

@[simp] theorem wf_execScrub {s : State} (h : Memory.wf s.mem = true) (cluster sector ecc) : ResWf (execScrub cluster sector ecc s) := by
  unfold execScrub
  dsimp only
  (repeat' split) <;> simp [h]

@[simp] theorem wf_execRepcmdRepair {s : State} (h : Memory.wf s.mem = true) (value) : ResWf (execRepcmdRepair value s) := by
  unfold execRepcmdRepair
  dsimp only
  (repeat' split) <;> simp [h]

@[simp] theorem wf_moveSite {s : State} (h : Memory.wf s.mem = true) (c) : Memory.wf (s.moveSite c).mem = true := by
  unfold State.moveSite
  exact wf_foldl (fun s k h => wf_resumeWait h k) _ (by simp [h])

@[simp] theorem wf_repaired {s : State} (h : Memory.wf s.mem = true) (r) : Memory.wf (s.repaired r).mem = true := by
  unfold State.repaired
  split <;> simp [h]

@[simp] theorem wf_execRepairDone {s : State} (h : Memory.wf s.mem = true) (kind unit) : ResWf (execRepairDone kind unit s) := by
  unfold execRepairDone
  split
  · simp
  · exact resWf_ite (resWf_refused _) ((resWf_next _).mpr (wf_startRepairs (wf_putReliability (by exact wf_repaired h _) _ _ _ _ _ _ _)))

@[simp] theorem wf_packageReset (s : State) : Memory.wf s.packageReset.mem = true := rfl

@[simp] theorem bootSteps_mem (s : State) (b) : (s.bootSteps b).mem = s.mem := by
  unfold State.bootSteps
  (repeat' split) <;> simp

@[simp] theorem wf_execBoot (s : State) (found) : ResWf (execBoot found s) := by
  unfold execBoot
  simp

@[simp] theorem wf_execFirmwareUpdate {s : State} (h : Memory.wf s.mem = true) (image) : ResWf (execFirmwareUpdate image s) := by
  unfold execFirmwareUpdate
  split <;> simp [h]

@[simp] theorem wf_execRecoveryLoad {s : State} (h : Memory.wf s.mem = true) (image) : ResWf (execRecoveryLoad image s) := by
  unfold execRecoveryLoad
  (repeat' split) <;> simp [h]

@[simp] theorem writeAttcmd_mem (s : State) (value) : (s.writeAttcmd value).mem = s.mem := by
  unfold State.writeAttcmd
  (repeat' split) <;> simp

@[simp] theorem wf_execAttestationRequest {s : State} (h : Memory.wf s.mem = true) (value) : ResWf (execAttestationRequest value s) := by
  unfold execAttestationRequest
  simp [h]

@[simp] theorem wf_execAttestationReportDone {s : State} (h : Memory.wf s.mem = true) (stored) : ResWf (execAttestationReportDone stored s) := by
  unfold execAttestationReportDone
  (repeat' split) <;> simp [h]

@[simp] theorem reclockAll_mem (s : State) : s.reclockAll.mem = s.mem := by simp [State.reclockAll, mem_ite]

@[simp] theorem wf_execPowerWindow {s : State} (h : Memory.wf s.mem = true) (measured hot) : ResWf (execPowerWindow measured hot s) := by
  unfold execPowerWindow
  simp [h]

@[simp] theorem wf_execPwrctlWrite {s : State} (h : Memory.wf s.mem = true) (value) : ResWf (execPwrctlWrite value s) := by
  unfold execPwrctlWrite
  simp [h]

@[simp] theorem wf_execPowerLoss (s : State) : ResWf (execPowerLoss s) := by
  unfold execPowerLoss
  simp

@[simp] theorem writeIdle_mem (s : State) (ctx f) : (s.writeIdle ctx f).mem = s.mem := rfl

@[simp] theorem writePodctl_mem (s : State) (value) : (s.writePodctl value).mem = s.mem := rfl

@[simp] theorem writeRange_mem (s : State) (index value) : (s.writeRange index value).mem = s.mem := by
  unfold State.writeRange
  dsimp only
  (repeat' split) <;> simp

@[simp] theorem wf_writeReg {s : State} (h : Memory.wf s.mem = true) (reg i wide) : Memory.wf (s.writeReg reg i wide).mem = true := by
  unfold State.writeReg
  dsimp only
  (repeat' split) <;> simp [h]

@[simp] theorem wf_execRegisterWrite {s : State} (h : Memory.wf s.mem = true) (reg index value) : ResWf (execRegisterWrite reg index value s) := by
  unfold execRegisterWrite
  dsimp only
  (repeat' split) <;> simp [h]

end Sys2Proof.Machine
end

section
/-! The canonical form of memory: what Sys2Proof/Machine/Dispatch.lean defines. -/

namespace Sys2Proof.Machine

open Sys2Proof.Safety

theorem wf_exec {s : State} (h : Memory.wf s.mem = true) (i : Instr) : ResWf (exec i s) := by
  cases rule : ruled i with
  | true => exact wf_of_ruled rule h
  | false =>
  cases i with
  | braWi f => exact wf_execBraWi h _
  | checkW f => exact wf_execCheckW h _
  | nopW f => exact wf_execNopW h _
  | exitW f => exact wf_execExitW h _
  | holdW f => exact wf_execHoldW h _
  | yieldW f => exact wf_execYieldW h _
  | retW f => exact wf_execRetW h _
  | checkD f => exact wf_execCheckD h _
  | braDi f => exact wf_execBraDi h _
  | brxD f => exact wf_execBrxD h _
  | callDi f => exact wf_execCallDi h _
  | callxD f => exact wf_execCallxD h _
  | retD f => exact wf_execRetD h _
  | exitD f => exact wf_execExitD h _
  | nopD f => exact wf_execNopD h _
  | holdD f => exact wf_execHoldD h _
  | yieldD f => exact wf_execYieldD h _
  | regionD f => exact wf_execRegionD h _
  | spawnD f => exact wf_execSpawnD h _
  | migrD f => exact wf_execMigrD h _
  | homeD f => exact wf_execHomeD h _
  | racqD f => exact wf_execRacqD h _
  | rrelD f => exact wf_execRrelD h _
  | kmovDi f => exact wf_execKmovDi h _
  | kaddDi f => exact wf_execKaddDi h _
  | tapeD f => exact wf_execTapeD h _
  | trapDi f => exact wf_execTrapDi h _
  | brkDi f => exact wf_execBrkDi h _
  | fbeginD f => exact wf_execFbeginD h _
  | fcommitD f => exact wf_execFcommitD h _
  | fabortD f => exact wf_execFabortD h _
  | launchD f => exact wf_execLaunchD h _
  | trigD f => exact wf_execTrigD h _
  | agatDm f => exact wf_execAgatDm h _
  | asctDm f => exact wf_execAsctDm h _
  | kldDm f => exact wf_execKldDm h _
  | cpyD f => exact wf_execCpyD h _
  | cpytD f => exact wf_execCpytD h _
  | opkD f => exact wf_execOpkD h _
  | mwaitD f => exact wf_execMwaitD h _
  | waitaD f => exact wf_execWaitaD h _
  | waitcD f => exact wf_execWaitcD h _
  | fenceD f => exact wf_execFenceD h _
  | barD f => exact wf_execBarD h _
  | ebarD f => exact wf_execEbarD h _
  | astrD f => exact wf_execAstrD h _
  | mmaD f => exact wf_execMmaD h _
  | mmabD f => exact wf_execMmabD h _
  | mzeroD f => exact wf_execMzeroD h _
  | maccD f => exact wf_execMaccD h _
  | selcD f => exact wf_execSelcD h _
  | warpFormation cluster slot => exact wf_execWarpFormation h _ _
  | promotion thread => exact wf_execPromotion h _
  | longWriteReturn op reply => exact wf_execLongWriteReturn h _ _
  | storeAcknowledgement op reply => exact wf_execStoreAcknowledgement h _ _
  | queueWaitResume cluster slot => exact wf_execQueueWaitResume h _ _
  | translationWalkEnd row ctx granule cached => exact wf_execTranslationWalkEnd h _ _ _ _
  | mseRead op ecc => exact wf_execMseRead h _ _
  | mseWrite op => exact wf_execMseWrite h _
  | mseAtomic op ecc => exact wf_execMseAtomic h _ _
  | bankAtomic op => exact wf_execBankAtomic h _
  | opkPacket op replies => exact wf_execOpkPacket h _ _
  | forwardedOperation op => exact wf_execForwardedOperation h _
  | stmCopy op cluster => exact wf_execStmCopy h _ _
  | registerWindowAccess op => exact wf_execRegisterWindowAccess h _
  | monitorRecheck thread => exact wf_execMonitorRecheck h _
  | gateRelease op => exact wf_execGateRelease h _
  | frontierUpdate die => exact wf_execFrontierUpdate h _
  | gateResend op => exact wf_execGateResend h _
  | copyElementRead engine command ecc reply => exact wf_execCopyElementRead h _ _ _ _
  | copyCompletion engine command => exact wf_execCopyCompletion h _ _
  | cacheDrop engine command place => exact wf_execCacheDrop h _ _ _
  | sliceFill op => exact wf_execSliceFill h _
  | accessIssue group => exact wf_execAccessIssue h _
  | streamElementReturn group stream ecc reply => exact wf_execStreamElementReturn h _ _ _ _
  | matrixOperationStart group => exact wf_execMatrixOperationStart h _
  | matrixOperationComplete group upset => exact wf_execMatrixOperationComplete h _ _
  | messageDelivery cluster message => exact wf_execMessageDelivery h _ _
  | messageResend cluster message => exact wf_execMessageResend h _ _
  | departure thread => exact wf_execDeparture h _
  | migrationMessage thread peer => exact wf_execMigrationMessage h _ _
  | migrationAcknowledgement thread => exact wf_execMigrationAcknowledgement h _
  | migrationRefusal thread => exact wf_execMigrationRefusal h _
  | migrResend thread => exact wf_execMigrResend h _
  | arrivalAdmission cluster => exact wf_execArrivalAdmission h _
  | spawnMessage cluster message peer => exact wf_execSpawnMessage h _ _ _
  | spawnResend cluster message => exact wf_execSpawnResend h _ _
  | triggerNotice act count => exact wf_execTriggerNotice h _ _
  | completionNotice act source count => exact wf_execCompletionNotice h _ _ _
  | failureNotice act => exact wf_execFailureNotice h _
  | racqGrant cluster => exact wf_execRacqGrant h _
  | registerPoolEviction cluster => exact wf_execRegisterPoolEviction h _
  | swapOut ctx row => exact wf_execSwapOut h _ _
  | kldReply op reply => exact wf_execKldReply h _ _
  | transactionPacket op accepted => exact wf_execTransactionPacket h _ _
  | fcommitCommit thread replies => exact wf_execFcommitCommit h _ _
  | fcommitReply thread reply => exact wf_execFcommitReply h _ _
  | actRetirement act => exact wf_execActRetirement h _
  | cbpost callboard header => exact wf_execCbpost h _ _
  | cbctlWrite callboard value => exact wf_execCbctlWrite h _ _
  | actReady callboard => exact wf_execActReady h _
  | placement partition => exact wf_execPlacement h _
  | roamingReleaseResend act => exact wf_execRoamingReleaseResend h _
  | congestionWindow rows dies => exact wf_execCongestionWindow h _ _
  | partmapWrite value => exact wf_execPartmapWrite h _
  | contextEnable ctx value => exact wf_execContextEnable h _ _
  | contextEnd ctx value => exact wf_execContextEnd h _ _
  | ctxmodeWrite ctx value => exact wf_execCtxmodeWrite h _ _
  | clockChangeDone partition => exact wf_execClockChangeDone h _
  | switchOut ctx => exact wf_execSwitchOut h _
  | switchIn ctx => exact wf_execSwitchIn h _
  | frameownWrite value => exact wf_execFrameownWrite h _
  | zeroFillDone frame => exact wf_execZeroFillDone h _
  | ctxinvRange ctx value => exact wf_execCtxinvRange h _ _
  | ctxinvAll ctx => exact wf_execCtxinvAll h _
  | invalidationComplete ctx => exact wf_execInvalidationComplete h _
  | atsCompletion request answer => exact wf_execAtsCompletion h _ _
  | atsTimeout request => exact wf_execAtsTimeout h _
  | atsInvalidateRequest tag pasid page pages all => exact wf_execAtsInvalidateRequest h _ _ _ _ _
  | invalidateCompletion tag => exact wf_execInvalidateCompletion h _
  | prgResponse request code => exact wf_execPrgResponse h _ _
  | bar2Read address bytes => exact wf_execBar2Read h _ _
  | bar2Write address data => exact wf_execBar2Write h _ _
  | personalitySwitch group value => exact wf_execPersonalitySwitch h _ _
  | quiesceNotice group => exact wf_execQuiesceNotice h _
  | switchDrainEnd group => exact wf_execSwitchDrainEnd h _
  | switchDrainBound group applied => exact wf_execSwitchDrainBound h _ _
  | switchRetrainDone group trained => exact wf_execSwitchRetrainDone h _ _
  | switchExchangeDone group result => exact wf_execSwitchExchangeDone h _ _
  | lossOfLight group applied => exact wf_execLossOfLight h _ _
  | peerLeftPod package => exact wf_execPeerLeftPod h _
  | peerRequest request => exact wf_execPeerRequest h _
  | cxlTimeout op => exact wf_execCxlTimeout h _
  | fabricAckTimeout op => exact wf_execFabricAckTimeout h _
  | keyRotation group => exact wf_execKeyRotation h _
  | linkRecoveryResolved thread => exact wf_execLinkRecoveryResolved h _
  | linkRecoveryTimeout thread => exact wf_execLinkRecoveryTimeout h _
  | linkFlitError link lane exhausted => exact wf_execLinkFlitError h _ _ _
  | curtainSignal ctx engine unit => exact wf_execCurtainSignal h _ _ _
  | curtainSkidDeadline ctx => exact wf_execCurtainSkidDeadline h _
  | curtainDone ctx => exact wf_execCurtainDone h _
  | watchdogExpiry owner => exact wf_execWatchdogExpiry h _
  | ctxpgdoneGranule ctx granule => exact wf_execCtxpgdoneGranule h _ _
  | ctxpgdoneAll ctx => exact wf_execCtxpgdoneAll h _
  | ctxdbgRd ctx coord => exact wf_execCtxdbgRd h _ _
  | ctxdbgWr ctx coord => exact wf_execCtxdbgWr h _ _
  | ctxdbgRes ctx coord => exact wf_execCtxdbgRes h _ _
  | ctxfrpRead ctx => exact wf_execCtxfrpRead h _
  | relrpRead => exact wf_execRelrpRead h
  | egstatRead group => exact wf_execEgstatRead h _
  | scrub cluster sector ecc => exact wf_execScrub h _ _ _
  | repcmdRepair value => exact wf_execRepcmdRepair h _
  | repairDone kind unit => exact wf_execRepairDone h _ _
  | boot found => exact wf_execBoot s _
  | firmwareUpdate image => exact wf_execFirmwareUpdate h _
  | recoveryLoad image => exact wf_execRecoveryLoad h _
  | attestationRequest value => exact wf_execAttestationRequest h _
  | attestationReportDone stored => exact wf_execAttestationReportDone h _
  | powerWindow measured hot => exact wf_execPowerWindow h _ _
  | pwrctlWrite value => exact wf_execPwrctlWrite h _
  | registerWrite reg index value => exact wf_execRegisterWrite h _ _ _
  | instructionFault cluster slot => exact wf_execInstructionFault h _ _
  | spawnAcknowledgement cluster message => exact wf_execSpawnAcknowledgement h _ _
  | hostCompletionTimeout op => exact wf_execHostCompletionTimeout h _
  | fabricUnreachableTimeout act => exact wf_execFabricUnreachableTimeout h _
  | powerLoss => exact wf_execPowerLoss s
  | _ => cases rule

end Sys2Proof.Machine
end

section
/-! The canonical form of memory: what Sys2Proof/Machine/Storage.lean defines. -/

namespace Sys2Proof.Machine

@[simp] theorem freeClock_mem (s : State) : s.freeClock.2.mem = s.mem := rfl

@[simp] theorem lose_mem (s : State) (e tok) : (s.lose e tok).mem = s.mem := by
  unfold State.lose
  dsimp only
  (repeat' split) <;> simp

@[simp] theorem lostOrigin_mem (s : State) (e) : (s.lostOrigin e).2.mem = s.mem := by
  unfold State.lostOrigin
  split <;> rfl

@[simp] theorem wf_decay {s : State} (h : Memory.wf s.mem = true) (e lost) : ResWf (s.decay e lost) := by
  unfold State.decay
  dsimp only
  (repeat' split) <;> simp [h]

end Sys2Proof.Machine
end

section
/-! The canonical form of memory: what Sys2Proof/Machine/Issue.lean defines. -/

namespace Sys2Proof.Machine

open Sys2Proof.Safety

@[simp] theorem wf_execLate {s : State} (h : Memory.wf s.mem = true) (l) : ResWf (execLate l s) := by
  unfold execLate
  split <;> simp [h]

@[simp] theorem wf_execDecoded {s : State} (h : Memory.wf s.mem = true) (d) : ResWf (execDecoded d s) := by
  rw [execDecoded_eq]
  exact wf_exec h _

@[simp] theorem wf_issueAt {s : State} (h : Memory.wf s.mem = true) (f) : ResWf (s.issueAt f) := by
  unfold State.issueAt
  split
  · exact wf_execDecoded h _
  · simp [h]
  · simp [h]

@[simp] theorem wf_issueNow {s : State} (h : Memory.wf s.mem = true) (k) : ResWf (s.issueNow k) := by
  unfold State.issueNow
  split
  · exact resWf_refused _
  · split
    · simp [h]
    · exact wf_issueAt h _

@[simp] theorem wf_beginIssue {s : State} (h : Memory.wf s.mem = true) (k upset) : Memory.wf (s.beginIssue k upset).mem = true := by
  unfold State.beginIssue
  dsimp only
  (repeat' split) <;> simp [h]

@[simp] theorem noteIssue_mem (s : State) (cluster t) : (s.noteIssue cluster t).mem = s.mem := by
  unfold State.noteIssue
  dsimp only
  (repeat' split) <;> simp

@[simp] theorem wf_issueSlot {s : State} (h : Memory.wf s.mem = true) (k upset) : ResWf (s.issueSlot k upset) := by
  unfold State.issueSlot
  have begun := wf_beginIssue h k upset
  have now := wf_issueNow begun k
  refine resWf_ite (resWf_refused _) ?_
  dsimp only
  split
  · next issued _ =>
    rw [issued, resWf_next] at now
    rw [resWf_next]
    split
    · exact wf_of_mem (noteIssue_mem _ _ _) now
    · exact now
  · exact now

@[simp] theorem numberReplies_mem (s : State) : s.numberReplies.mem = s.mem := by
  simp [State.numberReplies, mem_ite]

@[simp] theorem wf_settleEnd {s : State} (h : Memory.wf s.mem = true) : Memory.wf s.settleEnd.mem = true := by
  unfold State.settleEnd
  simp [h]

theorem wf_settleStep {r : Res} (h : ResWf r) : ResWf (settleStep r) := by
  cases r with
  | next s => exact (resWf_next _).mpr (wf_settleEnd (h s rfl))
  | refused e => exact resWf_refused e
  | fault e => exact resWf_fault e

@[simp] theorem wf_move {s : State} (h : Memory.wf s.mem = true) (m) : ResWf (s.move m) := by
  unfold State.move
  refine wf_settleStep ?_
  split
  · exact resWf_ite (resWf_fault _) (resWf_ite (resWf_refused _) (wf_issueSlot h _ _))
  · exact wf_exec (by exact h) _
  · exact resWf_ite (resWf_fault _) (resWf_ite (resWf_refused _) (wf_execAccessIssue (by exact h) _))
  · exact resWf_ite (resWf_fault _) (resWf_ite (resWf_refused _) (wf_exec (by exact h) _))
  · exact resWf_ite (wf_decay h _ _) (resWf_fault _)
  · exact resWf_ite ((resWf_next _).mpr h) (resWf_fault _)

end Sys2Proof.Machine
end

section
/-! The canonical form of memory: what Sys2Proof/Machine/Policy.lean defines. -/

namespace Sys2Proof.Machine

/-- The steps of a list that keep the form. -/
def AllWf (l : List (State → Res)) : Prop := ∀ f ∈ l, ∀ s : State, Memory.wf s.mem = true → ResWf (f s)

theorem allWf_opSteps (k : Nat) : AllWf (opSteps k) := by
  intro f mem s h
  simp only [opSteps, List.mem_cons, List.not_mem_nil, or_false] at mem
  rcases mem with rfl | rfl | rfl | rfl | rfl | rfl | rfl | rfl | rfl | rfl | rfl | rfl | rfl <;> simp [h]

theorem allWf_threadSteps (k : Nat) : AllWf (threadSteps k) := by
  intro f mem s h
  simp only [threadSteps, List.mem_cons, List.not_mem_nil, or_false] at mem
  rcases mem with rfl | rfl | rfl | rfl | rfl | rfl | rfl | rfl | rfl | rfl | rfl | rfl <;> simp [h]

theorem AllWf.append {l m : List (State → Res)} (hl : AllWf l) (hm : AllWf m) : AllWf (l ++ m) := fun f mem =>
  (List.mem_append.mp mem).elim (hl f) (hm f)

theorem AllWf.flatMap {α : Type} {l : List α} {g : α → List (State → Res)} (hg : ∀ x, AllWf (g x)) : AllWf (l.flatMap g) := fun _ mem =>
  have ⟨x, _, inside⟩ := List.mem_flatMap.mp mem
  hg x _ inside

theorem AllWf.map {α : Type} {l : List α} {g : α → State → Res} (hg : ∀ x (s : State), Memory.wf s.mem = true → ResWf (g x s)) :
    AllWf (l.map g) := fun _ mem =>
  have ⟨x, _, same⟩ := List.mem_map.mp mem
  same ▸ hg x

theorem allWf_nil : AllWf [] := fun _ mem => absurd mem List.not_mem_nil

theorem AllWf.cons {f : State → Res} {l : List (State → Res)} (hf : ∀ s : State, Memory.wf s.mem = true → ResWf (f s)) (hl : AllWf l) :
    AllWf (f :: l) := fun g mem => by
  obtain rfl | inside := List.mem_cons.mp mem
  · exact hf
  · exact hl g inside

theorem allWf_groupSteps (g : Nat) (gr : Group) : AllWf (groupSteps g gr) := by
  unfold groupSteps
  refine .append (.cons (fun s h => by simp [h]) (.cons (fun s h => by simp [h]) (.cons (fun s h => by simp [h])
    (.cons (fun s h => by simp [h]) allWf_nil)))) ?_
  split
  · exact .flatMap fun x => .map fun r s h => by simp [h]
  · exact allWf_nil

theorem allWf_copySteps (e : Nat) (c : CopyCmd) : AllWf (copySteps e c) := by
  unfold copySteps
  refine .append (.cons (fun s h => by simp [h]) (.cons (fun s h => by simp [h]) (.cons (fun s h => by simp [h]) allWf_nil))) ?_
  split
  · exact .map fun p s h => by simp [h]
  · exact allWf_nil

theorem allWf_clusterSteps (s : State) (c : Nat) : AllWf (clusterSteps s c) := by
  unfold clusterSteps
  refine .append (.append (.flatMap fun i => ?_) (.flatMap fun m => ?_)) ?_
  · exact .cons (fun s h => by simp [h]) (.cons (fun s h => by simp [h]) allWf_nil)
  · exact .cons (fun s h => by simp [h]) (.cons (fun s h => by simp [h]) (.cons (fun s h => by simp [h])
      (.cons (fun s h => by simp [h]) (.cons (fun s h => by simp [h]) allWf_nil))))
  · exact .cons (fun s h => by simp [h]) (.cons (fun s h => by simp [h]) allWf_nil)

theorem allWf_ready (s : State) : AllWf s.ready := by
  unfold State.ready
  refine .append (.append (.append (.append (.append (.append (.append (.append (.append (.flatMap fun x => ?_) ?_) ?_) ?_) ?_) ?_) ?_) ?_) ?_) ?_
  · refine .append (allWf_opSteps _) ?_
    split
    · exact .map fun c s h => by simp [h]
    · exact allWf_nil
  · exact .flatMap fun x => allWf_threadSteps _
  · exact .flatMap fun x => allWf_groupSteps _ _
  · exact .flatMap fun x => .flatMap fun c => allWf_copySteps _ _
  · exact .flatMap fun x => .map fun w s h => by simp [h]
  · exact .flatMap fun c => allWf_clusterSteps _ _
  · exact .map fun x s h => by simp [h]
  · exact .map fun x s h => by simp [h]
  · exact .flatMap fun x => .cons (fun s h => by simp [h]) (.cons (fun s h => by simp [h]) (.cons (fun s h => by simp [h]) allWf_nil))
  · exact .map fun x s h => by simp [h]

theorem allWf_periodic (s : State) : AllWf s.periodic := by
  unfold State.periodic
  refine .append (.append (.append (.append (.append ?_ ?_) (.flatMap fun r => ?_)) ?_) ?_) ?_
  · exact .map fun x s h => by simp [h]
  · exact .map fun x s h => by simp [h]
  · exact .cons (fun s h => by simp [h]) (.cons (fun s h => by simp [h]) allWf_nil)
  · exact .map fun x s h => by simp [h]
  · exact .map fun x s h => by simp [h]
  · exact .map fun x s h => by simp [h]

theorem wf_firstNext {s : State} (h : Memory.wf s.mem = true) {l : List (State → Res)} (hl : AllWf l) {u : State}
    (e : firstNext s l = some u) : Memory.wf u.mem = true := by
  induction l with
  | nil => cases e
  | cons f r ih =>
    have first := hl f List.mem_cons_self s h
    unfold firstNext at e
    split at e
    · next made =>
      cases e
      exact wf_settleEnd (first _ made)
    · exact ih (fun g mem => hl g (List.mem_cons_of_mem f mem)) e

theorem wf_tryAll {s : State} (h : Memory.wf s.mem = true) {l : List (State → Res)} (hl : AllWf l) : Memory.wf (tryAll s l).mem = true := by
  refine List.foldlRecOn (motive := fun s : State => Memory.wf s.mem = true) _ _ h fun s h f mem => ?_
  have made := hl f mem s h
  split
  · next same => exact wf_settleEnd (made _ same)
  · exact h

theorem wf_auto {s : State} (h : Memory.wf s.mem = true) : ResWf s.auto := by
  unfold State.auto
  refine resWf_ite (resWf_fault _) (resWf_ite ?_ ?_)
  · exact (resWf_next _).mpr (wf_tryAll (wf_pass (by exact h) _) (allWf_periodic _))
  · split
    · next made => exact (resWf_next _).mpr (wf_firstNext (by exact h) (allWf_ready _) made)
    · split
      · next made => exact (resWf_next _).mpr (wf_firstNext (by exact h) (.map fun k s h => wf_issueSlot h _ _) made)
      · exact (resWf_next _).mpr (wf_pass (by exact h) _)

end Sys2Proof.Machine
end

section
/-! The canonical form of memory: what Sys2Proof/Machine/Step.lean defines. -/

namespace Sys2Proof.Machine

theorem wf_step {s : State} (h : Memory.wf s.mem = true) : ResWf (step s) := by
  unfold step
  split
  · exact wf_move (wf_pass (by exact h) _) _
  · exact wf_auto h

end Sys2Proof.Machine
end

section

namespace Sys2Proof.Machine

open Sys2Proof.Safety

/-- Settles O7: a step is the move at the head of the agenda, or a step of the model's own order; every write of memory in them goes through
`State.putBytes`, `State.fillFrame` or a reset, which keep the canonical form. -/
theorem stepKeepsMemoryCanonical : Obligations.StepKeepsMemoryCanonical :=
  fun _ t canonical stepped => wf_step canonical t stepped

end Sys2Proof.Machine
end
